-- ==== Sys2Proof/Word.lean ====
section
/-! DEFINITION. The word types of the device: byte, 18-bit word (00_scope.md, Words and word slots), 54-bit event
information, 64-byte line. -/

namespace Sys2Proof

/-- One byte of main memory. -/
abbrev Byte := BitVec 8
/-- The native word: two data bytes in 15:0 and one poison mark per byte in 17:16. -/
abbrev Word := BitVec 18
/-- A pair of words. -/
abbrev Pair := BitVec 36
/-- A 64-byte line, byte 0 in the low bits. -/
abbrev Line := BitVec 512
/-- One bit per byte of a line. -/
abbrev Mask := BitVec 64
/-- W1-W3 of an event record (R344), and an address register or trap value (R239, R240). -/
abbrev Info := BitVec 54

end Sys2Proof
end

