-- ==== Sys2Proof/Syntax.lean ====
section
/-! DEFINITION. The commands of the block: one constructor of `Instr` per row of spec/opcode_table.json, with the
operands the rules give the row. What a wire, an array or a check outside the machine decides (an error of a code, the
outcome of a signature check, a training result) is an operand. -/

namespace Sys2Proof

/-- What the check of a stored code finds when it is read (R355): nothing, a correctable error at a bit, or an
uncorrectable one. -/
inductive Ecc where
  | ok
  | ce (bit : BitVec 10)
  | ue
  deriving DecidableEq, Repr

/-- MetaValue of a CXL.mem request or response (R163). -/
inductive Meta where
  | a | s | i
  deriving DecidableEq, Repr

/-- MetaField and MetaValue of a request: No-Op, or MetaState with a value. -/
inductive MetaReq where
  | noOp
  | state (m : Meta)
  deriving DecidableEq, Repr

/-- A master-to-subordinate request on a port: the LD it names, its host physical address, its tag, and what the
check of the LAB entry it reads finds (R72). -/
structure M2S where
  port : Fin 8
  ld : Fin 16
  hpa : Nat
  tag : BitVec 16
  lab : Ecc
  deriving DecidableEq, Repr

/-- Who makes a register access, a routine call or a management request (R434 ORIGIN, R485). -/
inductive Origin where
  | host (port : Fin 8) (ld : Fin 16)
  | engine (e : Fin 24)
  | mgmt
  | q0
  deriving DecidableEq, Repr

/-- What surrounds one engine instruction: the engine, and what the checks of the fetched word, of the first word of space 2,
of the quad LAB entry and of the memory-view cache line it reads find (R355); what the check of its extension word finds
(R277); the word fetched where that is no encoding of R249-R258 (none: the row's own encoding); and what the checks of the
further words of space 2 it reads find, in their order (none listed: good, R267). -/
structure Env where
  e : Fin 24
  fetch : Ecc
  local_ : Ecc
  lab : Ecc
  mview : Ecc
  ext : Ecc := .ok
  raw : Option Word := none
  further : List Ecc := []
  deriving DecidableEq, Repr

/-- What the checks of the words of space 2 find that an instruction reads, in their order. -/
def Env.checks (x : Env) : List Ecc := x.local_ :: x.further

/-- Immediate of the I format: imm7, and the extension word where X = 1 (R249). -/
structure ImmI where
  imm7 : BitVec 7
  ext : Option Word
  deriving DecidableEq, Repr

/-- Offset of the M format: off4, and the extension word where X = 1 (R249). -/
structure OffM where
  off4 : BitVec 4
  ext : Option Word
  deriving DecidableEq, Repr

/-- Immediate of AADDI: imm8 signed, and the extension word where X = 1. -/
structure ImmA where
  imm8 : BitVec 8
  ext : Option Word
  deriving DecidableEq, Repr

/-- Immediate of ALI: imm6 unsigned, and the extension word where X = 1. -/
structure ImmL where
  imm6 : BitVec 6
  ext : Option Word
  deriving DecidableEq, Repr

/-- Memory population: density code and rank bit of MEM_CFG (R212, R236). -/
structure Population where
  density : BitVec 2
  ranks : Bool
  deriving DecidableEq, Repr

/-- What a package gives one port (R491): width and rate limit codes, LDs, disabled. -/
structure PortCfg where
  maxWidth : BitVec 2
  maxRate : BitVec 2
  lds : BitVec 5
  disabled : Bool
  deriving DecidableEq, Repr

/-- The contents of an installation package that bind the device (R425, R439): its length in bytes; `fieldsOk` is the digest and
field-range part of check 3. -/
structure Package where
  length : Nat := 4096
  generation : BitVec 18
  digest : BitVec 512
  fieldsOk : Bool
  tiles : BitVec 8
  population : Population
  rate : BitVec 3
  ports : List PortCfg
  tableBase : BitVec 24
  tableSize : BitVec 24
  rmapBase : BitVec 24
  handlers : List (BitVec 32)
  serve : List (BitVec 32)
  routes : List (Nat × BitVec 20)
  flipAllowed : Bool
  /-- static capacity of each LD, by 16 * port + LD (R51) -/
  statics : List (BitVec 64) := []
  deriving DecidableEq, Repr

/-- A firmware image as its header gives it (R442): its length in bytes first. -/
structure FwImage where
  length : Nat := 4096
  version : BitVec 32
  svn : BitVec 7
  authoritySigned : Bool
  digest : BitVec 512
  deriving DecidableEq, Repr

/-- A failing entry of a tile self-test (R391). -/
structure BistEntry where
  bank : BitVec 6
  row : BitVec 14
  column : BitVec 5
  bit : BitVec 7
  kind : BitVec 2
  deriving DecidableEq, Repr

/-- Cause of a link drop (R56), as LINK_DOWN codes it. -/
inductive DropCause where
  | lossOfLock | hotReset | linkDisable | perst | surprise | refclk | powerOff
  deriving DecidableEq, Repr

/-- Stores of ordering state a home-queue issue reads, in the order R420 numbers them; the park slots, 4, are a port's. -/
inductive OrderStore where
  | homeQueue | missRegister | recallRegister | resignationTable
  deriving DecidableEq, Repr

/-- What the arrays show when a lookup reads them: the way and the state of its code, for the two halves of a tag entry
(R145), for a directory entry (R179, R180), the way whose BUSY and AGE fail their check bits (R160), the side-buffer entry
of the line and an entry of ordering state whose error cannot be corrected (R355). -/
structure LookupErr where
  tag : Option (Fin 16 × Ecc × Ecc)
  dir : Option (Fin 16 × Ecc)
  aux : Option (Fin 16) := none
  side : Ecc := .ok
  order : Option (OrderStore × BitVec 8) := none
  deriving DecidableEq, Repr

/-- An error a lookup or background read of a patrol finds (R371): in a tag entry, in a directory entry, in a sub-block. -/
inductive PatrolErr where
  | tag (s : Fin 16) (cset : BitVec 13) (way : Fin 16) (a b : Ecc)
  | dir (s : Fin 16) (dset : BitVec 15) (way : Fin 16) (e : Ecc)
  | tile (s : Fin 16) (cset : BitVec 13) (way : Fin 16) (sub : Fin 8) (e : Ecc)
  deriving DecidableEq, Repr

/-- A routine call as an engine runs it: the engine, and the body words of a management client's call. A call from a
queue has the body of the packet its engine popped (R302, R334). -/
structure CallCtx where
  e : Fin 24
  words : List Word
  deriving DecidableEq, Repr

/-- A mailbox command: the LD whose mailbox carries it. -/
structure Mbx where
  port : Fin 8
  ld : Fin 16
  deriving DecidableEq, Repr

/-- Where an SPDM request comes from (R50): a DOE mailbox or MCTP. -/
inductive SpdmSrc where
  | doe (port : Fin 8)
  | mctp
  deriving DecidableEq, Repr

/-- An ECDSA signature as it is sent (R429), r and s. What a check of it finds is whose it is and what it signs: the digest of the
key of the pair it was made with, and the digest it was made over (log entry 137). -/
structure Signature where
  r : BitVec 528
  s : BitVec 528
  key : BitVec 512
  signed : BitVec 512
  deriving DecidableEq, Repr

/-- What a signed request (R430) presents beside its parameters: nonce handle and bytes, and its signature. -/
structure Signed where
  handle : BitVec 2
  nonce : BitVec 256
  sig : Signature
  deriving DecidableEq, Repr

/-- How a tile march test ended (R392, R393). -/
structure BistOutcome where
  complete : Bool
  overflow : Bool
  sigMatch : Bool
  signature : BitVec 64
  fails : List BistEntry
  deriving DecidableEq, Repr

/-- An extent of a Dynamic Capacity response or release: base view address and length in pages of 64 KiB. -/
structure Extent where
  base : Nat
  pages : Nat
  deriving DecidableEq, Repr

/-- A CXL protocol error a port receives or detects (R56): the LD it belongs to, its bit in the status register of the
RAS capability, and whether it is correctable. -/
structure ProtoErr where
  ld : Option (Fin 16)
  bit : BitVec 5
  correctable : Bool
  deriving DecidableEq, Repr

/-- What a management client asks of a channel (R400): DQ/DQS retraining, ZQ calibration, full training. -/
inductive TrainKind where
  | dq | zq | full
  deriving DecidableEq, Repr

/-- The commands. Each constructor's docstring names the rule its meaning follows. -/
inductive Instr where
  -- reset and start-up
  | devRstNAssert
  | devRstNRelease (straps : BitVec 4)
  | supplyLoss
  | glbFullReset (o : Origin) (value : BitVec 32)
  | managementResetRequest
  | fullResetDrainEnd (clean : Bool)
  | startBegin
  | fuseLoadDone (bad : Option (BitVec 4))
  | fwVerifyDone (slot : Bool) (ok : Bool)
  | mctpFwImageDeliver (img : FwImage) (sigOk : Bool)
  | packageCheckDone (sigOk : Bool)
  | hubSelfTestDone (ports : BitVec 8) (quads : BitVec 5) (core : Bool) (mc : Bool)
  | memoryTrainingDone (c : Fin 32) (full : Bool) (rate : Option (BitVec 3)) (pop : Population)
  | tileSelfTestDone (t : Fin 8) (r : BistOutcome)
  | startFinalSteps
  -- ports and links
  | perstNAssert (p : Fin 8)
  | perstNRelease (p : Fin 8)
  | linkUp (p : Fin 8) (width : BitVec 2) (rate : BitVec 2) (flit256 : Bool) (lopt : Bool)
  | linkDrop (p : Fin 8) (cause : DropCause)
  | linkReplay (p : Fin 8) (err : Option ProtoErr)
  | replayThreshold (p : Fin 8) (count : BitVec 16)
  | refclkLoss (p : Fin 8)
  | refclkRestore (p : Fin 8)
  | xinLoss
  | pllUnlock (island : Fin 29)
  | pllRelock (island : Fin 29)
  | hdmDecoderCommit (p : Fin 8) (ld : Fin 16) (base : Nat) (size : Nat)
  | memEnableSet (p : Fin 8) (ld : Fin 16)
  | hdmDecoderUncommit (p : Fin 8) (ld : Fin 16)
  | memEnableClear (p : Fin 8) (ld : Fin 16)
  -- CXL.mem
  | memRd (h : M2S) (m : MetaReq)
  | memRdData (h : M2S)
  | memInv (h : M2S) (m : MetaReq)
  | memInvNt (h : M2S) (m : MetaReq)
  | memClnEvct (h : M2S)
  | memWr (h : M2S) (m : MetaReq) (data : Line) (poison : Bool)
  | memWrPtl (h : M2S) (m : MetaReq) (data : Line) (mask : Mask) (poison : Bool)
  | memSpecRd (h : M2S)
  | biConflict (h : M2S)
  | birspI (p : Fin 8) (ld : Fin 16) (hpa : Nat)
  | birspS (p : Fin 8) (ld : Fin 16) (hpa : Nat)
  -- slices, directory, resignation
  | homeQueueArrival (s : Fin 16) (ids : List Nat)
  | homeQueueIssue (s : Fin 16) (err : LookupErr)
  | dirRetry (s : Fin 16) (id : Nat) (err : Option (Fin 16 × Ecc))
  | dirGuardEngage (s : Fin 16) (id : Nat)
  | reverseEntryReturn (p : Fin 8) (frame : BitVec 24)
  | engineRecall (e : Fin 24) (line : Nat)
  | bisnpTimeout (p : Fin 8) (agent : BitVec 12) (line : Nat)
  | resignationPoint (agent : BitVec 12)
  | sweepPassStart
  | sweepPassEnd
  | setFlushCandidate (s : Fin 16)
  -- sector cache and tiles
  | tileAccessReturn (id : Nat) (err : Ecc)
  | tileNoAnswer (t : Fin 8)
  | tileWalkEnd (t : Fin 8)
  | bankWalkEnd (t : Fin 8) (bank : BitVec 6)
  | fillReturn (id : Nat)
  -- memory path
  | mcReadArrival (id : Nat) (err chk : Ecc)
  | writeBufferAccept (id : Nat)
  | writeAcceptanceAck (id : Nat)
  | channelReadReturn (id : Nat) (symbols : Nat) (wrongAddr : Bool)
  | wbAgeExpiry (m : Fin 4) (line : Nat)
  | wbBatchStart (c : Fin 32) (dataUe : List Nat) (addrUe : Option (BitVec 8))
  | rmwMergeReadReturn (m : Fin 4) (line symbols : Nat) (wrongAddr : Bool) (chk : Ecc)
  | channelWriteTaken (m : Fin 4) (line : Nat) (err : Ecc) (addrUe : Bool)
  | perBankRefresh (c : Fin 32) (bank : BitVec 4)
  | zqCalibrationLatch (c : Fin 32)
  | dqsOscillatorRead (c : Fin 32) (drift : BitVec 7)
  | writeDqRetraining (c : Fin 32) (ok : Bool)
  | mr4Read (c : Fin 32) (code : BitVec 3) (hot : Bool)
  | readTimeout (id : Nat)
  | channelFailed (c : Fin 32) (timeouts : Bool)
  | memoryMoverLine (m : Fin 3) (ch : Fin 24) (staging : Ecc)
  | sweepMoverRead (ch : Fin 24) (staging : Ecc)
  | patrolTimer
  | patrolPassEnd (errs : List PatrolErr)
  -- translation
  | parkSlotTimeout (p : Fin 8) (slot : Fin 32)
  | labwAtLab (e : Fin 24) (slot : Ecc)
  | labiTakeEffect (e : Fin 24) (id : Nat)
  | labsyncDone (e : Fin 24)
  -- engine instructions (R250)
  | alu (x : Env) (fn : Fin 16) (d s : Fin 16)
  | alup (x : Env) (fn : Fin 16) (d s : Fin 16)
  | li (x : Env) (d : Fin 16) (i : ImmI)
  | addi (x : Env) (d : Fin 16) (i : ImmI)
  | andi (x : Env) (d : Fin 16) (i : ImmI)
  | ori (x : Env) (d : Fin 16) (i : ImmI)
  | xori (x : Env) (d : Fin 16) (i : ImmI)
  | cmpi (x : Env) (d : Fin 16) (i : ImmI)
  | shi (x : Env) (d : Fin 16) (i : ImmI)
  | lip (x : Env) (d : Fin 16) (i : ImmI)
  | addip (x : Env) (d : Fin 16) (i : ImmI)
  | cmpip (x : Env) (d : Fin 16) (i : ImmI)
  | ship (x : Env) (d : Fin 16) (i : ImmI)
  | ldw (x : Env) (g : Fin 16) (a : Fin 8) (o : OffM)
  | ldp (x : Env) (g : Fin 16) (a : Fin 8) (o : OffM)
  | stw (x : Env) (g : Fin 16) (a : Fin 8) (o : OffM)
  | stp (x : Env) (g : Fin 16) (a : Fin 8) (o : OffM)
  | ldwu (x : Env) (g : Fin 16) (a : Fin 8) (o : OffM)
  | ldpu (x : Env) (g : Fin 16) (a : Fin 8) (o : OffM)
  | stwu (x : Env) (g : Fin 16) (a : Fin 8) (o : OffM)
  | stpu (x : Env) (g : Fin 16) (a : Fin 8) (o : OffM)
  | stwnt (x : Env) (g : Fin 16) (a : Fin 8) (o : OffM)
  | stpnt (x : Env) (g : Fin 16) (a : Fin 8) (o : OffM)
  | lrp (x : Env) (g : Fin 16) (a : Fin 8) (o : OffM)
  | scp (x : Env) (g : Fin 16) (a : Fin 8) (o : OffM)
  | aput (x : Env) (a : Fin 8) (g : Fin 16)
  | aget (x : Env) (g : Fin 16) (a : Fin 8)
  | amov (x : Env) (a m : Fin 8)
  | aaddw (x : Env) (a : Fin 8) (g : Fin 16)
  | aaddp (x : Env) (a : Fin 8) (g : Fin 16)
  | acmp (x : Env) (a m : Fin 8)
  | aspc (x : Env) (a : Fin 8) (n : BitVec 2)
  | afrm (x : Env) (a : Fin 8) (g : Fin 16)
  | atbl (x : Env) (a : Fin 8) (g : Fin 16)
  | aaddi (x : Env) (a : Fin 8) (i : ImmA)
  | ali (x : Env) (a : Fin 8) (space : BitVec 2) (i : ImmL)
  | br (x : Env) (cond : Fin 16) (off : BitVec 8)
  | jc (x : Env) (cond : Fin 16) (off : BitVec 8) (ext : Word)
  | call (x : Env) (ext : Word)
  | jr (x : Env) (g : Fin 16)
  | djnz (x : Env) (g : Fin 16) (off : BitVec 8)
  | mfs (x : Env) (g : Fin 16) (n : BitVec 8)
  | mts (x : Env) (n : BitVec 8) (g : Fin 16)
  | sysNop (x : Env) (arg : BitVec 6)
  | fence (x : Env) (arg : BitVec 6)
  | sysTrap (x : Env) (arg : BitVec 6)
  | bkpt (x : Env) (arg : BitVec 6)
  | rtt (x : Env) (arg : BitVec 6)
  | halt (x : Env)
  | stop (x : Env)
  | labsync (x : Env) (arg : BitVec 6)
  | ewait (x : Env) (arg : BitVec 6)
  | signal (x : Env) (arg : BitVec 6)
  | labw (x : Env) (a : Fin 8)
  | labi (x : Env) (form : BitVec 2) (a : Fin 8)
  | cmo (x : Env) (kind : BitVec 2) (sw : Bool) (a : Fin 8) (coh unlock : Bool) (g : Fin 16)
  | zero (x : Env) (a : Fin 8)
  | qpop (x : Env) (nb : Bool) (a : Fin 8) (g : Fin 16)
  | qpush (x : Env) (a : Fin 8) (g : Fin 16)
  | ifill (x : Env) (a : Fin 8) (g : Fin 16)
  -- engine buffers and waits
  | storeBufferIssue (e : Fin 24) (parityOk : Bool)
  | engineStoreComplete (e : Fin 24) (id : Nat)
  | storeTargetTimeout (e : Fin 24) (id : Nat)
  | engineLoadReturn (e : Fin 24)
  | engineLoadTimeout (e : Fin 24)
  | ntCombineIdleDrain (e : Fin 24) (line : Nat)
  | reservationExpiry (e : Fin 24)
  | ewaitLimit (e : Fin 24)
  | wakeRecordArrival (e : Fin 24) (parityOk : Bool)
  | budgetExhausted (e : Fin 24)
  | engineStart (e : Fin 24) (pc : BitVec 14)
  -- queues and events
  | queueOpen (o : Origin) (n : Fin 64) (value : BitVec 32)
  | queueOpenDone (n : Fin 64)
  | queueClose (o : Origin) (n : Fin 64) (value : BitVec 32)
  | commandSlotWrite (o : Origin) (n : Fin 64) (cell : BitVec 7) (slot : BitVec 6) (value : BitVec 32) (enables : BitVec 4)
      (parityOk : Bool) (ptrErr : Option (BitVec 2))
  | queCplHeadWrite (o : Origin) (n : Fin 64) (value : BitVec 32) (ptrErr : Option (BitVec 2))
  | evqHeadWrite (o : Origin) (q : Fin 9) (value : BitVec 32) (ptrErr : Option Bool)
  | moderationTimeout (isEvq : Bool) (n : Fin 64)
  | eventFabricTransfer (parityOk : Bool) (ptrErr : Option Bool)
  -- routines (R304)
  | invalAll (k : CallCtx)
  | cleanRange (k : CallCtx)
  | invalRange (k : CallCtx)
  | clinvRange (k : CallCtx)
  | maintSetway (k : CallCtx)
  | lockPreload (k : CallCtx)
  | sweep (k : CallCtx)
  | viewCreate (k : CallCtx)
  | viewDelete (k : CallCtx)
  | viewBind (k : CallCtx)
  | viewMap (k : CallCtx)
  | viewUnmap (k : CallCtx)
  | viewRemap (k : CallCtx)
  | resign (k : CallCtx)
  | tileOffline (k : CallCtx)
  | tileOnline (k : CallCtx)
  | tileRetire (k : CallCtx)
  | bankRetire (k : CallCtx)
  | park (k : CallCtx)
  | glbParkGo (o : Origin) (value : BitVec 32)
  | parkSetStep (s : Fin 16)
  | progLoad (k : CallCtx)
  | progRun (k : CallCtx)
  | progFree (k : CallCtx)
  | dcAdd (k : CallCtx)
  | dcRelease (k : CallCtx)
  | routineUnknown (k : CallCtx) (code : BitVec 8)
  | progSvcExit (e : Fin 24)
  | progSvcCmo (e : Fin 24)
  | progSvcLabi (e : Fin 24)
  | progSvcLabsync (e : Fin 24)
  -- component command mailbox (R51)
  | identifyMemoryDevice (b : Mbx)
  | getSupportedLogs (b : Mbx)
  | getLog (b : Mbx) (vendor : Bool)
  | getEventRecords (b : Mbx)
  | clearEventRecords (b : Mbx) (count : Nat)
  | getEventInterruptPolicy (b : Mbx)
  | setEventInterruptPolicy (b : Mbx) (policy : BitVec 64)
  | getHealthInfo (b : Mbx)
  | getPoisonList (b : Mbx) (start len : Nat)
  | injectPoison (b : Mbx) (va : Nat)
  | clearPoison (b : Mbx) (va : Nat) (data : Line)
  | getTimestamp (b : Mbx)
  | setTimestamp (b : Mbx) (t : BitVec 64)
  | getFwInfo (b : Mbx)
  | transferFw (b : Mbx) (img : FwImage)
  | activateFw (b : Mbx) (online : Bool)
  | fwCommitWriteDone
  | getDynamicCapacityConfiguration (b : Mbx)
  | getDynamicCapacityExtentList (b : Mbx)
  | addDynamicCapacityResponse (b : Mbx) (accepted : List Extent)
  | releaseDynamicCapacity (b : Mbx) (x : Extent)
  | packageDeliver (b : Option Mbx) (eid : BitVec 8) (lastPiece : Option (Package × Signed)) (pkgSigOk : Bool)
  | packageStatus (b : Option Mbx) (nonce : BitVec 256)
  | packageCommit (ok : Bool)
  | mailboxUnsupported (b : Mbx) (opcode : BitVec 16)
  | getLdInfo (p : Fin 8)
  | getLdAllocations (p : Fin 8)
  | setLdAllocations (p : Fin 8) (shares : List (BitVec 8))
  -- DOE and SPDM
  | doeDiscovery (p : Fin 8) (index : BitVec 8)
  | cdatRead (b : Mbx)
  | getVersion (f : SpdmSrc)
  | getCapabilities (f : SpdmSrc)
  | negotiateAlgorithms (f : SpdmSrc)
  | getDigests (f : SpdmSrc)
  | getCertificate (f : SpdmSrc) (slot : BitVec 4)
  | challenge (f : SpdmSrc) (slot : BitVec 4) (nonce : BitVec 256)
  | getMeasurements (f : SpdmSrc) (index : BitVec 8) (signed : Bool) (slot : BitVec 4)
  -- signed requests, journal, position
  | nonceRequest (nonce : BitVec 256)
  | nonceExpiry (handle : BitVec 2)
  | installerEnrol (q : Signed) (key : BitVec 512)
  | testArm (q : Signed)
  | fuseProgram (q : Signed) (bank : BitVec 4) (image : BitVec 512)
  | fuseRepair (q : Signed) (t : Fin 8) (entries : List BistEntry)
  | floorRaise (q : Signed) (floor : BitVec 7)
  | fwauthSet (q : Signed) (key : Option (BitVec 512))
  | retireClear (q : Signed) (t : Fin 8) (bank : BitVec 6) (whole : Bool)
  | signatureVerifyDone
  | durableEntryWritten (ok : Bool)
  | journalMirror (count : Nat) (ok : Bool)
  | glbResyncGo (o : Origin) (value : BitVec 32)
  | resyncSnapshotDone
  | tileTestRequest (t : Fin 8)
  -- registers of their own rows
  | slcCtrlWrite (o : Origin) (s : Fin 16) (value : BitVec 32)
  | labHstatusWrite (o : Origin) (p : Fin 8) (value : BitVec 32)
  | errLogFree (o : Origin) (value : BitVec 32)
  | errRlogAck (o : Origin) (value : BitVec 32)
  | errFlipArm (o : Origin) (value : BitVec 32)
  | lockFieldWrite (o : Origin) (err : Bool) (value : BitVec 32)
  -- power, counters, temperature, registers
  | powerOnRequest (o : Origin) (domain : BitVec 5)
  | powerOffRequest (o : Origin) (domain : BitVec 5)
  | powerRequestCheck
  | powerOffDone
  | powerOnDone
  | pmcClear (o : Origin) (b : Fin 28) (value : BitVec 32)
  | pmcGrunStart (o : Origin) (value : BitVec 32)
  | pmcGrunStop (o : Origin) (value : BitVec 32)
  | pmcOverflow (b : Fin 28)
  | thermalSample (readings : List (Option Int))
  | registerWrite (o : Origin) (off : BitVec 25) (value : BitVec 64) (size8 : Bool) (enables : BitVec 8)
  | registerAccessTimeout (o : Origin) (off : BitVec 25) (read : Bool)
  -- I3C and JTAG
  | entdaa (addr : BitVec 7)
  | setdasa (static : BitVec 7) (addr : BitVec 7)
  | rstdaa
  | getpid
  | getbcr
  | getdcr
  | getmwl
  | getmrl
  | getstatus
  | bypass
  | idcode
  | samplePreload (cells : BitVec 64)
  | extest
  | clamp
  | highz
  -- self-test and training requests
  | hubBistRequest
  | channelRetrainingRequest (c : Fin 32) (kind : TrainKind)
  | fwStageVerifyDone (ok : Bool)
  | spdmSignatureDone
  deriving DecidableEq, Repr

end Sys2Proof
end

