-- ==== Sys2Proof/Machine/Geometry.lean ====
section
/-! DEFINITION. Where a DPA lives: slice, sets, tags, channel, bank (R94, R95, R115), the usable limit and the place
in a channel (R214, R216), the LAB set (R69). -/

namespace Sys2Proof.Machine

/-- Xor of the `n`-bit chunks of `x`; `fuel` chunks suffice (R94). -/
def foldChunks (n : Nat) : Nat → Nat → Nat
  | 0, _ => 0
  | fuel + 1, x => if x = 0 then 0 else (x % 2 ^ n) ^^^ foldChunks n fuel (x / 2 ^ n)

/-- `fold(x, n)` of R94. -/
def fold (x n : Nat) : Nat := foldChunks n 64 x

/-- Sector address of a DPA. -/
def sa (dpa : Nat) : Nat := dpa / 512
/-- Sub-block number. -/
def subOf (dpa : Nat) : Nat := dpa / 64 % 8
/-- Sector index within the slice. -/
def kOf (dpa : Nat) : Nat := sa dpa / 16
/-- Home slice. -/
def sliceOf (dpa : Nat) : Nat := fold (sa dpa) 4
/-- Cache set. -/
def csetOf (dpa : Nat) : Nat := (kOf dpa % 8192) ^^^ (kOf dpa / 8192 % 8192)
/-- Cache tag. -/
def ctagOf (dpa : Nat) : Nat := kOf dpa / 8192
/-- Directory set. -/
def dsetOf (dpa : Nat) : Nat := ((kOf dpa % 4096) ^^^ (kOf dpa / 4096 % 4096)) * 8 + subOf dpa
/-- Directory tag. -/
def dtagOf (dpa : Nat) : Nat := kOf dpa / 4096
/-- Channel. -/
def chanOf (dpa : Nat) : Nat := fold (sa dpa) 5
/-- Memory controller. -/
def mcOf (dpa : Nat) : Nat := chanOf dpa / 8
/-- Channel-local sector number. -/
def csecOf (dpa : Nat) : Nat := sa dpa / 32

/-- DPA of the sector with index `k` in a slice (R95). -/
def dpaOfK (slice k : Nat) : Nat := (k * 16 + (slice ^^^ fold k 4)) * 512
/-- DPA of the line with a directory set and tag in a slice (R95, R180). -/
def dpaOfDir (slice dset dtag : Nat) : Nat :=
  dpaOfK slice (dtag * 4096 + ((dset / 8) ^^^ (dtag % 4096))) + dset % 8 * 64
/-- DPA of the sector with a cache set and tag in a slice. -/
def dpaOfTag (slice cset ctag : Nat) : Nat := dpaOfK slice (ctag * 8192 + (cset ^^^ (ctag % 8192)))
/-- DPA of a slice-local line index (R132). -/
def dpaOfIndex (slice l : Nat) : Nat := dpaOfK slice (l / 8) + l % 8 * 64
/-- Slice-local line index of a DPA. -/
def lineIndex (dpa : Nat) : Nat := kOf dpa * 8 + subOf dpa

/-- Tile of a way. -/
def tileOfWay (w : Nat) : Nat := w / 2
/-- Bank of a set's sector on its tile (R115). -/
def bankOf (slice cset : Nat) : Nat := 4 * slice + cset % 4
/-- Sector row in its bank. -/
def rowOf (cset way : Nat) : Nat := cset / 4 * 2 + way % 2

/-- Raw bytes of one channel, by density code. -/
def rawBytes (density : Nat) : Nat := 4 * 2 ^ density * 2 ^ 30
/-- Sectors of data per channel (R214). -/
def usableSectors (density : Nat) : Nat := 2048 * (rawBytes density / 1179648)
/-- The usable limit (R214). -/
def usableLimit (density : Nat) : Nat := usableSectors density * 16384

/-- Where a line and its check bytes lie in the channel (R216). -/
structure Place where
  bg : Nat
  ba : Nat
  row : Nat
  col : Nat
  cbg : Nat
  cba : Nat
  crow : Nat
  ccol : Nat
  /-- ranks of the two rows, and the first of the line's 8 check bytes in the check line -/
  rank : Nat
  crank : Nat
  cbyte : Nat
  deriving DecidableEq, Repr

/-- `place` of R216, in a channel of a density with one or two ranks: of two, the top bit of the row selects the rank. -/
def place (csec sub density : Nat) (two : Bool) : Place :=
  let u := usableSectors density
  let rankOf (row : Nat) : Nat := if two then row / (rawBytes density / 32768 / 2) else 0
  let bg := (csec % 4) ^^^ (csec / 4096 % 4)
  let ba := (csec / 4 % 4) ^^^ (csec / 16384 % 4)
  let m := csec / 16
  ⟨bg, ba, m / 4, m % 4 * 8 + sub, bg ^^^ 2, ba, u / 64 + m / 32, m % 32, rankOf (m / 4), rankOf (u / 64 + m / 32), 8 * sub⟩

/-- Shift of a LAB granule code. -/
def granShift (g : Nat) : Nat := if g = 0 then 16 else if g = 1 then 25 else 34

/-- `lab_set` of R69 on a page number, `bits` 9 for a port and 6 for a quad. -/
def labSet (view vpn bits : Nat) : Nat := fold vpn bits ^^^ fold view bits

/-- Number of ones of a bit vector. -/
def popcount {w : Nat} (x : BitVec w) : Nat := (List.range w).foldl (fun n i => if x.getLsbD i then n + 1 else n) 0

/-- Smallest index below `n` that satisfies `p`. -/
def firstIdx (p : Nat → Bool) (n : Nat) : Option Nat := (List.range n).find? p

end Sys2Proof.Machine
end

