-- ==== Sys2Proof/Config.lean ====
section
/-! DEFINITION. What an implementation fixes and what the spec leaves open. Free values are opaque: nothing can be
proved of them (log entry 6). -/

namespace Sys2Proof

/-- A byte of a line whose contents the spec leaves undefined (R219, R233), by the draw number and byte address. -/
opaque Config.freeByte : Nat → Nat → Byte
/-- A word the spec leaves undefined: a word of an engine memory never written (R272), by draw number. -/
opaque Config.freeWord : Nat → Word
/-- The poison marks aside, the 16 data bits a load returns where the spec gives none (R421), by draw number. -/
opaque Config.freeData : Nat → BitVec 16
/-- Ngadric's JEDEC manufacturer code in IDCODE[11:1] (R513): the spec gives no number. -/
opaque Config.jedecCode : BitVec 11
/-- What SAMPLE captures in the 64 boundary cells held (R513), by the pins whose levels the device holds and by draw number; and the
cell of an output pin: FAULT_N, ALERT_N, THERM_N. The spec gives no order of the cells (log entry 102). -/
opaque Config.boundary : Nat → Nat → BitVec 64
opaque Config.cellOf : Nat → Fin 64
/-- Provisioned ID, BCR, DCR, maximum write and read length and status the I3C target answers (R511): the spec names
the answers and gives no numbers. -/
opaque Config.i3cPid : BitVec 48
opaque Config.i3cBcr : BitVec 8
opaque Config.i3cDcr : BitVec 8
opaque Config.i3cMwl : BitVec 16
opaque Config.i3cMrl : BitVec 16
opaque Config.i3cStatus : BitVec 16
/-- SHA-512 of the maker public key, whose fused value the spec does not give (R425, R432). -/
opaque Config.makerKey : BitVec 512
/-- SHA-512 of the boot ROM image and of the device identity (R447). -/
opaque Config.romDigest : BitVec 512
/-- The identity seed the fuses hold (R384), by their contents; the identity key and the alias key the crypto unit derives from
it by HKDF and candidate testing (R445), whose inputs beside the seed and the digest of the running firmware the spec does not
give. Private keys stand for themselves as numbers (log entry 121). -/
opaque Config.identitySeed : Nat → Nat
opaque Config.identityKey : Nat → Nat
opaque Config.aliasKey : Nat → BitVec 512 → Nat
/-- SHA-512 of the device identity public key, by its private key (R429). -/
opaque Config.identityDigest : Nat → BitVec 512
/-- What fuse banks that FUSE_PROGRAM has written say beside the seed (R384), whose layout the spec does not give: the maker key's
digest, the rollback floor, and the spare rows and column groups of a tile's bank, by the banks' contents (log entry 138). -/
opaque Config.fusedMaker : Nat → BitVec 512
opaque Config.fusedFloor : Nat → Nat
opaque Config.fusedSpares : Nat → Nat → Nat → Nat × Nat
/-- A signature by a key over what a response says, by draw number; the chain of certificates of a slot and its digest, by the
identity key and the key the chain ends at (R446). -/
opaque Config.signature : Nat → Nat → Nat → Nat
opaque Config.certChain : Nat → Nat → Nat
opaque Config.certDigest : Nat → Nat → Nat
/-- A value that CXL, SPDM or MCTP define and for which the spec gives no number, by message
and field (log entry 20): 0x400 and 0x401 the logs of a mailbox, 7 and 8 the RAS status bit and the viral enable a host
leaves, 9 and 10 the versions in the headers of the component and device registers, 0xE7 the digest of the fuse banks. -/
opaque Config.wire : Nat → Nat → Nat
/-- A dword of an LD's CXL link capability (R494), whose fields CXL defines and whose values follow the link as trained: by dword,
width, rate, 256-byte flits and latency-optimized flits (log entry 22). -/
opaque Config.linkWord : Nat → BitVec 2 → BitVec 2 → Bool → Bool → BitVec 32

/-- Always-on cycles a port's function takes to be ready (R382 gives at most 1 s), by port and the time it began (log entry
132). -/
opaque Config.readyDelay : Nat → Nat → Nat
/-- Requests a port holds of one LD between its link and the slices beside the first, by the LD's share of its credits (R104, log
entry 84). -/
opaque Config.ingressSpace : Nat → Nat

/-- Dynamic Capacity regions of an LD beyond its first (R42 gives 1 to 8 and no way to set them), by port and LD, and
a region's base and length, by port, LD and region (log entry 49). -/
opaque Config.dcRegions : Nat → Nat → Nat
opaque Config.dcRegion : Nat → Nat → Nat → Nat × Nat

end Sys2Proof
end

