-- ==== Sys2Proof/Machine/Tab.lean ====
section
/-! DEFINITION. Sparse tables: lists of (key, value) with keys strictly rising. A key that is not listed reads as the
default the reader gives. -/

namespace Sys2Proof.Machine

/-- A sparse table. -/
abbrev Tab (α : Type) := List (Nat × α)

/-- The value listed at a key. -/
def Tab.find {α : Type} : Tab α → Nat → Option α
  | [], _ => none
  | (k, v) :: t, n => if n = k then some v else Tab.find t n

/-- The value at a key, `d` where none is listed. -/
def Tab.get {α : Type} (d : α) (t : Tab α) (n : Nat) : α := (Tab.find t n).getD d

/-- Sets a key; keys stay strictly rising. -/
def Tab.put {α : Type} : Tab α → Nat → α → Tab α
  | [], n, v => [(n, v)]
  | (k, w) :: t, n, v =>
    if n < k then (n, v) :: (k, w) :: t
    else if n = k then (n, v) :: t
    else (k, w) :: Tab.put t n v

/-- Removes a key. -/
def Tab.del {α : Type} : Tab α → Nat → Tab α
  | [], _ => []
  | (k, w) :: t, n => if n = k then t else (k, w) :: Tab.del t n

/-- Rewrites the value at a key. -/
def Tab.upd {α : Type} (d : α) (t : Tab α) (n : Nat) (f : α → α) : Tab α := Tab.put t n (f (Tab.get d t n))

/-- Keys strictly rising. -/
def Tab.wf {α : Type} : Tab α → Bool
  | [] => true
  | [_] => true
  | (k, _) :: (k', v') :: t => decide (k < k') && Tab.wf ((k', v') :: t)

/-- Adds one, holding at the largest `w`-bit value (the saturating counters). -/
def satInc (w : Nat) (n : Nat) : Nat := if n + 1 < 2 ^ w then n + 1 else 2 ^ w - 1

/-- Adds `k`, holding at the largest `w`-bit value. -/
def satAdd (w : Nat) (n k : Nat) : Nat := if n + k < 2 ^ w then n + k else 2 ^ w - 1

end Sys2Proof.Machine
end

