-- ==== Sys2Proof/Machine/Memory.lean ====
section
/-! DEFINITION. Main memory: the bytes below the usable limit, and per line whether its check bytes are its own or the
poison code (R219). A line with no code listed has undefined contents (R219, R233). -/

namespace Sys2Proof.Machine

/-- What the check bytes of a line say (R219). -/
inductive LineCode where
  | good | poisoned
  deriving DecidableEq, Repr

/-- Main memory: cells in rising address order with no repeats, and codes by line number (DPA >> 6). -/
structure Memory where
  cells : List Host.Cell
  codes : Tab LineCode
  deriving DecidableEq, Repr

/-- Memory whose contents are undefined everywhere (after a power-on or full training, R233). -/
def Memory.undefined : Memory := ⟨[], []⟩

/-- The byte at an address, if one has been written: an unlisted address has no value (log entry 5). -/
def Memory.readByte (m : Memory) (a : Nat) : Option Byte := Tab.find m.cells a

/-- Writes one byte, keeping addresses strictly rising. -/
def Memory.writeByte (m : Memory) (a : Nat) (b : Byte) : Memory := { m with cells := Tab.put m.cells a b }

/-- Byte `i` of a line. -/
def lineByte (l : Line) (i : Nat) : Byte := l.extractLsb' (8 * i) 8

/-- Bytes `0 .. n-1` of a line placed from address `a` on, those whose mask bit is set. -/
def Memory.writeBytes (m : Memory) (a : Nat) (l : Line) (mask : Mask) : Nat → Memory
  | 0 => m
  | n + 1 =>
    let m' := Memory.writeBytes m a l mask n
    if mask.getLsbD n then m'.writeByte (a + n) (lineByte l n) else m'

/-- The data bytes of a line, `draw` choosing the free values of bytes with no value. -/
def Memory.readBytes (m : Memory) (draw : Nat) (a : Nat) : Nat → Nat
  | 0 => 0
  | n + 1 =>
    Memory.readBytes m draw a n + ((m.readByte (a + n)).getD (Config.freeByte draw (a + n))).toNat * 2 ^ (8 * n)

/-- The 64 data bytes of line number `line`. -/
def Memory.lineData (m : Memory) (draw line : Nat) : Line := BitVec.ofNat 512 (m.readBytes draw (64 * line) 64)

/-- The code of a line, none where its contents are undefined. -/
def Memory.code (m : Memory) (line : Nat) : Option LineCode := Tab.find m.codes line

/-- Writes a whole line with its check bytes or the poison code (R219). -/
def Memory.writeLine (m : Memory) (line : Nat) (l : Line) (poison : Bool) : Memory :=
  let m' := m.writeBytes (64 * line) l (BitVec.allOnes 64) 64
  { m' with codes := Tab.put m'.codes line (if poison then .poisoned else .good) }

/-- Writes the poison code without the data bytes (R200, R219). -/
def Memory.poisonLine (m : Memory) (line : Nat) : Memory := { m with codes := Tab.put m.codes line .poisoned }

/-- Zeroes `n` lines from line number `line` on. -/
def Memory.zeroLines (m : Memory) (line n : Nat) : Memory :=
  { cells := m.cells.filter (fun c => decide (c.1 < 64 * line)) ++ (List.range (64 * n)).map (fun i => (64 * line + i, 0#8))
      ++ m.cells.filter (fun c => decide (64 * (line + n) ≤ c.1))
    codes := m.codes.filter (fun c => decide (c.1 < line)) ++ (List.range n).map (fun i => (line + i, LineCode.good))
      ++ m.codes.filter (fun c => decide (line + n ≤ c.1)) }

/-- The canonical form: addresses and line numbers strictly rising. -/
def Memory.wf (m : Memory) : Bool := Tab.wf m.cells && Tab.wf m.codes

/-- Bytes of `b` where the mask is set, of `a` elsewhere. -/
def mergeBytes (a b : Line) (mask : Mask) : Nat → Nat
  | 0 => 0
  | n + 1 => mergeBytes a b mask n + (if mask.getLsbD n then lineByte b n else lineByte a n).toNat * 2 ^ (8 * n)

/-- `a` with the masked bytes of `b` over it. -/
def mergeLine (a b : Line) (mask : Mask) : Line := BitVec.ofNat 512 (mergeBytes a b mask 64)

/-- 16 data bits of word `i` (0-31) of a line. -/
def lineWord (l : Line) (i : Nat) : BitVec 16 := l.extractLsb' (16 * i) 16

/-- A line with the 16 data bits of word `i` replaced. -/
def setLineWord (l : Line) (i : Nat) (w : BitVec 16) : Line :=
  (l &&& ~~~((0xFFFF#512) <<< (16 * i))) ||| ((w.setWidth 512) <<< (16 * i))

/-- The two byte-mask bits of word `i`. -/
def wordMask (i : Nat) : Mask := (3#64) <<< (2 * i)

end Sys2Proof.Machine
end

