-- ==== Sys2Proof/Machine/State.lean ====
section
/-! DEFINITION. The state of the block: every register, buffer, table and pin the spec gives it, as plain data, and the
queue of commands waiting. Structures carry the reset values (log entries 3 and 4). -/

namespace Sys2Proof.Machine

/-- The device states of R26. -/
inductive DevState where
  | off | start | held | service | test | recovery
  deriving DecidableEq, Repr

/-- Code of R26. OFF is not readable. -/
def DevState.code : DevState → Nat
  | .off => 0 | .start => 1 | .held => 2 | .service => 3 | .test => 4 | .recovery => 5

/-- Port states of PRT_LINK_STATUS.STATE. MEM_OPEN is reported, not stored (see Port). -/
inductive LinkState where
  | down | training | up
  deriving DecidableEq, Repr

/-- Agent states of an LD (R192). -/
inductive LdState where
  | unbound | attached | resigned
  deriving DecidableEq, Repr

/-- Tile states (R139, TIL_STATE). -/
inductive TileState where
  | absent | online | draining | offline | retired
  deriving DecidableEq, Repr

/-- Engine states (R272). -/
inductive EngState where
  | stopped | running | waiting | halted | off
  deriving DecidableEq, Repr

/-- Source of a full reset, as retained-log slot 0 codes it (R366). -/
inductive ResetSrc where
  | pin | doorbell | mgmt | powerOn
  deriving DecidableEq, Repr

def ResetSrc.code : ResetSrc → Nat
  | .pin => 1 | .doorbell => 2 | .mgmt => 3 | .powerOn => 4

/-- Where a full reset stands (R231, R401). -/
inductive ResetPhase where
  | none | draining | held
  deriving DecidableEq, Repr

/-- Messages the block sends: to hosts, to management clients, to the flash and over I3C and JTAG. -/
inductive Msg where
  | memData (port ld : Nat) (tag : BitVec 16) (data : Line) (poison : Bool) (m : Option Meta)
  | cmp (port ld : Nat) (tag : BitVec 16)
  | cmpE (port ld : Nat) (tag : BitVec 16)
  | bisnp (port ld : Nat) (hpa : Nat) (data : Bool)
  | biConflictAck (port ld : Nat) (tag : BitVec 16)
  | viral (port ld : Nat)
  | msix (port ld vec : Nat)
  | mailbox (port ld : Nat) (opcode : Nat) (code : Nat) (payload : List Nat)
  | fm (port : Nat) (payload : List Nat)
  | dcAdd (port ld region base pages : Nat) (tag : BitVec 128)
  | dcRelease (port ld region base pages : Nat)
  | doe (port ld : Nat) (payload : List Nat)
  | spdm (src : SpdmSrc) (code : Nat) (payload : List Nat)
  | mgmt (code : Nat) (payload : List Nat)
  | regDone (o : Origin) (off : Nat) (data : BitVec 64)
  | i3c (payload : Nat)
  | jtag (payload : Nat)
  deriving DecidableEq, Repr

/-- One translation entry's page: frame and the attributes of R63. -/
structure Pte where
  frame : Nat := 0
  v : Bool := false
  w : Bool := false
  x : Bool := false
  u : Bool := false
  device : Bool := false
  stream : Bool := false
  nopf : Bool := false
  lockhint : Bool := false
  deriving DecidableEq, Repr

/-- A LAB entry (R67). -/
structure LabEntry where
  view : BitVec 12 := 0
  gran : BitVec 2 := 0
  vpn : Nat := 0
  pte : Pte := {}
  lock : Bool := false
  ref : Bool := false
  /-- the model's name of the entry, kept while it is rewritten in place (R71, R87) -/
  uid : Nat := 0
  /-- Stored bits a flip left wrong (R374, R375), data from bit 0 and check bits from bit 64; zero when the code is
  good. `bad` fields of other stores are the same. -/
  bad : Nat := 0
  deriving DecidableEq, Repr

/-- What a routine does to one pair with LRP and SCP: the reading and the conditional store as the one change they come to
once the store takes place (R313, R314, log entry 69). -/
inductive Rmw where
  /-- takes a clear bit of the allocation map, or gives it back -/
  | setBit (b : Nat)
  | clearBit (b : Nat)
  /-- takes a view lock -/
  | lock (owner : Nat)
  /-- raises and lowers MAPS of a reverse pair (R168, R169, R315) -/
  | raiseMaps (vpn : Nat) (keep : Bool)
  | lowerMaps (n : Nat)
  /-- VIEW_REMAP writes the spare frame's reverse pair (R520) -/
  | claim (vpn n : Nat)
  deriving DecidableEq, Repr

/-- What a request does at its home slice (R163, R165, R261). -/
inductive Op where
  | readShared | readOwn | readUntracked | readData
  | ownNoData | invalidate | cleanEvict
  | write (keep : Meta)
  | scp
  | cmo (kind : Nat) (coh unlock : Bool)
  | cmoSw (kind : Nat) (unlock : Bool) (set way : Nat)
  | sweepRead | moverRead | moverWrite | revRead | prefetch
  | preload (lgrp : BitVec 4)
  /-- a poison code written for a lost line (R200) -/
  | poison
  /-- PARK recalls an entry (R323); a set flush recalls a candidate (R180) -/
  | parkRecall | flushRecall
  deriving DecidableEq, Repr

/-- Where a request comes from. -/
inductive Src where
  | host (port ld : Nat) (tag : BitVec 16)
  | engine (e : Nat)
  | mover (m ch : Nat)
  | reverse (port : Nat)
  | prefetch
  | call (e : Nat)
  /-- a request of an engine whose end the engine does not take: a clean eviction, one given up (R282, R294) -/
  | orphan (e : Nat)
  /-- the data of request `of`, read while its recalls are outstanding (R167) -/
  | early (of : Nat)
  deriving DecidableEq, Repr

/-- A request to a slice. -/
structure Req where
  src : Src := .prefetch
  agent : BitVec 12 := 0
  epoch : BitVec 4 := 0
  hdmDb : Bool := false
  op : Op := .readUntracked
  dpa : Nat := 0
  data : Line := 0
  mask : Mask := 0
  poison : Bool := false
  device : Bool := false
  stream : Bool := false
  nopf : Bool := false
  /-- DPA range of the granule its LAB entry covers (R132). -/
  lo : Nat := 0
  hi : Nat := 0
  /-- the LAB and the entry it was translated through (R87) -/
  entry : Option (Nat × Nat) := none
  sup : Bool := false
  /-- the view, granule and view address a port decoded it with (R67) -/
  view : BitVec 12 := 0
  gran : BitVec 2 := 0
  va : Nat := 0
  deriving DecidableEq, Repr

/-- A holder a recall waits on: an agent or engine ID, the epoch recorded, what was sent. -/
structure Target where
  agent : BitVec 12
  epoch : BitVec 4
  data : Bool
  wasE : Bool
  deriving DecidableEq, Repr

/-- What a request that has had its lookup waits for, in the slice or behind it. -/
inductive Phase where
  /-- on its way to the slice, before its order point -/
  | ingress
  /-- parked on a LAB miss at its port (R73) -/
  | parked (slot : Nat)
  /-- in the home queue, no lookup yet (or looked up and set back to look up again) -/
  | queued
  /-- no directory candidate: waits to retry (R175) -/
  | retry
  /-- waits for the recalls listed; `evict` names the directory way when a victim is evicted for it (R174) -/
  | recall (ts : List Target) (evict : Option Nat)
  /-- waits for a miss register, a write credit or a recall register -/
  | needMr | needCredit | needRecall
  /-- a read sent to a tile: set, way, and the sub-block as the tile holds it when its turn comes (R140) -/
  | tile (set way : Nat) (data : Line) (poison : Bool) (bad : Nat)
  /-- bound to a miss register: reserved way if any, no-allocate -/
  | miss (way : Option Nat) (noAlloc : Bool)
  /-- answered from the fill of a prefetch register (R134) -/
  | merged (into : Nat)
  /-- a read with no miss register (DEVICE, sweep, reverse entry; R103) -/
  | direct
  /-- a write handed to its controller, not accepted yet -/
  | toBuffer
  /-- accepted; the acceptance is on its way back -/
  | accepted (coalesced : Bool)
  /-- a CLEAN waiting for the channel to take the line's writes (R306) -/
  | drain
  /-- finished; the requester has not taken the result yet -/
  | done (data : Line) (poison : Bool) (ok : Bool)
  deriving DecidableEq, Repr

/-- Where a read that left the slice stands on the memory path. -/
inductive MemPhase where
  | idle | toMc | waitMerge | channel | back (data : Line) (poison : Bool) (err : Bool)
  deriving DecidableEq, Repr

/-- A request under way. -/
structure Xact where
  req : Req := {}
  slice : Nat := 0
  /-- order point number; 0 before it -/
  ord : Nat := 0
  phase : Phase := .ingress
  mem : MemPhase := .idle
  retries : Nat := 0
  /-- a write matched under R103: it uses the writeback reserve and is class 0 -/
  matched : Bool := false
  /-- the line whose recall waits for this write to be accepted (R165, R174) -/
  due : Option Nat := none
  /-- when it entered the crossing it is in, to its controller or back (R114) -/
  sent : Nat := 0
  /-- its recall: the victim's line of an eviction, whether it is that of an UNK set (R181) -/
  victim : Option Nat := none
  unk : Bool := false
  /-- what it has at hand: data read while its recalls were outstanding (R167), the line before a change of a pair -/
  pre : Option (Line × Bool) := none
  /-- the owner answered BIRspS (R166) -/
  keptS : Bool := false
  /-- the line's set was UNK or PARK ran at its lookup: served untracked (R181, R323) -/
  untracked : Bool := false
  /-- its recalls are done: a further lookup needs no recall and counts no LOOKUP -/
  cleared : Bool := false
  /-- it was granted E (R163) -/
  grantE : Bool := false
  /-- its engine has answered a recall of the line since it was recorded as a holder: the line is not cached (R238) -/
  recalled : Bool := false
  /-- the miss register is a prefetch (R133) -/
  isPf : Bool := false
  /-- a demand read merged into the prefetch register (R134) -/
  demanded : Bool := false
  /-- it was parked on a LAB miss (R74) -/
  wasParked : Bool := false
  /-- recalls it sent -/
  recalls : Nat := 0
  /-- lookups its slice has given to others since this entry of class 2 to 4 became eligible (R99) -/
  waited : Nat := 0
  t0 : Nat := 0
  deriving DecidableEq, Repr

/-- A tag entry (R116). -/
structure TagEntry where
  tag : BitVec 14 := 0
  valid : BitVec 8 := 0
  poison : BitVec 8 := 0
  age : BitVec 2 := 0
  lock : Bool := false
  lgrp : BitVec 4 := 0
  strm : Bool := false
  /-- TAG was written for a sector since the entry was last cleared (R128, R137, R144) -/
  held : Bool := false
  bad : Nat := 0
  deriving DecidableEq, Repr

/-- Directory states (R157). -/
inductive DState where
  | i | s | sc | e | unk
  deriving DecidableEq, Repr

/-- PSTATE of a pointer word (R158). EMPTY words are not listed. -/
inductive PState where
  | s | e | recalling
  deriving DecidableEq, Repr

/-- A pointer word. -/
structure Ptr where
  agent : BitVec 12
  ps : PState
  epoch : BitVec 4
  deriving DecidableEq, Repr

/-- A directory entry (R157-R161). BUSY follows from the requests under way (R160). -/
structure DirEntry where
  tag : BitVec 15 := 0
  st : DState := .i
  ptrs : List Ptr := []
  groups : BitVec 64 := 0
  log : BitVec 6 := 0
  age : BitVec 2 := 0
  bad : Nat := 0
  deriving DecidableEq, Repr

/-- A detector entry (R132). -/
structure Detector where
  agent : BitVec 12
  lo : Nat
  hi : Nat
  last : Nat
  delta : Int
  conf : Nat
  deriving DecidableEq, Repr

/-- A side-buffer entry (R134). -/
structure SideEntry where
  line : Nat
  data : Line
  poison : Bool
  deriving DecidableEq, Repr

/-- A set flush running in a slice (R180): the set, the dtag to take next, and the requests that recall the candidates in
flight, up to 8. -/
structure Flush where
  dset : Nat
  next : Nat
  xids : List Nat
  deriving DecidableEq, Repr

/-- One slice. -/
structure Slice where
  /-- SLC_CTRL, reset 0x16 -/
  ctrl : BitVec 32 := 0x16
  tagsClean : Bool := false
  walks : Nat := 0
  lockedInval : Nat := 0
  pointer : Nat := 0
  nextOrd : Nat := 1
  tags : Tab TagEntry := []
  /-- tile data by (set * 16 + way) * 8 + sub-block; `tileBad` holds the bits a flip left wrong -/
  data : Tab Line := []
  tileBad : Tab Nat := []
  dir : Tab DirEntry := []
  detectors : List Detector := []
  side : List SideEntry := []
  /-- sets marked UNK: the one being flushed and those queued (R182) -/
  flush : Option Flush := none
  flushQueue : List Nat := []
  /-- guarded sets: dset and the request that holds the guard (R175) -/
  guards : List (Nat × Nat) := []
  dirCe : Nat := 0
  dirUe : Nat := 0
  /-- PARK: the next set, the recalls of the running one and the time it began (R323) -/
  parkNext : Nat := 0
  parkT : Nat := 0
  parkWait : List Nat := []
  /-- the background pass: sets walked, and the place of its next entry in the home queue (R202) -/
  walked : Nat := 0
  walkOrd : Option Nat := none
  /-- lookups given to others since the walker's entry became eligible (R99) -/
  walkWait : Nat := 0
  deriving DecidableEq, Repr

/-- A park slot (R73). -/
structure ParkSlot where
  view : BitVec 12 := 0
  gran : BitVec 2 := 0
  vpn : Nat := 0
  va : Nat := 0
  write : Bool := false
  stale : Bool := false
  entry : Nat := 0
  engine : Nat := 0
  /-- the LAB_MISS record has left the port (R73, R346) -/
  sent : Bool := false
  /-- count, time and place in raise order of the LAB_MISS record (R347) -/
  seq : BitVec 4 := 0
  t : Nat := 0
  num : Nat := 0
  deriving DecidableEq, Repr

/-- A Dynamic Capacity extent of an LD (R45). -/
structure DcExtent where
  region : Nat
  base : Nat
  pages : Nat
  tag : BitVec 128
  accepted : Bool
  /-- the view it was mapped into (R45, log entry 109) -/
  view : BitVec 12
  deriving DecidableEq, Repr

/-- An event record (R344) as a source raises it, with the always-on count at the raise (R351). -/
structure Rec where
  src : Nat
  cls : Nat
  sev : Nat
  seq : Nat
  info : Info
  t : Nat
  /-- EVT_ROUTE of the source when the record was raised (R348) -/
  route : BitVec 20 := 8
  deriving DecidableEq, Repr

/-- One LD of a port. -/
structure Ld where
  base : Nat := 0
  size : Nat := 0
  committed : Bool := false
  errNotCommitted : Bool := false
  memEnable : Bool := false
  biEnable : Bool := false
  viralEnable : Bool := false
  st : LdState := .unbound
  agent : BitVec 12 := 0
  epoch : BitVec 4 := 0
  hdmDb : Bool := false
  view : BitVec 12 := 0
  gran : BitVec 2 := 0
  share : BitVec 8 := 0
  extents : List DcExtent := []
  records : List Rec := []
  recOverflow : Bool := false
  policy : BitVec 64 := 0
  viral : Bool := false
  memActive : Bool := false
  memInfoValid : Bool := false
  /-- MSI-X table: address, data, masked, per vector (R493) -/
  msix : Tab (BitVec 64 × BitVec 32 × Bool) := []
  msixPending : BitVec 64 := 0
  /-- RAS capability: uncorrectable and correctable errors reported for the LD's own port -/
  ras : BitVec 32 := 0
  rasCor : BitVec 32 := 0
  /-- mailbox status: opcode and return code of the command completed last -/
  mbox : Option (Nat × Nat) := none
  deriving DecidableEq, Repr

/-- A recall answer that waits for the core island's clock (R15, R459): the holder, the line, whether it kept the line S,
whether the holder is gone, and whether it answers only recalls for data. -/
structure HeldAnswer where
  agent : BitVec 12
  line : Nat
  kept : Bool
  lost : Bool
  dataOnly : Bool
  deriving DecidableEq, Repr

/-- A write of a host or of Q0 to a register or a command slot that waits for its block (R484). -/
inductive HostAccess where
  | reg (off value : Nat) (size8 : Bool) (enables : Nat) (ptrErr : Option (BitVec 2)) (headErr : Option Bool)
  | slot (n cell slot : Nat) (value : BitVec 32) (enables : BitVec 4) (parityOk : Bool) (ptrErr : Option (BitVec 2))
  deriving DecidableEq, Repr

/-- An outstanding BISnp of a port (R103, R172): agent, line, BISnpData, sent or waiting for its reverse entry; `inv`: a
BISnpInv of the line follows the answer to this BISnpData (R166). -/
structure Snoop where
  agent : BitVec 12
  line : Nat
  data : Bool
  sent : Bool
  va : Nat
  timeout : BitVec 17
  conflict : Option (BitVec 16)
  inv : Bool := false
  /-- the next order point of the line's slice when the recall began (R178) -/
  began : Nat := 0
  deriving DecidableEq, Repr

/-- One port. -/
structure Port where
  link : LinkState := .down
  width : BitVec 2 := 0
  rate : BitVec 2 := 0
  flit256 : Bool := false
  lopt : Bool := false
  degraded : Bool := false
  perst : Bool := false
  /-- time of the last release of PERST_N (R382) -/
  perstT : Nat := 0
  refclkLost : Bool := false
  released : Bool := false
  failed : Bool := false
  replayThresh : BitVec 16 := 0x100
  drops : Nat := 0
  cfg : PortCfg := ⟨3, 3, 1, false⟩
  cfgLoaded : Bool := false
  lab : Tab LabEntry := []
  slots : Tab ParkSlot := []
  handlers : BitVec 32 := 0
  hstatus : BitVec 4 := 0
  rcache : List (Nat × BitVec 32) := []
  snoops : List Snoop := []
  lds : Tab Ld := []
  deriving DecidableEq, Repr

/-- Cause codes of R194. -/
abbrev Cause := BitVec 3

/-- An agent that is attached or resigning. -/
structure Agent where
  port : Nat := 0
  ld : Nat := 0
  epoch : BitVec 4 := 0
  hdmDb : Bool := false
  view : BitVec 12 := 0
  attached : Bool := true
  cause : Cause := 0
  pointReached : Bool := false
  covered : Bool := false
  lost : Nat := 0
  unknown : Bool := false
  deriving DecidableEq, Repr

/-- A tile (R139, R153, R409). -/
structure Tile where
  st : TileState := .offline
  cause : BitVec 3 := 0
  retiring : Bool := false
  retireMap : BitVec 64 := 0
  tileRetired : Bool := false
  unrepaired : BitVec 64 := 0
  ce : Nat := 0
  ue : Nat := 0
  /-- 0 never run, 1 running, 2 done, 3 cut short -/
  bist : BitVec 3 := 0
  incomplete : Bool := false
  sigMatch : Bool := false
  overflow : Bool := false
  quarter : Bool := false
  fails : List (BistEntry × Bool) := []
  signature : BitVec 64 := 0
  mapValid : Bool := false
  /-- spares soft repair uses, and spares fuse repair uses, by bank -/
  softRows : Tab Nat := []
  softGroups : Tab Nat := []
  fuseRows : Tab Nat := []
  fuseGroups : Tab Nat := []
  /-- fuse repairs programmed, effective at the next power-on (R396) -/
  fuseNextRows : Tab Nat := []
  fuseNextGroups : Tab Nat := []
  tested : Bool := false
  failedOutright : Bool := false
  repeat_ : List Nat := []
  bankWalks : List Nat := []
  deriving DecidableEq, Repr

/-- A write-buffer entry (R221). -/
structure WbEntry where
  line : Nat
  data : Line
  mask : Mask
  poison : Bool
  draining : Bool
  aged : Bool
  /-- slice whose credit the entry holds -/
  slice : Nat
  /-- writes the poison code without the data bytes (R200) -/
  codeOnly : Bool
  bad : Nat
  /-- order of acceptance -/
  num : Nat
  /-- an uncorrectable error found in its data (R357) -/
  ue : Bool := false
  deriving DecidableEq, Repr

/-- A memory controller. -/
structure Mc where
  rate : BitVec 3 := 0
  wb : List WbEntry := []
  nextNum : Nat := 1
  selfRefresh : Bool := false
  drainAge : BitVec 8 := 2
  driftLimit : BitVec 7 := 0x14
  ce : Nat := 0
  ue : Nat := 0
  rmw : Nat := 0
  deriving DecidableEq, Repr

/-- A check line in the check cache (R220): its sector number, the bits a flip left wrong under its own code, and the wrong
check symbols it holds, by line. -/
structure CheckLine where
  csec : Nat
  flip : Nat
  wrong : Tab Nat
  deriving DecidableEq, Repr

/-- A channel. `st` codes MEM_CH_STATE.STATE. -/
structure Chan where
  st : BitVec 3 := 0
  trained : Bool := false
  refreshX2 : Bool := false
  retrains : Nat := 0
  mr4 : BitVec 3 := 0
  failsInRow : Nat := 0
  timeouts : Nat := 0
  drift : BitVec 7 := 0
  /-- a management client has asked for retraining, for ZQ calibration (R400) -/
  retrainDue : Bool := false
  zqDue : Bool := false
  /-- the check cache, newest first (R220) -/
  check : List CheckLine := []
  /-- wrong symbols that flips left in stored lines (paths 5 and 6 of R374), by line: data bytes, check bytes -/
  bad : Tab Nat := []
  badChk : Tab Nat := []
  /-- repair register: lines to write back, their data, whether with the poison code (R218) -/
  repair : List (Nat × Line × Bool) := []
  /-- check lines whose masked burst has gone out in the running batch (R226) -/
  burst : List Nat := []
  deriving DecidableEq, Repr

/-- A line of a memory-view cache (R238). -/
structure MvLine where
  line : Nat
  data : Line
  poison : Bool
  used : Nat
  bad : Nat
  deriving DecidableEq, Repr

/-- What a translation gives a request beside its DPA: the region type and attributes of its page, and the DPA range of
the granule its LAB entry covers, empty for an untranslated access. -/
structure Page where
  device : Bool := false
  stream : Bool := false
  nopf : Bool := false
  lo : Nat := 0
  hi : Nat := 0
  /-- the LAB and the entry (R87), none for an untranslated access -/
  entry : Option (Nat × Nat) := none
  deriving DecidableEq, Repr

/-- One write a store-buffer entry makes: line, bytes, mask, poison, and the page it was translated through. -/
structure LineWrite where
  line : Nat
  data : Line
  mask : Mask
  poison : Bool
  page : Page := {}
  deriving DecidableEq, Repr

/-- Kinds of store-buffer entry (R238, R279). -/
inductive SbKind where
  | store | zero
  | cmo (kind : Nat) (coh unlock : Bool)
  | cmoSw (kind : Nat) (unlock : Bool) (slice set way : Nat)
  | labi (form : Nat) (view : BitVec 12) (gran : BitVec 2) (vpn : Nat)
  | reg (off : Nat) (value : BitVec 32)
  | narrow (off : Nat)
  | mgmtReg (off : Nat) (value : BitVec 32)
  | tile (addr : Nat) (value : Pair) (pair : Bool)
  deriving DecidableEq, Repr

/-- A store-buffer entry. `done` is none until its target answers, then whether it succeeded. -/
structure SbEntry where
  id : Nat
  kind : SbKind
  addr : Info
  page : Page
  /-- beyond the usable limit: never reaches a channel (R215) -/
  beyond : Bool
  writes : List LineWrite
  issued : Bool
  xids : List Nat
  done : Option Bool
  sup : Bool
  nt : Bool
  deriving DecidableEq, Repr

/-- A combining line (R283). `addr` is the address-register value that leads to its first word. -/
structure NtLine where
  line : Nat
  addr : Info
  data : Line
  words : BitVec 32
  marks : BitVec 32
  page : Page
  sup : Bool
  deriving DecidableEq, Repr

/-- Where a loaded word comes from: at hand, or word `idx` of the line a request returns. -/
inductive WordSrc where
  | val (w : Word)
  | from_ (xid idx : Nat)
  deriving DecidableEq, Repr

/-- What a load does when its data returns. -/
inductive LoadKind where
  | plain | reserve
  | ifill (dest : Nat)
  deriving DecidableEq, Repr

/-- What an engine waits for. -/
inductive EngWait where
  | none
  | load (k : LoadKind) (g : Nat) (a : Nat) (upd : Option Info) (addr : Info) (line : Nat) (ws : List WordSrc)
      (xids : List Nat) (len : Nat)
  | reg (off : Nat) (g : Nat) (pair : Bool) (a : Nat) (upd : Option Info) (addr : Info) (len : Nat)
  | scp (xid : Nat) (len : Nat)
  | labw (ws : List Word)
  | labsync
  /-- a FENCE: what it waits for, and whether an operation it awaits has failed -/
  | fence (s c i failed : Bool)
  | ewait (g : Nat)
  | qpop (q : Nat) (a : Info) (g : Nat)
  | qpush (q : Nat) (ws : List Word)
  | stop
  /-- a CMO of the CMO service (R321), by its entry -/
  | svcCmo (id : Nat)
  | svcLabsync
  deriving DecidableEq, Repr

/-- What a table is allocated for (R313, R315-R317): a view's root, a missing table of an entry, a split of a leaf. -/
inductive AllocFor where
  | root
  | table (entry : Nat)
  | split (level dpa : Nat) (p : BitVec 32)
  deriving DecidableEq, Repr

/-- Steps a call still has to run, one after another (11_routines_and_maintenance.md). -/
inductive CallStep where
  /-- takes the locks of views, in this order; the first is asked for once it reads free (R314) -/
  | lockViews (views : List (BitVec 12))
  | lockTaken (view : BitVec 12)
  /-- stores a pair to device memory; changes one with LRP and SCP -/
  | store (dpa : Nat) (v : BitVec 32)
  | rmw (dpa : Nat) (k : Rmw)
  /-- allocates a table; `allocated` follows the change of its map bit -/
  | alloc (k : AllocFor)
  | allocated (t : Nat) (k : AllocFor)
  /-- VIEW_MAP's leaf of `n` pages at a PTE: raises MAPS of frames from `i` on, then zeroes them and writes the PTE -/
  | leaf (frame vpn n i pte : Nat) (v : BitVec 32)
  /-- CMOs over lines, engine loads of lines, full-line zeroes, preloads of sectors -/
  | cmos (kind : Nat) (coh unlock : Bool) (line count : Nat)
  | loads (device : Bool) (line count : Nat)
  | zeroLines (line count : Nat)
  | preloads (lgrp : BitVec 4) (device stream : Bool) (sector count : Nat)
  | sweepLines (va : Option Nat) (line count : Nat)
  /-- the next page of a translated range, up to a view address -/
  | range (va stop : Nat)
  /-- CMOs by set and way: slice, set and way to look at next -/
  | setways (s cset way : Nat)
  /-- the lock release of one slice (R312) -/
  | release (s : Nat)
  /-- what the routine does once it holds its view's lock -/
  | viewGo
  /-- what a tile routine does once no other runs on its tile (R300) -/
  | tileGo
  /-- what follows the mapping of a DC_ADD -/
  | dcCheck
  /-- what PROG_LOAD does once its image is loaded -/
  | progGo
  | mapFrom (i : Nat)
  | unmapFrom (va : Nat)
  | unmapAll
  | clinvFound
  | mapEnd
  | tablesOf (view : BitVec 12)
  | labi (form : Nat) (view : BitVec 12) (gran : BitVec 2) (vpn : Nat)
  | labsync
  | remapFind (views : List (BitVec 12))
  | remapGo
  | remapHold (threes : Nat)
  | remapEnd
  | copyFrame (old spare : Nat)
  | dcOffer
  | dcDone (accepted : Bool)
  | dcReleased
  | deleteTables
  | awaitAgent (agent : BitVec 12) (epoch : BitVec 4)
  | awaitTile (t : Nat)
  | bringOnline (t : Nat)
  | awaitBank (t b : Nat)
  | awaitPark
  | awaitRun
  /-- a full line written to device memory, with or without poison (R51) -/
  | line (dpa : Nat) (data : Line) (poison : Bool)
  /-- a mailbox command completes -/
  | answer (opcode : Nat)
  | finish
  deriving DecidableEq, Repr

/-- A call in progress on an engine, or work of Q0 firmware in the same form. -/
structure Call where
  code : Nat := 0
  /-- queue and tag of its completion record; none for a management client -/
  reply : Option (Nat × BitVec 10) := none
  status : Nat := 0
  steps : List CallStep := []
  /-- requests of the running step not completed yet -/
  outstanding : List Nat := []
  /-- views whose locks it holds in memory (R314) -/
  held : List (BitVec 12) := []
  view : BitVec 12 := 0
  port : Nat := 0
  ld : Nat := 0
  region : Nat := 0
  base : Nat := 0
  pages : Nat := 0
  attr : BitVec 8 := 0
  keep : Bool := false
  large : Bool := false
  list : Bool := false
  first : Nat := 0
  tag : BitVec 128 := 0
  /-- MAINT_SETWAY: kind, slices, last set and ways; LOCK_PRELOAD: the lock group -/
  mode : Nat := 0
  slices : BitVec 16 := 0
  last : Nat := 0
  ways : BitVec 16 := 0
  coh : Bool := false
  /-- result counts in the order the routine returns them -/
  counts : List Nat := []
  words : List Word := []
  /-- the body words, and whether the call has changed what it maps (R433) -/
  body : List Word := []
  changed : Bool := false
  firstFail : Option Nat := none
  lastFail : Option Nat := none
  /-- slices where a sector was refused: slice, first sector, count (R136) -/
  refused : List (Nat × Nat × Nat) := []
  /-- slices where a locked way was emptied: slice, first sector, count (R137) -/
  emptied : List (Nat × Nat × Nat) := []
  old : Nat := 0
  spare : Nat := 0
  saved : BitVec 32 := 0
  /-- leaves found or unmapped: view (or level), DPA of the PTE, its value, view address -/
  found : List (BitVec 12 × Nat × BitVec 32 × Nat) := []
  halted : Bool := false
  /-- the pair it changes with LRP and SCP, and the change (R313) -/
  rmw : Option (Nat × Rmw) := none
  /-- the last change of a pair took place, and the pair's value before it -/
  rmwOk : Bool := false
  rmwOld : BitVec 32 := 0
  /-- lines the engine has loaded for the step at hand (R281, R355) -/
  reads : List Nat := []
  deriving DecidableEq, Repr

/-- The program an engine holds (R319). -/
structure Prog where
  count : BitVec 8
  entry : BitVec 13
  words : Nat
  scratch : Nat
  deriving DecidableEq, Repr

/-- One engine (R238-R240). -/
structure Engine where
  st : EngState := .stopped
  double : Bool := false
  lastCause : BitVec 5 := 0
  traps : Nat := 0
  g : Tab Word := []
  a : Tab Info := []
  pc : BitVec 14 := 0
  flags : BitVec 6 := 0
  sup : Bool := false
  trans : Bool := false
  guard : Bool := false
  intrap : Bool := false
  cview : BitVec 12 := 0
  tcause : BitVec 6 := 0
  tpc : BitVec 14 := 0
  tstat : BitVec 3 := 0
  tval : Info := 0
  tvec : BitVec 8 := 0
  labres : BitVec 3 := 0
  iubase : BitVec 10 := 0
  subase : BitVec 15 := 0
  budget : Pair := 0
  rsv : Option Nat := none
  scpFails : Nat := 0
  imem : Tab Word := []
  imemBad : Tab Nat := []
  scratch : Tab Word := []
  scratchBad : Tab Nat := []
  mview : List MvLine := []
  mvClock : Nat := 0
  sb : List SbEntry := []
  nt : List NtLine := []
  nextSb : Nat := 1
  wake : List Rec := []
  wakeIn : List Rec := []
  /-- LAB_MISS records whose walk met a held PTE (R79, R518) -/
  deferred : List Rec := []
  wakeRun : Bool := false
  wakeDrops : Nat := 0
  /-- the oldest failed entry and its address (R294) -/
  fault : Option (Nat × Info) := none
  budgetDue : Bool := false
  wait : EngWait := .none
  /-- time at which its wait in a QPOP began (R338) -/
  waitT : Nat := 0
  startPc : BitVec 14 := 0
  call : Option Call := none
  /-- the packet popped: queue, tag, code and body words -/
  popped : Option (Nat × BitVec 10 × BitVec 8 × List Word) := none
  prog : Option Prog := none
  loads : BitVec 8 := 0
  running : Option (BitVec 12) := none
  /-- tick at which the quad's domain last came on (R240 CYCLE) -/
  onTick : Nat := 0
  deriving DecidableEq, Repr

/-- A queue pair (R329-R343, R353). -/
structure Pair_ where
  st : BitVec 2 := 0
  port : BitVec 3 := 0
  ld : BitVec 4 := 0
  lastClose : BitVec 2 := 0
  openings : BitVec 4 := 0
  cplVec : BitVec 6 := 0
  cplMsi : Bool := false
  serve : BitVec 32 := 0
  cmdProd : BitVec 8 := 0
  cmdCons : BitVec 8 := 0
  cplProd : BitVec 8 := 0
  cplHead : BitVec 8 := 0
  pool : Nat := 0
  thresh : BitVec 8 := 0x10
  timeout : BitVec 16 := 0x32
  bad : Nat := 0
  /-- command ring by cell * 64 + slot, for the current cell too; `parity` lists slots whose parity fails -/
  cmd : Tab Word := []
  parity : List Nat := []
  cpl : Tab Word := []
  /-- engines waiting in QPOP, first first -/
  waiters : List Nat := []
  poppedBy : List Nat := []
  modCount : Nat := 0
  /-- times at which the unpopped packets committed, oldest first (R338) -/
  commits : List Nat := []
  /-- the lowest-numbered index whose two copies differ (R342) -/
  differ : Option (BitVec 2) := none
  deriving DecidableEq, Repr

/-- An event source's counter, buffer (R346) and route (R348). -/
structure Source where
  seq : BitVec 4 := 0
  buf : List Rec := []
  route : BitVec 20 := 8
  deriving DecidableEq, Repr

/-- An event queue (R349-R354). -/
structure Evq where
  tail : BitVec 8 := 0
  head : BitVec 8 := 0
  overflow : Nat := 0
  run : Nat := 0
  ring : Tab (Rec × Bool) := []
  ctrl : BitVec 32 := 0x00320400
  modCount : Nat := 0
  /-- the lowest-numbered index whose two copies differ: HEAD for true (R342) -/
  differ : Option Bool := none
  deriving DecidableEq, Repr

/-- An error-log entry (R361). -/
structure LogEntry where
  source : Nat
  kind : Nat
  va : Bool
  poisoned : Bool
  location : Info
  agent : BitVec 12
  epoch : BitVec 4
  view : BitVec 12
  port : BitVec 3
  ld : BitVec 4
  count : Nat
  first : Nat
  last : Nat
  detail : BitVec 18
  upd : BitVec 18
  deriving DecidableEq, Repr

/-- The operation of a mover channel (R357, R358): the next source line and destination, lines left, the read and the
write under way, what its staging buffer shows, and a sweep's view address of the next line when translated. -/
structure MoverOp where
  src : Nat
  dst : Nat
  left : Nat
  xid : Option Nat
  wid : Option Nat
  va : Option Nat
  staging : Ecc
  deriving DecidableEq, Repr

/-- A power request (R451). -/
structure PwrReq where
  domain : Nat
  on : Bool
  origin : Origin
  call : Option Nat
  deriving DecidableEq, Repr

/-- A counter block (R465-R474). -/
structure Pmc where
  run : Bool := false
  cycInt : Bool := false
  ovf : BitVec 9 := 0
  /-- overflows not reported yet -/
  fresh : List (Nat × BitVec 9) := []
  master : BitVec 32 := 0
  addrBase : BitVec 64 := 0
  addrLimit : BitVec 64 := 0
  cycle : BitVec 48 := 0
  sel : Tab (BitVec 32) := []
  cnt : Tab (BitVec 48) := []
  deriving DecidableEq, Repr

/-- A journal entry (R434). -/
structure JEntry where
  seq : Nat
  time : BitVec 64
  role : Nat
  action : Nat
  origin : BitVec 16
  target : BitVec 32
  gen : BitVec 18
  keyid : BitVec 32
  flags : BitVec 3
  old : BitVec 256
  new : BitVec 256
  deriving DecidableEq, Repr

/-- A nonce held (R428). -/
structure Nonce where
  handle : BitVec 2
  value : BitVec 256
  deriving DecidableEq, Repr

/-- A signed request as Q0 queues it (R430). -/
inductive SReq where
  | enrol (key : BitVec 512)
  | testArm
  | fuseProgram (bank : BitVec 4) (image : BitVec 512)
  | fuseRepair (t : Nat) (entries : List BistEntry)
  | floorRaise (floor : BitVec 7)
  | fwauth (key : Option (BitVec 512))
  | retireClear (t : Nat) (bank : BitVec 6) (whole : Bool)
  /-- PACKAGE_AUTHORIZE with the last piece of a package, from an LD's mailbox or over MCTP; its signature verifies -/
  | authorize (b : Option Mbx) (p : Package) (pkgSigOk : Bool)
  deriving DecidableEq, Repr

/-- A durable change waiting for its journal entry to reach flash (R436). -/
inductive Durable where
  | keySet (installer : Bool) (key : Option (BitVec 512))
  | testArm
  | fuse (bank : BitVec 4) (image : BitVec 512)
  | fuseRepair (t : Nat) (entries : List BistEntry)
  | floor (f : BitVec 7)
  | retireClear (t : Nat) (bank : BitVec 6) (whole : Bool)
  deriving DecidableEq, Repr

/-- An image under verification (R444): its slot, the image, the digest of what the slot held, and who sent it. -/
structure Staging where
  slot : Bool
  img : FwImage
  old : BitVec 256
  origin : BitVec 16
  deriving DecidableEq, Repr

/-- A commit record (R443): counter, slot to run, SHA-512 of that slot's image, CRC-32. -/
structure CommitRec where
  counter : Nat
  slot : Bool
  digest : BitVec 512
  crc : BitVec 32
  deriving DecidableEq, Repr

/-- A firmware slot's image and whether it is verified (SEC_FW_SLOTS). -/
structure FwSlot where
  img : Option FwImage := none
  valid : Bool := false
  deriving DecidableEq, Repr

/-- Queued SPDM request (R50). -/
structure SpdmReq where
  src : SpdmSrc
  code : Nat
  args : List Nat
  signed : Bool
  deriving DecidableEq, Repr

/-- What a package delivery stands at (R388, R440). -/
inductive Delivery where
  | idle
  /-- pieces arrive from an LD, or over MCTP from an endpoint -/
  | receiving (b : Option Mbx) (eid : BitVec 8)
  /-- the last piece has come, and its PACKAGE_AUTHORIZE waits its turn (R430) -/
  | checking
  /-- a checked package is written to flash; ORIGIN of its sender -/
  | writing (p : Package) (origin : BitVec 16)
  deriving DecidableEq, Repr

/-- Global state: device state, start-up, pins (01, 14, 15, 19, 20). -/
structure Glob where
  part1024 : Bool := true
  dev : DevState := .start
  cause : BitVec 8 := 0
  supplies : Bool := true
  rstHigh : Bool := true
  straps : BitVec 4 := 0
  time : Nat := 0
  ticks : Nat := 0
  draws : Nat := 0
  resetPhase : ResetPhase := .none
  /-- time at which DEV_RST_N rose last (R382), at which the reset under way began (R28), of step 7 of the last full reset
  (R401) -/
  riseT : Nat := 0
  drainT : Nat := 0
  resetT : Nat := 0
  cleanStep5 : Bool := false
  /-- the limit below which the device must cool before it starts, where a reset found it too hot (R462) -/
  thermHold : Option Nat := none
  -- start-up
  step : Nat := 1
  heldCause : BitVec 3 := 0
  quick : Bool := false
  /-- the device is back in START from HELD (R388) -/
  heldBack : Bool := false
  fwSlot : Bool := false
  fwFallback : Bool := false
  memKept : Bool := false
  fwRunning : Bool := false
  /-- the image that runs -/
  fwImg : Option FwImage := none
  fwFailed : Option Bool := none
  waitMctp : Bool := false
  fusesOk : Bool := false
  pkgChecked : Bool := false
  pkgUsable : Bool := false
  hubTested : Bool := false
  fullBist : Bool := false
  fullTrain : Bool := false
  lbist : BitVec 15 := 0
  hubMapValid : Bool := false
  savedValid : Bool := false
  savedRate : BitVec 3 := 0
  savedPop : Option Population := none
  foundPop : Option Population := none
  /-- memory training runs from the saved values (R398) -/
  trainSaved : Bool := false
  -- registers
  gen : BitVec 18 := 0
  targetTimeout : BitVec 17 := 0x7D0
  lockTables : Bool := false
  lockRmap : Bool := false
  tableBase : BitVec 24 := 0
  tableSize : BitVec 24 := 0
  rmapBase : BitVec 24 := 0
  rddataE : Bool := false
  bisnpTimeout : BitVec 17 := 0x7D0
  dirFlushes : Nat := 0
  dirGuards : Nat := 0
  resigns : Nat := 0
  linesLost : Nat := 0
  sweepActive : Bool := false
  sweepCovered : Nat := 0
  lastId : Nat := 4063
  memRate : BitVec 3 := 0
  pop : Population := ⟨0, false⟩
  -- pins: driven low
  faultN : Bool := false
  alertN : Bool := false
  thermN : Bool := false
  deriving DecidableEq, Repr

/-- PARK (R323-R328). -/
structure Park where
  st : BitVec 2 := 0
  pace : BitVec 8 := 0
  recalled : Nat := 0
  resigned : Bool := false
  deriving DecidableEq, Repr

/-- Errors: log, retained log, flips, sweep and patrol (13). -/
structure Err where
  log : Tab LogEntry := []
  drops : Nat := 0
  fullRaised : Bool := false
  sweepRate : BitVec 8 := 0x28
  patrolHours : BitVec 8 := 0x18
  flipArm : Bool := false
  flipMatch : Bool := false
  flipPath : BitVec 4 := 0
  flipInst : BitVec 5 := 0
  flipFired : Bool := false
  flipChk : BitVec 8 := 0
  flipMask : BitVec 64 := 0
  flipAddr : BitVec 64 := 0
  lockFlip : Bool := false
  rlog : Tab Word := []
  patrol : Bool := false
  patrolRead : Nat := 0
  patrolCe : Nat := 0
  patrolUe : Nat := 0
  deriving DecidableEq, Repr

/-- The Position record and RESYNC (15). -/
structure Resync where
  slots : Tab Word := []
  seq : BitVec 17 := 0
  busy : Bool := false
  pending : Bool := false
  noQ0 : Bool := false
  /-- requester of the running snapshot and of the pending one: slot 6 -/
  who : Word := 0
  nextWho : Word := 0
  t0 : Nat := 0
  deriving DecidableEq, Repr

/-- Roles, journal, firmware (16). -/
structure Sec where
  /-- the key records of flash, as digests of their keys, and the installer key that signed the authority's (R432) -/
  installer : Option (BitVec 512) := none
  authority : Option (BitVec 512) := none
  authSigner : Option (BitVec 512) := none
  /-- the rollback floor as the fuses were loaded, and as they are burned (R384, R442) -/
  floor : BitVec 7 := 0
  floorFuse : BitVec 7 := 0
  testArmed : Bool := false
  mirrorFault : Bool := false
  slotA : FwSlot := {}
  slotB : FwSlot := {}
  /-- the commit sectors; an erased one holds none -/
  commit0 : Option CommitRec := none
  commit1 : Option CommitRec := none
  lastFwCommit : Nat := 0
  /-- slot and origin of a commit write -/
  committing : Option (Bool × BitVec 16) := none
  staging : Option Staging := none
  committedNotBooted : Bool := false
  /-- fuse banks as they are burned, and as they were loaded (R384) -/
  fuses : Tab (BitVec 512) := []
  fused : Tab (BitVec 512) := []
  /-- the crypto unit in PD0 (R445): the seed as the fuses were loaded, the keys derived from it -/
  seed : Option Nat := none
  identity : Option Nat := none
  aliasOf : Option Nat := none
  nonces : List Nonce := []
  requests : List (SReq × Signed) := []
  durable : Option Durable := none
  pkg : Option Package := none
  /-- the package area is half written (R388) -/
  pkgPart : Bool := false
  pkgCommitted : Bool := false
  inForce : Option Package := none
  lastGen : BitVec 18 := 0
  /-- installer key under which the package in the package area was authorised (R432) -/
  pkgKey : Option (BitVec 512) := none
  delivery : Delivery := .idle
  lastCheck : BitVec 3 := 0
  /-- digests of the firmware and package PD0 keeps (R402, R404) -/
  kFwDigest : Option (BitVec 512) := none
  kPkgDigest : Option (BitVec 512) := none
  -- journal
  journal : Tab JEntry := []
  /-- SEQ of the newest entry, 0 before the first (log entry 14) -/
  nextSeq : Nat := 0
  head : BitVec 512 := 0
  base : BitVec 512 := 0
  mirrored : Nat := 0
  gaps : Nat := 0
  /-- the flash copy (R437): entries by index, the digest before the oldest, the stored head, and whether it records a gap -/
  flashRing : Tab JEntry := []
  flashBase : BitVec 512 := 0
  flashHead : BitVec 512 := 0
  flashGap : Bool := false
  select : BitVec 12 := 0
  timestamp : BitVec 64 := 0
  timestampSet : Bool := false
  spdm : List SpdmReq := []
  deriving DecidableEq, Repr

/-- Power, clocks, temperature (17). -/
structure Pwr where
  /-- domains on; PD0 at the start -/
  on : BitVec 28 := 1
  waiting : List PwrReq := []
  busy : Option PwrReq := none
  lastDomain : BitVec 5 := 0
  lastOn : Bool := false
  lastResult : BitVec 4 := 0
  xinLost : Bool := false
  unlocked : BitVec 29 := 0
  thmCtrl : BitVec 15 := 0x6FE4
  sensors : Tab (BitVec 8 × Bool) := []
  faulty : BitVec 24 := 0
  tjMax : BitVec 8 := 0
  hottest : BitVec 5 := 0
  level : BitVec 2 := 0
  /-- the shutdown of R462 has happened since full reset -/
  shut : Bool := false
  deriving DecidableEq, Repr

/-- Device-wide event state (12). -/
structure Evt where
  portLd : BitVec 32 := 0
  lost : Nat := 0
  wakeDrops : Nat := 0
  rotate : Nat := 0
  deriving DecidableEq, Repr

/-- I3C target and JTAG port (20). -/
structure Mgt where
  dynAddr : Option (BitVec 7) := none
  jtag : Nat := 1
  cells : BitVec 64 := 0
  deriving DecidableEq, Repr

/-- Everything but the queue of commands. -/
structure Dev where
  glob : Glob := {}
  mem : Memory := Memory.undefined
  ports : Tab Port := []
  /-- VIEW and SET of PRT_LD_BIND_m, kept in PD0, by 16 * port + LD -/
  binds : Tab (BitVec 12) := []
  agents : Tab Agent := []
  epochs : Tab (BitVec 4) := []
  slices : Tab Slice := []
  tiles : Tab Tile := []
  mcs : Tab Mc := []
  chans : Tab Chan := []
  xacts : Tab Xact := []
  nextId : Nat := 1
  engines : Tab Engine := []
  qlabs : Tab (Tab LabEntry) := []
  /-- LABIs in flight: id, engine, form, view, granule, page (R85) -/
  labis : List (Nat × Nat × Nat × BitVec 12 × BitVec 2 × Nat) := []
  /-- per LABI that took effect: engine, LABI, requests and store-buffer entries (by engine) translated through entries
  it removed (R87) -/
  labEffects : List (Nat × Nat × List Nat × List (Nat × Nat)) := []
  pairs : Tab Pair_ := []
  sources : Tab Source := []
  evqs : Tab Evq := []
  evt : Evt := {}
  err : Err := {}
  movers : Tab MoverOp := []
  park : Park := {}
  resync : Resync := {}
  sec : Sec := {}
  pwr : Pwr := {}
  pmcs : Tab Pmc := []
  pmcUserEn : Bool := false
  mgt : Mgt := {}
  /-- raw cells of tiles written through space 3 (R397), by word address -/
  rawCells : Tab Word := []
  /-- work of Q0 firmware in the form of calls (withdrawn and released extents) -/
  q0work : List Call := []
  /-- recall answers that wait at the core island while its clock has failed, in order of arrival (R15, R459) -/
  answers : List HeldAnswer := []
  /-- writes that wait for a block whose domain is off or whose clock has failed, in the order issued (R484, R485) -/
  waits : List (Origin × HostAccess) := []
  out : List Msg := []
  deriving DecidableEq, Repr

/-- The state: the device and the commands waiting, first in first out. -/
structure State where
  dev : Dev := {}
  pending : List Instr := []
  deriving DecidableEq, Repr

/-- Reasons a command stops the machine. -/
inductive Fault where
  /-- Raised by a meaning whose operands no event of the row can have (`Instr.wf` is false: a count or range its rules
  exclude). Safe: the hardware never sees such a command. -/
  | illFormed
  deriving DecidableEq, Repr

/-- Reasons a command has no meaning. -/
inductive Refusal where
  /-- Raised by exec's arms of commands with no meaning yet. Safe. -/
  | notModelled (mnemonic : String)
  deriving DecidableEq, Repr

/-- Retained log after a power-on: zero, then the power-on recorded as a reset (R366). -/
def Err.atPowerOn : Err := { rlog := [(0, 0x41)] }

/-- The machine right after the reset of a power-on: START, step 1 of R380 done, PD0 on, every register at its reset
value (log entries 3 and 4). -/
def State.reset : State := { dev := { err := Err.atPowerOn }, pending := [] }

end Sys2Proof.Machine
end

