-- ==== Sys2Proof/WellFormed.lean ====
section
/-! DEFINITION. Which operands a command can have: counts and ranges that its row's rules give and its types do not. -/

namespace Sys2Proof

/-- A request's host physical address has at most 52 bits. -/
def M2S.wf (h : M2S) : Bool := decide (h.hpa < 2 ^ 52)

/-- A package gives eight ports, eight handler registers, 64 serve masks, and routes of sources 0-511 (R425, R354). -/
def Package.wf (p : Package) : Bool :=
  decide (p.ports.length = 8) && decide (p.handlers.length = 8) && decide (p.serve.length = 64)
    && p.routes.all (fun r => decide (r.1 < 512))

/-- The checks of each command. -/
def Instr.wf : Instr → Bool
  | .memoryTrainingDone _ _ (some r) _ => decide (r.toNat ≤ 4)
  | .tileSelfTestDone _ r => decide (r.fails.length ≤ 256)
  | .linkUp _ w r _ _ => decide (w ≠ 0) && decide (r ≠ 0)
  | .hdmDecoderCommit _ _ base _ => decide (base < 2 ^ 52)
  | .memRd h _ => h.wf
  | .memRdData h => h.wf
  | .memInv h _ => h.wf
  | .memInvNt h _ => h.wf
  | .memClnEvct h => h.wf
  | .memWr h _ _ _ => h.wf
  | .memWrPtl h _ _ _ _ => h.wf
  | .memSpecRd h => h.wf
  | .biConflict h => h.wf
  | .birspI _ _ hpa => decide (hpa < 2 ^ 52)
  | .birspS _ _ hpa => decide (hpa < 2 ^ 52)
  | .homeQueueArrival _ ids => decide (ids.length ≤ 4) && decide ids.Nodup
  | .moderationTimeout isEvq n => !isEvq || decide (n.val < 9)
  | .packageDeliver _ _ (some q) _ => q.1.wf
  | .setLdAllocations _ shares => decide (shares.length = 16)
  | .thermalSample r => decide (r.length = 24)
  | .registerWrite _ _ _ size8 en => size8 || decide (en.toNat < 16)
  | _ => true

end Sys2Proof
end

