-- ==== Sys2Proof/Machine/Ops.lean ====
section
/-! DEFINITION. Named operations every command shares: running a meaning, reading and rewriting parts of the device,
raising events, the error log, armed flips, counters and messages. -/

namespace Sys2Proof.Machine

/-- What a command answers. -/
abbrev Answer := Host.Outcome State Fault Refusal

/-- A meaning changes the device and leaves the queue. -/
def onDev (s : State) (f : Dev → Dev) : Answer := .next { s with dev := f s.dev }

/-- A meaning whose operands the row limits: operands no event can have fault. -/
def guardWf (c : Instr) (s : State) (f : Dev → Dev) : Answer := if c.wf then onDev s f else .fault .illFormed

/-- Bits `hi:lo` of a number. -/
def bits (x hi lo : Nat) : Nat := x / 2 ^ lo % 2 ^ (hi + 1 - lo)

/-- Bit `i` of a number. -/
def bitAt (x i : Nat) : Bool := x.testBit i

/-- A field placed at bit `lo`. -/
def fld (lo v : Nat) : Nat := v * 2 ^ lo

/-- One or zero. -/
def b2n (b : Bool) : Nat := if b then 1 else 0

/-- W1-W3 of a record from a number. -/
def info (n : Nat) : Info := BitVec.ofNat 54 n

/-- Number of ones in the low `w` bits of a number. -/
def onesIn (w x : Nat) : Nat := (List.range w).foldl (fun n i => if x.testBit i then n + 1 else n) 0

/-- Bits of a test below `n`. -/
def mapBits (n : Nat) (f : Nat → Bool) : Nat := (List.range n).foldl (fun v i => if f i then v + 2 ^ i else v) 0

/-- The pair a change leaves, none where it does not take place (R168, R169, R313-R315, R520). -/
def Rmw.apply (k : Rmw) (p : BitVec 32) : Option (BitVec 32) :=
  let vpn := bits p.toNat 26 0
  let maps := bits p.toNat 31 27
  match k with
  | .setBit b => if p.getLsbD b then none else some (p ||| BitVec.ofNat 32 (2 ^ b))
  | .clearBit b => some (p &&& ~~~BitVec.ofNat 32 (2 ^ b))
  | .lock o => if p = 0 then some (BitVec.ofNat 32 (o + 1)) else none
  | .raiseMaps v keep =>
    if maps = 0 ∨ (keep = true ∧ maps < 31 ∧ vpn = v) then some (BitVec.ofNat 32 (v + fld 27 (maps + 1))) else none
  | .lowerMaps n => some (BitVec.ofNat 32 (vpn + fld 27 (maps - n)))
  | .claim v n => if 0 < maps ∧ vpn ≠ v then none else some (BitVec.ofNat 32 (v + fld 27 n))

-- parts of the device
def Dev.port (d : Dev) (n : Nat) : Port := Tab.get {} d.ports n
def Dev.updPort (d : Dev) (n : Nat) (f : Port → Port) : Dev := { d with ports := Tab.upd {} d.ports n f }
def Dev.ld (d : Dev) (p m : Nat) : Ld := Tab.get {} (d.port p).lds m
def Dev.updLd (d : Dev) (p m : Nat) (f : Ld → Ld) : Dev := d.updPort p (fun x => { x with lds := Tab.upd {} x.lds m f })
def Dev.slice (d : Dev) (n : Nat) : Slice := Tab.get {} d.slices n
def Dev.updSlice (d : Dev) (n : Nat) (f : Slice → Slice) : Dev := { d with slices := Tab.upd {} d.slices n f }
def Dev.tile (d : Dev) (n : Nat) : Tile := Tab.get {} d.tiles n
def Dev.updTile (d : Dev) (n : Nat) (f : Tile → Tile) : Dev := { d with tiles := Tab.upd {} d.tiles n f }
def Dev.mc (d : Dev) (n : Nat) : Mc := Tab.get {} d.mcs n
def Dev.updMc (d : Dev) (n : Nat) (f : Mc → Mc) : Dev := { d with mcs := Tab.upd {} d.mcs n f }
def Dev.chan (d : Dev) (n : Nat) : Chan := Tab.get {} d.chans n
def Dev.updChan (d : Dev) (n : Nat) (f : Chan → Chan) : Dev := { d with chans := Tab.upd {} d.chans n f }
def Dev.engine (d : Dev) (n : Nat) : Engine := Tab.get {} d.engines n
def Dev.updEngine (d : Dev) (n : Nat) (f : Engine → Engine) : Dev := { d with engines := Tab.upd {} d.engines n f }
def Dev.pair (d : Dev) (n : Nat) : Pair_ := Tab.get {} d.pairs n
def Dev.updPair (d : Dev) (n : Nat) (f : Pair_ → Pair_) : Dev := { d with pairs := Tab.upd {} d.pairs n f }
def Dev.source (d : Dev) (n : Nat) : Source := Tab.get {} d.sources n
def Dev.updSource (d : Dev) (n : Nat) (f : Source → Source) : Dev := { d with sources := Tab.upd {} d.sources n f }
def Dev.evq (d : Dev) (n : Nat) : Evq := Tab.get {} d.evqs n
def Dev.updEvq (d : Dev) (n : Nat) (f : Evq → Evq) : Dev := { d with evqs := Tab.upd {} d.evqs n f }
def Dev.pmc (d : Dev) (n : Nat) : Pmc := Tab.get {} d.pmcs n
def Dev.updPmc (d : Dev) (n : Nat) (f : Pmc → Pmc) : Dev := { d with pmcs := Tab.upd {} d.pmcs n f }
def Dev.agent? (d : Dev) (a : BitVec 12) : Option Agent := Tab.find d.agents a.toNat
def Dev.updAgent (d : Dev) (a : BitVec 12) (f : Agent → Agent) : Dev := { d with agents := Tab.upd {} d.agents a.toNat f }
def Dev.xact? (d : Dev) (i : Nat) : Option Xact := Tab.find d.xacts i
def Dev.putXact (d : Dev) (i : Nat) (x : Xact) : Dev := { d with xacts := Tab.put d.xacts i x }
def Dev.dropXact (d : Dev) (i : Nat) : Dev := { d with xacts := Tab.del d.xacts i }
def Dev.updXact (d : Dev) (i : Nat) (f : Xact → Xact) : Dev :=
  match Tab.find d.xacts i with
  | some x => { d with xacts := Tab.put d.xacts i (f x) }
  | none => d
def Dev.setGlob (d : Dev) (f : Glob → Glob) : Dev := { d with glob := f d.glob }
def Dev.setErr (d : Dev) (f : Err → Err) : Dev := { d with err := f d.err }
def Dev.setSec (d : Dev) (f : Sec → Sec) : Dev := { d with sec := f d.sec }
def Dev.setPwr (d : Dev) (f : Pwr → Pwr) : Dev := { d with pwr := f d.pwr }

/-- Runs `f` over a list of things, each on the device the one before left. -/
def Dev.each {α : Type} (d : Dev) (l : List α) (f : Dev → α → Dev) : Dev := l.foldl f d

/-- A request enters a crossing, behind what entered it before (R114). -/
def Dev.putSent (d : Dev) (i : Nat) (x : Xact) : Dev :=
  { d with xacts := Tab.put d.xacts i { x with sent := d.nextId }, nextId := d.nextId + 1 }

/-- Starts a request: gives it the next number. -/
def Dev.start (d : Dev) (x : Xact) : Dev × Nat :=
  ({ d with xacts := Tab.put d.xacts d.nextId x, nextId := d.nextId + 1 }, d.nextId)

/-- Appends an outgoing message. -/
def emit (d : Dev) (m : Msg) : Dev := { d with out := d.out ++ [m] }

/-- Counts one free value drawn. -/
def Dev.drawn (d : Dev) : Dev := d.setGlob (fun g => { g with draws := g.draws + 1 })

/-- A number up to `n` that the spec does not give: a free value. -/
def Dev.freeUpTo (d : Dev) (n : Nat) : Nat := (Config.freeWord d.glob.draws).toNat % (n + 1)

-- power, quads, tiles
/-- The domain of a port, a quad, a tile and a controller (R14). -/
def portDom (p : Nat) : Nat := p + 2
def quadDom (q : Nat) : Nat := if q = 0 then 1 else 10 + q
def tileDom (t : Nat) : Nat := 16 + t
def mcDom (m : Nat) : Nat := 24 + m
/-- A domain is on. -/
def Dev.domOn (d : Dev) (n : Nat) : Bool := d.pwr.on.getLsbD n
/-- The power domain of a clock island (R456). -/
def islandDom (i : Nat) : Nat := if i ≤ 10 then i else if i = 11 then 1 else i - 1

/-- A thermal shutdown has stopped a tile's clock (R462). -/
def Dev.tileStopped (d : Dev) (i : Nat) : Bool := d.pwr.shut && decide (17 ≤ i) && decide (i ≤ 24)
/-- A clock island runs: its domain is on, its PLL is locked and its clock is not stopped (R15, R462). -/
def Dev.islandRuns (d : Dev) (i : Nat) : Bool := d.domOn (islandDom i) && !d.pwr.unlocked.getLsbD i && !d.tileStopped i
/-- The clock island of a domain's one block, PD0 to PD10 and the controllers (R14). -/
def domIsland (dom : Nat) : Nat := if dom ≤ 10 then dom else dom + 1
/-- A controller runs. -/
def Dev.mcRuns (d : Dev) (m : Nat) : Bool := d.islandRuns (25 + m)
/-- Engine agent ID (R237). -/
def engAgent (e : Nat) : BitVec 12 := BitVec.ofNat 12 (4064 + e)
/-- Quad of an engine. -/
def quadOf (e : Nat) : Nat := e / 4
/-- State of an engine: OFF while its quad's domain is off (R272). -/
def Dev.engSt (d : Dev) (e : Nat) : EngState := if d.domOn (quadDom (quadOf e)) then (d.engine e).st else .off
/-- The clock island of an engine's quad runs (R15). -/
def Dev.quadRuns (d : Dev) (e : Nat) : Bool := d.islandRuns (11 + quadOf e)
/-- Q0 is halted (R519). -/
def Dev.q0Halted (d : Dev) : Bool := (List.range 4).any (fun e => (d.engine e).st == .halted)
/-- Background work of Q0 runs. -/
def Dev.q0Runs (d : Dev) : Bool := !d.q0Halted && d.islandRuns 11
/-- A tile exists on the part (R2). -/
def Dev.tilePresent (d : Dev) (t : Nat) : Bool := decide (t < 4) || (d.glob.part1024 && decide (t < 8))
/-- State of a tile (R139). -/
def Dev.tileSt (d : Dev) (t : Nat) : TileState := if d.tilePresent t then (d.tile t).st else .absent
/-- A bank takes no part: retired, or unrepaired since its tile's last test (R141, R395). -/
def Dev.bankOut (d : Dev) (t b : Nat) : Bool := (d.tile t).retireMap.getLsbD b || (d.tile t).unrepaired.getLsbD b
/-- A way is usable in a set (R117). -/
def Dev.usable (d : Dev) (s cset w : Nat) : Bool :=
  (decide (w < 8) || d.glob.part1024) && d.tileSt (tileOfWay w) == .online && !d.bankOut (tileOfWay w) (bankOf s cset)
/-- The usable limit of the population in force (R214). -/
def Dev.limit (d : Dev) : Nat := usableLimit d.glob.pop.density.toNat
/-- The device is in SERVICE. -/
def Dev.inService (d : Dev) : Bool := d.glob.dev == .service
/-- A port's link is up and its domain on. -/
def Dev.portUp (d : Dev) (p : Nat) : Bool := (d.port p).link == .up && d.domOn (portDom p)
/-- MEM_OPEN or IO_UP as PRT_LINK_STATUS.STATE codes it. -/
def Dev.linkCode (d : Dev) (p : Nat) : Nat :=
  match (d.port p).link with
  | .down => 0
  | .training => 1
  | .up => if (List.range 16).any (fun m => (d.ld p m).st != .unbound) then 3 else 2

-- events
/-- The domain of the block that is an event source, whose output buffer lies there (R14, R345). DESIGN CHOICE (log entry 140):
a global source that no one block raises, or whose block the spec does not name, keeps its buffer with the event fabric, in PD0
and the always-on island. -/
def srcDom (s : Nat) : Nat :=
  if s < 64 then portDom (s / 8)
  else if s < 192 then 10
  else if s < 256 then tileDom ((s - 192) / 8)
  else if s < 288 then mcDom ((s - 256) / 8)
  else if s < 384 then quadDom ((s - 288) / 16)
  else if s < 390 then 10
  else if 416 ≤ s ∧ s < 424 then portDom (s - 416)
  else if s = 449 ∨ s = 454 then 10
  else if s = 458 then 1
  else 0

/-- The clock island of a source's block, and of its output buffer (R14). -/
def srcIsland (s : Nat) : Nat :=
  if 288 ≤ s ∧ s < 384 then 11 + (s - 288) / 16 else if s = 458 then 11 else domIsland (srcDom s)

/-- Raises a record from a source (R346): its count goes into SEQ and advances; a full buffer loses the record. -/
def raise (d : Dev) (src cls sev : Nat) (i : Info) : Dev :=
  let s := d.source src
  let r : Rec := ⟨src, cls, sev, s.seq.toNat, i, d.glob.time, s.route⟩
  if s.buf.length < 2 then d.updSource src (fun s => { s with seq := s.seq + 1, buf := s.buf ++ [r] })
  else { d.updSource src (fun s => { s with seq := s.seq + 1 }) with evt := { d.evt with lost := satInc 32 d.evt.lost } }

/-- W0-W3 of a record as its words (R344). -/
def Rec.w0 (r : Rec) : Word :=
  BitVec.ofNat 18 (r.src + fld 9 r.cls + fld 12 r.sev + fld 14 r.seq)
def Rec.words (r : Rec) : List Word :=
  [r.w0, r.info.extractLsb' 0 18, r.info.extractLsb' 18 18, r.info.extractLsb' 36 18]

-- switch-offs
/-- A domain's switch-off has been accepted and has not ended (R454). -/
def Dev.leaving (d : Dev) (dom : Nat) : Bool :=
  match d.pwr.busy with
  | some r => !r.on && decide (r.domain = dom)
  | none => false

/-- PWR_BUSY (R463). -/
def powerBusy (d : Dev) (dom : Nat) (on : Bool) (reason : Nat) : Dev :=
  raise (d.setPwr (fun p => { p with
    lastDomain := BitVec.ofNat 5 dom, lastOn := on, lastResult := BitVec.ofNat 4 reason })) 481 0 1
    (info (dom + fld 5 (b2n on) + fld 6 reason))

-- error log
/-- Who made the request an error met (R361). -/
structure Who where
  agent : BitVec 12 := 0
  epoch : BitVec 4 := 0
  view : BitVec 12 := 0
  port : BitVec 3 := 0
  ld : BitVec 4 := 0
  deriving DecidableEq, Repr

/-- What is logged. -/
structure Fail where
  kind : Nat
  src : Nat
  va : Bool := false
  poisoned : Bool := false
  loc : Nat
  who : Who := {}
  detail : Nat := 0
  deriving DecidableEq, Repr

/-- An entry matches an error (R362). -/
def LogEntry.matches (e : LogEntry) (f : Fail) : Bool :=
  decide (e.kind = f.kind) && e.location == info f.loc
    && (!(f.kind == 15 || f.kind == 16 || f.kind == 17 || f.kind == 19) || e.view == f.who.view)

/-- Lowest free entry of the log. -/
def freeLog (t : Tab LogEntry) : Option Nat := firstIdx (fun i => (Tab.find t i).isNone) 512

/-- The entry an error displaces: kind 1 or 10 with the oldest LAST, lowest index first (R363). -/
def oldestCe (t : Tab LogEntry) : Option Nat :=
  (t.foldl (fun (b : Option (Nat × Nat)) (p : Nat × LogEntry) =>
    if p.2.kind = 1 ∨ p.2.kind = 10 then
      match b with
      | none => some (p.1, p.2.last)
      | some (_, l) => if p.2.last < l then some (p.1, p.2.last) else b
    else b) none).map (·.1)

/-- A new entry: one occurrence, one update (R361). -/
def newEntry (now : Nat) (f : Fail) : LogEntry :=
  { source := f.src, kind := f.kind, va := f.va, poisoned := f.poisoned, location := info f.loc, agent := f.who.agent,
    epoch := f.who.epoch, view := f.who.view, port := f.who.port, ld := f.who.ld, count := 1, first := now, last := now,
    detail := BitVec.ofNat 18 f.detail, upd := 1 }

/-- Drops an error (R363). -/
def dropLog (d : Dev) : Dev :=
  let d := d.setErr (fun e => { e with drops := satInc 32 e.drops })
  if d.err.fullRaised then d
  else raise (d.setErr (fun e => { e with fullRaised := true })) 455 0 1 (info (min d.err.drops 0xFFFF))

/-- A further occurrence (R362). -/
def LogEntry.again (e : LogEntry) (now : Nat) (f : Fail) : LogEntry :=
  { e with count := satInc 18 e.count, last := now, detail := BitVec.ofNat 18 f.detail, poisoned := f.poisoned,
           upd := e.upd + 1 }

/-- Logs an error (R362, R363). -/
def logErr (d : Dev) (f : Fail) : Dev :=
  let now := d.glob.time
  match (d.err.log.find? (fun p => p.2.matches f)) with
  | some (i, e) =>
    d.setErr (fun r => { r with log := Tab.put r.log i (e.again now f) })
  | none =>
    match freeLog d.err.log with
    | some i => d.setErr (fun r => { r with log := Tab.put r.log i (newEntry now f) })
    | none =>
      if f.kind = 1 ∨ f.kind = 10 then dropLog d
      else match oldestCe d.err.log with
        | some i => d.setErr (fun r => { r with log := Tab.put r.log i (newEntry now f) })
        | none => dropLog d

/-- Frees a log entry; the log then has a free entry (R363, R364). -/
def freeEntry (d : Dev) (i : Nat) : Dev := d.setErr (fun r => { r with log := Tab.del r.log i, fullRaised := false })

/-- Kinds whose LOCATION is a DPA (R360). -/
def kindHasDpa (k : Nat) : Bool := (decide (1 ≤ k) && decide (k ≤ 9)) || k == 18

/-- Frees every entry about a line (Clear Poison, R364, R365). -/
def freeLine (d : Dev) (dpa : Nat) : Dev :=
  d.each ((d.err.log.filter (fun p => kindHasDpa p.2.kind
    && decide (bits p.2.location.toNat 39 6 = bits dpa 39 6))).map (·.1)) freeEntry

-- flips
/-- Paths whose writes carry a DPA (R374). -/
def flipHasDpa (path : Nat) : Bool := path == 1 || path == 5 || path == 6 || path == 7 || path == 10

/-- The armed flip hits this write (R374). -/
def Dev.flips (d : Dev) (path inst dpa : Nat) : Bool :=
  d.err.flipArm && decide (d.err.flipPath.toNat = path) && decide (d.err.flipInst.toNat = inst)
    && (!d.err.flipMatch || !flipHasDpa path || decide (bits d.err.flipAddr.toNat 39 6 = bits dpa 39 6))

/-- The flip fires (R375). -/
def fireFlip (d : Dev) (path inst dpa : Nat) : Dev :=
  raise (d.setErr (fun e => { e with flipArm := false, flipFired := true })) 456 0 0
    (info (path + fld 4 inst + (if flipHasDpa path then fld 9 (bits dpa 39 6) else 0)))

/-- Runs a write that a flip may corrupt: the device after it, and the data bits (below 64) and check bits (from 64)
left wrong. `w` is the number of data bits the mask reaches. -/
def flipWrite (d : Dev) (path inst dpa w : Nat) (chk : Bool) : Dev × Nat :=
  if d.flips path inst dpa then
    (fireFlip d path inst dpa, d.err.flipMask.toNat % 2 ^ w + (if chk then fld 64 d.err.flipChk.toNat else 0))
  else (d, 0)

/-- Number of wrong bits a stored mask of flips holds. -/
def wrongBits (m : Nat) : Nat := onesIn 72 m

/-- Lowest wrong bit. -/
def lowBit (m : Nat) : Nat := (firstIdx (fun i => m.testBit i) 72).getD 0

/-- What the check finds: the operand's error, and the bits a flip left wrong (R375). -/
def eccWith (e : Ecc) (m : Nat) : Ecc :=
  match e with
  | .ue => .ue
  | .ok => if m = 0 then .ok else if wrongBits m = 1 then .ce (BitVec.ofNat 10 (lowBit m)) else .ue
  | .ce b => if m = 0 then .ce b else .ue

/-- Symbols (bytes) a flip of a line leaves wrong: data bytes 0-7 under the mask, and check byte 0 (paths 5, 6). -/
def wrongSymbols (m : Nat) : Nat :=
  (List.range 9).foldl (fun n i => if m / 2 ^ (8 * i) % 256 = 0 then n else n + 1) 0

-- counters
/-- Attributes of a counted event (R469): class bits, privilege bits, agent, DPA. -/
structure Counted where
  cls : Nat := 0
  priv : Nat := 0
  agent : Option (BitVec 12) := none
  dpa : Option Nat := none
  deriving DecidableEq, Repr

/-- Which filters can apply to an event code: class, privilege, master, address (R468). -/
def pmcFilters (code : Nat) : Bool × Bool × Bool × Bool :=
  if code = 1 ∨ code = 2 then (true, false, true, true)
  else if code = 3 ∨ code = 4 then (false, false, true, false)
  else if code = 6 ∨ code = 8 then (false, false, true, true)
  else if 0x10 ≤ code ∧ code ≤ 0x18 then (true, true, true, true)
  else if 0x20 ≤ code ∧ code ≤ 0x22 then (true, true, true, true)
  else if code = 0x23 ∨ code = 0x24 then (false, false, false, true)
  else (false, false, false, false)

/-- An event passes the filters a counter enables (R469). -/
def pmcQualifies (p : Pmc) (sel : BitVec 32) (code : Nat) (c : Counted) : Bool :=
  let (fc, fp, fm, fa) := pmcFilters code
  let s := sel.toNat
  let cls := bits s 13 8
  let priv := bits s 16 14
  (!fc || decide (cls = 0) || decide (cls &&& c.cls ≠ 0))
    && (!fp || decide (priv = 0) || decide (priv &&& c.priv ≠ 0))
    && (!(fm && bitAt s 17) || (match c.agent with
        | none => false
        | some a => decide (a.toNat &&& bits p.master.toNat 27 16 = bits p.master.toNat 11 0 &&& bits p.master.toNat 27 16)))
    && (!(fa && bitAt s 18) || (match c.dpa with
        | none => false
        | some x => decide (bits p.addrBase.toNat 39 6 ≤ bits x 39 6) && decide (bits x 39 6 < bits p.addrLimit.toNat 39 6)))

/-- Overflows to report, one record for those of one cycle (R471): those of one always-on time count as one cycle, unless a counter
would overflow twice in it (DESIGN CHOICE, log entry 143). -/
def freshPut (l : List (Nat × BitVec 9)) (t : Nat) (bits : BitVec 9) : List (Nat × BitVec 9) :=
  match l.getLast? with
  | some (u, f) => if u = t ∧ f &&& bits = 0 then l.dropLast ++ [(t, f ||| bits)] else l ++ [(t, bits)]
  | none => [(t, bits)]

/-- Counters overflow at a time (R467, R471). -/
def Pmc.overflow (p : Pmc) (t : Nat) (bits : BitVec 9) (raises : Bool) : Pmc :=
  { p with ovf := p.ovf ||| bits, fresh := if raises then freshPut p.fresh t bits else p.fresh }

/-- Adds to the counters of one block (R466, R470): counter `k`, with the carry of the one before. The pair beside it gathers the
counters that overflow, and whether one of them raises a record. -/
def pmcBump (p : Pmc) (t code n : Nat) (c : Counted) : Pmc :=
  let r := (List.range 8).foldl (fun (acc : (Pmc × Nat) × (BitVec 9 × Bool)) k =>
    let p := acc.1.1
    let sel := Tab.get 0 p.sel k
    let add := if !sel.getLsbD 21 then 0
      else if k ≠ 0 && sel.getLsbD 19 then acc.1.2
      else if decide (sel.toNat % 256 = code) && pmcQualifies p sel code c then n else 0
    let v := (Tab.get 0 p.cnt k).toNat + add
    let carry := v / 2 ^ 48
    ((if add = 0 then p else { p with cnt := Tab.put p.cnt k (BitVec.ofNat 48 v) }, carry),
     if carry = 0 then acc.2 else (acc.2.1 ||| BitVec.ofNat 9 (2 ^ k), acc.2.2 || sel.getLsbD 20))) ((p, 0), (0, false))
  if r.2.1 = 0 then r.1.1 else r.1.1.overflow t r.2.1 r.2.2

/-- A block's domain is on (R467). -/
def Dev.pmcOn (d : Dev) (b : Nat) : Bool :=
  if b < 8 then d.domOn (portDom b) else if b < 24 then d.domOn 10 else d.domOn (mcDom (b - 24))

/-- Counts `n` events of a code in a block. -/
def count (d : Dev) (b code n : Nat) (c : Counted) : Dev :=
  if (d.pmc b).run && d.pmcOn b then d.updPmc b (fun p => pmcBump p d.glob.time code n c) else d

/-- A walker's lookups of a slice's sets count as LOOKUP, of class maintenance and engine supervisor privilege (R469). They have
no agent and no DPA (log entry 51). -/
def countWalk (d : Dev) (s n : Nat) : Dev := count d (8 + s) 0x10 n { cls := 8, priv := 4 }

-- interrupts
/-- Sends an MSI-X vector (R343, R350, R493): dropped while the link is down, pending while the vector is masked. A
table entry nothing has written is masked, as PCIe resets it (log entry 13). -/
def sendMsix (d : Dev) (p m vec : Nat) : Dev :=
  if d.portUp p then
    match Tab.find (d.ld p m).msix vec with
    | some (_, _, false) => emit d (.msix p m vec)
    | _ => d.updLd p m (fun l => { l with msixPending := l.msixPending ||| BitVec.ofNat 64 (2 ^ vec) })
  else d

/-- Event LD of a port (R349). -/
def Dev.eventLd (d : Dev) (p : Nat) : Nat := bits d.evt.portLd.toNat (4 * p + 3) (4 * p)

-- memory
/-- What the code of a line in a channel says (R217, R219). -/
inductive LineRead where
  | good | corrected (n : Nat) | poisoned | ue
  deriving DecidableEq, Repr

/-- Wrong check symbols of a line as its controller sees them: in the cached check line, or in the channel's (R220). -/
def Dev.chkWrong (d : Dev) (line : Nat) : Nat :=
  let c := d.chan (chanOf (64 * line))
  match c.check.find? (fun e => decide (e.csec = csecOf (64 * line))) with
  | some e => Tab.get 0 e.wrong line
  | none => Tab.get 0 c.badChk line

/-- Decodes a line with `n` wrong symbols beside those a flip left (R217, R219): a line with no code listed has undefined
contents and decodes as uncorrectable (log entry 5). -/
def Dev.decodeLine (d : Dev) (line n : Nat) : LineRead :=
  let bad := n + Tab.get 0 (d.chan (chanOf (64 * line))).bad line + d.chkWrong line
  match d.mem.code line with
  | none => .ue
  | some .good => if bad = 0 then .good else if bad ≤ 2 then .corrected bad else .ue
  | some .poisoned => if bad ≤ 1 then .poisoned else .ue

/-- The data bytes of a line in its channel. -/
def Dev.memLine (d : Dev) (line : Nat) : Line := d.mem.lineData d.glob.draws line

/-- Write-buffer entries of a line, oldest first. -/
def Dev.wbOf (d : Dev) (line : Nat) : List WbEntry := (d.mc (mcOf (64 * line))).wb.filter (fun e => decide (e.line = line))

/-- A line as its channel holds it once the repair register has written it back (R218): its data and whether it reads as
poison. -/
def Dev.stored (d : Dev) (line : Nat) : Line × Bool :=
  match (d.chan (chanOf (64 * line))).repair.find? (fun r => decide (r.1 = line)) with
  | some r => (r.2.1, r.2.2)
  | none => (d.memLine line, match d.decodeLine line 0 with
    | .poisoned => true
    | .ue => true
    | _ => false)

/-- An entry holds its whole line. -/
def WbEntry.full (e : WbEntry) : Bool := e.mask == BitVec.allOnes 64

/-- What the data of an entry shows when it is read: `c` beside what a flip left wrong and what was found before (R357). -/
def WbEntry.ecc (e : WbEntry) (c : Ecc) : Ecc := if e.ue then .ue else eccWith c e.bad

/-- An entry read over an older line and its poison (R223, R357): one that holds its whole line takes nothing from it. -/
def WbEntry.onto (e : WbEntry) (old : Line × Bool) : Line × Bool :=
  let bad := e.poison || e.ecc .ok == .ue
  if e.full then (e.data, bad) else (mergeLine old.1 e.data e.mask, old.2 || bad)

/-- A line with the write-buffer entries of the line over it, the oldest first. -/
def mergedOver (old : Line × Bool) (es : List WbEntry) : Line × Bool := es.foldl (fun l e => e.onto l) old

/-- The memory-side current value of a line (R21, R223): the entries of the write buffer over the line in its channel,
and whether it reads as poison. -/
def Dev.current (d : Dev) (line : Nat) : Line × Bool := mergedOver (d.stored line) (d.wbOf line)

/-- The pair at a DPA as memory holds it: 32 data bits, and whether its line is poisoned. -/
def Dev.pairAt (d : Dev) (dpa : Nat) : BitVec 32 × Bool :=
  let c := d.current (dpa / 64)
  (c.1.extractLsb' (8 * (dpa % 64)) 32, c.2)

/-- The engine acts as RECOVERY makes it act (R421). -/
def Dev.recovering (d : Dev) (e : Nat) : Bool := d.glob.dev == .recovery && decide (4 ≤ e)

-- copies of engines
/-- Drops a line from an engine's memory-view cache; a reservation in it ends (R292). -/
def Engine.dropMview (x : Engine) (line : Nat) : Engine :=
  { x with
    mview := x.mview.filter (fun l => !decide (l.line = line))
    rsv := match x.rsv with
      | some a => if a / 64 = line then none else x.rsv
      | none => none }

/-- A write of the engine updates its cached line (R238, R281, R296); what a flip left wrong goes with the bytes it was in
(R375). -/
def Engine.mvWrite (y : Engine) (w : LineWrite) : Engine :=
  { y with mview := y.mview.map (fun l =>
      if l.line = w.line then
        { l with data := mergeLine l.data w.data w.mask
                 bad := if w.mask.extractLsb' 0 8 = 0xFF#8 then 0 else l.bad
                 poison := if w.mask = BitVec.allOnes 64 then w.poison else l.poison || w.poison }
      else l) }

end Sys2Proof.Machine
end

