-- ==== Sys2Proof/Machine/Sha512.lean ====
section
/-! DEFINITION. SHA-512 and CRC-32, which the spec names by their standards (R318, R429, R435). PRESUMED: FIPS 180-4 and
IEEE 802.3 (log entry 7). -/

namespace Sys2Proof.Machine

-- constants: fractional bits of roots of primes
/-- Prime numbers below 410; no composite number among them is without a divisor below 21. -/
def smallPrimes : List Nat :=
  (List.range 410).filter (fun p => decide (2 ≤ p) && (List.range 19).all (fun i => p % (i + 2) ≠ 0 || p == i + 2))

/-- Greatest number whose `k`-th power is at most `x`, found from bit `n - 1` down on top of `r`. -/
def rootBits (k x : Nat) : Nat → Nat → Nat
  | 0, r => r
  | n + 1, r => rootBits k x n (if (r + 2 ^ n) ^ k ≤ x then r + 2 ^ n else r)

/-- First 64 bits of the fraction of the `k`-th root of a prime below 410. -/
def rootFraction (k p : Nat) : BitVec 64 := BitVec.ofNat 64 (rootBits k (p * 2 ^ (64 * k)) 69 0)

/-- Additive constants of the 80 rounds: cube roots of the first 80 primes. -/
def roundConstants : List (BitVec 64) := smallPrimes.map (rootFraction 3)

/-- Hash value before the first block: square roots of the first eight primes. -/
def hashStart : List (BitVec 64) := (smallPrimes.take 8).map (rootFraction 2)

-- rounds
/-- Exclusive or of rotations of a word, over what `z` starts with. -/
def xorRotations (x : BitVec 64) (rs : List Nat) (z : BitVec 64) : BitVec 64 := rs.foldl (fun y r => y ^^^ x.rotateRight r) z

/-- The hash value as two chains of four words, the newest first: a round puts one word on each. -/
structure Chains where
  up : List (BitVec 64)
  down : List (BitVec 64)
  deriving DecidableEq, Repr

/-- One round with its constant and message word added up. -/
def Chains.turn (c : Chains) (kw : BitVec 64) : Chains :=
  let u (i : Nat) : BitVec 64 := c.up.getD i 0
  let v (i : Nat) : BitVec 64 := c.down.getD i 0
  let choice := (v 0 &&& (v 1 ^^^ v 2)) ^^^ v 2
  let majority := ((u 0 ||| u 1) &&& u 2) ||| (u 0 &&& u 1)
  let t := xorRotations (v 0) [14, 18, 41] 0 + choice + v 3 + kw
  { up := (t + majority + xorRotations (u 0) [28, 34, 39] 0) :: c.up.take 3, down := (u 3 + t) :: c.down.take 3 }

/-- Message word that follows a window of 16. -/
def nextWord (w : List (BitVec 64)) : BitVec 64 :=
  let x := w.getD 1 0
  let y := w.getD 14 0
  w.getD 0 0 + w.getD 9 0 + xorRotations x [1, 8] (x >>> 7) + xorRotations y [19, 61] (y >>> 6)

/-- The rounds of a block: each uses the oldest word of the window. -/
def runRounds : List (BitVec 64) → List (BitVec 64) → Chains → Chains
  | [], _, c => c
  | k :: ks, w, c => runRounds ks (w.drop 1 ++ [nextWord w]) (c.turn (k + w.getD 0 0))

/-- A block of 16 words taken into the hash value. -/
def takeBlock (h w : List (BitVec 64)) : List (BitVec 64) :=
  let c := runRounds roundConstants w ⟨h.take 4, h.drop 4⟩
  List.zipWith (· + ·) h (c.up ++ c.down)

-- messages
/-- `n` bytes of a number, the most significant first. -/
def bigEndian (n x : Nat) : List Byte := ((List.range n).map (fun i => BitVec.ofNat 8 (x / 256 ^ i))).reverse

/-- The number bytes spell, the most significant first. -/
def bigNumber (bs : List Byte) : Nat := bs.foldl (fun n b => n * 256 + b.toNat) 0

/-- A message padded to whole blocks of 128 bytes. -/
def padded (bs : List Byte) : List Byte :=
  bs ++ [0x80] ++ List.replicate ((239 - bs.length % 128) % 128) 0 ++ bigEndian 16 (8 * bs.length)

/-- The 16 words of block `i`. -/
def blockWords (bs : List Byte) (i : Nat) : List (BitVec 64) :=
  (List.range 16).map (fun j => BitVec.ofNat 64 (bigNumber ((bs.drop (128 * i + 8 * j)).take 8)))

/-- SHA-512 of a byte string, byte 0 of the digest in the low bits. -/
def sha512 (bs : List Byte) : BitVec 512 :=
  let p := padded bs
  let h := (List.range (p.length / 128)).foldl (fun h i => takeBlock h (blockWords p i)) hashStart
  BitVec.ofNat 512 (bigNumber (h.flatMap (fun x => bigEndian 8 x.toNat)).reverse)

/-- Low `n` bytes of a number, little-endian. -/
def leBytes (n x : Nat) : List Byte := (List.range n).map (fun i => BitVec.ofNat 8 (x / 256 ^ i))

/-- One bit of CRC-32. -/
def crcBit (c : BitVec 32) : BitVec 32 := if c.getLsbD 0 then (c >>> 1) ^^^ 0xEDB88320#32 else c >>> 1

/-- One byte of CRC-32. -/
def crcByte (c : BitVec 32) (b : Byte) : BitVec 32 := (List.range 8).foldl (fun c _ => crcBit c) (c ^^^ b.setWidth 32)

/-- CRC-32 of IEEE 802.3. -/
def crc32 (bs : List Byte) : BitVec 32 := ~~~(bs.foldl crcByte (BitVec.allOnes 32))

end Sys2Proof.Machine
end

