-- ==== Sys2Proof/Machine/Journal.lean ====
section
/-! DEFINITION. The journal: entries, digests, ring and mirror (16_roles_and_security.md). -/

namespace Sys2Proof.Machine

/-- ORIGIN of an entry (R434). -/
def originField : Origin → Nat
  | .host p m => p.val + fld 3 m.val
  | .engine e => fld 8 1 + fld 9 e.val
  | .mgmt => fld 7 1
  | .q0 => 0

/-- ROLE of an unsigned change: the device for Q0, the operator otherwise (R425, R434). -/
def originRole : Origin → Nat
  | .q0 => 0
  | _ => 3

/-- The 96 bytes of an entry (R434). -/
def jBytes (e : JEntry) : List Byte :=
  leBytes 4 e.seq ++ leBytes 8 e.time.toNat ++ leBytes 1 e.role ++ leBytes 1 e.action ++ leBytes 2 e.origin.toNat
    ++ leBytes 4 e.target.toNat ++ leBytes 4 e.gen.toNat ++ leBytes 4 e.keyid.toNat ++ leBytes 4 e.flags.toNat
    ++ leBytes 32 e.old.toNat ++ leBytes 32 e.new.toNat

/-- The head digest after an entry (R435). -/
def jChain (h : BitVec 512) (e : JEntry) : BitVec 512 := sha512 (leBytes 64 h.toNat ++ jBytes e)

/-- First 32 bytes of the SHA-512 of a register value (R434). -/
def regDigest (n x : Nat) : BitVec 256 := (sha512 (leBytes n x)).setWidth 256

/-- TIME of an entry: the CXL timestamp now, zero if unset since power-on (R434). -/
def Dev.stamp (d : Dev) : BitVec 64 := if d.sec.timestampSet then d.sec.timestamp + BitVec.ofNat 64 (5 * d.glob.ticks) else 0

/-- What an entry records, beside its number, time and generation. -/
structure Change where
  role : Nat := 0
  action : Nat
  origin : Nat := 0
  target : Nat := 0
  keyid : BitVec 32 := 0
  flags : BitVec 3 := 0
  old : BitVec 256 := 0
  new : BitVec 256 := 0
  deriving DecidableEq, Repr

/-- The next entry for a change (R434). -/
def Dev.entryFor (d : Dev) (c : Change) : JEntry :=
  { seq := d.sec.nextSeq + 1, time := d.stamp, role := c.role, action := c.action, origin := BitVec.ofNat 16 c.origin,
    target := BitVec.ofNat 32 c.target, gen := d.glob.gen, keyid := c.keyid, flags := c.flags, old := c.old, new := c.new }

/-- Puts an entry into the ring (R435, R437): the entry it overwrites moves the base digest, and counts as a gap when
it was not mirrored. A mirror 4,096 entries behind is a fault. -/
def ringPut (d : Dev) (e : JEntry) : Dev :=
  let i := e.seq % 4096
  let old := Tab.find d.sec.journal i
  let lost := match old with
    | some o => decide (d.sec.mirrored < o.seq)
    | none => false
  let late := decide (d.sec.mirrored + 4096 ≤ e.seq)
  let d' := d.setSec (fun s => { s with
    journal := Tab.put s.journal i e, nextSeq := e.seq, head := jChain s.head e
    base := match old with
      | some o => jChain s.base o
      | none => s.base
    gaps := if lost then satInc 32 s.gaps else s.gaps, flashGap := s.flashGap || lost, mirrorFault := s.mirrorFault || late })
  if late && !d.sec.mirrorFault then raise d' 506 6 1 (info ((e.seq - d.sec.mirrored) % 2 ^ 32)) else d'

/-- The entries a ring of 4,096 holds up to number `n`, oldest first. -/
def ringList (t : Tab JEntry) (n : Nat) : List JEntry :=
  (List.range (min n 4096)).filterMap (fun i => Tab.find t ((n + 1 + i - min n 4096) % 4096))

/-- One entry reaches the flash copy (R516): a ring of 256 sectors of 42 entries, the sector erased as its first entry comes. -/
def Sec.mirrorOne (s : Sec) (e : JEntry) : Sec :=
  let ring := if e.seq / 42 = s.mirrored / 42 then s.flashRing else s.flashRing.filter (fun x => decide (x.1 / 42 ≠ e.seq % 10752 / 42))
  { s with
    flashRing := Tab.put ring (e.seq % 10752) e, mirrored := e.seq
    flashBase := match Tab.find s.flashRing ((e.seq + 6656) % 10752) with
      | some o => if o.seq + 4096 = e.seq then jChain s.flashBase o else s.flashBase
      | none => s.flashBase }

/-- The next entries reach flash, at most `k` of them, in SEQ order, and with them the head digest after the last (R437). -/
def Sec.mirrorNext (s : Sec) (k : Nat) : Sec :=
  let held := ringList s.journal s.nextSeq
  let s := ((held.filter (fun e => decide (s.mirrored < e.seq))).take k).foldl Sec.mirrorOne s
  { s with flashHead := (held.filter (fun e => decide (e.seq ≤ s.mirrored))).foldl jChain s.base }

/-- The entry about to be overwritten is the commit record of the package in force (R440). -/
def Dev.commitLeaves (d : Dev) : Option JEntry :=
  match Tab.find d.sec.journal ((d.sec.nextSeq + 1) % 4096), d.sec.inForce with
  | some o, some p => if o.action = 6 ∧ o.target.toNat = p.generation.toNat then some o else none
  | _, _ => none

/-- Keeps the commit record of the package in force (R440). -/
def repeatCommit (d : Dev) : Dev :=
  match d.commitLeaves with
  | some o =>
    let d := ringPut d { o with seq := d.sec.nextSeq + 1, time := d.stamp, flags := 5 }
    raise (d.setSec (fun s => s.mirrorNext 4096)) 510 6 1 (info (bits o.target.toNat 17 0 + fld 18 1))
  | none => d

/-- Appends an entry for a change that has taken effect (R435, R436). -/
def journal (d : Dev) (c : Change) : Dev :=
  let d := repeatCommit d
  ringPut d (d.entryFor c)

/-- An entry is made durable: it is in PD0 and, with every one before it, in flash (R436, R437). -/
def journalDurable (d : Dev) (c : Change) : Dev := (journal d { c with flags := c.flags ||| 1 }).setSec (fun s => s.mirrorNext 4096)

/-- Journals a register write that changed a value (R433 action 1). -/
def journalReg (d : Dev) (o : Origin) (off n old new : Nat) : Dev :=
  if old = new then d
  else journal d { role := originRole o, action := 1, origin := originField o, target := off, old := regDigest n old,
                   new := regDigest n new }

/-- W1-W3 of NARROW_WRITE and LOCK_WRITE (R378, R448). -/
def originInfo (o : Origin) (off : Nat) : Nat :=
  off % 2 ^ 25 + (match o with
    | .host p m => fld 25 m.val + fld 29 p.val
    | .engine e => fld 32 1 + fld 33 e.val
    | _ => 0)

/-- A write to a locked or used write-once field (R11, R433 action 2). -/
def lockWrite (d : Dev) (o : Origin) (off n held tried : Nat) : Dev :=
  let d := raise d 504 6 1 (info (originInfo o off))
  journal d { role := originRole o, action := 2, origin := originField o, target := off, old := regDigest n held,
              new := regDigest n tried }

/-- Words as bytes, each a little-endian dword (DESIGN CHOICE, log entry 136). -/
def wordBytes (ws : List Word) : List Byte := ws.flatMap (fun w => leBytes 4 w.toNat)

/-- First 32 bytes of the SHA-512 of words. -/
def wordDigest (ws : List Word) : BitVec 256 := (sha512 (wordBytes ws)).setWidth 256

/-- Journals a routine call that changed state (R433 action 3), with the digests of its body and of its completion results. -/
def journalCall (d : Dev) (o : Origin) (code arg : Nat) (body results : List Word) : Dev :=
  journal d { role := originRole o, action := 3, origin := originField o, target := code + fld 8 (arg % 4096),
              old := wordDigest body, new := wordDigest results }

/-- What flash holds of the journal (R437). -/
def Sec.flashView (s : Sec) : Sec :=
  { s with
    journal := (s.flashRing.filter (fun x => decide (s.mirrored < x.2.seq + 4096))).foldl (fun t x => Tab.put t (x.2.seq % 4096) x.2) []
    nextSeq := s.mirrored, base := s.flashBase, head := s.flashHead }

/-- Start-up rebuilds the journal from flash at power-on (R437): a RESTORE entry when it held entries. A recorded gap, or a head
recomputed from the base that is not the stored one, sets BROKEN and voids every earlier commit record. The journal goes on from
the recomputed head (DESIGN CHOICE, log entry 136). -/
def rebuildJournal (d : Dev) : Dev :=
  let es := ringList d.sec.journal d.sec.nextSeq
  let h := es.foldl jChain d.sec.base
  let broken := d.sec.flashGap || h != d.sec.head
  if es = [] ∧ broken = false then d
  else
    let d := d.setSec (fun s => { s with head := h, flashHead := h })
    let d := journal d { action := 14, target := es.length, flags := if broken then 2 else 0 }
    if broken then d.setSec (fun s => { s with pkgCommitted := false, flashGap := false }) else d

end Sys2Proof.Machine
end

