-- ==== Sys2Proof/Machine/Flags.lean ====
section
/-! DEFINITION. Results and flags of the engine's arithmetic (R251, R252): FLAGS is Z, N, C, V, F, E from bit 0 up. -/

namespace Sys2Proof.Machine

/-- Bit `i` of FLAGS set to `b`. -/
def setFlag (f : BitVec 6) (i : Nat) (b : Bool) : BitVec 6 :=
  if b then f ||| (1#6 <<< i) else f &&& ~~~(1#6 <<< i)

/-- Z and N from a result. -/
def flagsZN {w : Nat} (f : BitVec 6) (r : BitVec w) : BitVec 6 := setFlag (setFlag f 0 (r == 0#w)) 1 r.msb

/-- Z, N and C. -/
def flagsZNC {w : Nat} (f : BitVec 6) (r : BitVec w) (c : Bool) : BitVec 6 := setFlag (flagsZN f r) 2 c

/-- Z, N, C and V. -/
def flagsZNCV {w : Nat} (f : BitVec 6) (r : BitVec w) (c v : Bool) : BitVec 6 := setFlag (flagsZNC f r c) 3 v

/-- One or zero. -/
def carryIn (c : Bool) : Nat := if c then 1 else 0

/-- Sum with a carry in: result, and the flags of ADD and ADC. -/
def addFlags {w : Nat} (f : BitVec 6) (a b : BitVec w) (c : Bool) : BitVec w × BitVec 6 :=
  let n := a.toNat + b.toNat + carryIn c
  let r := BitVec.ofNat w n
  (r, flagsZNCV f r (decide (2 ^ w ≤ n)) (a.msb == b.msb && r.msb != a.msb))

/-- Difference with a borrow in (`c` = no borrow): result, and the flags of SUB, SBC and CMP. -/
def subFlags {w : Nat} (f : BitVec 6) (a b : BitVec w) (c : Bool) : BitVec w × BitVec 6 :=
  let r := a - b - BitVec.ofNat w (1 - carryIn c)
  (r, flagsZNCV f r (decide (b.toNat + (1 - carryIn c) ≤ a.toNat)) (a.msb != b.msb && r.msb != a.msb))

/-- SHL by `n`: C is the last bit shifted out. -/
def shlFlags {w : Nat} (f : BitVec 6) (a : BitVec w) (n : Nat) : BitVec w × BitVec 6 :=
  let r := a <<< n
  (r, flagsZNC f r (decide (n ≠ 0) && decide (n ≤ w) && a.getLsbD (w - n)))

/-- SHR by `n`. -/
def shrFlags {w : Nat} (f : BitVec 6) (a : BitVec w) (n : Nat) : BitVec w × BitVec 6 :=
  let r := a >>> n
  (r, flagsZNC f r (decide (n ≠ 0) && a.getLsbD (n - 1)))

/-- SAR by `n`: past the width the sign is what is shifted out. -/
def sarFlags {w : Nat} (f : BitVec 6) (a : BitVec w) (n : Nat) : BitVec w × BitVec 6 :=
  let r := a.sshiftRight n
  (r, flagsZNC f r (decide (n ≠ 0) && (if n ≤ w then a.getLsbD (n - 1) else a.msb)))

/-- ROL by `n` mod the width: the last bit shifted out of the top arrives in bit 0 (log entry 15). -/
def rolFlags {w : Nat} (f : BitVec 6) (a : BitVec w) (n : Nat) : BitVec w × BitVec 6 :=
  let r := a.rotateLeft (n % w)
  (r, flagsZNC f r (decide (n ≠ 0) && r.getLsbD 0))

/-- A shift of a type (R252): 0 SHL, 1 SHR, 2 SAR, 3 ROL. -/
def shiftFlags {w : Nat} (t : Nat) (f : BitVec 6) (a : BitVec w) (n : Nat) : BitVec w × BitVec 6 :=
  if t = 0 then shlFlags f a n else if t = 1 then shrFlags f a n else if t = 2 then sarFlags f a n else rolFlags f a n

/-- ALU and ALUP (R251): the result, none where d is unchanged, and the flags. `n` is the shift amount. -/
def aluFn {w : Nat} (fn : Nat) (f : BitVec 6) (d s : BitVec w) (n : Nat) : Option (BitVec w) × BitVec 6 :=
  match fn with
  | 0 => (some s, f)
  | 1 => let r := addFlags f d s false; (some r.1, r.2)
  | 2 => let r := subFlags f d s true; (some r.1, r.2)
  | 3 => let r := addFlags f d s (f.getLsbD 2); (some r.1, r.2)
  | 4 => let r := subFlags f d s (f.getLsbD 2); (some r.1, r.2)
  | 5 => (some (d &&& s), flagsZN f (d &&& s))
  | 6 => (some (d ||| s), flagsZN f (d ||| s))
  | 7 => (some (d ^^^ s), flagsZN f (d ^^^ s))
  | 8 => let r := shlFlags f d n; (some r.1, r.2)
  | 9 => let r := shrFlags f d n; (some r.1, r.2)
  | 10 => let r := sarFlags f d n; (some r.1, r.2)
  | 11 => let r := rolFlags f d n; (some r.1, r.2)
  | 12 => (none, (subFlags f d s true).2)
  | 13 => (none, flagsZN f (d &&& s))
  | 14 => let r := BitVec.ofNat w (d.toNat * s.toNat); (some r, flagsZN f r)
  | _ => let r := BitVec.ofNat w (d.toNat * s.toNat / 2 ^ w); (some r, flagsZN f r)

/-- The condition of BR and JC (R256). -/
def condHolds (f : BitVec 6) (cond : Nat) : Bool :=
  let z := f.getLsbD 0
  let n := f.getLsbD 1
  let c := f.getLsbD 2
  let v := f.getLsbD 3
  match cond with
  | 0 => true
  | 1 => z
  | 2 => !z
  | 3 => c
  | 4 => !c
  | 5 => n
  | 6 => !n
  | 7 => v
  | 8 => !v
  | 9 => c && !z
  | 10 => !c || z
  | 11 => n == v
  | 12 => n != v
  | 13 => !z && n == v
  | 14 => z || n != v
  | _ => f.getLsbD 4

end Sys2Proof.Machine
end

