-- ==== Sys2Proof/Machine/Operands.lean ====
section
/-! DEFINITION. Operands of engine instructions: registers and pairs, immediates and offsets, effective addresses
(R239, R242, R249, R253), and the words of the formats, which TVAL holds for ILLEGAL and PRIV (R267). -/

namespace Sys2Proof.Machine

def Engine.rg (e : Engine) (k : Nat) : Word := Tab.get 0 e.g k
def Engine.ra (e : Engine) (k : Nat) : Info := Tab.get 0 e.a k
def Engine.setG (e : Engine) (k : Nat) (v : Word) : Engine := { e with g := Tab.put e.g k v }
def Engine.setA (e : Engine) (k : Nat) (v : Info) : Engine := { e with a := Tab.put e.a k v }
/-- The pair Gk:Gk+1, Gk the low half (R239). -/
def Engine.rp (e : Engine) (k : Nat) : Pair := (e.rg (k + 1)) ++ (e.rg k)
def Engine.setP (e : Engine) (k : Nat) (v : Pair) : Engine := (e.setG k (v.extractLsb' 0 18)).setG (k + 1) (v.extractLsb' 18 18)
/-- Three registers as a 54-bit value, G[k] lowest (R255). -/
def Engine.rt (e : Engine) (k : Nat) : Info := (e.rg (k + 2)) ++ (e.rg (k + 1)) ++ (e.rg k)
def Engine.setT (e : Engine) (k : Nat) (v : Info) : Engine :=
  ((e.setG k (v.extractLsb' 0 18)).setG (k + 1) (v.extractLsb' 18 18)).setG (k + 2) (v.extractLsb' 36 18)

/-- Space code of an address register value (R242). -/
def spaceOf (v : Info) : Nat := (v.extractLsb' 52 2).toNat
/-- Word address of an address register value. -/
def waddr (v : Info) : Nat := (v.extractLsb' 0 52).toNat
/-- A value with its word address moved by `k` words modulo 2^52, its space code kept (R242). -/
def moveAddr (v : Info) (k : Int) : Info := (v.extractLsb' 52 2) ++ ((v.extractLsb' 0 52) + BitVec.ofInt 52 k)
/-- A value with its word address replaced. -/
def withWaddr (v : Info) (a : BitVec 52) : Info := (v.extractLsb' 52 2) ++ a

end Sys2Proof.Machine

namespace Sys2Proof

open Sys2Proof.Machine

/-- The immediate of the I format as a signed value (R249). -/
def ImmI.val (i : ImmI) : Int := match i.ext with | some w => w.toInt | none => i.imm7.toInt
/-- X. -/
def ImmI.x (i : ImmI) : Bool := i.ext.isSome
/-- With X = 1 the short field must be zero (R249). -/
def ImmI.ok (i : ImmI) : Bool := !i.x || i.imm7 == 0
def ImmI.len (i : ImmI) : Nat := 1 + b2n i.x
def OffM.val (o : OffM) : Int := match o.ext with | some w => w.toInt | none => o.off4.toInt
def OffM.x (o : OffM) : Bool := o.ext.isSome
def OffM.ok (o : OffM) : Bool := !o.x || o.off4 == 0
def OffM.len (o : OffM) : Nat := 1 + b2n o.x
def ImmA.val (i : ImmA) : Int := match i.ext with | some w => w.toInt | none => i.imm8.toInt
def ImmA.x (i : ImmA) : Bool := i.ext.isSome
def ImmA.ok (i : ImmA) : Bool := !i.x || i.imm8 == 0
def ImmA.len (i : ImmA) : Nat := 1 + b2n i.x
/-- imm6 is unsigned; the extension word is a signed value, zero-extended into the register as R255 has it. -/
def ImmL.val (i : ImmL) : Nat := match i.ext with | some w => w.toNat | none => i.imm6.toNat
def ImmL.x (i : ImmL) : Bool := i.ext.isSome
def ImmL.ok (i : ImmL) : Bool := !i.x || i.imm6 == 0
def ImmL.len (i : ImmL) : Nat := 1 + b2n i.x

end Sys2Proof

namespace Sys2Proof.Machine

-- instruction words (R249, R250)
def wordR (op d s fn : Nat) : Word := BitVec.ofNat 18 (fld 12 op + fld 8 d + fld 4 s + fn)
def wordI (op d : Nat) (i : ImmI) : Word := BitVec.ofNat 18 (fld 12 op + fld 8 d + fld 7 (b2n i.x) + i.imm7.toNat)
def wordM (op g a : Nat) (o : OffM) : Word :=
  BitVec.ofNat 18 (fld 12 op + fld 8 g + fld 5 a + fld 4 (b2n o.x) + o.off4.toNat)
def wordB (op c off : Nat) : Word := BitVec.ofNat 18 (fld 12 op + fld 8 c + off)
def wordAop (fn a lo : Nat) : Word := BitVec.ofNat 18 (fld 12 0x20 + fld 8 fn + fld 5 a + lo)
def wordAaddi (a : Nat) (i : ImmA) : Word := BitVec.ofNat 18 (fld 12 0x21 + fld 9 a + fld 8 (b2n i.x) + i.imm8.toNat)
def wordAli (a sp : Nat) (i : ImmL) : Word :=
  BitVec.ofNat 18 (fld 12 0x22 + fld 9 a + fld 7 sp + fld 6 (b2n i.x) + i.imm6.toNat)
def wordSys (sub arg : Nat) : Word := BitVec.ofNat 18 (fld 12 0x38 + fld 6 sub + arg)
def wordLabw (op a : Nat) : Word := BitVec.ofNat 18 (fld 12 op + fld 9 a)
def wordLabi (form a : Nat) : Word := BitVec.ofNat 18 (fld 12 0x3A + fld 10 form + fld 7 a)
def wordCmo (kind sw a coh unlock g : Nat) : Word :=
  BitVec.ofNat 18 (fld 12 0x3B + fld 10 kind + fld 9 sw + fld 6 a + fld 5 coh + fld 4 unlock + g)
def wordQ (op nb a g : Nat) : Word := BitVec.ofNat 18 (fld 12 op + fld 11 nb + fld 8 a + fld 4 g)
def wordIfill (a g : Nat) : Word := BitVec.ofNat 18 (fld 12 0x3F + fld 9 a + fld 5 g)

/-- Sub-operations of SYS that R258 leaves out, or whose argument has a bit set that must be zero. -/
def sysUndefined (w : Nat) : Bool :=
  let arg := bits w 5 0
  match bits w 11 6 with
  | 1 => arg == 0 || decide (8 ≤ arg)
  | 2 => false
  | 5 => decide (2 ≤ arg)
  | 7 => decide (16 ≤ arg)
  | n => decide (8 < n) || arg != 0

/-- Combinations of AOP that are undefined: functions 9-15, a register odd or too high where a pair or three registers are
used, a bit set that must be zero (R249, R250, R255). -/
def aopUndefined (w : Nat) : Bool :=
  let fn := bits w 11 8
  let g := bits w 4 1
  bitAt w 0 || decide (8 < fn) || (decide (fn < 2) && decide (13 < g)) || ((fn == 2 || fn == 5) && bitAt w 4)
    || (fn == 6 && decide (4 ≤ g)) || ((fn == 4 || fn == 7 || fn == 8) && bitAt w 1)

/-- Words that are no instruction (R249-R258, R260, R261): an opcode, function or combination that is undefined, a reserved
field that is not zero, an odd register for a pair, a G index above 13 for three registers, an X that is not allowed, an
immediate or offset beside X = 1. -/
def undefinedWord (w : Word) : Bool :=
  let n := w.toNat
  let imm := bitAt n 7 && bits n 6 0 != 0
  let off := bitAt n 4 && bits n 3 0 != 0
  match bits n 17 12 with
  | 0x00 => false
  | 0x01 => bitAt n 8 || bitAt n 4
  | 0x08 => bitAt n 7 || decide (18 ≤ bits n 4 0)
  | 0x09 => imm || bitAt n 8
  | 0x0A => imm || bitAt n 8
  | 0x0B => imm || bitAt n 8
  | 0x0C => bitAt n 7 || bitAt n 8
  | 0x20 => aopUndefined n
  | 0x21 => bitAt n 8 && bits n 7 0 != 0
  | 0x22 => bitAt n 6 && bits n 5 0 != 0
  | 0x28 => false
  | 0x29 => bits n 7 0 != 0
  | 0x2A => bits n 11 0 != 0
  | 0x2B => bits n 7 0 != 0
  | 0x2C => false
  | 0x30 => false
  | 0x31 => false
  | 0x38 => sysUndefined n
  | 0x39 => bits n 8 0 != 0
  | 0x3A => bits n 11 10 == 3 || bits n 6 0 != 0
  | 0x3B =>
    let sw := bitAt n 9
    bits n 11 10 == 3 || (!sw && bits n 3 0 != 0) || (sw && bitAt n 5) || (bitAt n 4 && bits n 11 10 == 0) || (sw && bitAt n 0)
  | 0x3C => bits n 8 0 != 0
  | 0x3D => bits n 3 0 != 0
  | 0x3E => bitAt n 11 || bits n 3 0 != 0
  | 0x3F => bits n 4 0 != 0
  | op =>
    if decide (2 ≤ op) && decide (op ≤ 7) then imm
    else if decide (0x10 ≤ op) && decide (op ≤ 0x1B) then
      off || ((bitAt op 0 || op == 0x1A) && bitAt n 8)
    else true

/-- An instruction of two words (R249, R250): its format has X and sets it, or its opcode is JC or CALL. -/
def extended (w : Word) : Bool :=
  let n := w.toNat
  let op := bits n 17 12
  if decide (2 ≤ op) && decide (op ≤ 0x0B) && op != 8 then bitAt n 7
  else if decide (0x10 ≤ op) && decide (op ≤ 0x1B) then bitAt n 4
  else if op = 0x21 then bitAt n 8
  else if op = 0x22 then bitAt n 6
  else op == 0x29 || op == 0x2A

end Sys2Proof.Machine
end

