-- ==== Sys2Proof/Machine/EngCore.lean ====
section
/-! DEFINITION. What every engine instruction shares: traps and halts (R267-R273), the combining buffer's drains
(R253, R283), and the checks before an instruction runs (R247, R268). -/

namespace Sys2Proof.Machine

/-- One write of words `i .. i+n-1` of a combining line. -/
def ntWrite (l : NtLine) (i n : Nat) : LineWrite :=
  { line := l.line, data := l.data,
    mask := (List.range n).foldl (fun m k => m ||| wordMask (i + k)) 0,
    poison := (List.range n).any (fun k => l.marks.getLsbD (i + k)), page := l.page }

/-- Runs of consecutive valid words at or above `i`, in ascending order; `fuel` words are left to look at (R283). -/
def ntRuns (l : NtLine) : Nat → Nat → Nat → List LineWrite
  | 0, i, n => if n = 0 then [] else [ntWrite l (i - n) n]
  | fuel + 1, i, n =>
    if l.words.getLsbD i then ntRuns l fuel (i + 1) (n + 1)
    else if n = 0 then ntRuns l fuel (i + 1) 0
    else ntWrite l (i - n) n :: ntRuns l fuel (i + 1) 0

/-- The writes a combining line drains as: one full line, or one narrow write per run (R253, R283). -/
def ntWrites (l : NtLine) : List LineWrite :=
  if l.words = BitVec.allOnes 32 then
    [{ line := l.line, data := l.data, mask := BitVec.allOnes 64, poison := l.marks != 0, page := l.page }]
  else ntRuns l 32 0 0

/-- First byte a mask selects. -/
def maskLow (m : Mask) : Nat := (firstIdx (fun i => m.getLsbD i) 64).getD 0

/-- The store entries a combining line becomes when it starts to drain, one per write, each with the address of its lowest
word (R277, log entry 120). -/
def ntEntries (l : NtLine) : List LineWrite → Nat → List SbEntry
  | [], _ => []
  | w :: ws, id =>
    { id := id, kind := .store, addr := moveAddr l.addr ((maskLow w.mask / 2 : Nat) : Int), page := l.page, beyond := false, writes := [w], issued := false, xids := [],
      done := none, sup := l.sup, nt := true } :: ntEntries l ws (id + 1)

/-- A combining line starts to drain. -/
def Engine.drainLine (e : Engine) (line : Nat) : Engine :=
  match e.nt.find? (fun l => decide (l.line = line)) with
  | some l =>
    { e with nt := e.nt.filter (fun l => !decide (l.line = line)), sb := e.sb ++ ntEntries l (ntWrites l) e.nextSb,
             nextSb := e.nextSb + (ntWrites l).length }
  | none => e

/-- Every combining line starts to drain. -/
def Engine.drainNt (e : Engine) : Engine := (e.nt.map (·.line)).foldl Engine.drainLine e

/-- LAB_HANDLERS_n entry `k` names an engine. -/
def handlerNames (h : BitVec 32) (k e : Nat) : Bool := decide (bits h.toNat (8 * k + 4) (8 * k) = e)

/-- Marks the handler entries that name a halted engine failed (R78), enabled or not (DESIGN CHOICE, log entry 124). -/
def markHandlers (d : Dev) (e : Nat) : Dev :=
  d.each (List.range 8) (fun d p => d.updPort p (fun x => { x with
    hstatus := (List.range 4).foldl (fun m k => if handlerNames x.handlers k e then m ||| BitVec.ofNat 4 (2 ^ k) else m)
      x.hstatus }))

/-- A snapshot under way when Q0 halts never ends: the window keeps the last record (R414). -/
def abandonSnapshot (d : Dev) : Dev :=
  if d.resync.busy then
    let slots := if d.resync.seq = 0 then Tab.del d.resync.slots 0 else Tab.put d.resync.slots 0 (d.resync.seq.setWidth 18)
    { d with resync := { d.resync with busy := false, pending := false, slots := slots } }
  else d

/-- An engine halts, on SYS HALT (cause 0, no double trap) or on a double trap (R271, R273).
DESIGN CHOICE (log entry 146): the PC it keeps is that of the instruction that halted it. -/
def haltEngine (d : Dev) (e cause : Nat) (double : Bool) : Dev :=
  let d := d.updEngine e (fun x => { x.drainNt with
    st := .halted, double := double, rsv := none, wait := .none, budgetDue := false
    lastCause := if double then BitVec.ofNat 5 cause else x.lastCause })
  let d := markHandlers d e
  let d := if e < 4 then abandonSnapshot d else d
  raise d (288 + 4 * e) 2 2 (info ((d.engine e).pc.toNat + fld 14 cause + fld 19 (b2n double)))

/-- Trap entry (R269), or a double trap (R271). DESIGN CHOICE (log entry 146): a double trap writes no TCAUSE, TPC or TVAL and
ENG_TRAPS does not count it. -/
def trap (d : Dev) (e cause : Nat) (tpc : BitVec 14) (tval : Info) (imprecise : Bool := false) : Dev :=
  if (d.engine e).intrap then haltEngine d e cause true
  else d.updEngine e (fun x => { x.drainNt with
    st := .running, wait := .none, traps := satInc 32 x.traps
    tstat := BitVec.ofNat 3 (b2n x.sup + fld 1 (b2n x.trans) + fld 2 (b2n x.guard))
    sup := true, trans := false, guard := false, intrap := true
    tcause := BitVec.ofNat 6 (cause + fld 5 (b2n imprecise)), tpc := tpc, tval := tval
    lastCause := BitVec.ofNat 5 cause, rsv := none, scpFails := 0
    pc := BitVec.ofNat 14 (64 * x.tvec.toNat + 2 * cause) })

/-- A precise trap: TPC is the trapping instruction. -/
def trapHere (d : Dev) (e cause : Nat) (tval : Info) : Dev := trap d e cause (d.engine e).pc tval

/-- An instruction in user mode completes: the budget counts down, and at zero the BUDGET trap is due (R248). -/
def Engine.spend (x : Engine) : Engine :=
  if x.sup || x.budget == 0 then x
  else { x with budget := x.budget - 1, budgetDue := x.budgetDue || x.budget == 1 }

/-- An instruction of `len` words completes. -/
def advance (d : Dev) (e len : Nat) : Dev :=
  d.updEngine e (fun x => { x.spend with pc := x.pc + BitVec.ofNat 14 len, st := .running, wait := .none })

/-- An instruction completes with a jump. -/
def jumpTo (d : Dev) (e : Nat) (pc : BitVec 14) : Dev :=
  d.updEngine e (fun x => { x.spend with pc := pc, st := .running, wait := .none })

/-- ENG_CE of an instruction or scratch word (R277). -/
def engCe (d : Dev) (e : Nat) (scratch : Bool) (i : Nat) : Dev :=
  raise d (288 + 4 * e + 2) 1 1 (info (b2n scratch + fld 1 i))

/-- The check of instruction word `i` as it is fetched: corrected with ENG_CE, or the trap IFETCH_UE (R267). -/
def fetchCheck (d : Dev) (e i : Nat) (c : Ecc) (ok : Dev → Dev) : Dev :=
  match eccWith c (Tab.get 0 (d.engine e).imemBad i) with
  | .ok => ok d
  | .ce _ => ok (engCe (d.updEngine e (fun y => { y with imemBad := Tab.del y.imemBad i })) e false i)
  | .ue => trapHere d e 13 ((d.engine e).pc.setWidth 54)

/-- The word fetched: the row's own encoding, unless the machine fetched one that is no instruction (R249). -/
def fetchedWord (x : Env) (word : Word) : Word :=
  match x.raw with
  | some w => if undefinedWord w then w else word
  | none => word

/-- Runs one instruction under R268: a pending STORE_FAULT first, a due BUDGET trap in user mode, the check of the
fetched words, the fetch bound, ILLEGAL, PRIV, and then the instruction itself. Nothing runs unless the engine is
RUNNING and waits for nothing, and its quad has its clock (log entries 2 and 9). -/
def runInstr (d : Dev) (x : Env) (row : Word) (illegal priv : Bool) (body : Dev → Dev) : Dev :=
  let e := x.e.val
  let g := d.engine e
  let word := fetchedWord x row
  if d.engSt e != .running || g.wait != .none || !d.quadRuns e then d
  else match g.fault with
  | some a => trap (d.updEngine e (fun y => { y with fault := none })) e 16 g.pc a.2 true
  | none =>
    if g.budgetDue && !g.sup then trap (d.updEngine e (fun y => { y with budgetDue := false })) e 17 g.pc 0
    else
      let decoded (d : Dev) : Dev :=
        if !g.sup && decide (g.pc.toNat < 16 * g.iubase.toNat) then trapHere d e 6 (g.pc.setWidth 54)
        else if illegal || word != row then trapHere d e 1 (word.setWidth 54)
        else if priv && !g.sup then trapHere d e 2 (word.setWidth 54)
        else body d
      fetchCheck d e g.pc.toNat x.fetch (fun d =>
        if extended word && !undefinedWord word then fetchCheck d e (g.pc + 1).toNat x.ext decoded else decoded d)

/-- The check of a scratch word an instruction reads (R267): corrected with ENG_CE, or the trap LOCAL_UE.
DESIGN CHOICE (log entry 146): TVAL is the word's index in the scratchpad, without a space code. -/
def scratchCheck (d : Dev) (e i : Nat) (c : Ecc) (ok : Dev → Dev) : Dev :=
  match eccWith c (Tab.get 0 (d.engine e).scratchBad i) with
  | .ok => ok d
  | .ce _ => ok (engCe (d.updEngine e (fun y => { y with scratchBad := Tab.del y.scratchBad i })) e true i)
  | .ue => trapHere d e 14 (info i)

/-- A word of data scratch; one never written since the quad came on is a free value (R272, log entry 6). -/
def Dev.scratchWord (d : Dev) (e i : Nat) : Word :=
  match Tab.find (d.engine e).scratch i with
  | some w => w
  | none => Config.freeWord (d.glob.draws + 32768 * e + i)

/-- A word of instruction memory. -/
def Dev.imemWord (d : Dev) (e i : Nat) : Word :=
  match Tab.find (d.engine e).imem i with
  | some w => w
  | none => Config.freeWord (d.glob.draws + 32768 * e + 786432 + i)

/-- Flips of check bits: FLIP's CHK on instruction and scratch words reaches 6 check bits. -/
def sixBits (n : Nat) : Nat := n % 2 ^ 64 + fld 64 (n / 2 ^ 64 % 64)

/-- Writes a scratch word, through an armed flip on path 9 (R374). -/
def putScratch (d : Dev) (e i : Nat) (w : Word) : Dev :=
  let (d, bad) := flipWrite d 9 e 0 18 true
  let bad := sixBits bad
  d.updEngine e (fun y => { y with
    scratch := Tab.put y.scratch i w
    scratchBad := if bad = 0 then Tab.del y.scratchBad i else Tab.put y.scratchBad i bad })

/-- Writes an instruction word, through an armed flip on path 8. -/
def putImem (d : Dev) (e i : Nat) (w : Word) : Dev :=
  let (d, bad) := flipWrite d 8 e 0 18 true
  let bad := sixBits bad
  d.updEngine e (fun y => { y with
    imem := Tab.put y.imem i w
    imemBad := if bad = 0 then Tab.del y.imemBad i else Tab.put y.imemBad i bad })

end Sys2Proof.Machine
end

