-- ==== Sys2Proof/Machine/QueueOps.lean ====
section
/-! DEFINITION. Operations on queue pairs, event queues, wake queues and the event fabric (12_queues_and_events.md). -/

namespace Sys2Proof.Machine

-- pairs
def Pair_.isOpen (p : Pair_) : Bool := p.st == 2
/-- Packets committed and not popped (R330). -/
def Pair_.unpopped (p : Pair_) : Nat := (p.cmdProd - p.cmdCons).toNat
/-- An engine serves the pair (R338, R353). -/
def Pair_.serves (p : Pair_) (e : Nat) : Bool := decide (4 ≤ e) && decide (e < 24) && p.serve.getLsbD e
/-- Command credits (R337). -/
def Pair_.credits (p : Pair_) : Nat := if p.isOpen then 128 - p.unpopped else 0
/-- Credit pool of the completion queue. -/
def Pair_.poolNow (p : Pair_) : Nat := if p.isOpen then p.pool else 0
/-- The owner is this LD. -/
def Pair_.ownedBy (p : Pair_) (o : Origin) : Bool :=
  match o with
  | .host q m => decide (p.port.toNat = q.val) && decide (p.ld.toNat = m.val)
  | _ => false

/-- Port and LD fields of an event about an origin; zero for others than hosts. -/
def originPort : Origin → Nat
  | .host p _ => p.val
  | _ => 0
def originLd : Origin → Nat
  | .host _ m => m.val
  | _ => 0

/-- QUEUE_ACCESS (R333, R351). -/
def queueAccess (d : Dev) (n reason : Nat) (o : Origin) (evq : Bool) : Dev :=
  raise d 385 0 1 (info (n + fld 6 reason + fld 9 (originPort o) + fld 12 (originLd o) + fld 16 (b2n evq)))

/-- An engine's QPOP ends as for a queue that is not open (R263, R338). -/
def popFails (d : Dev) (e : Nat) : Dev :=
  match (d.engine e).wait with
  | .qpop _ _ g => advance (d.updEngine e (fun x => { x.setG g 0 with flags := setFlag x.flags 4 true })) e 1
  | _ => d

/-- An engine's QPUSH ends as for a queue that is not open. -/
def pushFails (d : Dev) (e n : Nat) : Dev :=
  match (d.engine e).wait with
  | .qpush q _ => if q = n then advance (d.updEngine e (fun x => { x with flags := setFlag x.flags 4 true })) e 1 else d
  | _ => d

/-- Closes a pair (R332): unpopped cells go, the indexes stay, waiting engines end their waits. Cause 0 is a full reset
or the entry to RECOVERY, which raise nothing (log entry 16). -/
def closePair (d : Dev) (n cause : Nat) : Dev :=
  let p := d.pair n
  if p.st = 0 then d
  else
    let d := d.updPair n (fun p => { p with
      st := 0, cmd := [], parity := [], waiters := [], poppedBy := [], modCount := 0, commits := [], differ := none
      lastClose := if cause = 0 then p.lastClose else BitVec.ofNat 2 cause })
    let d := d.each p.waiters popFails
    let d := d.each (List.range 24) (fun d e => pushFails d e n)
    if cause = 0 then d else raise d 389 0 (if cause = 1 then 0 else 1) (info (n + fld 6 cause))

/-- Closes the pairs an LD of a port owns (R54, R332). -/
def closePortPairs (d : Dev) (port cause : Nat) : Dev :=
  d.each (List.range 64) (fun d n => if (d.pair n).st ≠ 0 ∧ (d.pair n).port.toNat = port then closePair d n cause else d)

/-- The two copies of an index are found to differ (R342). -/
def pairMismatch (d : Dev) (n idx : Nat) : Dev :=
  raise (closePair d n 3) 386 2 2 (info (n + fld 7 idx))

/-- The lower-numbered of the indexes that differ (R342). -/
def lowest {w : Nat} (x y : Option (BitVec w)) : Option (BitVec w) :=
  match x, y with
  | some i, some j => some (if i ≤ j then i else j)
  | none, y => y
  | x, none => x

/-- A copy of an index of a pair has changed (R342): found at the next update. -/
def pairDiffers (d : Dev) (n : Nat) (i : Option (BitVec 2)) : Dev := d.updPair n (fun p => { p with differ := lowest p.differ i })

/-- An index of a pair has been updated: the copies of all four are compared (R342). -/
def pairUpdated (d : Dev) (n : Nat) : Dev :=
  match (d.pair n).differ with
  | some i => pairMismatch d n i.toNat
  | none => d

/-- Opens a pair for an LD (R331): the owner, and the state 1 while it opens. -/
def openPair (d : Dev) (n port ld : Nat) (value : BitVec 32) : Dev :=
  d.updPair n (fun p => { p with
    st := 1, port := BitVec.ofNat 3 port, ld := BitVec.ofNat 4 ld, cplVec := value.extractLsb' 1 6
    cplMsi := value.getLsbD 7 })

/-- A pair's opening ends (R331). -/
def openDone (d : Dev) (n : Nat) : Dev :=
  d.updPair n (fun p => { p with
    st := 2, cmd := [], cpl := [], parity := [], waiters := [], poppedBy := [], cmdProd := 0, cmdCons := 0, cplProd := 0
    cplHead := 0, pool := 128, openings := p.openings + 1, bad := 0, modCount := 0, commits := [], differ := none })

/-- Word `j` of a cell of a pair's command ring, none when it has not been written. -/
def Pair_.slot? (p : Pair_) (cell j : Nat) : Option Word := Tab.find p.cmd (cell * 64 + j)
/-- Clears a cell. -/
def Pair_.clearCell (p : Pair_) (cell : Nat) : Pair_ :=
  { p with cmd := p.cmd.filter (fun x => !decide (x.1 / 64 = cell)), parity := [] }

/-- Hands the oldest packet to an engine (R263, R338): scratch at A[a], the length in G[g]. -/
def popTo (d : Dev) (n e : Nat) (a : Info) (g : Nat) : Dev :=
  let p := d.pair n
  let cell := p.cmdCons.toNat % 128
  let w0 := (p.slot? cell 0).getD 0
  let len := bits w0.toNat 5 0 + 1
  let d := d.each (List.range len) (fun d j => putScratch d e (waddr a + j) ((p.slot? cell j).getD 0))
  let d := d.updPair n (fun p => { p.clearCell cell with
    parity := p.parity, cmdCons := p.cmdCons + 1, commits := p.commits.drop 1, poppedBy := if p.poppedBy.contains e then p.poppedBy else p.poppedBy ++ [e] })
  let d := d.updEngine e (fun x => { x.setG g (BitVec.ofNat 18 len) with
    flags := setFlag x.flags 4 false, rsv := none
    popped := some (n, w0.extractLsb' 8 10, ((p.slot? cell 1).getD 0).extractLsb' 0 8,
      (List.range (len - 2)).map (fun j => (p.slot? cell (2 + j)).getD 0)) })
  advance d e 1

/-- An engine pops a packet, and the indexes of the pair are compared (R342). -/
def popPacket (d : Dev) (n e : Nat) (a : Info) (g : Nat) : Dev := pairUpdated (popTo d n e a g) n

/-- The queue the catalogue firmware of an engine takes a packet from next (R338): of the queues it serves the one whose
oldest packet committed earliest, and of two that committed in one cycle the lower. It says which QPOP the firmware issues; the
QPOP itself pops the queue its register names (R263). -/
def Dev.nextQueue (d : Dev) (e : Nat) : Option Nat :=
  ((List.range 64).filterMap (fun n =>
    let p := d.pair n
    if p.isOpen && p.serves e then p.commits.head?.map (fun t => (t, n)) else none)).foldl (fun b x => match b with
      | some y => if x.1 < y.1 then some x else some y
      | none => some x) none |>.map (·.2)

/-- An engine waits in a QPOP of a pair. -/
def Dev.waitsPop (d : Dev) (n e : Nat) : Bool :=
  match (d.engine e).wait with
  | .qpop q _ _ => decide (q = n)
  | _ => false

/-- The engines waiting on a queue once another has begun to wait: in the order in which they began, of several in one cycle in
ascending engine number (R338). -/
def Dev.joinWaiters (d : Dev) (l : List Nat) (e : Nat) : List Nat :=
  let before (w : Nat) : Bool := !(decide ((d.engine w).waitT = d.glob.time) && decide (e < w))
  l.takeWhile before ++ e :: l.dropWhile before

/-- The first engine waiting on a pair that serves it takes its oldest packet (R338). -/
def serveWaiter (d : Dev) (n : Nat) : Dev :=
  let p := d.pair n
  match p.waiters.find? (fun e => p.serves e && d.waitsPop n e) with
  | none => d
  | some e =>
    if p.isOpen = false ∨ p.unpopped = 0 then d
    else
      let d := d.updPair n (fun p => { p with waiters := p.waiters.erase e })
      match (d.engine e).wait with
      | .qpop _ a g => popPacket d n e a g
      | _ => d

/-- Packets go to the engines that wait for them, one after another (R338). -/
def serveWaiters (d : Dev) (n : Nat) : Dev := d.each (List.range 24) (fun d _ => serveWaiter d n)

/-- Reason a cell is bad at its commit (R336): of several reasons the lowest (log entry 17). -/
def Pair_.badReason (p : Pair_) (cell len1 : Nat) : Nat :=
  let w0 := ((p.slot? cell 0).getD 0).toNat
  let w1 := ((p.slot? cell 1).getD 0).toNat
  if (List.range 64).any (fun j => (p.slot? cell j).isSome != decide (j ≤ len1)) then 1
  else if !p.parity.isEmpty then 2
  else if bits w0 7 6 ≠ 0 ∨ len1 = 0 ∨ bits w1 17 8 ≠ 0 then 3
  else 0

/-- The current cell commits or is found bad, once W0 and slot LEN1 are both there (R335, R336). -/
def tryCommit (d : Dev) (n : Nat) : Dev :=
  let p := d.pair n
  let cell := p.cmdProd.toNat % 128
  match p.slot? cell 0 with
  | none => d
  | some w0 =>
    let len1 := bits w0.toNat 5 0
    if (p.slot? cell len1).isNone then d
    else
      let r := p.badReason cell len1
      if r ≠ 0 then
        raise (d.updPair n (fun p => { p.clearCell cell with bad := satInc 32 p.bad })) 384 2 2
          (info (n + fld 6 cell + fld 13 r + fld 15 len1))
      else
        serveWaiter (pairUpdated (d.updPair n (fun p => { p with cmdProd := p.cmdProd + 1, commits := p.commits ++ [d.glob.time] })) n) n

/-- A completion interrupt (R343). -/
def pairInterrupt (d : Dev) (n : Nat) : Dev :=
  let p := d.pair n
  sendMsix (d.updPair n (fun p => { p with modCount := 0 })) p.port.toNat p.ld.toNat p.cplVec.toNat

/-- W1 of a completion record with PHASE as the device writes it (R339). -/
def withPhase (w : Word) (prod : BitVec 8) : Word := w.extractLsb' 0 17 |>.setWidth 18 |> (· ||| (if prod.msb then 0 else 0x20000))

/-- Pushes a record to a completion queue (R339, R341), a credit of the pool being there. -/
def pushRecord (d : Dev) (n : Nat) (ws : List Word) : Dev :=
  let p := d.pair n
  let cell := p.cplProd.toNat % 128
  let d := d.updPair n (fun p => { p with
    cpl := (List.range ws.length).foldl (fun t j =>
      Tab.put t (cell * 64 + j) (if j = 1 then withPhase (ws.getD j 0) p.cplProd else ws.getD j 0)) p.cpl
    cplProd := p.cplProd + 1, pool := p.pool - 1, modCount := p.modCount + 1 })
  let p := d.pair n
  if p.cplMsi && decide (p.thresh.toNat ≤ p.modCount) then pairInterrupt d n else d

/-- A record is pushed, and the indexes of the pair are compared (R342). -/
def pushPacket (d : Dev) (n : Nat) (ws : List Word) : Dev := pairUpdated (pushRecord d n ws) n

/-- An engine that pushes the completion record of the call it popped has ended the call (R299, R418). -/
def endPopped (d : Dev) (e n : Nat) (ws : List Word) : Dev :=
  d.updEngine e (fun y => { y with popped := match y.popped with
    | some (q, tag, x) => if q = n ∧ tag = (ws.getD 0 0).extractLsb' 8 10 then none else some (q, tag, x)
    | none => none })

/-- The host moves the completion head (R341, R342): each cell it passes returns a credit, and POOL stops at
128; an engine waiting for a credit pushes. DESIGN CHOICE (log entry 146): of several, the lowest-numbered first. -/
def moveCplHead (d : Dev) (n : Nat) (v : BitVec 8) : Dev :=
  let p := d.pair n
  let freed := (v - p.cplHead).toNat
  let d := pairUpdated (d.updPair n (fun p => { p with cplHead := v, pool := min 128 (p.pool + freed), modCount := 0 })) n
  d.each (List.range 24) (fun d e =>
    match (d.engine e).wait with
    | .qpush q ws =>
      if q = n ∧ (d.pair n).isOpen = true ∧ 0 < (d.pair n).pool then
        pushPacket (advance ((endPopped d e n ws).updEngine e (fun x => { x with flags := setFlag x.flags 4 false })) e 1) n ws
      else d
    | _ => d)

-- event queues
def Evq.unread (q : Evq) : Nat := (q.tail - q.head).toNat
def Evq.thresh (q : Evq) : Nat := bits q.ctrl.toNat 14 7

/-- The moment of an event queue's interrupt (R343): its vector, or ALERT_N for queue 8, which DEV_RST_N low releases (R508). -/
def evqInterrupt (d : Dev) (q : Nat) : Dev :=
  if q = 8 then (d.updEvq 8 (fun x => { x with modCount := 0 })).setGlob (fun g => { g with alertN := g.rstHigh })
  else if (d.evq q).ctrl.getLsbD 0 then
    sendMsix (d.updEvq q (fun x => { x with modCount := 0 })) q (d.eventLd q) (bits (d.evq q).ctrl.toNat 6 1)
  else d

/-- Copies a record to every LD of a port (R351). -/
def ldCopy (d : Dev) (q : Nat) (r : Rec) : Dev :=
  if q < 8 then
    d.each (List.range 16) (fun d m => d.updLd q m (fun l =>
      if l.records.length < 64 then { l with records := l.records ++ [r] }
      else { l with records := l.records.drop 1 ++ [r], recOverflow := true }))
  else d

/-- A queue's pointers are found to differ (R342): emptied, its records counted as lost. -/
def evqMismatch (d : Dev) (q : Nat) (headBad : Bool) : Dev :=
  let lost := (d.evq q).unread
  let d := d.updEvq q (fun x => { x with head := x.tail, overflow := satAdd 16 x.overflow lost, modCount := 0, differ := none })
  let d := if q = 8 then d.setGlob (fun g => { g with alertN := false }) else d
  raise d 386 2 2 (info (q + fld 6 1 + fld 7 (b2n headBad)))

/-- A copy of an index of an event queue has changed (R342): found at the next update. TAIL is the lower-numbered. -/
def evqDiffers (d : Dev) (q : Nat) (h : Option Bool) : Dev :=
  d.updEvq q (fun x => { x with differ := match x.differ, h with
    | some a, some b => some (a && b)
    | none, b => b
    | a, none => a })

/-- Delivers a record to an event queue (R350, R351): the copies of its indexes are compared when TAIL moves (R342). -/
def toEvq (d : Dev) (q : Nat) (r : Rec) (ptrErr : Option Bool) : Dev :=
  let d := evqDiffers d q ptrErr
  let x := d.evq q
  if 128 ≤ x.unread then d.updEvq q (fun x => { x with overflow := satInc 16 x.overflow, run := x.run + 1 })
  else
    let d := d.updEvq q (fun x => { x with
      ring := Tab.put x.ring (x.tail.toNat % 128) (r, !x.tail.msb), tail := x.tail + 1, modCount := x.modCount + 1 })
    let d := ldCopy d q r
    match (d.evq q).differ with
    | some h => evqMismatch d q h
    | none => if (d.evq q).thresh ≤ (d.evq q).modCount ∨ 2 ≤ r.sev then evqInterrupt d q else d

/-- The consumer moves an event queue's head (R350, R351). -/
def moveEvqHead (d : Dev) (o : Origin) (q : Nat) (v : BitVec 8) (ptrErr : Option Bool) : Dev :=
  let d := evqDiffers d q ptrErr
  let x := d.evq q
  if x.unread < (v - x.head).toNat then queueAccess d q 4 o true
  else if v = x.head then d
  else
    let d := d.updEvq q (fun x => { x with head := v, modCount := 0, run := 0 })
    let d := if q = 8 ∧ v = x.tail then d.setGlob (fun g => { g with alertN := false }) else d
    let d := if x.run = 0 then d else raise d 387 0 1 (info (q + fld 4 (min x.run 0xFFFF)))
    match (d.evq q).differ with
    | some h => evqMismatch d q h
    | none => d

-- wake queues
/-- An engine can take a record (R350). -/
def Dev.wakes (d : Dev) (e : Nat) : Bool := d.engSt e == .running || d.engSt e == .waiting

/-- EWAIT takes the oldest record (R264). -/
def takeWake (d : Dev) (e : Nat) : Dev :=
  match (d.engine e).wake with
  | [] => d
  | r :: rest =>
    let d := d.updEngine e (fun x =>
      { (((x.setG 12 r.w0).setG 13 (r.info.extractLsb' 0 18)).setG 14 (r.info.extractLsb' 18 18)).setG 15
          (r.info.extractLsb' 36 18) with wake := rest, flags := setFlag x.flags 0 false })
    advance d e 1

/-- A LAB_MISS record that its engine cannot take, and those of its port on their way behind it, wait at the port again and
leave it in the order raised (R347, R350). -/
def unsend (d : Dev) (e : Nat) (r : Rec) : Dev :=
  let back := r :: (d.engine e).wakeIn.filter (fun x => decide (x.src = r.src))
  (d.updEngine e (fun y => { y with wakeIn := y.wakeIn.filter (fun x => decide (x.src ≠ r.src)) })).updPort (r.src - 416) (fun p =>
    { p with slots := p.slots.map (fun (k : Nat × ParkSlot) =>
        if back.any (fun x => decide (k.1 = bits x.info.toNat 43 39) && decide (k.2.seq.toNat = x.seq)) then
          (k.1, { k.2 with sent := false }) else k) })

/-- A record is dropped at an engine (R350); a LAB_MISS is never lost. -/
def dropWake (d : Dev) (e : Nat) (r : Rec) : Dev :=
  if 416 ≤ r.src ∧ r.src < 424 then unsend d e r
  else
  let x := d.engine e
  let d := { d with evt := { d.evt with wakeDrops := satInc 32 d.evt.wakeDrops } }
  let d := d.updEngine e (fun x => { x with wakeDrops := satInc 16 x.wakeDrops, wakeRun := true })
  if x.wakeRun then d
  else raise d 388 0 1 (info (e + fld 5 r.src + fld 14 (d.engine e).wakeDrops))

/-- A record reaches an engine's wake queue (R264, R350). -/
def toWake (d : Dev) (e : Nat) (r : Rec) : Dev :=
  if d.wakes e ∧ (d.engine e).wake.length < 16 then
    let d := d.updEngine e (fun x => { x with wake := x.wake ++ [r], wakeRun := false })
    match (d.engine e).wait with
    | .ewait _ => takeWake d e
    | _ => d
  else dropWake d e r

-- the fabric
/-- LAB_MISS of a park slot (R76). -/
def missRecord (p k : Nat) (s : ParkSlot) : Rec :=
  ⟨416 + p, 4, 0, s.seq.toNat,
    info (bits s.va 42 16 + fld 27 s.view.toNat + fld 39 k + fld 44 (b2n s.write)), s.t, 0⟩

/-- Park slots of a port whose LAB_MISS waits and whose engine can take it, oldest record first. -/
def Dev.missReady (d : Dev) (p : Nat) : List (Nat × ParkSlot) :=
  (d.port p).slots.filter (fun s => !s.2.sent && d.wakes s.2.engine
    && decide ((d.engine s.2.engine).wake.length + (d.engine s.2.engine).wakeIn.length < 16))

/-- The slot whose record was raised first (R347). -/
def firstMiss (l : List (Nat × ParkSlot)) : Option (Nat × ParkSlot) :=
  l.foldl (fun b s => match b with
    | none => some s
    | some x => if s.2.num < x.2.num then some s else b) none

/-- A record can cross to the event queue its route names: one of the core island's queues takes none while that clock has
failed, and the record waits in its source's buffer (R15, R459; DESIGN CHOICE, log entry 140). -/
def Dev.crosses (d : Dev) (r : Rec) : Bool := decide (9 ≤ bits r.route.toNat 3 0) || d.islandRuns 10

/-- A source has something the fabric can take: its output buffer lies in its block's clock island (R14, R15). -/
def Dev.sourceReady (d : Dev) (s : Nat) : Bool :=
  d.islandRuns (srcIsland s) && ((d.source s).buf.head?.any d.crosses || (decide (416 ≤ s) && decide (s < 424) && !(d.missReady (s - 416)).isEmpty))

/-- The next source in rotation (R346). -/
def Dev.nextSource (d : Dev) : Option Nat :=
  ((List.range 512).map (fun i => (d.evt.rotate + i) % 512)).find? d.sourceReady

/-- Delivers a record to the destinations its route names (R348-R350). -/
def deliver (d : Dev) (r : Rec) (ptrErr : Option Bool) : Dev :=
  let rt := r.route.toNat
  let q := bits rt 3 0
  let d := if q < 9 then toEvq d q r ptrErr else d
  let d := if bitAt rt 4 then sendMsix d (bits rt 7 5) (d.eventLd (bits rt 7 5)) (bits rt 13 8) else d
  if bitAt rt 14 ∧ bits rt 19 15 < 24 then
    d.updEngine (bits rt 19 15) (fun x => { x with wakeIn := x.wakeIn ++ [r] })
  else d

/-- The fabric takes one record (R346): a parity error in its buffer drops it (R355). -/
def fabricTransfer (d : Dev) (parityOk : Bool) (ptrErr : Option Bool) : Dev :=
  match d.nextSource with
  | none => d
  | some s =>
    let d := { d with evt := { d.evt with rotate := (s + 1) % 512 } }
    match (d.source s).buf with
    | r :: rest =>
      let d := d.updSource s (fun x => { x with buf := rest })
      if parityOk then deliver d r ptrErr
      else { d with evt := { d.evt with lost := satInc 32 d.evt.lost } }
    | [] =>
      match firstMiss (d.missReady (s - 416)) with
      | none => d
      | some (k, slot) =>
        (d.updPort (s - 416) (fun p => { p with slots := Tab.upd {} p.slots k (fun x => { x with sent := true }) })).updEngine
          slot.engine (fun x => { x with wakeIn := x.wakeIn ++ [missRecord (s - 416) k slot] })

end Sys2Proof.Machine
end

