-- ==== Sys2Proof/Machine/DeviceOps.lean ====
section
/-! DEFINITION. Device states: state changes, RESYNC requests, cut tests, entry to RECOVERY (R26-R29, R393, R407, R410-R414,
R420, R421). -/

namespace Sys2Proof.Machine

/-- The requester word of Position slot 6 (R415). -/
def requesterWord : Origin → Word
  | .host p m => BitVec.ofNat 18 (fld 2 p.val + fld 5 m.val)
  | .mgmt => 1
  | .engine _ => 2
  | .q0 => 2

/-- Slot 0 of the record: SEQ and BUSY. -/
def resyncHeader (seq : BitVec 17) (busy : Bool) : Word := BitVec.ofNat 18 (seq.toNat + fld 17 (b2n busy))

/-- A snapshot starts (R411). -/
def resyncStart (d : Dev) (who : Word) : Dev :=
  { d with resync := { d.resync with
      busy := true, who := who, t0 := d.glob.time, slots := Tab.put d.resync.slots 0 (resyncHeader d.resync.seq true) } }

/-- A request for a snapshot (R411, R414): starts one, merges into the next one, or finds Q0 halted. A merged snapshot
names its first requester (log entry 18). A failed clock of Q0's quad only delays the snapshot. -/
def resyncRequest (d : Dev) (o : Origin) : Dev :=
  if d.q0Halted then { d with resync := { d.resync with noQ0 := true } }
  else if d.resync.busy then
    if d.resync.pending then d
    else { d with resync := { d.resync with pending := true, nextWho := requesterWord o } }
  else resyncStart d (requesterWord o)

/-- Class and severity of STATE_CHANGE (R345, R407, log entry 19). -/
def stateClass : DevState → Nat × Nat
  | .recovery => (3, 3)
  | .held => (0, 1)
  | _ => (0, 0)

/-- The device changes state (R27): journalled (R433 action 4), STATE_CHANGE raised (R407), a snapshot requested by Q0
once its firmware runs (R413). The forced-test bits clear when START ends (R408). -/
def setState (d : Dev) (new : DevState) : Dev :=
  let old := d.glob.dev
  let ends := old == .start
  let d := d.setGlob (fun g => { g with dev := new, fullBist := g.fullBist && !ends, fullTrain := g.fullTrain && !ends })
  let d := journal d { action := 4, target := old.code + fld 3 new.code }
  let d := raise d 461 (stateClass new).1 (stateClass new).2
    (info (old.code + fld 3 new.code + fld 6 d.glob.heldCause.toNat + fld 9 (b2n d.glob.quick)))
  if d.glob.fwRunning then resyncRequest d .q0 else d

/-- A march test has run over a tile's cells: what was stored there is gone (R390). -/
def loseCells (d : Dev) (t : Nat) : Dev :=
  { d with rawCells := d.rawCells.filter (fun c => !decide (c.1 / 2 ^ 28 = t)) }

/-- A value of 64 bits that the spec does not give, from four draws. -/
def Dev.free64 (d : Dev) : BitVec 64 :=
  BitVec.ofNat 64 ((List.range 4).foldl (fun n i => n + (Config.freeWord (d.glob.draws + i)).toNat * 2 ^ (18 * i)) 0)

/-- A tile test that is running is cut short (R393): no repair changes, and the tile stays OFFLINE. The MISR stands at what it
had absorbed, a free value (R409). -/
def cutTest (d : Dev) (t : Nat) : Dev :=
  if (d.tile t).bist = 1 then
    let sig := d.free64
    let d := (loseCells d t).setGlob (fun g => { g with draws := g.draws + 4 })
    let d := d.updTile t (fun x => { x with
      bist := 3, incomplete := true, sigMatch := false, overflow := false, fails := [], signature := sig })
    raise d (192 + 8 * t + 5) 5 0 (info (4 + fld 13 (b2n (d.tile t).quarter)))
  else d

/-- Every running test is cut short. -/
def cutTests (d : Dev) : Dev := d.each (List.range 8) cutTest

/-- Word `i` of the retained log. -/
def Dev.rlogAt (d : Dev) (i : Nat) : Word := Tab.get 0 d.err.rlog i
/-- Writes a word of the retained log, zero words not listed. -/
def rlogPut (d : Dev) (i : Nat) (w : Word) : Dev :=
  d.setErr (fun e => { e with rlog := if w = 0 then Tab.del e.rlog i else Tab.put e.rlog i w })

/-- FATAL of the retained log. -/
def Dev.fatalSet (d : Dev) : Bool := (d.rlogAt 0).getLsbD 8

/-- Records a fatal error in the retained log (R27, R366, R367): the first cause stands. -/
def recordFatal (d : Dev) (cause : Nat) (i : Info) : Dev :=
  if d.fatalSet then rlogPut d 2 (BitVec.ofNat 18 (satInc 18 (d.rlogAt 2).toNat))
  else
    let t := d.glob.time % 2 ^ 54
    let d := rlogPut d 0 (d.rlogAt 0 ||| 0x100)
    let d := rlogPut d 1 (BitVec.ofNat 18 (cause + fld 8 d.glob.dev.code))
    let d := rlogPut d 3 (i.extractLsb' 0 18)
    let d := rlogPut d 4 (i.extractLsb' 18 18)
    let d := rlogPut d 5 (i.extractLsb' 36 18)
    let d := rlogPut d 6 (BitVec.ofNat 18 t)
    let d := rlogPut d 7 (BitVec.ofNat 18 (t / 2 ^ 18))
    rlogPut d 8 (BitVec.ofNat 18 (t / 2 ^ 36))

/-- Clears Memory_Active on an LD and signals viral where the host enabled it (R53). -/
def viralLd (d : Dev) (p m : Nat) : Dev :=
  let l := d.ld p m
  let d := if l.memActive then d.updLd p m (fun l => { l with memActive := false, memInfoValid := false }) else d
  if l.viralEnable && !l.viral then
    emit (d.updLd p m (fun l => { l with viral := true })) (.viral p m)
  else d

/-- A fatal error (R27, R420, R421): RECOVERY, or a further fatal error while there. In the cycle in which a full reset begins
the reset wins and only the cause is recorded (R28, log entry 112). -/
def enterRecovery (d : Dev) (cause : Nat) (i : Info) : Dev :=
  if d.glob.resetPhase == .draining && decide (d.glob.drainT = d.glob.time) && d.glob.dev != .off then recordFatal d cause i
  else match d.glob.dev with
  | .off => d
  | .recovery => recordFatal d cause i
  | _ =>
    let d := recordFatal d cause i
    let d := d.setGlob (fun g => { g with cause := BitVec.ofNat 8 cause, faultN := g.rstHigh })
    let d := d.each (List.range 8) (fun d p => d.each (List.range 16) (fun d m => viralLd d p m))
    let d := cutTests d
    let d := d.each (List.range 64) (fun d n => closePair d n 0)
    setState d .recovery

end Sys2Proof.Machine
end

