-- ==== Sys2Proof/Machine/Lab.lean ====
section
/-! DEFINITION. Responses to hosts, the look-aside buffers and the park slots (02_agent_ports.md,
03_views_and_translation.md). -/

namespace Sys2Proof.Machine

-- responses
/-- The requester of a host request is still the agent of its LD (R54, R197). -/
def Dev.stillAgent (d : Dev) (p m : Nat) (r : Req) : Bool :=
  (d.ld p m).st == .attached && decide ((d.ld p m).agent = r.agent) && decide ((d.ld p m).epoch = r.epoch)

/-- The requester as the error log names it (R361). -/
def whoOf (r : Req) : Who :=
  match r.src with
  | .host p m _ => { agent := r.agent, epoch := r.epoch, view := r.view, port := BitVec.ofNat 3 p, ld := BitVec.ofNat 4 m }
  | _ => { agent := r.agent }

/-- What kind of answer a host operation takes. -/
def Op.isRead : Op → Bool
  | .readShared => true
  | .readOwn => true
  | .readUntracked => true
  | .readData => true
  | _ => false
def Op.isWrite : Op → Bool
  | .write _ => true
  | _ => false

/-- Class and privilege bits, agent and DPA of a request's events (R469). A host read that no LAB entry has translated has no DPA. -/
def Req.counted (r : Req) : Counted :=
  { cls := match r.op with
      | .write _ => 2
      | .cleanEvict => 2
      | .scp => 2
      | .moverWrite => 2
      | .cmo _ _ _ => 8
      | .cmoSw _ _ _ _ => 8
      | .preload _ => 8
      | .poison => 8
      | .parkRecall => 8
      | .flushRecall => 8
      | .prefetch => 16
      | _ => 1
    priv := match r.src with
      | .host _ _ _ => 1
      | .engine _ => if r.sup then 4 else 2
      | .orphan _ => if r.sup then 4 else 2
      | .early _ => 1
      | .prefetch => if r.agent.toNat < 4064 then 1 else if r.sup then 4 else 2
      | _ => 4
    agent := some r.agent
    dpa := match r.src, r.entry with
      | .host _ _ _, none => if r.op.isRead then none else some r.dpa
      | _, _ => some r.dpa }

/-- A request has had its order point and does not wait behind a busy line: it came before any recall of the line (R178). One
queued but not issued when an eviction or a flush recalls its line waits behind the busy line, and the ack goes before its
response as for the requests that came after (DESIGN CHOICE, log entry 124). -/
def Xact.beforeRecall (x : Xact) (s : Snoop) : Bool :=
  decide (0 < x.ord) && decide (x.ord < s.began) && (match x.phase with
    | .queued => false
    | .retry => false
    | .needRecall => false
    | .recall _ _ => false
    | _ => true)

/-- The conflict acks whose turn has come: no response is outstanding to a request of the agent to the line that came before
the recall; those that came after wait behind the busy line (R178). -/
def ackConflicts (d : Dev) (p : Nat) : Dev :=
  (d.port p).snoops.foldl (fun d s =>
    match s.conflict with
    | none => d
    | some tag =>
      if d.xacts.any (fun x => x.2.req.agent == s.agent && decide (x.2.req.dpa / 64 = s.line) && x.2.beforeRecall s) then d
      else
        let d := d.updPort p (fun q => { q with snoops := q.snoops.map (fun t =>
          if t.agent = s.agent ∧ t.line = s.line then { t with conflict := none } else t) })
        match d.agent? s.agent with
        | some a => emit d (.biConflictAck p a.ld tag)
        | none => d) d

/-- A read response leaves a port (R48, R56, R421): poison in RECOVERY; discarded when its agent has gone. -/
def respondData (d : Dev) (r : Req) (t0 : Nat) (data : Line) (poison : Bool) (m : Option Meta) : Dev :=
  match r.src with
  | .host p ld tag =>
    if !d.stillAgent p ld r then ackConflicts d p
    else
      let poison := poison || d.glob.dev == .recovery
      let d := emit d (.memData p ld tag data poison m)
      let d := count d p 8 ((d.glob.time - t0) * 5 / 2) r.counted
      let d := if poison then
          count (raise d (8 * p + 5) 0 1 (info (ld + fld 4 r.agent.toNat + fld 16 (bits r.dpa 39 6)))) p 2 1 r.counted
        else d
      ackConflicts d p
  | _ => d

/-- A completion without data leaves a port. -/
def respondCmp (d : Dev) (r : Req) (own : Bool) : Dev :=
  match r.src with
  | .host p ld tag =>
    if !d.stillAgent p ld r then ackConflicts d p
    else ackConflicts (emit d (if own then .cmpE p ld tag else .cmp p ld tag)) p
  | _ => d

/-- The source of a translation outcome: NO_MAPPING 15, WRITE_PROT 16, WALK_FAULT 17 (R91, R360). -/
def transSource (kind : Nat) : Nat := if kind = 15 then 425 else if kind = 16 then 426 else 424

/-- W1-W3 of sources 424-431. -/
def transInfo (view va l : Nat) : Info := info (view + fld 12 (bits va 42 16) + fld 39 l)

/-- A host request whose translation fails ends as R80 states. In RECOVERY the port ends it as any other: a write is dropped and
logged as such (R421). -/
def failRequest (d : Dev) (r : Req) (t0 kind : Nat) : Dev :=
  match r.src with
  | .host p ld _ =>
    let d := if d.glob.dev == .recovery then
        if r.op.isWrite then logErr d { kind := 19, src := 8 * p + 5, va := true, loc := r.va % 2 ^ 43, who := whoOf r } else d
      else if r.op.isRead || r.op.isWrite then
        let d := logErr d { kind := kind, src := transSource kind, va := true, loc := r.va % 2 ^ 43, who := whoOf r }
        raise d (transSource kind) 2 2 (transInfo r.view.toNat r.va p)
      else d
    if r.op.isRead then respondData d { r with dpa := 0 } t0 0 true (if r.hdmDb then some .i else none)
    else respondCmp d r (r.op == .ownNoData)
  | _ => d

-- LABs: 0-7 of the ports, 8 + q of the quads
def Dev.lab (d : Dev) (l : Nat) : Tab LabEntry := if l < 8 then (d.port l).lab else Tab.get [] d.qlabs (l - 8)
def Dev.setLab (d : Dev) (l : Nat) (t : Tab LabEntry) : Dev :=
  if l < 8 then d.updPort l (fun p => { p with lab := t }) else { d with qlabs := Tab.put d.qlabs (l - 8) t }
/-- Bits of a LAB's set index (R69). -/
def labBits (l : Nat) : Nat := if l < 8 then 9 else 6
/-- Lockable entries. -/
def labMax (l : Nat) : Nat := if l < 8 then 256 else 32
/-- Set of a page. -/
def labSetOf (l : Nat) (view : BitVec 12) (vpn : Nat) : Nat := labSet view.toNat vpn (labBits l)
/-- Locked entries of a LAB. -/
def labLocked (t : Tab LabEntry) : Nat := (t.filter (fun e => e.2.lock)).length

/-- The entry that matches: its key (4 × set + way) and contents (R67). -/
def labFind (t : Tab LabEntry) (l : Nat) (view : BitVec 12) (gran : BitVec 2) (vpn : Nat) : Option (Nat × LabEntry) :=
  (List.range 4).findSome? (fun w =>
    match Tab.find t (4 * labSetOf l view vpn + w) with
    | some e => if e.view = view ∧ e.gran = gran ∧ e.vpn = vpn then some (4 * labSetOf l view vpn + w, e) else none
    | none => none)

/-- A lookup (R67, R70, R72): a hit sets the reference bit; an uncorrectable entry is dropped and misses. -/
def labLookup (d : Dev) (l : Nat) (view : BitVec 12) (gran : BitVec 2) (va : Nat) (c : Ecc) : Dev × Option LabEntry :=
  match labFind (d.lab l) l view gran (va / 2 ^ granShift gran.toNat) with
  | none => (d, none)
  | some (k, e) =>
    let good := { e with ref := true, bad := 0 }
    match eccWith c e.bad with
    | .ok => (d.setLab l (Tab.put (d.lab l) k good), some good)
    | .ce _ => (raise (d.setLab l (Tab.put (d.lab l) k good)) 430 1 1 (transInfo view.toNat va l), some good)
    | .ue => (raise (d.setLab l (Tab.del (d.lab l) k)) 431 2 2 (transInfo view.toNat va l), none)

/-- The way for a new entry of a set, and the LAB after the tick (R70). -/
def labVictim (t : Tab LabEntry) (set : Nat) : Nat × Tab LabEntry :=
  let unlocked := (List.range 4).filter (fun w => match Tab.find t (4 * set + w) with
    | some e => !e.lock
    | none => true)
  match unlocked.find? (fun w => (Tab.find t (4 * set + w)).isNone) with
  | some w => (w, t)
  | none =>
    match unlocked.find? (fun w => match Tab.find t (4 * set + w) with
      | some e => !e.ref
      | none => false) with
    | some w => (w, t)
    | none => (unlocked.headD 0, unlocked.foldl (fun t w => Tab.upd {} t (4 * set + w) (fun e => { e with ref := false })) t)

/-- Installs or rewrites an entry (R70, R71, R374 path 4); answers whether a lock asked for was refused. An entry that
is rewritten keeps its name and does not count among the locked ones itself. -/
def labInstall (d : Dev) (l : Nat) (view : BitVec 12) (gran : BitVec 2) (vpn : Nat) (pte : Pte) (lock : Bool) : Dev × Bool :=
  let (d, bad) := flipWrite d 4 l 0 32 true
  let t := d.lab l
  let set := labSetOf l view vpn
  let own := labFind t l view gran vpn
  let others := t.filter (fun e => e.2.lock && decide (own.map (·.1) ≠ some e.1))
  let inSet := (others.filter (fun e => decide (e.1 / 4 = set))).length
  let canLock := decide (inSet < 3) && decide (others.length < labMax l)
  let e : LabEntry := { view := view, gran := gran, vpn := vpn, pte := pte, lock := lock && canLock, ref := true, bad := bad }
  match own with
  | some (k, old) => (d.setLab l (Tab.put t k { e with uid := old.uid }), lock && !canLock)
  | none =>
    let (w, t) := labVictim t set
    ({ d with nextId := d.nextId + 1 }.setLab l (Tab.put t (4 * set + w) { e with uid := d.nextId }), lock && !canLock)

/-- DPA of a view address through an entry (R67). -/
def LabEntry.dpa (e : LabEntry) (va : Nat) : Nat := e.pte.frame * 65536 + va % 2 ^ granShift e.gran.toNat

-- park slots
/-- An entry of LAB_HANDLERS_n is usable (R78, R93). -/
def Port.usableHandler (p : Port) (k : Nat) : Bool :=
  bitAt p.handlers.toNat (8 * k + 7) && decide (4 ≤ bits p.handlers.toNat (8 * k + 4) (8 * k))
    && decide (bits p.handlers.toNat (8 * k + 4) (8 * k) ≤ 23) && !p.hstatus.getLsbD k

/-- The handler entry a new slot goes to. -/
def Port.handler (p : Port) : Option Nat := firstIdx p.usableHandler 4

/-- The slot that holds a view and page. -/
def Port.slotFor (p : Port) (view : BitVec 12) (gran : BitVec 2) (vpn : Nat) : Option Nat :=
  (p.slots.find? (fun s => decide (s.2.view = view) && decide (s.2.gran = gran) && decide (s.2.vpn = vpn))).map (·.1)

/-- Lowest free park slot. -/
def Port.freeSlot (p : Port) : Option Nat := firstIdx (fun k => (Tab.find p.slots k).isNone) 32

/-- A host request misses its port LAB (R73, R78): the slot it parks in, none where it fails at once. A miss with no usable handler raises NO_HANDLER whatever the request is, also for a MemInv, MemInvNT or
MemClnEvct: R78 says so of every miss, although R80 raises no event for those (DESIGN CHOICE, log entry 124). -/
def parkRequest (d : Dev) (p : Nat) (r : Req) : Dev × Option Nat :=
  let vpn := r.va / 2 ^ granShift r.gran.toNat
  let port := d.port p
  match port.slotFor r.view r.gran vpn with
  | some k => (d, some k)
  | none =>
    match port.handler, port.freeSlot with
    | some h, some k =>
      let slot : ParkSlot := {
        view := r.view, gran := r.gran, vpn := vpn, va := r.va, write := r.op.isWrite, entry := h
        engine := bits port.handlers.toNat (8 * h + 4) (8 * h), seq := (d.source (416 + p)).seq, t := d.glob.time, num := d.nextId }
      let d := ({ d with nextId := d.nextId + 1 }.updPort p (fun q => { q with slots := Tab.put q.slots k slot })).updSource (416 + p)
        (fun s => { s with seq := s.seq + 1 })
      (count d p 4 1 { cls := 32, priv := 1, agent := some r.agent }, some k)
    | _, _ => (raise d 429 2 2 (transInfo r.view.toNat r.va p), none)

/-- Line number of a request. -/
def Xact.line (x : Xact) : Nat := x.req.dpa / 64

/-- A host request translated through an entry of LAB `l`: its DPA, the attributes of its page, its home slice. -/
def Xact.translated (x : Xact) (l : Nat) (e : LabEntry) : Xact :=
  let dpa := e.dpa x.req.va / 64 * 64
  let base := e.pte.frame * 65536
  let req := { x.req with dpa := dpa, device := e.pte.device, stream := e.pte.stream, nopf := e.pte.nopf, lo := base,
                          hi := base + 2 ^ granShift e.gran.toNat, entry := some (l, e.uid) }
  { x with req := req, slice := sliceOf dpa, phase := .ingress }

/-- Looks a host request up in its port LAB, under the view it was decoded with, and sends it on, parks it, or ends it
(R73-R81). The request is not under a number yet. -/
def translateHost (d : Dev) (p : Nat) (x : Xact) (c : Ecc) : Dev :=
  let (d, hit) := labLookup d p x.req.view x.req.gran x.req.va c
  match hit with
  | some e =>
    let d := count d p 3 1 { cls := 32, priv := 1, agent := some x.req.agent }
    if !e.pte.v then failRequest d x.req x.t0 15
    else if x.req.op.isWrite && !e.pte.w then failRequest d x.req x.t0 16
    else (d.start (x.translated p e)).1
  | none =>
    let (d, slot) := parkRequest d p x.req
    match slot with
    | some k => (d.start { x with phase := .parked k }).1
    | none => failRequest d x.req x.t0 17

/-- Requests parked in a slot, oldest first. -/
def Dev.parkedIn (d : Dev) (p k : Nat) : List (Nat × Xact) :=
  d.xacts.filter (fun x => match x.2.phase, x.2.req.src with
    | .parked j, .host q _ _ => decide (j = k) && decide (q = p)
    | _, _ => false)

/-- A slot is freed. -/
def freeSlot (d : Dev) (p k : Nat) : Dev := d.updPort p (fun q => { q with slots := Tab.del q.slots k })

/-- A slot fails: every request in it ends as a walk fault (R77, R78). -/
def failSlot (d : Dev) (p k : Nat) : Dev :=
  (d.parkedIn p k).foldl (fun d x => failRequest (d.dropXact x.1) x.2.req x.2.t0 17) (freeSlot d p k)

/-- A parked request is looked up again (R77, R86), under the view it was decoded with: it keeps its number, so its place
among parked requests. A miss takes a slot anew; its timeout counts from its first parking. In RECOVERY it goes no further than its
port (R421). -/
def relook (d : Dev) (p : Nat) (since : Nat) (i : Nat) (x : Xact) : Dev :=
  if d.glob.dev == .recovery then failRequest (d.dropXact i) x.req x.t0 17
  else match labLookup d p x.req.view x.req.gran x.req.va .ok with
  | (d, some e) =>
    let d := count d p 3 1 { cls := 32, priv := 1, agent := some x.req.agent }
    if !e.pte.v then failRequest (d.dropXact i) x.req x.t0 15
    else if x.req.op.isWrite && !e.pte.w then failRequest (d.dropXact i) x.req x.t0 16
    else d.putXact i { x.translated p e with wasParked := true }
  | (d, none) =>
    let (d, slot) := parkRequest d p x.req
    match slot with
    | some k => (d.putXact i { x with phase := .parked k }).updPort p (fun q => { q with
        slots := Tab.upd {} q.slots k (fun s => { s with t := min s.t since }) })
    | none => failRequest (d.dropXact i) x.req x.t0 17

/-- A slot ends with its requests looked up again. -/
def endSlot (d : Dev) (p k : Nat) : Dev :=
  let since := (Tab.get {} (d.port p).slots k).t
  (d.parkedIn p k).foldl (fun d x => relook d p since x.1 x.2) (freeSlot d p k)

/-- The target timeout of a slot passes (R78). -/
def slotTimeout (d : Dev) (p k : Nat) : Dev :=
  match Tab.find (d.port p).slots k with
  | none => d
  | some s =>
    let d := d.updPort p (fun q => { q with hstatus := q.hstatus ||| BitVec.ofNat 4 (2 ^ s.entry) })
    failSlot (raise d 428 2 2 (transInfo s.view.toNat s.va p)) p k

end Sys2Proof.Machine
end

