-- ==== Sys2Proof/Machine/Slice.lean ====
section
/-! DEFINITION. Parts of a slice: what keeps a line busy, credits and registers in use, tags, tiles, replacement, the
directory's entries and the resignation of agents (04 to 07). -/

namespace Sys2Proof.Machine

-- requests of a slice
/-- Requests at a slice. -/
def Dev.atSlice (d : Dev) (s : Nat) : List (Nat × Xact) := d.xacts.filter (fun x => decide (x.2.slice = s) && decide (0 < x.2.ord))

/-- A request waits in the home queue without having gone on (R99). -/
def Phase.waits : Phase → Bool
  | .queued => true
  | .retry => true
  | .needMr => true
  | .needRecall => true
  | _ => false

/-- A request in this phase keeps its home-queue entry (R103). -/
def Phase.holdsEntry : Phase → Bool
  | .queued => true
  | .retry => true
  | .needMr => true
  | .needRecall => true
  | .needCredit => true
  | .recall _ _ => true
  | .merged _ => true
  | .drain => true
  | _ => false

/-- An operation in this phase keeps its line busy (R100). A read on its way to a controller waits for its line as a fill
does. -/
def Phase.keepsBusy : Phase → Bool
  | .recall _ _ => true
  | .needCredit => true
  | .needRecall => true
  | .miss _ _ => true
  | .direct => true
  | .merged _ => true
  | .toBuffer => true
  | .accepted _ => true
  | .drain => true
  | _ => false

/-- A request makes its line busy. A prefetch register no demand read joined does not (R133). -/
def Xact.busy (x : Xact) : Bool := x.phase.keepsBusy && (!x.isPf || x.demanded)

/-- The line a way of a directory set tracks. -/
def Dev.wayLine (d : Dev) (s dset way : Nat) : Option Nat :=
  (Tab.find (d.slice s).dir (16 * dset + way)).map (fun e => dpaOfDir s dset e.tag.toNat / 64)

/-- The victim's line of an eviction under way (R174). -/
def Xact.victimLine (x : Xact) : Option Nat :=
  match x.phase with
  | .recall _ (some _) => x.victim
  | _ => none

/-- The line a request's recall is about. -/
def Xact.recallLine (x : Xact) : Nat := x.victimLine.getD x.line

/-- A request waits for a recall. -/
def Xact.recalling (x : Xact) : Bool :=
  match x.phase with
  | .recall _ _ => true
  | _ => false

/-- A line is busy for other requests than `but` (R100). -/
def Dev.lineBusy (d : Dev) (s line but : Nat) : Bool :=
  (d.atSlice s).any (fun x => decide (x.1 ≠ but) && ((x.2.busy && decide (x.2.line = line)) || decide (x.2.victimLine = some line)))

/-- A request waits for a recall, for a recall register, or for an entry of its set that a recall holds busy (R174, R175). -/
def Xact.underRecall (x : Xact) : Bool :=
  x.recalling || (match x.phase with
    | .needRecall => true
    | .retry => true
    | _ => false)

/-- A line is busy with something else than a recall. -/
def Dev.lineMoves (d : Dev) (s line but : Nat) : Bool :=
  (d.atSlice s).any (fun x => decide (x.1 ≠ but) && x.2.busy && !x.2.underRecall && decide (x.2.line = line))

/-- Entries of a line wait on a recall. -/
def Dev.recallHolds (d : Dev) (s line : Nat) : Bool :=
  (d.atSlice s).any (fun x => x.2.underRecall && (decide (x.2.line = line) || decide (x.2.victimLine = some line)))

/-- Miss registers bound in a slice. -/
def Dev.missRegs (d : Dev) (s : Nat) : Nat := ((d.atSlice s).filter (fun x => match x.2.phase with
  | .miss _ _ => true
  | _ => false)).length
/-- Of these, registers bound to prefetches. -/
def Dev.pfRegs (d : Dev) (s : Nat) : Nat := ((d.atSlice s).filter (fun x => match x.2.phase with
  | .miss _ _ => x.2.isPf && !x.2.demanded
  | _ => false)).length
/-- A controller's escapement refuses new items: its domain is off or switching off (R454 step 3). Its senders then hold no
credit (R114). -/
def Dev.refuses (d : Dev) (m : Nat) : Bool := !d.domOn (mcDom m) || d.leaving (mcDom m)
/-- Read credits in use toward a controller, of 32 (R105). -/
def Dev.readCredits (d : Dev) (s m : Nat) : Nat :=
  if d.refuses m then 32 else
  ((d.atSlice s).filter (fun x => x.2.mem != .idle && decide (mcOf x.2.req.dpa = m))).length
/-- Write credits in use toward a controller, of 16 (R105). -/
def Dev.writeCredits (d : Dev) (s m : Nat) : Nat :=
  if d.refuses m then 16 else
  ((d.atSlice s).filter (fun x => x.2.phase == .toBuffer && decide (mcOf x.2.req.dpa = m))).length
    + ((d.mc m).wb.filter (fun e => decide (e.slice = s))).length
/-- Recall registers in use (R174, R180). -/
def Dev.recallRegs (d : Dev) (s : Nat) : Nat :=
  ((d.atSlice s).filter (fun x => match x.2.phase with
    | .recall _ (some _) => true
    | .recall _ none => x.2.req.op == .parkRecall || x.2.req.op == .flushRecall
    | _ => false)).length

-- tags
def tagKey (cset way : Nat) : Nat := 16 * cset + way
def Dev.tag (d : Dev) (s cset way : Nat) : TagEntry := Tab.get {} (d.slice s).tags (tagKey cset way)
/-- Writes a tag entry, through an armed flip on path 2 (R374). CHKA has six bits. -/
def putTag (d : Dev) (s cset way : Nat) (e : TagEntry) : Dev :=
  let (d, bad) := flipWrite d 2 s 0 44 true
  let bad := bad % 2 ^ 64 + fld 64 (bad / 2 ^ 64 % 64)
  d.updSlice s (fun x => { x with tags :=
    if e = {} ∧ bad = 0 then Tab.del x.tags (tagKey cset way) else Tab.put x.tags (tagKey cset way) { e with bad := bad } })

/-- The slice uses its tags. -/
def Dev.enabled (d : Dev) (s : Nat) : Bool := (d.slice s).ctrl.getLsbD 0

/-- The usable way that holds a sector's tag (R128), also one whose sub-blocks are all gone (R137, R144). A cleared entry
holds no sector's (log entry 113). -/
def Dev.taggedWay (d : Dev) (s dpa : Nat) : Option Nat :=
  firstIdx (fun w =>
    let e := d.tag s (csetOf dpa) w
    d.usable s (csetOf dpa) w && e.held && decide (e.tag.toNat = ctagOf dpa)) 16

/-- A miss register reserves a way (R128), or a preload between two of its fills keeps the way of its sector (R136): its
request. -/
def Dev.reserver (d : Dev) (s cset way : Nat) : Option (Nat × Xact) :=
  (d.atSlice s).find? (fun x => decide (csetOf x.2.req.dpa = cset) && (match x.2.phase, x.2.req.op with
    | .miss (some w) _, _ => decide (w = way)
    | _, .preload _ => x.2.cleared && d.taggedWay s x.2.req.dpa == some way
    | _, _ => false))

/-- The way a lookup of a sub-block hits (R117). -/
def Dev.hitWay (d : Dev) (s dpa : Nat) : Option Nat :=
  match d.taggedWay s dpa with
  | some w => if (d.tag s (csetOf dpa) w).valid.getLsbD (subOf dpa) then some w else none
  | none => none

/-- Ways a victim can be chosen from (R126). -/
def Dev.candidates (d : Dev) (s cset : Nat) : List Nat :=
  (List.range 16).filter (fun w => d.usable s cset w && !(d.tag s cset w).lock && (d.reserver s cset w).isNone)

/-- `victim(set)` of R126: the way, and the device after the ticks. -/
def victimWay (d : Dev) (s cset : Nat) : Dev × Option Nat :=
  let c := d.candidates s cset
  match c.find? (fun w => (d.tag s cset w).valid == 0) with
  | some w => (d, some w)
  | none =>
    let m := c.foldl (fun m w => max m (d.tag s cset w).age.toNat) 0
    let d := if m < 3 then
        d.each c (fun d w => putTag d s cset w { d.tag s cset w with age := (d.tag s cset w).age + BitVec.ofNat 2 (3 - m) })
      else d
    (d, c.find? (fun w => (d.tag s cset w).age == 3))

/-- Locked ways emptied by one maintenance operation in a slice (R137, R150): the first sector and the count. -/
def lockedNote (d : Dev) (s first n : Nat) : Dev :=
  raise d (64 + 8 * s + 3) 0 1 (info (first % 2 ^ 31 + fld 31 (min n 0x1FFFF)))

/-- Counts locked ways emptied (R152). -/
def lockedCount (d : Dev) (s n : Nat) : Dev := d.updSlice s (fun y => { y with lockedInval := satAdd 32 y.lockedInval n })

/-- Locked ways a walk has cleared (R140). -/
def lockedInval (d : Dev) (s : Nat) (sectors : List Nat) : Dev :=
  match sectors with
  | [] => d
  | x :: _ => lockedNote (lockedCount d s sectors.length) s x sectors.length

/-- SA of the sector a way holds. -/
def Dev.saOf (d : Dev) (s cset way : Nat) : Nat := sa (dpaOfTag s cset (d.tag s cset way).tag.toNat)

-- tiles
def dataKey (cset way sub : Nat) : Nat := 8 * (16 * cset + way) + sub

/-- The repeat buffer of a tile (R148): 16 sub-blocks read most recently. -/
def Tile.repeatHit (t : Tile) (line : Nat) : Bool := t.repeat_.contains line
def Tile.repeatAdd (t : Tile) (line : Nat) : Tile := { t with repeat_ := (line :: t.repeat_.filter (· ≠ line)).take 16 }
def Tile.repeatDrop (t : Tile) (line : Nat) : Tile := { t with repeat_ := t.repeat_.filter (· ≠ line) }

/-- Stores a sub-block on a tile, through an armed flip on path 1 (R374); bytes outside the mask stay. -/
def tileStore (d : Dev) (s dpa way : Nat) (data : Line) (mask : Mask) : Dev :=
  let key := dataKey (csetOf dpa) way (subOf dpa)
  let (d, bad) := flipWrite d 1 (tileOfWay way) dpa 64 true
  let d := d.updSlice s (fun x =>
    let old := Tab.get 0 x.data key
    let kept := if mask.extractLsb' 0 8 = 0xFF#8 then 0 else Tab.get 0 x.tileBad key
    { x with
      data := Tab.put x.data key (mergeLine old data mask)
      tileBad := if kept ^^^ bad = 0 then Tab.del x.tileBad key else Tab.put x.tileBad key (kept ^^^ bad) })
  d.updTile (tileOfWay way) (fun t => t.repeatDrop (dpa / 64))

/-- A write updates a valid sub-block (R119, R120); a full line clears its poison. -/
def writeUpdate (d : Dev) (s dpa : Nat) (data : Line) (mask : Mask) (poison : Bool) : Dev :=
  if !d.enabled s then d
  else match d.hitWay s dpa with
  | none => d
  | some w =>
    let d := tileStore d s dpa w data mask
    let e := d.tag s (csetOf dpa) w
    let bit := BitVec.ofNat 8 (2 ^ subOf dpa)
    if poison then putTag d s (csetOf dpa) w { e with poison := e.poison ||| bit }
    else if mask = BitVec.allOnes 64 then putTag d s (csetOf dpa) w { e with poison := e.poison &&& ~~~bit }
    else d

/-- A fill is installed (R121, R125). -/
def install (d : Dev) (s dpa way : Nat) (data : Line) (poison old : Bool) : Dev :=
  let d := tileStore d s dpa way data (BitVec.allOnes 64)
  let e := d.tag s (csetOf dpa) way
  let bit := BitVec.ofNat 8 (2 ^ subOf dpa)
  putTag d s (csetOf dpa) way { e with
    valid := e.valid ||| bit, poison := if poison then e.poison ||| bit else e.poison &&& ~~~bit
    age := if old then 2 else 0, strm := old, held := true }

/-- The line leaves the side buffer (R135). -/
def dropSide (d : Dev) (s line : Nat) : Dev :=
  d.updSlice s (fun x => { x with side := x.side.filter (fun e => !decide (e.line = line)) })

/-- Marks a miss register no-allocate (R131): its way is freed. -/
def markNoAlloc (d : Dev) (i : Nat) : Dev :=
  match d.xact? i with
  | some x =>
    match x.phase with
    | .miss w false =>
      if x.isPf && !x.demanded then d.putXact i { x with phase := .miss none true }
      else count (d.putXact i { x with phase := .miss (if w.isSome then none else w) true }) (8 + x.slice) 0x15 1 x.req.counted
    | _ => d
  | none => d

/-- Miss registers of a slice that satisfy a test are marked. -/
def markWhere (d : Dev) (s : Nat) (f : Xact → Bool) : Dev :=
  d.each (((d.atSlice s).filter (fun x => (match x.2.phase with
    | .miss _ _ => true
    | _ => false) && f x.2)).map (·.1)) markNoAlloc

/-- Invalidates a sub-block by address (R137, R307), in an enabled slice; `unlock` clears the way of the sector and its
lock, whether it still holds a sub-block or not (R138). Answers the sector of a locked way it emptied. -/
def invalSub (d : Dev) (s dpa : Nat) (unlock : Bool) : Dev × Option Nat :=
  let d := dropSide d s (dpa / 64)
  match (if d.enabled s then d.taggedWay s dpa else none) with
  | none => (d, none)
  | some w =>
    let c := csetOf dpa
    let e := d.tag s c w
    let bit := BitVec.ofNat 8 (2 ^ subOf dpa)
    let valid := if unlock then 0 else e.valid &&& ~~~bit
    if e.valid = valid ∧ unlock = false then (d, none)
    else
      let d := putTag d s c w { e with
        valid := valid, poison := if unlock then 0 else e.poison &&& ~~~bit, lock := e.lock && !unlock
        lgrp := if unlock then 0 else e.lgrp }
      if e.lock && e.valid != 0 && valid == 0 then (lockedCount d s 1, some (d.saOf s c w)) else (d, none)

/-- Miss registers that reserve a way are marked (R131). -/
def markWay (d : Dev) (s cset way : Nat) : Dev :=
  markWhere d s (fun x => decide (csetOf x.req.dpa = cset) && (match x.phase with
    | .miss (some w) _ => decide (w = way)
    | _ => false))

/-- Invalidates a way (R137, R261 SW = 1) of an enabled slice: the sector of a locked way it emptied. -/
def invalWay (d : Dev) (s cset way : Nat) (unlock : Bool) : Dev × Option Nat :=
  if !d.enabled s then (d, none)
  else
    let e := d.tag s cset way
    let sec := d.saOf s cset way
    let d := d.each (List.range 8) (fun d j => if e.valid.getLsbD j then dropSide d s (dpaOfTag s cset e.tag.toNat / 64 + j) else d)
    let d := putTag d s cset way { e with
      valid := 0, poison := 0, lock := e.lock && !unlock, lgrp := if unlock then 0 else e.lgrp }
    if e.lock && e.valid != 0 then (lockedCount d s 1, some sec) else (d, none)

-- tag errors
/-- What the two halves of a tag entry show (R145): each corrects one wrong bit of its own. `bad` holds what flips left:
TAG and VALID in the low half, with the check bits a flip reaches; the rest in the other. -/
def tagEcc (lo hi : Ecc) (bad : Nat) : Ecc :=
  match eccWith lo (bad % 2 ^ 22 + fld 64 (bad / 2 ^ 64)), eccWith hi (bits bad 43 22) with
  | .ue, _ => .ue
  | _, .ue => .ue
  | .ok, r => r
  | r, _ => r

/-- The tag entries of a set are read for a requester: errors are corrected, or the entry is rewritten (R145, R361). -/
def checkTags (d : Dev) (s cset : Nat) (err : Option (Fin 16 × Ecc × Ecc)) (who : Who) : Dev :=
  d.each ((List.range 16).filter (fun w => decide (w < 8) || d.glob.part1024)) (fun d w =>
    let e := d.tag s cset w
    let c : Ecc × Ecc := match err with
      | some (v, c) => if v.val = w then c else (.ok, .ok)
      | none => (.ok, .ok)
    let where_ := info (cset + fld 13 w)
    match tagEcc c.1 c.2 e.bad with
    | .ok => d
    | .ce _ => raise (putTag d s cset w { e with bad := 0 }) (64 + 8 * s + 1) 1 1 where_
    | .ue =>
      let d := putTag d s cset w (match d.reserver s cset w with
        | some (_, x) => { tag := BitVec.ofNat 14 (ctagOf x.req.dpa), held := true }
        | none => {})
      let d := logErr d { kind := 12, src := 64 + 8 * s + 2, loc := s + fld 4 cset + fld 17 w, who := who }
      raise d (64 + 8 * s + 2) 2 2 where_)

-- directory entries
def dirKey (dset way : Nat) : Nat := 16 * dset + way
def Dev.dirAt (d : Dev) (s dset way : Nat) : DirEntry := Tab.get {} (d.slice s).dir (dirKey dset way)
/-- Writes a directory entry, through an armed flip on path 3 (R374). -/
def putDir (d : Dev) (s dset way : Nat) (e : DirEntry) : Dev :=
  let (d, bad) := flipWrite d 3 s 0 64 true
  d.updSlice s (fun x => { x with dir :=
    if e.st = .i ∧ bad = 0 then Tab.del x.dir (dirKey dset way) else Tab.put x.dir (dirKey dset way) { e with bad := bad } })

/-- A set is UNK (R180, R182). -/
def Dev.unkSet (d : Dev) (s dset : Nat) : Bool :=
  (match (d.slice s).flush with
    | some f => decide (f.dset = dset)
    | none => false) || (d.slice s).flushQueue.contains dset

/-- The way that tracks a line. -/
def Dev.dirWay (d : Dev) (s dpa : Nat) : Option Nat :=
  firstIdx (fun w =>
    let e := d.dirAt s (dsetOf dpa) w
    decide (e.tag.toNat = dtagOf dpa) && e.st != .i && e.st != .unk) 16

/-- The entry of a line. -/
def Dev.dirEntry (d : Dev) (s dpa : Nat) : Option DirEntry := (d.dirWay s dpa).map (d.dirAt s (dsetOf dpa))

/-- DIR_NOTE (R184). -/
def dirNote (d : Dev) (s sub dset : Nat) (way : Option Nat) (agent : BitVec 12) : Dev :=
  raise d (64 + 8 * s + 7) 0 1
    (info (sub + fld 3 dset + fld 18 (way.getD 0) + fld 22 agent.toNat + fld 34 (b2n way.isNone)))

/-- An agent is an engine (R237). -/
def isEngine (a : BitVec 12) : Bool := decide (4064 ≤ a.toNat) && decide (a.toNat < 4088)

/-- The pair is attached (R162); engines always are. -/
def Dev.attachedAs (d : Dev) (a : BitVec 12) (ep : BitVec 4) : Bool :=
  isEngine a || (match d.agent? a with
    | some x => x.attached && x.epoch == ep
    | none => false)
/-- The pair is in the resignation table (R198). -/
def Dev.resigningAs (d : Dev) (a : BitVec 12) (ep : BitVec 4) : Bool :=
  match d.agent? a with
  | some x => !x.attached && x.epoch == ep
  | none => false
/-- The pair has passed its resignation point. -/
def Dev.pointPassed (d : Dev) (a : BitVec 12) (ep : BitVec 4) : Bool :=
  match d.agent? a with
  | some x => !x.attached && x.epoch == ep && x.pointReached
  | none => false

/-- Attached HDM-DB agents. -/
def Dev.dbAgents (d : Dev) : List (BitVec 12 × BitVec 4) :=
  (d.agents.filter (fun a => a.2.attached && a.2.hdmDb)).map (fun a => (BitVec.ofNat 12 a.1, a.2.epoch))

/-- The poison code goes to a lost line (R172, R200): a write of its own, which keeps the line busy until accepted. -/
def poisonWrite (d : Dev) (s dpa : Nat) (who : BitVec 12) : Dev :=
  let credit := decide (d.writeCredits s (mcOf dpa) < 16)
  let sl := d.slice s
  let x : Xact := { req := { src := .prefetch, agent := who, op := .poison, dpa := dpa }, slice := s, ord := sl.nextOrd
                    phase := if credit then .toBuffer else .needCredit, sent := d.nextId, t0 := d.glob.time }
  (((d.updSlice s (fun y => { y with nextOrd := y.nextOrd + 1 })).start x)).1

/-- An agent as the error log names it (R361). -/
def Agent.asWho (x : Agent) (a : BitVec 12) : Who :=
  { agent := a, epoch := x.epoch, view := x.view, port := BitVec.ofNat 3 x.port, ld := BitVec.ofNat 4 x.ld }

/-- A line held E by a gone agent is lost (R162, R172, R200): poisoned in its tile, gone from the side buffer and from
prefetches under way (R131), logged, counted, announced once per resignation. -/
def loseLine (d : Dev) (s dpa : Nat) (a : BitVec 12) (ep : BitVec 4) : Dev :=
  let d := markWhere (dropSide d s (dpa / 64)) s (fun x => x.isPf && !x.demanded && decide (x.line = dpa / 64))
  let d := match (if d.enabled s then d.hitWay s dpa else none) with
    | some w =>
      let e := d.tag s (csetOf dpa) w
      putTag d s (csetOf dpa) w { e with poison := e.poison ||| BitVec.ofNat 8 (2 ^ subOf dpa) }
    | none => d
  let ag := d.agent? a
  let who : Who := match ag with
    | some x => { x.asWho a with epoch := ep }
    | none => { agent := a, epoch := ep }
  let d := logErr d { kind := 5, src := 449, poisoned := true, loc := dpa, who := who }
  let d := d.setGlob (fun g => { g with linesLost := satInc 32 g.linesLost })
  let d := match ag with
    | some x =>
      if x.attached || x.epoch != ep then d
      else
        let d := d.updAgent a (fun y => { y with lost := satInc 24 y.lost })
        if x.lost = 0 then raise d 449 2 2 (info (bits dpa 39 6 + fld 34 a.toNat + fld 46 ep.toNat)) else d
    | none => d
  poisonWrite d s dpa a

/-- A set that is UNK while an agent resigns (R201). -/
def noteUnknown (d : Dev) (s dset : Nat) : Dev :=
  d.agents.foldl (fun d a =>
    if a.2.attached || !a.2.hdmDb then d
    else
      let d := d.updAgent (BitVec.ofNat 12 a.1) (fun y => { y with unknown := true })
      logErr d { kind := 14, src := 450, loc := s + fld 4 dset, detail := 1
                 who := a.2.asWho (BitVec.ofNat 12 a.1) }) d

/-- LD_BIND (R56). -/
def ldBind (d : Dev) (p m : Nat) (a : BitVec 12) (ep : BitVec 4) (attach db : Bool) : Dev :=
  raise d (8 * p + 4) 0 0 (info (m + fld 4 a.toNat + fld 16 ep.toNat + fld 20 (b2n attach) + fld 21 (b2n db)))

/-- The view an LD is bound to; where it has no binding any more, the view `old` of its extent (log entry 109; R44, R46). -/
def Dev.boundView (d : Dev) (p m : Nat) (old : BitVec 12) : BitVec 12 := (Tab.find d.binds (16 * p + m)).getD old

/-- The offers of an LD that its host has not answered are withdrawn (R46): Q0 unmaps them from the LD's bound view. -/
def withdrawOffers (d : Dev) (p m : Nat) : Dev :=
  let l := d.ld p m
  let gone := l.extents.filter (fun x => !x.accepted)
  let d := d.updLd p m (fun l => { l with extents := l.extents.filter (·.accepted) })
  { d with q0work := d.q0work ++ gone.map (fun x =>
      { steps := [.unmapAll, .dcDone false, .finish], view := d.boundView p m x.view, port := p, ld := m, region := x.region, base := x.base, pages := x.pages }) }

/-- An agent is resigned (R192-R196): the first cause stands, no request of it is decoded any more, no BISnp is sent to it. -/
def resign (d : Dev) (a : BitVec 12) (cause : Nat) : Dev :=
  match d.agent? a with
  | none => d
  | some x =>
    if !x.attached then d
    else
      let d := d.updAgent a (fun y => { y with attached := false, cause := BitVec.ofNat 3 cause })
      let d := d.updPort x.port (fun q => { q with snoops := q.snoops.filter (fun s => s.agent != a) })
      let d := d.updLd x.port x.ld (fun l => if cause = 1 ∨ cause = 3 then { l with st := .unbound } else { l with st := .resigned })
      let d := d.setGlob (fun g => { g with resigns := satInc 32 g.resigns })
      let d := if d.park.st = 1 then { d with park := { d.park with resigned := true } } else d
      let d := raise d 448 0 1 (info (a.toNat + fld 12 x.epoch.toNat + fld 16 cause + fld 19 x.port + fld 22 x.ld
        + fld 26 x.view.toNat + fld 38 (b2n x.hdmDb)))
      let d := if cause = 3 then ldBind d x.port x.ld a x.epoch false x.hdmDb else d
      let d := withdrawOffers d x.port x.ld
      if !x.hdmDb then d
      else (List.range 16).foldl (fun d s => match (d.slice s).flush with
        | some f => (f.dset :: (d.slice s).flushQueue).foldl (fun d k =>
            logErr (d.updAgent a (fun y => { y with unknown := true }))
              { kind := 14, src := 450, loc := s + fld 4 k, detail := 1, who := x.asWho a }) d
        | none => d) d

end Sys2Proof.Machine
end

