-- ==== Sys2Proof/Machine/Path.lean ====
section
/-! DEFINITION. What a request does at its home slice: recalls, directory transitions, the data stage, fills and merges
(04_slices_and_request_path.md to 07_agent_lifecycle.md). -/

namespace Sys2Proof.Machine

-- finishing
/-- MetaValue of a read response (R163, R164). -/
def Xact.respMeta (x : Xact) : Option Meta :=
  if !x.req.hdmDb then none
  else if x.untracked then some .i
  else match x.req.op with
  | .readUntracked => some .i
  | _ => if x.grantE then some .a else some .s

/-- The result of a request that has ended goes to its host, or waits for whoever sent it. -/
def giveResult (d : Dev) (i : Nat) (x : Xact) (data : Line) (poison ok : Bool) : Dev :=
  match x.req.src with
  | .host _ _ _ =>
    let d := d.dropXact i
    if x.req.op.isRead then respondData d x.req x.t0 data (poison || !ok) x.respMeta
    else respondCmp d x.req (x.req.op == .ownNoData && !x.untracked)
  | .prefetch => d.dropXact i
  | .orphan _ => d.dropXact i
  | _ => d.putXact i { x with phase := .done data poison ok, mem := .idle }

/-- A request ends. Data read ahead for a request is kept until its recalls are answered, or ends it if they are (R167). -/
def finish (d : Dev) (i : Nat) (data : Line) (poison ok : Bool) : Dev :=
  match d.xact? i with
  | none => d
  | some x =>
    match x.req.src with
    | .early j =>
      let d := d.dropXact i
      match d.xact? j with
      | none => d
      | some y =>
        if y.phase == .merged i then giveResult d j y data poison ok
        else d.putXact j { y with pre := some (data, poison || !ok) }
    | _ => giveResult d i x data poison ok

-- recalls
/-- A host write matched to the recall of a line (R103, R177): it goes there, whatever its own translation would give (R177's
last row; log entry 123). -/
def Xact.matchedTo (x : Xact) (line : Nat) : Xact :=
  { x with req := { x.req with dpa := 64 * line }, slice := sliceOf (64 * line), phase := .ingress, matched := true }

/-- A write of an agent still at the port, to the line and view address of a BISnp (R103). -/
def Xact.atPort (x : Xact) (s : Snoop) (va : Nat) : Bool :=
  x.req.agent == s.agent && x.req.op.isWrite && (match x.req.src, x.phase with
    | .host _ _ _, .ingress => decide (x.line = s.line)
    | .host _ _ _, .parked _ => decide (x.req.va / 64 * 64 = va)
    | _, _ => false)

/-- Sends the BISnp of an outstanding snoop, its reverse entry known (R168, R172). Writes to it still at the port, parked ones
too, now match it (R103, R177). -/
def sendSnoop (d : Dev) (p : Nat) (s : Snoop) (vpn : Nat) : Dev :=
  let va := vpn * 65536 + s.line * 64 % 65536
  let d := d.updPort p (fun q => { q with snoops := q.snoops.map (fun t =>
    if t.agent = s.agent ∧ t.line = s.line then { t with sent := true, va := va, timeout := d.glob.bisnpTimeout } else t) })
  let m := match d.agent? s.agent with
    | some a => a.ld
    | none => 0
  let d := d.each ((d.xacts.filter (fun x => x.2.atPort s va)).map (·.1)) (fun d i => d.updXact i (·.matchedTo s.line))
  let d := count d p 6 1 { cls := 4, priv := 1, agent := some s.agent, dpa := some (64 * s.line) }
  emit d (.bisnp p m ((d.ld p m).base + va) s.data)

/-- A cached reverse entry of a port, moved to the front (R170). -/
def Port.reverse (p : Port) (frame : Nat) : Option (BitVec 32) := (p.rcache.find? (fun e => decide (e.1 = frame))).map (·.2)
def Port.reverseUse (p : Port) (frame : Nat) (pair : BitVec 32) : Port :=
  { p with rcache := ((frame, pair) :: p.rcache.filter (fun e => !decide (e.1 = frame))).take 256 }
/-- VPN and MAPS of a reverse pair (R169). -/
def revVpn (pair : BitVec 32) : Nat := bits pair.toNat 26 0
def revMaps (pair : BitVec 32) : Nat := bits pair.toNat 31 27

/-- A port takes a recall of one of its agents (R103, R170). A BISnpInv waits for the answer to a BISnpData of the same line and
agent, which may leave a shared copy (R166, R180). The read of the reverse entry names no agent: among entries of one cycle it
ranks as agent 0 (DESIGN CHOICE, log entry 114). -/
def portRecall (d : Dev) (p : Nat) (a : BitVec 12) (line : Nat) (data : Bool) : Dev :=
  let port := d.port p
  match port.snoops.find? (fun s => s.agent == a && decide (s.line = line)) with
  | some s =>
    if s.data && !data then d.updPort p (fun q => { q with snoops := q.snoops.map (fun t =>
      if t.agent = a ∧ t.line = line then { t with inv := true } else t) })
    else d
  | none =>
    let s : Snoop := { agent := a, line := line, data := data, sent := false, va := 0, timeout := 0, conflict := none
                       began := (d.slice (sliceOf (64 * line))).nextOrd }
    let d := d.updPort p (fun q => { q with snoops := q.snoops ++ [s] })
    let frame := line / 1024
    match port.reverse frame with
    | some pair => if revMaps pair = 0 then d else sendSnoop (d.updPort p (fun q => q.reverseUse frame pair)) p s (revVpn pair)
    | none =>
      if d.xacts.any (fun x => x.2.req.op == .revRead && x.2.req.src == .reverse p && decide (x.2.req.va = frame)) then d
      else
        let dpa := d.glob.rmapBase.toNat * 65536 + 4 * frame
        (d.start { req := { src := .reverse p, agent := 0, op := .revRead, dpa := dpa, va := frame, sup := true }
                   slice := sliceOf dpa, t0 := d.glob.time }).1

/-- Sends one recall (R166). No BISnp goes to an agent that is resigning (R196). -/
def sendRecall (d : Dev) (s line : Nat) (t : Target) : Dev :=
  let counted (d : Dev) (priv : Nat) : Dev := count d (8 + s) 0x18 1 { cls := 4, priv := priv, agent := some t.agent, dpa := some (64 * line) }
  if isEngine t.agent then counted d 6
  else match d.agent? t.agent with
  | some a =>
    if a.attached && a.epoch == t.epoch then
      let sends := match (d.port a.port).snoops.find? (fun n => n.agent == t.agent && decide (n.line = line)) with
        | some n => n.data && !t.data && !n.inv
        | none => true
      portRecall (if sends then counted d 1 else d) a.port t.agent line t.data
    else d
  | none => d

/-- Holders of group 63 and of other groups that an SC entry's vector can mean (R166). Engines of a quad whose domain is off
hold nothing (R156) and are left out (DESIGN CHOICE, log entry 114). -/
def Dev.groupTargets (d : Dev) (g : BitVec 64) (data : Bool) : List Target :=
  ((d.dbAgents.filter (fun a => g.getLsbD (a.1.toNat / 64))).map (fun a => ⟨a.1, a.2, data, false⟩))
    ++ (if g.getLsbD 63 then
        ((List.range 24).filter (fun e => d.domOn (quadDom (quadOf e)))).map (fun e => ⟨engAgent e, 0, data, false⟩)
      else [])

/-- Every holder an entry records. -/
def Dev.holders (d : Dev) (e : DirEntry) (data : Bool) : List Target :=
  match e.st with
  | .s => e.ptrs.map (fun p => ⟨p.agent, p.epoch, data, false⟩)
  | .e => e.ptrs.map (fun p => ⟨p.agent, p.epoch, data, true⟩)
  | .sc => d.groupTargets e.groups data
  | _ => []

/-- A recall starts: the words of the entry in way `dw` become RECALLING (R166). -/
def startRecall (d : Dev) (i : Nat) (line : Nat) (ts : List Target) (dw : Option Nat) (evict : Option Nat) : Dev :=
  match d.xact? i with
  | none => d
  | some x =>
    let d := d.putXact i { x with phase := .recall ts evict, recalls := x.recalls + ts.length, victim := evict.map (fun _ => line) }
    let dset := dsetOf (64 * line)
    let d := match dw with
      | some w =>
        let e := d.dirAt x.slice dset w
        putDir d x.slice dset w { e with ptrs := e.ptrs.map (fun (p : Ptr) =>
          if ts.any (fun t => t.agent == p.agent) then { p with ps := .recalling } else p) }
      | none => d
    d.each ts (fun d t => sendRecall d x.slice line t)

-- transitions
/-- What a request is to the directory (R165). -/
inductive DirOp where
  | none | shared | own | untracked | write | invalidate | evict | coh
  deriving DecidableEq, Repr

/-- The entry names an agent, or its group. -/
def DirEntry.has (e : DirEntry) (a : BitVec 12) : Bool :=
  match e.st with
  | .sc => e.groups.getLsbD (a.toNat / 64)
  | _ => e.ptrs.any (fun p => p.agent == a)
/-- The entry's owner is an agent. -/
def DirEntry.ownedBy (e : DirEntry) (a : BitVec 12) : Bool := e.st == .e && e.ptrs.any (fun p => p.agent == a)

/-- The requester can be recorded as a holder. A request ordered before its agent's resignation point whose directory step comes
after it is served untracked and records no holder (DESIGN CHOICE, log entry 124; R197). -/
def Dev.recordable (d : Dev) (r : Req) : Bool :=
  match r.src with
  | .host _ _ _ => r.hdmDb && !d.pointPassed r.agent r.epoch && (d.attachedAs r.agent r.epoch || d.resigningAs r.agent r.epoch)
  | .engine _ => true
  | .call _ => true
  | _ => false

/-- Under PARK no host becomes a holder (R323). -/
def Dev.parkRefuses (d : Dev) (r : Req) (e : Option DirEntry) : Bool :=
  d.park.st != 0 && (match r.src with
    | .host _ _ _ => true
    | _ => false) && !(match e with
    | some e => e.has r.agent
    | none => false)

/-- The directory's view of a request. -/
def Dev.dirOp (d : Dev) (x : Xact) (e : Option DirEntry) : DirOp :=
  let track (o : DirOp) : DirOp := if d.recordable x.req && !d.parkRefuses x.req e then o else .untracked
  match x.req.op with
  | .readShared => track .shared
  | .readOwn => track .own
  | .readUntracked => .untracked
  | .readData => track (if d.glob.rddataE && e.isNone then .own else .shared)
  | .ownNoData => if d.recordable x.req && !d.parkRefuses x.req e then .own else .none
  | .invalidate => .invalidate
  | .cleanEvict => .evict
  | .write _ => .write
  | .scp => .write
  | .moverRead => .untracked
  | .moverWrite => .write
  | .cmo k c _ => if c then .coh else if k = 1 then .none else .untracked
  | .parkRecall => .coh
  | _ => .none

/-- The requester is served untracked although it asked for more: its response carries MetaValue I, or Cmp (R181, R323). -/
def Dev.servedUntracked (d : Dev) (x : Xact) (e : Option DirEntry) : Bool :=
  match x.req.op with
  | .readShared => d.dirOp x e == .untracked
  | .readOwn => d.dirOp x e == .untracked
  | .readData => d.dirOp x e == .untracked
  | .ownNoData => d.dirOp x e == .none
  | _ => false

/-- Holders a request recalls (R165). -/
def Dev.recallsOf (d : Dev) (o : DirOp) (a : BitVec 12) (e : DirEntry) : List Target :=
  let others (l : List Target) : List Target := l.filter (fun t => t.agent != a)
  match e.st with
  | .e =>
    if o == .coh then d.holders e false
    else if e.ownedBy a then []
    else match o with
      | .shared => d.holders e true
      | .untracked => d.holders e true
      | .own => d.holders e false
      | .write => d.holders e false
      | .invalidate => d.holders e false
      | _ => []
  | _ =>
    match o with
    | .coh => d.holders e false
    | .own => others (d.holders e false)
    | .write => others (d.holders e false)
    | .invalidate => others (d.holders e false)
    | _ => []

/-- Group bit of an agent. -/
def groupBit (a : BitVec 12) : BitVec 64 := BitVec.ofNat 64 (2 ^ (a.toNat / 64))

/-- Adds a sharer (R165): a word, a group bit, or the change from S to SC. A sharer recorded already counts as a holder
change too: AGE becomes zero (DESIGN CHOICE, log entry 114; R173). -/
def DirEntry.addSharer (e : DirEntry) (a : BitVec 12) (ep : BitVec 4) : DirEntry :=
  if e.st = .sc then { e with groups := e.groups ||| groupBit a, age := 0 }
  else if e.ptrs.any (fun p => p.agent == a) then { e with st := .s, age := 0 }
  else if e.ptrs.length < 4 then { e with st := .s, ptrs := e.ptrs ++ [⟨a, .s, ep⟩], age := 0 }
  else { e with st := .sc, ptrs := [], groups := e.ptrs.foldl (fun g p => g ||| groupBit p.agent) (groupBit a), age := 0 }

/-- The entry with no holder left is free. -/
def DirEntry.settle (e : DirEntry) : DirEntry := if e.ptrs = [] ∧ e.st ≠ .sc then {} else e

/-- An entry as its answered recalls leave it (R166): RECALLING words go, but an owner that answered BIRspS stays as S. With
no word left it is the entry of its line with no holder. -/
def DirEntry.answered (e : DirEntry) (kept : Bool) : DirEntry :=
  if e.ptrs.any (fun p => p.ps == .recalling) then
    { e with
      st := if e.st = .e then .s else e.st
      ptrs := if kept then e.ptrs.map (fun (p : Ptr) => if p.ps = .recalling then { p with ps := .s } else p)
        else e.ptrs.filter (fun p => p.ps != .recalling)
      age := if e.st = .e then 0 else e.age }
  else e

/-- Next state of an entry once its recalls are answered (R165). A clean eviction that takes one sharer of several away leaves
AGE as it is (DESIGN CHOICE, log entry 124; R173). -/
def DirEntry.next (e : DirEntry) (o : DirOp) (op : Op) (a : BitVec 12) (ep : BitVec 4) : DirEntry :=
  match o with
  | .none => e
  | .shared => if e.ownedBy a then e else e.addSharer a ep
  | .own =>
    if e.ownedBy a then e
    else { e with st := .e, ptrs := [⟨a, .e, ep⟩], groups := 0, log := BitVec.ofNat 6 (a.toNat / 64), age := 0 }
  | .untracked => DirEntry.settle e
  | .write =>
    match e.st with
    | .s => if isEngine a ∧ e.has a then { e with ptrs := e.ptrs.filter (fun p => p.agent == a), age := 0 } else {}
    | .e =>
      if e.ownedBy a then
        match op with
        | .write .a => e
        | .write .s => { e with st := .s, ptrs := [⟨a, .s, ep⟩], age := 0 }
        | _ => {}
      else {}
    | _ => {}
  | .invalidate => {}
  | .evict =>
    match e.st with
    | .s => DirEntry.settle { e with ptrs := e.ptrs.filter (fun p => p.agent != a) }
    | .e => if e.ownedBy a then {} else e
    | _ => e
  | .coh => {}

/-- The victim way of a directory set (R173): none where every entry is busy. -/
def dirVictim (d : Dev) (s dset : Nat) : Dev × Option Nat :=
  let c := (List.range 16).filter (fun w => match d.wayLine s dset w with
    | some l => !d.lineBusy s l 0
    | none => true)
  match c.find? (fun w => (d.dirAt s dset w).st == .i) with
  | some w => (d, some w)
  | none =>
    let m := c.foldl (fun m w => max m (d.dirAt s dset w).age.toNat) 0
    let d := if m < 3 then
        d.each c (fun d w => putDir d s dset w { d.dirAt s dset w with age := (d.dirAt s dset w).age + BitVec.ofNat 2 (3 - m) })
      else d
    let o := c.filter (fun w => (d.dirAt s dset w).age == 3)
    let pick (st : DState) := o.find? (fun w => (d.dirAt s dset w).st == st)
    (d, match pick .s, pick .e, pick .sc with
      | some w, _, _ => some w
      | none, some w, _ => some w
      | none, none, r => r)

/-- Words of an entry that name no live holder are resolved (R162, R199): whether a line was lost. -/
def resolveEntry (d : Dev) (s dset way : Nat) : Dev × Bool :=
  let e := d.dirAt s dset way
  if e.st != .s && e.st != .e then (d, false)
  else
    let gone := e.ptrs.filter (fun p => p.ps != .recalling && !d.attachedAs p.agent p.epoch
      && !(d.resigningAs p.agent p.epoch && !d.pointPassed p.agent p.epoch))
    if gone = [] then (d, false)
    else
      let dpa := dpaOfDir s dset e.tag.toNat
      let d := d.each (gone.filter (fun p => !d.resigningAs p.agent p.epoch)) (fun d p => dirNote d s 2 dset (some way) p.agent)
      let d := putDir d s dset way (DirEntry.settle { e with ptrs := e.ptrs.filter (fun p => !gone.contains p) })
      if e.st = .e then
        match gone with
        | p :: _ => (loseLine d s dpa p.agent p.epoch, true)
        | [] => (d, false)
      else (d, false)

/-- Words of resigned agents in the entry of a line are resolved once the operation that held it busy is over (R199, R203). -/
def resolveLine (d : Dev) (s dpa : Nat) : Dev :=
  match d.dirWay s dpa with
  | some w => if d.lineBusy s (dpa / 64) 0 then d else (resolveEntry d s (dsetOf dpa) w).1
  | none => d

/-- A set flush starts, or its set is queued; a sixth set is fatal (R180, R182). No request allocates in an UNK set, so its guard
ends (R175, R181). -/
def markUnk (d : Dev) (s dset way : Nat) (who : Who) : Dev :=
  if d.unkSet s dset then d
  else
    let sl := d.slice s
    let d := d.updSlice s (fun x => { x with
      dirUe := satInc 32 x.dirUe
      guards := x.guards.filter (fun g => !decide (g.1 = dset)) })
    let d := d.each (List.range 16) (fun d w => putDir d s dset w { st := .unk })
    let d := d.each (List.range 24) (fun d e => d.updEngine e (fun y => { y with mview := [], rsv := none }))
    let d := logErr d { kind := 13, src := 64 + 8 * s + 6, loc := s + fld 4 dset, who := who }
    let d := noteUnknown d s dset
    match sl.flush with
    | none =>
      let d := d.updSlice s (fun x => { x with flush := some ⟨dset, 0, []⟩ })
      let d := d.setGlob (fun g => { g with dirFlushes := satInc 32 g.dirFlushes })
      raise d (64 + 8 * s + 6) 2 2 (info (dset + fld 15 way))
    | some _ =>
      if sl.flushQueue.length < 4 then
        let d := d.updSlice s (fun x => { x with flushQueue := x.flushQueue ++ [dset] })
        let d := d.setGlob (fun g => { g with dirFlushes := satInc 32 g.dirFlushes })
        raise d (64 + 8 * s + 6) 2 2 (info (dset + fld 15 way + fld 19 (sl.flushQueue.length + 1)))
      else
        let d := raise d (64 + 8 * s + 6) 3 3 (info (dset + fld 15 way + fld 19 4))
        enterRecovery d 4 (info (s + fld 4 dset))

/-- A detected error in BUSY or AGE of an entry (R160): BUSY follows from the requests under way, AGE becomes 3. -/
def rebuildAge (d : Dev) (s dset : Nat) (w : Option (Fin 16)) : Dev :=
  match w with
  | some w => if (d.dirAt s dset w.val).st == .i || d.unkSet s dset then d else putDir d s dset w.val { d.dirAt s dset w.val with age := 3 }
  | none => d

/-- The directory entries of a set are read for a requester (R179, R180, R361). -/
def checkDir (d : Dev) (s dset : Nat) (err : Option (Fin 16 × Ecc)) (who : Who) : Dev :=
  if d.unkSet s dset then d
  else d.each (List.range 16) (fun d w =>
    let e := d.dirAt s dset w
    let c : Ecc := match err with
      | some (v, c) => if v.val = w then c else .ok
      | none => .ok
    match eccWith c e.bad with
    | .ok => d
    | .ce _ =>
      let d := putDir d s dset w { e with bad := 0 }
      raise (d.updSlice s (fun x => { x with dirCe := satInc 32 x.dirCe })) (64 + 8 * s + 5) 1 1 (info (dset + fld 15 w))
    | .ue => markUnk d s dset w who)

-- prefetch
/-- The detector entry of a demand access (R132). -/
def Slice.detector (sl : Slice) (r : Req) : Option Detector :=
  sl.detectors.find? (fun x => x.agent == r.agent && decide (x.lo = r.lo) && decide (x.hi = r.hi))

/-- Operations that store to a line. -/
def Op.stores : Op → Bool
  | .write _ => true
  | .scp => true
  | .moverWrite => true
  | _ => false

/-- A request that the detectors watch (R132): a read or write of a host or an engine. -/
def Req.demand (r : Req) : Bool :=
  !r.device && !r.nopf && (r.op.isRead || r.op.stores) && (match r.src with
    | .host _ _ _ => true
    | .engine _ => true
    | .orphan _ => true
    | .call _ => true
    | .early _ => true
    | _ => false)

/-- A fill of this request is a streaming fill, or its page has STREAM (R125, R132). A preload's is no demand fill. The
detector is read when the fill is installed (DESIGN CHOICE, log entry 115). -/
def Dev.fillsOld (d : Dev) (s : Nat) (r : Req) : Bool :=
  r.stream || (r.demand && (match (d.slice s).detector r with
    | some x => decide (x.delta.natAbs = 1) && decide (x.conf = 15)
    | none => false))

/-- Class 4 entries of a slice. -/
def Dev.pfEntries (d : Dev) (s : Nat) : Nat := ((d.atSlice s).filter (fun x => x.2.req.op == .prefetch && x.2.phase == .queued)).length

/-- Queues one prefetch (R133): its line in the granule's range. -/
def queuePrefetch (d : Dev) (s : Nat) (r : Req) (dpa : Nat) : Dev :=
  if r.lo ≤ dpa ∧ dpa < r.hi ∧ d.pfEntries s < 8 then
    let sl := d.slice s
    ((d.updSlice s (fun y => { y with nextOrd := y.nextOrd + 1 })).start
      { req := { r with src := .prefetch, op := .prefetch, dpa := dpa }, slice := s, ord := sl.nextOrd, phase := .queued
        isPf := true, t0 := d.glob.time }).1
  else d

/-- `detect` of R132. -/
def detect (d : Dev) (s : Nat) (r : Req) : Dev :=
  let sl := d.slice s
  let l := lineIndex r.dpa
  let e : Detector := match sl.detector r with
    | some x => x
    | none => ⟨r.agent, r.lo, r.hi, 0, 0, 0⟩
  let delta : Int := (l : Int) - (e.last : Int)
  let e := if delta ≠ 0 ∧ delta = e.delta then { e with conf := min (e.conf + 1) 15, last := l }
    else { e with conf := 0, delta := delta, last := l }
  let d := d.updSlice s (fun x => { x with detectors :=
    (e :: x.detectors.filter (fun y => !(y.agent == r.agent && decide (y.lo = r.lo) && decide (y.hi = r.hi)))).take 32 })
  let on := if e.delta.natAbs = 1 then sl.ctrl.getLsbD 1 else sl.ctrl.getLsbD 2
  if 1 ≤ e.conf ∧ 1 ≤ e.delta.natAbs ∧ e.delta.natAbs ≤ 64 ∧ on then
    d.each (List.range (2 ^ bits sl.ctrl.toNat 4 3)) (fun d i =>
      let t : Int := (l : Int) + ((i : Int) + 1) * e.delta
      if t < 0 then d else queuePrefetch d s r (dpaOfIndex s t.toNat))
  else d

-- data
/-- The way a fill of this request goes to (R126, R128): its tag is written, with every VALID bit clear. -/
def chooseWay (d : Dev) (s dpa : Nat) : Dev × Option Nat :=
  match d.taggedWay s dpa with
  | some w => (d, some w)
  | none =>
    match victimWay d s (csetOf dpa) with
    | (d, some w) => (putTag d s (csetOf dpa) w { tag := BitVec.ofNat 14 (ctagOf dpa), held := true }, some w)
    | (d, none) => (d, none)

/-- The line of a prefetch register still on its way (R134). -/
def Dev.pfRegister (d : Dev) (s line : Nat) : Option Nat :=
  ((d.atSlice s).find? (fun x => x.2.isPf && decide (x.2.line = line) && (match x.2.phase with
    | .miss _ false => true
    | _ => false))).map (·.1)

/-- Reads of an operation never allocate (R118). -/
def Op.noAllocate : Op → Bool
  | .moverRead => true
  | .revRead => true
  | .sweepRead => true
  | _ => false

/-- A read goes to its controller with no miss register (R103), once it has a credit. -/
def readDirect (d : Dev) (i : Nat) (x : Xact) : Dev :=
  if d.readCredits x.slice (mcOf x.req.dpa) < 32 then d.putSent i { x with phase := .direct, mem := .toMc }
  else d.putXact i { x with phase := .needMr }

/-- A read binds a miss register (R107, R128): it reserves a way unless it does not allocate, or its slice is disabled
(R122). -/
def bindMiss (d : Dev) (i : Nat) (x : Xact) : Dev :=
  let s := x.slice
  if d.missRegs s < 64 ∧ d.readCredits s (mcOf x.req.dpa) < 32 then
    let d := if d.enabled s then count d (8 + s) 0x12 1 x.req.counted else d
    if x.req.op.noAllocate || !d.enabled s then d.putSent i { x with phase := .miss none true, mem := .toMc }
    else
      let (d, w) := chooseWay d s x.req.dpa
      d.putSent i { x with phase := .miss w false, mem := .toMc }
  else d.putXact i { x with phase := .needMr }

/-- The read of a request joins a prefetch register still on its way, which from then on fills as that request's (R134). -/
def joinPrefetch (d : Dev) (i j : Nat) (x : Xact) : Dev :=
  let d := count (d.putXact i { x with phase := .merged j }) (8 + x.slice) 0x14 1 x.req.counted
  let (d, w) := chooseWay d x.slice x.req.dpa
  d.updXact j (fun y => { y with demanded := true, phase := .miss w false, req := { x.req with src := y.req.src, op := y.req.op } })

/-- A read hits its tile (R117, R125). -/
def readTile (d : Dev) (i : Nat) (x : Xact) (w : Nat) : Dev :=
  let s := x.slice
  let c := csetOf x.req.dpa
  let key := dataKey c w (subOf x.req.dpa)
  let e := d.tag s c w
  let d := count (putTag d s c w { e with age := 0 }) (8 + s) 0x11 1 x.req.counted
  d.putXact i { x with phase := .tile c w (Tab.get 0 (d.slice s).data key) (e.poison.getLsbD (subOf x.req.dpa))
                                      (Tab.get 0 (d.slice s).tileBad key) }

/-- A demand read is answered from the side buffer, and its sub-block promoted (R134). -/
def readSide (d : Dev) (i : Nat) (x : Xact) (e : SideEntry) : Dev :=
  let s := x.slice
  let d := count (count d (8 + s) 0x11 1 x.req.counted) (8 + s) 0x13 1 x.req.counted
  let d := match chooseWay (dropSide d s e.line) s x.req.dpa with
    | (d, some w) => install d s x.req.dpa w e.data e.poison (d.fillsOld s x.req)
    | (d, none) => d
  finish d i e.data e.poison true

/-- The data of a read (R117, R118, R122, R128, R134). -/
def readStage (d : Dev) (i : Nat) : Dev :=
  match d.xact? i with
  | none => d
  | some x =>
    let s := x.slice
    if x.req.device || x.req.op == .sweepRead then readDirect d i x
    else if !d.enabled s then (if x.req.op == .revRead then readDirect d i x else bindMiss d i x)
    else match d.hitWay s x.req.dpa with
    | some w => readTile d i x w
    | none =>
      if x.req.op == .revRead then readDirect d i x
      else if x.req.op.noAllocate then bindMiss d i x
      else match (d.slice s).side.find? (fun e => decide (e.line = x.line)), d.pfRegister s x.line with
      | some e, _ => readSide d i x e
      | none, some j => joinPrefetch d i j x
      | none, none => bindMiss d i x

/-- The data of a request whose recalls are answered: what was read meanwhile, what is still being read, or a read now
(R167). -/
def dataRead (d : Dev) (i : Nat) : Dev :=
  match d.xact? i with
  | none => d
  | some x =>
    match x.pre, d.xacts.find? (fun y => y.2.req.src == .early i) with
    | some (data, poison), _ => finish d i data poison true
    | none, some (j, _) => d.putXact i { x with phase := .merged j }
    | none, none => readStage d i

/-- The data of a read-own of shared copies is read while they are recalled (R167). -/
def readAhead (d : Dev) (i : Nat) : Dev :=
  match d.xact? i with
  | none => d
  | some x =>
    if x.req.op == .readOwn then
      let r := d.start { x with req := { x.req with src := .early i }, phase := .queued, recalls := 0 }
      readStage r.1 r.2
    else d

/-- The register a request's data comes from: its own, or the prefetch register it joined (R134). -/
def Xact.register (x : Xact) (i : Nat) : Nat :=
  match x.phase with
  | .merged j => j
  | _ => i

/-- Data read ahead for a request is given up: a write that passed its recall has changed the line since (R97, R167). The
register it comes from, a joined prefetch register too, fills no way. -/
def dropAhead (d : Dev) (i : Nat) : Dev :=
  let d := d.updXact i (fun x => { x with pre := none })
  d.each ((d.xacts.filter (fun y => y.2.req.src == .early i)).map (fun y => (y.1, y.2.register y.1))) (fun d j =>
    markNoAlloc (d.updXact j.1 (fun y => { y with req := { y.req with src := .early 0 } })) j.2)

/-- A write that gives up its owner's copy, or leaves it shared (R163). -/
def Op.givesUp : Op → Bool
  | .write m => m != .a
  | _ => false

/-- A write passes the recalls of its line (R100): an owner that has given the line up with it holds it E no more, so nothing of
it can be lost (R197), and data read ahead is old (R97). -/
def passRecalls (d : Dev) (x : Xact) : Dev :=
  let mine := d.xacts.filter (fun y => y.2.recalling && decide (y.2.recallLine = x.line))
  d.each (mine.map (·.1)) (fun d i =>
    dropAhead (d.updXact i (fun y => match y.phase with
      | .recall ts v => { y with phase := .recall (ts.map (fun t =>
          if t.agent = x.req.agent then { t with wasE := t.wasE && !x.req.op.givesUp } else t)) v }
      | _ => y)) i)

/-- Prefetch registers of a line are marked no-allocate and the line leaves the side buffer (R131, R135). -/
def dropPrefetched (d : Dev) (s line : Nat) : Dev :=
  markWhere (dropSide d s line) s (fun x => x.isPf && !x.demanded && decide (x.line = line))

/-- A write goes to its controller, and updates the tile (R109, R119). A routine's store updates its engine's cached copy
as an engine's own does (R183, R287). -/
def writeStage (d : Dev) (i : Nat) : Dev :=
  match d.xact? i with
  | none => d
  | some x =>
    let s := x.slice
    if 16 ≤ d.writeCredits s (mcOf x.req.dpa) then d.putXact i { x with phase := .needCredit }
    else if x.req.op == .poison then d.putSent i { x with phase := .toBuffer }
    else
      let d := if x.req.device then d
        else dropPrefetched (writeUpdate d s x.req.dpa x.req.data x.req.mask x.req.poison) s x.line
      let d := match x.req.src with
        | .call e => d.updEngine e (·.mvWrite { line := x.line, data := x.req.data, mask := x.req.mask, poison := x.req.poison })
        | _ => d
      d.putSent i { x with phase := .toBuffer }

/-- Write-buffer entries a CLEAN waits for (R306, R310). A disabled slice uses no tags (R122). -/
def Dev.drainLines (d : Dev) (x : Xact) : List Nat :=
  match x.req.op with
  | .cmoSw _ _ set way =>
    let e := d.tag x.slice set way
    if !d.enabled x.slice then [] else (List.range 8).filterMap (fun j => if e.valid.getLsbD j then some (dpaOfTag x.slice set e.tag.toNat / 64 + j) else none)
  | _ => [x.line]

/-- A CLEAN has its lines in the channel. -/
def Dev.drained (d : Dev) (x : Xact) : Bool := (d.drainLines x).all (fun l => (d.wbOf l).isEmpty)

/-- The invalidating part of a CMO: the sector of a locked way it emptied. A CLEAN takes its lines out of the side buffer
only (R135). -/
def cmoInval (d : Dev) (x : Xact) : Dev × Option Nat :=
  match x.req.op with
  | .cmo k _ unlock =>
    if k = 0 then (dropSide d x.slice x.line, none)
    else
      let (d, l) := invalSub d x.slice x.req.dpa unlock
      (markWhere d x.slice (fun y => y.isPf && !y.demanded && decide (y.line = x.line)), l)
  | .cmoSw k unlock set way =>
    if k = 0 then (d.each (d.drainLines x) (dropSide · x.slice ·), none)
    else if d.usable x.slice set way = false then (d, none)
    else invalWay d x.slice set way unlock
  | _ => (d, none)

/-- Ends a CMO: recalls sent, and with 65,536 × (1 + SA) added the sector of a locked way it emptied. An engine's own
instruction is a maintenance operation by itself; a routine's operation is its call (R137). Words of resigned agents that the
background pass skipped while the line drained are resolved (R203). -/
def cmoEnd (d : Dev) (i : Nat) : Dev :=
  match d.xact? i with
  | none => d
  | some x =>
    let (d, l) := cmoInval d x
    let d := match l, x.req.src with
      | some _, .call _ => d
      | some sec, _ => lockedNote d x.slice sec 1
      | none, _ => d
    let d := finish d i (BitVec.ofNat 512 (x.recalls + (match l with
      | some sec => 65536 * (1 + sec)
      | none => 0))) false true
    match x.req.op with
    | .cmo _ _ _ => resolveLine d x.slice x.req.dpa
    | _ => d

/-- An INVAL or CLINV by set and way marks the registers that reserve its way when it issues (R131). -/
def swMarks (d : Dev) (x : Xact) : Dev :=
  match x.req.op with
  | .cmoSw k _ set way => if k = 0 ∨ d.usable x.slice set way = false then d else markWay d x.slice set way
  | _ => d

/-- A CMO after its recalls (R306, R307): CLEAN and CLINV wait for the channel, INVAL and CLINV invalidate. -/
def cmoStage (d : Dev) (i : Nat) : Dev :=
  match d.xact? i with
  | none => d
  | some x =>
    let clean := match x.req.op with
      | .cmo k _ _ => decide (k ≠ 1)
      | .cmoSw k _ _ _ => decide (k ≠ 1)
      | _ => false
    let d := swMarks d x
    if clean && !d.drained x then d.putXact i { x with phase := .drain } else cmoEnd d i

/-- Ways of a set that are usable and stay unlocked once the preloads under way have locked theirs. -/
def Dev.unlockedWays (d : Dev) (s cset but : Nat) : Nat :=
  ((List.range 16).filter (fun w => d.usable s cset w && !(d.tag s cset w).lock
    && !(d.atSlice s).any (fun y => decide (y.1 ≠ but) && decide (csetOf y.2.req.dpa = cset) && (match y.2.req.op with
      | .preload _ => y.2.cleared && d.taggedWay s y.2.req.dpa == some w
      | _ => false)))).length

/-- A preload of a sector (R136, R312): refused, or its invalid sub-blocks are read one by one and the way locked. It waits
for each of its lines as a read of it does, and whether it may lock is asked again each time it goes on. Refused are also a sector of a disabled slice, which uses no tags (R122), and
one for which no way can be chosen (DESIGN CHOICE, log entry 115). -/
def preloadStage (d : Dev) (i : Nat) (lgrp : BitVec 4) : Dev :=
  match d.xact? i with
  | none => d
  | some x =>
    let s := x.slice
    let c := csetOf x.req.dpa
    let locked := match d.taggedWay s x.req.dpa with
      | some w => (d.tag s c w).lock
      | none => false
    if !d.enabled s || x.req.device || (!locked && decide (d.unlockedWays s c i < 3)) then finish d i 0 false false
    else match chooseWay d s x.req.dpa with
    | (d, none) => finish d i 0 false false
    | (d, some w) =>
      let e := d.tag s c w
      match (List.range 8).find? (fun j => !e.valid.getLsbD j) with
      | none => finish (putTag d s c w { e with lock := true, lgrp := lgrp }) i 0 false true
      | some j =>
        let dpa := x.req.dpa / 512 * 512 + 64 * j
        let x := { x with cleared := true, req := { x.req with dpa := dpa } }
        if d.xacts.any (fun y => decide (y.1 = i) && decide (y.2.req.dpa / 64 = dpa / 64)) then
          if d.missRegs s < 64 ∧ d.readCredits s (mcOf dpa) < 32 then
            (dropSide (count d (8 + s) 0x12 1 x.req.counted) s (dpa / 64)).putSent i { x with phase := .miss (some w) false, mem := .toMc }
          else d.putXact i { x with phase := .needMr }
        else d.putXact i { x with phase := .queued }

/-- A prefetch issues (R133): it binds a register or is dropped. -/
def prefetchIssue (d : Dev) (i : Nat) : Dev :=
  match d.xact? i with
  | none => d
  | some x =>
    let s := x.slice
    if !d.enabled s || d.lineBusy s x.line i || (d.hitWay s x.req.dpa).isSome
        || (d.slice s).side.any (fun e => decide (e.line = x.line)) || decide (64 < d.missRegs s + 16) || decide (16 ≤ d.pfRegs s)
        || decide (32 ≤ d.readCredits s (mcOf x.req.dpa)) then d.dropXact i
    else (count d (8 + s) 0x12 1 x.req.counted).putSent i { x with phase := .miss none false, mem := .toMc }

/-- What follows once the directory is done with a request. -/
def dataStage (d : Dev) (i : Nat) : Dev :=
  match d.xact? i with
  | none => d
  | some x =>
    match x.req.op with
    | .write _ => writeStage d i
    | .scp => writeStage d i
    | .moverWrite => writeStage d i
    | .poison => writeStage d i
    | .ownNoData => finish (dropPrefetched d x.slice x.line) i 0 false true
    | .invalidate => finish (dropPrefetched d x.slice x.line) i 0 false true
    | .cleanEvict => finish d i 0 false true
    | .cmo _ _ _ => cmoStage d i
    | .cmoSw _ _ _ _ => cmoStage d i
    | .preload g => preloadStage d i g
    | .prefetch => prefetchIssue d i
    | .parkRecall => d.dropXact i
    | .flushRecall => d.dropXact i
    | _ => dataRead d i

-- directory stage
/-- Writes an entry if it changes. -/
def moveDir (d : Dev) (s dset way : Nat) (old new : DirEntry) : Dev := if old = new then d else putDir d s dset way new

/-- Applies the transition of a request whose recalls are answered, at the way that tracks its line (R165). An engine whose
write leaves no word of it gives up its copy (R155, R287). -/
def applyDir (d : Dev) (i : Nat) : Dev :=
  match d.xact? i with
  | none => d
  | some x =>
    let e? := d.dirEntry x.slice x.req.dpa
    let o := d.dirOp x e?
    let d := d.putXact i { x with grantE := o == .own, untracked := x.untracked || d.servedUntracked x e? }
    match d.dirWay x.slice x.req.dpa, e? with
    | some w, some e =>
      let e' := (e.answered x.keptS).next o x.req.op x.req.agent x.req.epoch
      let d := moveDir d x.slice (dsetOf x.req.dpa) w e e'
      if o == .write && isEngine x.req.agent && !e'.has x.req.agent then
        d.updEngine (x.req.agent.toNat - 4064) (·.dropMview x.line)
      else d
    | _, _ => d

/-- A new entry for a request in a free way (R173). -/
def allocDir (d : Dev) (i : Nat) (way : Nat) : Dev :=
  match d.xact? i with
  | none => d
  | some x =>
    let o := d.dirOp x none
    let e : DirEntry := { tag := BitVec.ofNat 15 (dtagOf x.req.dpa) }
    let d := d.putXact i { x with grantE := o == .own, untracked := x.untracked || d.servedUntracked x none }
    let d := count d (8 + x.slice) 0x16 1 x.req.counted
    let d := d.updSlice x.slice (fun y => { y with guards := y.guards.filter (fun g => !decide (g.2 = i)) })
    putDir d x.slice (dsetOf x.req.dpa) way (e.next o x.req.op x.req.agent x.req.epoch)

/-- A request that finds no candidate keeps its place (R175). -/
def toRetry (d : Dev) (i : Nat) : Dev := d.updXact i (fun x => { x with phase := .retry })

/-- A request looks up again, its place kept. -/
def relookup (d : Dev) (i : Nat) : Dev := d.updXact i (fun x => { x with phase := .queued, pre := none })

/-- Another request guards the set (R175). -/
def Dev.guardedFrom (d : Dev) (s dset i : Nat) : Bool :=
  (d.slice s).guards.any (fun g => decide (g.1 = dset) && decide (g.2 ≠ i))

/-- Allocates an entry, evicting a victim first where it must (R173, R174). A set that has become UNK allocates nothing:
the request looks up again (R181). A request that issues again reads the set's entries anew (R179). -/
def allocStage (d : Dev) (i : Nat) : Dev :=
  match d.xact? i with
  | none => d
  | some x =>
    let s := x.slice
    let dset := dsetOf x.req.dpa
    let d := checkDir d s dset none (whoOf x.req)
    if d.unkSet s dset then relookup d i
    else if d.guardedFrom s dset i then toRetry d i
    else match dirVictim d s dset with
    | (d, none) => toRetry d i
    | (d, some w) =>
      let (d, _) := resolveEntry d s dset w
      let e := d.dirAt s dset w
      if e.st = .i then dataStage (allocDir d i w) i
      else if 16 ≤ d.recallRegs s then d.updXact i (fun x => { x with phase := .needRecall })
      else
        let d := count d (8 + s) 0x17 1 x.req.counted
        let line := dpaOfDir s dset e.tag.toNat / 64
        match d.holders e false with
        | [] => dataStage (allocDir (putDir d s dset w {}) i w) i
        | ts => startRecall d i line ts (some w) (some w)

/-- The directory stage of a request (R165, R167, R173). -/
def dirStage (d : Dev) (i : Nat) : Dev :=
  match d.xact? i with
  | none => d
  | some x =>
    let s := x.slice
    match d.dirWay s x.req.dpa with
    | some w =>
      let e := d.dirAt s (dsetOf x.req.dpa) w
      match d.recallsOf (d.dirOp x (some e)) x.req.agent e with
      | [] =>
        let d := if x.req.op == .parkRecall then { d with park := { d.park with recalled := satInc 24 d.park.recalled } } else d
        dataStage (applyDir d i) i
      | ts =>
        let d := startRecall (d.putXact i { x with untracked := x.untracked || d.servedUntracked x (some e) }) i x.line ts (some w) none
        if e.st = .e then d else readAhead d i
    | none =>
      let o := d.dirOp x none
      if o == .shared || o == .own then allocStage d i else dataStage (applyDir d i) i

/-- SCP succeeds (R291): the entry is S with a word of the engine, which still holds its reservation. -/
def Dev.scpHolds (d : Dev) (x : Xact) : Bool :=
  let holds (e : Nat) (y : DirEntry) : Bool :=
    y.st == .s && y.ptrs.any (fun p => p.agent == engAgent e && p.ps == .s) && (match (d.engine e).rsv with
      | some a => decide (a / 64 = x.line)
      | none => false) && !d.unkSet x.slice (dsetOf x.req.dpa)
  match x.req.src, d.dirEntry x.slice x.req.dpa with
  | .engine e, some y => holds e y
  | .call e, some y => holds e y
  | _, _ => false

/-- Operations that look at the directory. -/
def Op.usesDir : Op → Bool
  | .sweepRead => false
  | .revRead => false
  | .prefetch => false
  | .preload _ => false
  | .poison => false
  | .cmoSw _ _ _ _ => false
  | .flushRecall => false
  | _ => true

/-- A recall of a line is under way: a write that passes it changes no entry (R100, R177). -/
def Dev.recallPending (d : Dev) (line : Nat) : Bool := d.xacts.any (fun x => x.2.recalling && decide (x.2.recallLine = line))

/-- A request to an UNK set (R181): its line is recalled from every attached HDM-DB agent, and it is served untracked. A
writeback of a recall of the line goes on at once. -/
def lookupUnk (d : Dev) (i : Nat) (x : Xact) : Dev :=
  if x.req.op == .scp then finish d i 0 false false
  else if x.req.op == .parkRecall then d.dropXact i
  else
    let d := d.putXact i { x with untracked := true, unk := true }
    match (if x.matched || x.cleared then [] else d.dbAgents.map (fun a => (⟨a.1, a.2, false, false⟩ : Target))) with
    | [] => dataStage d i
    | ts => startRecall d i x.line ts none none

/-- A request gives back a line that its agent and epoch hold E: a writeback or a clean eviction. One ordered before the agent's
resignation point is processed as the owner's, although its lookup comes after the point (R197; DESIGN CHOICE, log entry 124). -/
def Dev.givesBack (d : Dev) (x : Xact) : Bool :=
  (x.req.op.isWrite || x.req.op == .cleanEvict) && (match d.dirEntry x.slice x.req.dpa with
    | some e => e.st == .e && e.ptrs.any (fun p => p.agent == x.req.agent && p.epoch == x.req.epoch)
    | none => false)

/-- A lookup (R99, R118, R160, R162, R181, R202). The detectors see an owner's write, but not a write that passes a pending recall,
which is part of that recall (DESIGN CHOICE, log entry 124; R132). -/
def lookup (d : Dev) (i : Nat) (err : LookupErr) : Dev :=
  match d.xact? i with
  | none => d
  | some x =>
    let s := x.slice
    let dset := dsetOf x.req.dpa
    let d := if x.cleared then d else count d (8 + s) 0x10 1 x.req.counted
    let d := if d.enabled s && !x.req.device && x.req.op != .sweepRead then checkTags d s (csetOf x.req.dpa) err.tag (whoOf x.req) else d
    if !x.req.op.usesDir then dataStage d i
    else if x.req.op.isWrite && d.recallPending x.line then dataStage (passRecalls d x) i
    else
      let d := rebuildAge (checkDir d s dset err.dir (whoOf x.req)) s dset err.aux
      let d := if x.req.demand && d.enabled s && !x.cleared then detect d s x.req else d
      if d.unkSet s dset then lookupUnk d i x
      else
        match (match (if d.givesBack x then none else d.dirWay s x.req.dpa) with
          | some w => resolveEntry d s dset w
          | none => (d, false)) with
        | (d, true) => d.putXact i { x with phase := .queued, cleared := true }
        | (d, false) => if x.req.op == .scp && !d.scpHolds x then finish d i 0 false false else dirStage d i

-- answers
/-- A write that a recall of a line must still see accepted is under way (R165, R174, R177). -/
def Dev.writebackDue (d : Dev) (line : Nat) : Bool := d.xacts.any (fun x => x.2.due == some line)

/-- The victim of an eviction is free (R174): the request takes its way, unless another guards the set or the set has
become UNK since (R175, R181). -/
def evicted (d : Dev) (i : Nat) (x : Xact) (w : Nat) : Dev :=
  let dset := dsetOf x.req.dpa
  if d.unkSet x.slice dset then relookup d i
  else
    let d := putDir d x.slice dset w {}
    if d.guardedFrom x.slice dset i then toRetry d i else dataStage (allocDir d i w) i

/-- A recall ends once every holder has answered and the writebacks it produced are accepted (R165, R174). Words of resigned
agents that the background pass skipped are resolved where its request leaves the line free (R199, R203). -/
def recallDone (d : Dev) (i : Nat) : Dev :=
  match d.xact? i with
  | none => d
  | some x =>
    match x.phase with
    | .recall [] evict =>
      if d.writebackDue x.recallLine then d
      else match evict with
      | some w => evicted d i x w
      | none =>
        if x.req.op == .flushRecall then
          (d.dropXact i).updSlice x.slice (fun y => { y with flush := y.flush.map (fun f => { f with xids := f.xids.filter (· ≠ i) }) })
        else if x.unk then dataStage (d.putXact i { x with cleared := true }) i
        else if d.unkSet x.slice (dsetOf x.req.dpa) then relookup d i
        else
          let d := if x.req.op == .parkRecall then { d with park := { d.park with recalled := satInc 24 d.park.recalled } } else d
          resolveLine (dataStage (applyDir d i) i) x.slice x.req.dpa
    | _ => d

/-- A write passes earlier entries of its line (R100): a pending recall of the line waits for it already, or it is matched, or
its agent is one the recall waits on and held the line E. In an UNK set the directory names no owner: a write of an agent that
the recall of another waits on passes as an owner's would, unless an older entry of its agent for the line waits (DESIGN
CHOICE, log entry 123; R183). -/
def Dev.passes (d : Dev) (i : Nat) (x : Xact) : Bool :=
  x.req.op.isWrite && (x.due == some x.line || d.xacts.any (fun y => match y.2.phase with
    | .recall ts _ => decide (y.2.recallLine = x.line) && (x.matched || ts.any (fun t => t.agent == x.req.agent && (t.wasE
        || (((y.2.unk && y.2.req.agent != x.req.agent) || y.2.req.op == .flushRecall)
          && !d.xacts.any (fun z => decide (z.1 ≠ i) && z.2.req.agent == x.req.agent && decide (z.2.line = x.line)
            && z.2.phase.waits && decide (0 < z.2.ord) && decide (z.2.ord < x.ord))))))
    | _ => false))

/-- A host write of an agent to a line is one that a recall of the line from it produced, and is not accepted yet (R103, R165,
R177): matched, or passing as the owner's, or one that has passed. Any other write queued for the line waits behind the recall in
its order (R97). -/
def Dev.produced (d : Dev) (a : BitVec 12) (line : Nat) (x : Nat × Xact) : Bool :=
  x.2.req.agent == a && decide (x.2.line = line) && x.2.req.op.isWrite && (match x.2.phase with
    | .ingress => x.2.matched
    | .queued => d.passes x.1 x.2
    | .needCredit => true
    | .toBuffer => true
    | _ => false)

/-- The recall of a line waits for the writebacks it produced at an agent (R103, R165, R177). -/
def markDue (d : Dev) (a : BitVec 12) (line : Nat) : Dev :=
  d.each ((d.xacts.filter (d.produced a line)).map (·.1)) (fun d i => d.updXact i (fun x => { x with due := some line }))

/-- A line held E whose owner has gone is lost while a request recalls it (R172, R197): the request looks up again. -/
def recallLost (d : Dev) (i : Nat) (x : Xact) (line : Nat) (t : Target) : Dev :=
  let s := x.slice
  let d := match d.dirWay s (64 * line) with
    | some w => putDir d s (dsetOf (64 * line)) w {}
    | none => d
  let d := loseLine d s (64 * line) t.agent t.epoch
  if x.req.op == .parkRecall then
    ({ d with park := { d.park with recalled := satInc 24 d.park.recalled } }).dropXact i
  else d.putXact i { x with phase := .queued, cleared := true }

/-- A writeback that gives the line up is on its way from an agent to a recall of the line (R165, R177). -/
def Dev.givenUp (d : Dev) (a : BitVec 12) (line : Nat) : Bool :=
  d.xacts.any (fun x => x.2.req.agent == a && x.2.due == some line && x.2.req.op.givesUp)

/-- One holder answers one recall (R166, R172): its word is settled when the recall ends. The answer to a BISnpData that a
BISnpInv follows answers the recalls that asked for data. -/
def answerOne (d : Dev) (a : BitVec 12) (line : Nat) (kept lost dataOnly : Bool) (i : Nat) : Dev :=
  match d.xact? i with
  | none => d
  | some x =>
    match x.phase with
    | .recall ts evict =>
      match ts.find? (fun t => t.agent == a) with
      | none => d
      | some t =>
        if x.recallLine ≠ line ∨ (dataOnly = true ∧ t.data = false) then d
        else if lost && t.wasE && !d.givenUp a line then recallLost d i x line t
        else recallDone (d.putXact i { x with phase := .recall (ts.filter (fun t => t.agent != a)) evict, keptS := x.keptS || kept }) i
    | _ => d

/-- A holder answers every recall of a line that waits on it. -/
def answerNow (d : Dev) (a : BitVec 12) (line : Nat) (kept lost dataOnly : Bool) : Dev :=
  let d := markDue d a line
  d.each (d.xacts.map (·.1)) (answerOne · a line kept lost dataOnly ·)

/-- A holder's answer reaches the slices: it waits while the core island's clock has failed (R15, R459). -/
def answer (d : Dev) (a : BitVec 12) (line : Nat) (kept lost dataOnly : Bool) : Dev :=
  if d.islandRuns 10 then answerNow d a line kept lost dataOnly
  else { d with answers := d.answers ++ [⟨a, line, kept, lost, dataOnly⟩] }

/-- The core island runs again: the answers that waited reach the slices in their order. -/
def takeAnswers (d : Dev) : Dev :=
  { d with answers := [] }.each d.answers (fun d x => answerNow d x.agent x.line x.kept x.lost x.dataOnly)

/-- Every recall that waits on an agent is answered for it (R197). -/
def answerAll (d : Dev) (a : BitVec 12) : Dev :=
  let lines := (d.xacts.filterMap (fun x => match x.2.phase with
    | .recall ts _ => if ts.any (fun t => t.agent == a) then some x.2.recallLine else none
    | _ => none)).eraseDups
  d.each lines (fun d l => answer d a l false true false)

/-- A recall whose last writeback has been accepted, or has ended otherwise, ends. -/
def retryRecalls (d : Dev) (line : Nat) : Dev :=
  d.each ((d.xacts.filter (fun x => x.2.recalling && decide (x.2.recallLine = line))).map (·.1)) recallDone

-- fills
/-- A read queued behind a fill can be merged (R129). A read-own of the agent that holds the line E is granted with no recall, so
it merges as the third bullet has it, although a later sentence lets a read-own look up by itself (DESIGN CHOICE, log entry
124). -/
def Dev.mergeable (d : Dev) (x : Xact) : Bool :=
  let e := d.dirEntry x.slice x.req.dpa
  let free := !d.unkSet x.slice (dsetOf x.req.dpa) && !x.req.device
  free && (match x.req.op with
    | .readUntracked => (match e with
      | some e => e.st != .e || e.ownedBy x.req.agent
      | none => true)
    | .readShared => (match e with
      | some e => e.st == .s || e.st == .sc || e.ownedBy x.req.agent
      | none => false)
    | .readData => (match e with
      | some e => e.st == .s || e.st == .sc || e.ownedBy x.req.agent
      | none => false)
    | .readOwn => (match e with
      | some e => e.ownedBy x.req.agent
      | none => false)
    | _ => false)

/-- Requests queued for a line, oldest first. -/
def Dev.queuedFor (d : Dev) (s line : Nat) : List (Nat × Xact) :=
  ((d.atSlice s).filter (fun x => x.2.phase.waits && decide (x.2.line = line))).mergeSort
    (fun a b => decide (a.2.ord ≤ b.2.ord))

/-- Answers up to `n` merged reads in queue order (R129); each is an access its detector sees (R132). -/
def mergeReads (d : Dev) (data : Line) (poison : Bool) : List (Nat × Xact) → Nat → Dev
  | [], _ => d
  | _, 0 => d
  | (i, x) :: rest, n + 1 =>
    if d.mergeable x then
      let d := if x.req.demand && d.enabled x.slice then detect d x.slice x.req else d
      let d := applyDir d i
      let d := if d.enabled x.slice then count d (8 + x.slice) 0x14 1 x.req.counted else d
      mergeReads (finish d i data poison true) data poison rest n
    else d

/-- A fill that a read waits for (R129-R131, R136): the sub-block is installed unless marked, the reads that wait on it and
those merged are answered; a preload goes on to its next sub-block. Data read ahead of a recall answers no read queued behind
that recall (R97, R100). -/
def demandFill (d : Dev) (i : Nat) (x : Xact) (way : Option Nat) (noAlloc : Bool) (data : Line) (poison err : Bool) : Dev :=
  let s := x.slice
  let joined := d.xacts.filter (fun y => y.2.phase == .merged i)
  let judge := match joined with
    | y :: _ => y.2.req
    | [] => x.req
  let d := match way with
    | some w =>
      if noAlloc || err || !d.usable s (csetOf x.req.dpa) w then d
      else install d s x.req.dpa w data poison (d.fillsOld s judge)
    | none => d
  let d := match x.req.op, x.req.src with
    | .preload _, _ => d.putXact i { x with phase := .queued, mem := .idle }
    | _, _ => finish d i data poison (!err)
  let d := d.each (joined.map (·.1)) (fun d j => finish d j data poison (!err))
  let early (y : Xact) : Bool := match y.req.src with
    | .early j => decide (j = 0) || (d.xact? j).isSome
    | _ => false
  let ahead := early x || joined.any (fun y => early y.2)
  resolveLine (if err || ahead then d else mergeReads d data poison (d.queuedFor s x.line) (if x.isPf then 7 else 8)) s x.req.dpa

/-- A request is on its way to its controller. -/
def Xact.toController (x : Xact) : Bool := x.mem == .toMc || x.phase == .toBuffer

/-- A request's data or acceptance is on its way back to its slice. -/
def Xact.comesBack (x : Xact) : Bool :=
  match x.mem, x.phase with
  | _, .accepted _ => true
  | .back _ _ _, _ => true
  | _, _ => false

/-- The crossing between the core and a controller delivers in the order accepted (R114): a request is next. -/
def Dev.nextAcross (d : Dev) (x : Xact) (f : Xact → Bool) : Bool :=
  f x && !d.xacts.any (fun y => f y.2 && decide (mcOf y.2.req.dpa = mcOf x.req.dpa) && decide (y.2.sent < x.sent))

/-- A fill reaches its slice; a prefetch no read joined goes to the side buffer (R134). A joined prefetch is judged by the
read that joined it (R125). -/
def fillReturn (d : Dev) (i : Nat) : Dev :=
  match d.xact? i with
  | none => d
  | some x =>
    if !d.nextAcross x Xact.comesBack then d
    else match x.mem, x.phase with
    | .back data poison err, .direct =>
      resolveLine (finish (d.putXact i { x with mem := .idle }) i data poison (!err)) x.slice x.req.dpa
    | .back data poison err, .miss way noAlloc =>
      let s := x.slice
      let d := d.putXact i { x with mem := .idle }
      if x.isPf && !x.demanded then
        if noAlloc || err then d.dropXact i
        else (d.updSlice s (fun y =>
          let side := y.side.filter (fun e => !decide (e.line = x.line))
          { y with side := (if side.length < 64 then side else side.drop 1) ++ [⟨x.line, data, poison⟩] })).dropXact i
      else demandFill d i x way noAlloc data poison err
    | _, _ => d

end Sys2Proof.Machine
end

