-- ==== Sys2Proof/Machine/Home.lean ====
section
/-! DEFINITION. The home queue: arrival, eligibility and issue (R97-R103). -/

namespace Sys2Proof.Machine

/-- Source of a request in the rotation of R98: ports, engine quads, movers. -/
def Req.source (r : Req) : Nat :=
  match r.src with
  | .host p _ _ => p
  | .reverse p => p
  | .mover _ _ => 9
  | _ => 8

/-- Rank of a source when the pointer names another (R98). -/
def rank (ptr src : Nat) : Nat := (src + 10 - ptr) % 10

/-- Order of two arrivals of one cycle (R98): matched writebacks, the rotation, agent IDs, arrival. -/
def before (ptr : Nat) (a b : Nat × Xact) : Bool :=
  let key (x : Nat × Xact) : List Nat := [if x.2.matched then 0 else 1, rank ptr x.2.req.source, x.2.req.agent.toNat, x.1]
  decide (key a ≤ key b)

/-- An engine's holder: its quad, or the maintenance entries for class 2. -/
def Op.engineHolder (op : Op) (e : Nat) : Nat × Nat × Nat :=
  match op with
  | .cmo _ _ _ => (5, 0, 8)
  | .cmoSw _ _ _ _ => (5, 0, 8)
  | .preload _ => (5, 0, 8)
  | _ => (3, e / 4, 2)

/-- Whose home-queue entries a request uses, and how many there are (R103). A reverse-array read takes one of its port's entries for requests, and waits for none: one that waited could keep the
recalls from ending for which those entries wait (R170; DESIGN CHOICE, log entry 116). No holder is named for the poison write of a
lost line and a recall of a PARK set or a set flush: a PARK set's recalls are one entry (R323), the others
take none (DESIGN CHOICE, log entry 116). Prefetches take theirs when they are queued. -/
def Xact.holder (x : Xact) : Option (Nat × Nat × Nat) :=
  match x.req.src with
  | .host p _ _ => if x.req.op.isWrite then (if x.matched then some (2, p, 2) else some (1, p, 2)) else some (0, p, 6)
  | .reverse p => some (0, p, 6)
  | .mover m _ => some (4, m, 1)
  | .prefetch => none
  | .early _ => none
  | .engine e => some (x.req.op.engineHolder e)
  | .orphan e => some (x.req.op.engineHolder e)
  | .call e => some (x.req.op.engineHolder e)

/-- A request keeps its home-queue entry (R103). A preload keeps its own until its sector is done, since each of its sub-blocks
needs the home queue again. -/
def Xact.holdsEntry (x : Xact) : Bool :=
  x.phase.holdsEntry || (match x.req.op, x.phase with
    | .preload _, .miss _ _ => true
    | _, _ => false)

/-- Maintenance entries of a slice that its background pass and its PARK set hold (R202, R323). -/
def Dev.walkEntries (d : Dev) (s : Nat) : Nat :=
  b2n (d.slice s).walkOrd.isSome + b2n ((d.slice s).parkWait.any (fun i => (d.xact? i).isSome))

/-- The holder has an entry free in a slice. -/
def Dev.entryFree (d : Dev) (s : Nat) (x : Xact) : Bool :=
  match x.holder with
  | none => true
  | some (k, n, limit) =>
    x.req.op == .revRead ||
    let held := ((d.atSlice s).filter (fun y => y.2.holdsEntry && (match y.2.holder with
      | some (k', n', _) => decide (k' = k) && decide (n' = n)
      | none => false))).length
    decide (held + (if k = 5 then d.walkEntries s else 0) < limit)

/-- The engine a request comes from. -/
def Req.engine? (r : Req) : Option Nat :=
  match r.src with
  | .engine e => some e
  | .orphan e => some e
  | .call e => some e
  | _ => none

/-- A request can reach its order point now: it is the next of its agent for its line, also of those parked for the line's
view address (R111), and of those of its port that were parked as it was (R74), a host's DEVICE request waits as R110 states, a full reset has not begun (R231), an engine's requests
to one slice go in order (R280) as do its DEVICE accesses (R284), and its holder has an entry. -/
def Dev.canArrive (d : Dev) (s i : Nat) (x : Xact) : Bool :=
  let older := d.xacts.filter (fun y => decide (y.1 < i) && y.2.req.agent == x.req.agent)
  let parked (y : Nat × Xact) : Bool := match y.2.phase with
    | .parked _ => true
    | _ => false
  let sameVa (y : Nat × Xact) : Bool := parked y && decide (y.2.req.view = x.req.view) && decide (y.2.req.va / 64 = x.req.va / 64)
  d.glob.resetPhase == .none && x.phase == .ingress && decide (x.slice = s) && d.entryFree s x
    && (match x.req.src with
      | .host p _ _ => !older.any (fun y => (y.2.phase == .ingress && decide (y.2.line = x.line)) || sameVa y)
          && !(x.wasParked && d.xacts.any (fun y => decide (y.1 < i) && decide (y.2.req.source = p)
            && ((y.2.wasParked && y.2.phase == .ingress && decide (y.2.line = x.line)) || sameVa y)))
          && (!x.req.device || !older.any (fun y => (y.2.phase == .ingress && y.2.req.device) || parked y))
      | _ => x.req.engine?.isNone || !older.any (fun y => y.2.phase == .ingress && y.2.req.engine? == x.req.engine?
          && (decide (y.2.slice = s) || (x.req.device && y.2.req.device))))

/-- Invalidations by address and writes mark miss registers at their order point (R131). -/
def orderMarks (d : Dev) (s : Nat) (x : Xact) : Dev :=
  match x.req.op with
  | .cmo k _ _ => if k = 0 then d else markWhere d s (fun y => decide (y.line = x.line))
  | op => if op.stores || op == .invalidate then markWhere d s (fun y => y.isPf && !y.demanded && decide (y.line = x.line)) else d

/-- A host's write that RECOVERY finds before its order point (R421): its port's queue to the slice holds it (R104). -/
def Dev.portDrops (d : Dev) (x : Xact) : Bool :=
  d.glob.dev == .recovery && x.req.op.isWrite && (match x.req.src with
    | .host _ _ _ => true
    | _ => false)

/-- One request takes its order point. In RECOVERY a host's write is dropped there (R421, log entry 135). -/
def arriveOne (d : Dev) (s : Nat) (i : Nat) : Dev :=
  match d.xact? i with
  | none => d
  | some x =>
    if d.canArrive s i x && d.portDrops x then failRequest (d.dropXact i) x.req x.t0 17
    else if d.canArrive s i x then
      let sl := d.slice s
      let d := (d.updSlice s (fun y => { y with nextOrd := y.nextOrd + 1 })).putXact i { x with ord := sl.nextOrd, phase := .queued }
      orderMarks d s x
    else d

/-- Requests that reach a home queue in one cycle (R98), each once those ranked before it are in; one that cannot enter stays
out. The pointer goes by the sources that delivered. -/
def arrive (d : Dev) (s : Nat) (ids : List Nat) : Dev :=
  let ptr := (d.slice s).pointer
  let batch := (ids.filterMap (fun i => (d.xact? i).map (fun x => (i, x)))).mergeSort (before ptr)
  let d' := d.each (batch.map (·.1)) (arriveOne · s ·)
  let taken := batch.filter (fun x => decide (x.2.ord = 0) && (match d'.xact? x.1 with
    | some y => decide (0 < y.ord)
    | none => false))
  let sources := (taken.map (fun x => x.2.req.source)).eraseDups
  if sources.length < 2 then d'
  else
    let first := sources.foldl (fun b x => if rank ptr x < rank ptr b then x else b) (sources.headD 0)
    d'.updSlice s (fun y => { y with pointer := (first + 1) % 10 })

/-- Class of an entry (R99). The poison write of a lost line that waits for its credit is in no row of the table: class 1
(DESIGN CHOICE, log entry 116). -/
def Dev.classOf (d : Dev) (x : Xact) : Nat :=
  match x.req.op with
  | .write _ =>
    if x.matched then 0 else match d.dirEntry x.slice x.req.dpa with
      | some e => if e.ownedBy x.req.agent then 0 else 1
      | none => 1
  | .cmo _ _ _ => 2
  | .cmoSw _ _ _ _ => 2
  | .preload _ => 2
  | .parkRecall => 2
  | .sweepRead => 3
  | .moverRead => 3
  | .moverWrite => 3
  | .revRead => 3
  | .prefetch => 4
  | _ => 1

/-- An older entry of the line waits in the home queue. -/
def Dev.olderWaits (d : Dev) (s i : Nat) (x : Xact) : Bool :=
  (d.atSlice s).any (fun y => decide (y.1 ≠ i) && decide (y.2.line = x.line) && y.2.phase.waits && decide (y.2.ord < x.ord))

/-- A request has reached memory: its controller has taken it. -/
def Xact.atMemory (x : Xact) : Bool :=
  match x.phase with
  | .accepted _ => true
  | .done _ _ _ => true
  | .direct => x.mem != .toMc
  | _ => false

/-- An agent's DEVICE requests reach memory in the order it sent them (R110). -/
def Dev.deviceTurn (d : Dev) (i : Nat) (x : Xact) : Bool :=
  !x.req.device || !d.xacts.any (fun y => decide (y.1 < i) && y.2.req.agent == x.req.agent && y.2.req.device && !y.2.atMemory)

/-- An entry can issue now (R99-R101, R105, R110, R174). A prefetch does not wait for a busy line. A
reverse-array read waits for no recall, and not for the entries that wait on one (R133, R170). A write that gets its credit goes
on once no fill of its line is under way (R130). -/
def Dev.eligible (d : Dev) (s i : Nat) (x : Xact) : Bool :=
  match x.phase with
  | .queued =>
    match x.req.op with
    | .prefetch => d.lineBusy s x.line i || !d.olderWaits s i x
    | .revRead => !d.lineMoves s x.line i && (d.recallHolds s x.line || !d.olderWaits s i x)
    | _ => d.passes i x || (!d.lineBusy s x.line i && !d.olderWaits s i x && d.deviceTurn i x)
  | .needMr => decide (d.readCredits s (mcOf x.req.dpa) < 32) && (x.req.device || x.req.op == .sweepRead
      || x.req.op == .revRead || decide (d.missRegs s < 64))
  | .needCredit => decide (d.writeCredits s (mcOf x.req.dpa) < 16) && (d.passes i x || !d.lineBusy s x.line i)
  | .needRecall => decide (d.recallRegs s < 16)
  | _ => false

/-- The entry of a list that goes before every other. -/
def first (better : Xact → Xact → Bool) (l : List (Nat × Xact)) : Option (Nat × Xact) :=
  l.foldl (fun b x => match b with
    | none => some x
    | some y => if better x.2 y.2 then some x else b) none

/-- Entries of class 2 to 4 that can issue. -/
def Dev.lows (d : Dev) (s : Nat) : List (Nat × Xact) :=
  (d.atSlice s).filter (fun x => d.eligible s x.1 x.2 && decide (2 ≤ d.classOf x.2))

/-- Of the entries of class 2 to 4, the one eligible for the longest. -/
def Dev.longest (d : Dev) (s : Nat) : Option (Nat × Xact) :=
  first (fun x y => decide (y.waited < x.waited) || (decide (x.waited = y.waited) && decide (x.ord < y.ord))) (d.lows s)

/-- The background pass's walker, of class 2 too, has an entry that can issue. No pass runs without Q0 (R205). -/
def Dev.walkReady (d : Dev) (s : Nat) : Bool := d.q0Runs && (d.slice s).walkOrd.isSome

/-- Entries of class 2 to 4 go before the classes above them from now on, longest waiting first: no later start lets each
issue within 32 lookups of becoming eligible (R99; how a slice keeps that bound is a DESIGN CHOICE, log entry 73). -/
def Dev.pressed (d : Dev) (s : Nat) : Bool :=
  let w := match d.longest s with
    | some x => x.2.waited
    | none => 0
  decide (32 ≤ (d.lows s).length + b2n (d.walkReady s) + max w (if d.walkReady s then (d.slice s).walkWait else 0))

/-- The entry the slice picks: the oldest eligible one of the highest class, or one that has waited as long as it may (R99). -/
def Dev.pick (d : Dev) (s : Nat) : Option (Nat × Xact) :=
  match (if d.pressed s then d.longest s else none) with
  | some x => some x
  | none => first (fun x y => decide (d.classOf x < d.classOf y) || (decide (d.classOf x = d.classOf y) && decide (x.ord < y.ord)))
      ((d.atSlice s).filter (fun x => d.eligible s x.1 x.2))

/-- A lookup goes to one entry, or to the walker's: every other eligible entry of class 2 to 4 has waited one more (R99). -/
def passOver (d : Dev) (s : Nat) (who : Option Nat) : Dev :=
  let l := (d.lows s).map (·.1)
  let ready := d.walkReady s
  { d with xacts := d.xacts.map (fun (x : Nat × Xact) =>
      if x.2.slice = s then (x.1, { x.2 with waited := if l.contains x.1 && who != some x.1 then x.2.waited + 1 else 0 }) else x) }.updSlice s
    (fun y => { y with walkWait := if ready && who.isSome then y.walkWait + 1 else 0 })

-- the background pass
/-- A word names an agent the pass covers. -/
def Dev.coveredPtr (d : Dev) (p : Ptr) : Bool :=
  match d.agent? p.agent with
  | some x => x.covered && x.epoch == p.epoch
  | none => false

/-- The walker's entry of one directory set: the set's entries are read (R179), every one that names a covered agent is
resolved, busy ones are skipped (R199, R202, R203). -/
def walkSet (d : Dev) (s dset : Nat) (err : Option (Fin 16 × Ecc)) : Dev :=
  (checkDir d s dset err {}).each (List.range 16) (fun d w =>
    let busy := match d.wayLine s dset w with
      | some l => d.lineBusy s l 0
      | none => true
    if !busy && (d.dirAt s dset w).ptrs.any d.coveredPtr then (resolveEntry d s dset w).1 else d)

/-- The walker's entry is the one to issue: no entry of a higher class, and no older one of its own, is eligible; or it has waited
as long as it may (R99, R205). -/
def Dev.walkTurn (d : Dev) (s : Nat) : Bool :=
  d.q0Runs && match (d.slice s).walkOrd, d.pick s with
  | none, _ => false
  | some _, none => true
  | some n, some (_, x) =>
    if d.pressed s then
      let w := (d.slice s).walkWait
      decide (d.classOf x < 2) || decide (x.waited < w) || (decide (x.waited = w) && decide (n < x.ord))
    else decide (2 < d.classOf x) || (decide (d.classOf x = 2) && decide (n < x.ord))

/-- The walker's entry issues, and the one of the next set enters the home queue. -/
def walkIssue (d : Dev) (s : Nat) (err : Option (Fin 16 × Ecc)) : Dev :=
  let k := (d.slice s).walked
  (walkSet (countWalk (passOver d s none) s 1) s k err).updSlice s (fun y => { y with
    walked := k + 1, nextOrd := y.nextOrd + 1, walkOrd := if k + 1 < 32768 then some y.nextOrd else none })

/-- Number of a store of ordering state (R420). -/
def orderCode : OrderStore → Nat
  | .homeQueue => 1 | .missRegister => 2 | .recallRegister => 3 | .resignationTable => 5

/-- An uncorrectable error in ordering state is fatal (R355, R420 cause 5). -/
def orderFatal (d : Dev) (structure_ place entry : Nat) : Dev := enterRecovery d 5 (info (structure_ + fld 3 place + fld 7 entry))

/-- The side-buffer entry of the line a demand read misses on has an uncorrectable error: it is dropped (R355, R378). -/
def checkSide (d : Dev) (s : Nat) (x : Xact) (err : Ecc) : Dev :=
  if err = .ue ∧ !x.req.op.noAllocate ∧ (d.hitWay s x.req.dpa).isNone = true
      ∧ (d.slice s).side.any (fun e => decide (e.line = x.line)) = true then
    raise (dropSide d s x.line) 460 1 1 (info (1 + fld 3 s))
  else d

/-- The slice issues one entry. -/
def issueOne (d : Dev) (s : Nat) (err : LookupErr) : Dev :=
  if d.walkTurn s then walkIssue d s err.dir
  else match d.pick s with
  | none => d
  | some (i, x) =>
    let d := passOver d s (some i)
    match x.phase with
    | .needMr => match x.req.op with
      | .preload g => preloadStage d i g
      | _ => readStage d i
    | .needCredit => writeStage d i
    | .needRecall => allocStage (checkDir d s (dsetOf x.req.dpa) err.dir (whoOf x.req)) i
    | _ => lookup (checkSide d s x err.side) i err

/-- The slice issues one entry, if the ordering state it reads is whole (R355). -/
def issue (d : Dev) (s : Nat) (err : LookupErr) : Dev :=
  match err.order with
  | none => issueOne d s err
  | some (k, n) =>
    if (d.pick s).isNone && !d.walkTurn s then d
    else orderFatal d (orderCode k) (if k = .resignationTable then 0 else s) n.toNat

/-- A request that found no candidate issues again (R175): one lookup more, which checks the entries it reads (R179). -/
def retryIssue (d : Dev) (s i : Nat) (err : Option (Fin 16 × Ecc)) : Dev :=
  match d.xact? i with
  | none => d
  | some x =>
    if x.phase = .retry ∧ x.slice = s then
      let d := count (d.putXact i { x with phase := .queued, retries := x.retries + 1 }) (8 + s) 0x10 1 x.req.counted
      allocStage (checkDir d s (dsetOf x.req.dpa) err (whoOf x.req)) i
    else d

/-- A request guards its set after its 64th retry (R175); of several, the one first in home-queue order. -/
def guardEngage (d : Dev) (s i : Nat) : Dev :=
  match d.xact? i with
  | none => d
  | some x =>
    let dset := dsetOf x.req.dpa
    let first := (d.atSlice s).all (fun y => !(y.2.phase == .retry && decide (64 ≤ y.2.retries)
      && decide (dsetOf y.2.req.dpa = dset)) || decide (x.ord ≤ y.2.ord))
    if x.phase = .retry ∧ x.slice = s ∧ 64 ≤ x.retries ∧ first = true ∧ (d.slice s).guards.any (fun g => decide (g.1 = dset)) = false then
      let d := d.updSlice s (fun y => { y with guards := y.guards ++ [(dset, i)] })
      dirNote (d.setGlob (fun g => { g with dirGuards := satInc 32 g.dirGuards })) s 1 dset none 0
    else d

end Sys2Proof.Machine
end

