-- ==== Sys2Proof/Machine/Mem.lean ====
section
/-! DEFINITION. The memory controllers: write buffers, reads, merges, drains, the check cache and the channels' background
work (08_memory_path.md). -/

namespace Sys2Proof.Machine

/-- Events of a channel (R235). -/
def chanEvent (d : Dev) (c cause cls sev dpa symbols : Nat) : Dev :=
  raise d (256 + c) cls sev (info (cause + fld 4 (bits dpa 39 6) + fld 38 symbols))

/-- PMC block of a controller. -/
def mcBlock (m : Nat) : Nat := 24 + m

/-- Set of a check line in the check cache (R220). -/
def checkSet (csec : Nat) : Nat := csec / 8 % 64

/-- A check line goes into the cache with the check bytes its channel holds, newest first, eight ways per set (R220, R374
path 11). -/
def checkFill (d : Dev) (c csec : Nat) : Dev :=
  let (d, bad) := flipWrite d 11 (c / 8) 0 64 true
  d.updChan c (fun x =>
    let same := (x.check.filter (fun e => decide (checkSet e.csec = checkSet csec) && decide (e.csec ≠ csec))).take 7
    let wrong := x.badChk.filter (fun b => decide (csecOf (64 * b.1) = csec))
    { x with check := ⟨csec, bad, wrong⟩ :: x.check.filter (fun e => decide (e.csec ≠ csec)
        && (decide (checkSet e.csec ≠ checkSet csec) || same.contains e)) })

/-- A read or merge read needs a check line: cached, or read from the channel; `chk` is what the cached line's own code shows
(R220). -/
def checkRead (d : Dev) (line : Nat) (r : Counted) (chk : Ecc) : Dev :=
  let c := chanOf (64 * line)
  let csec := csecOf (64 * line)
  let miss (d : Dev) : Dev := checkFill (count (count d (mcBlock (c / 8)) 0x24 1 r) (mcBlock (c / 8)) 0x25 1 {}) c csec
  match (d.chan c).check.find? (fun e => decide (e.csec = csec)) with
  | none => miss d
  | some e =>
    match eccWith chk e.flip with
    | .ue => miss (raise d 460 1 1 (info (4 + fld 3 (c / 8))))
    | _ => d.updChan c (fun x => { x with check := { e with flip := 0 } :: x.check.filter (fun e => decide (e.csec ≠ csec)) })

-- stored lines
/-- Writes a line into its channel, or its poison code alone (R200, R219, R225), through armed flips on paths 5 and 6 (R374).
A check-byte write updates the cached check line (R220). -/
def storeLine (d : Dev) (line : Nat) (data : Line) (poison codeOnly : Bool) : Dev :=
  let c := chanOf (64 * line)
  let (d, a) := flipWrite d 5 c (64 * line) 64 true
  let (d, b) := flipWrite d 6 c (64 * line) 64 false
  let wrongData := wrongSymbols (a % 2 ^ 64)
  let wrongChk := wrongSymbols (fld 64 (a / 2 ^ 64 % 256)) + wrongSymbols b
  let put (t : Tab Nat) (n : Nat) : Tab Nat := if n = 0 then Tab.del t line else Tab.put t line n
  let d := { d with mem := if codeOnly then d.mem.poisonLine line else d.mem.writeLine line data poison }
  d.updChan c (fun x => { x with
    bad := if codeOnly then x.bad else put x.bad wrongData
    badChk := put x.badChk wrongChk
    repair := x.repair.filter (fun r => !decide (r.1 = line))
    check := x.check.map (fun e => { e with wrong := Tab.del e.wrong line }) })

/-- The repair register of a channel writes its lines back (R218). -/
def runRepairs (d : Dev) (c : Nat) : Dev :=
  d.each (d.chan c).repair (fun d r => count (storeLine d r.1 r.2.1 r.2.2 false) (mcBlock (c / 8)) 0x25 2 {})

/-- A line to write back goes into the repair register. -/
def repairLater (d : Dev) (line : Nat) (data : Line) (poison : Bool) : Dev :=
  d.updChan (chanOf (64 * line)) (fun x => { x with repair := x.repair.filter (fun r => !decide (r.1 = line)) ++ [(line, data, poison)] })

/-- The line's pending repair is dropped (R218). -/
def dropRepair (d : Dev) (line : Nat) : Dev :=
  d.updChan (chanOf (64 * line)) (fun x => { x with repair := x.repair.filter (fun r => !decide (r.1 = line)) })

/-- No batch of a controller's channels is left open (R226). -/
def endBatches (d : Dev) (m : Nat) : Dev := d.each (List.range 8) (fun d j => d.updChan (8 * m + j) (fun x => { x with burst := [] }))

/-- The repairs of a controller's channels are written (R218), before the controller stops. -/
def finishRepairs (d : Dev) (m : Nat) : Dev :=
  d.each (List.range 8) (fun d j => if d.mcRuns m then runRepairs d (8 * m + j) else d)

/-- A write of the line is accepted while its repair is pending (R218): the repair is dropped. A poison write-back goes ahead of
a write that leaves bytes of the line as they are, so the line stays poison (R377). -/
def repairBefore (d : Dev) (line : Nat) (whole : Bool) : Dev :=
  if !whole && (d.chan (chanOf (64 * line))).repair.any (fun r => decide (r.1 = line) && r.2.2) then runRepairs d (chanOf (64 * line))
  else dropRepair d line

-- crossings
/-- A controller takes what reaches it: its domain is on and its clock runs (R15, R114). -/
def Dev.mcTakes (d : Dev) (x : Xact) : Bool := d.mcRuns (mcOf x.req.dpa) && d.nextAcross x Xact.toController

/-- An entry as its data is read: corrected in place (R356), or found uncorrectable, which it stays until it drains (R357). -/
def WbEntry.checked (e : WbEntry) (c : Ecc) : WbEntry :=
  match e.ecc c with
  | .ok => e
  | .ce _ => { e with bad := 0 }
  | .ue => { e with ue := true }

/-- The entries of a line are read for a read of it. -/
def checkEntries (d : Dev) (line : Nat) (c : Ecc) : Dev :=
  d.updMc (mcOf (64 * line)) (fun m => { m with wb := m.wb.map (fun e => if e.line = line then e.checked c else e) })

/-- What a read finds in the write buffer (R223). -/
inductive WbFind where
  | channel | wait | forward (data : Line) (poison : Bool)
  deriving DecidableEq, Repr

def wbFind (es : List WbEntry) : WbFind :=
  match es with
  | [] => .channel
  | [a] => if a.full then .forward (a.onto (0, false)).1 (a.onto (0, false)).2 else if a.draining then .wait else .channel
  | a :: b :: _ =>
    if a.full || b.full then .forward (mergedOver (0, false) [a, b]).1 (mergedOver (0, false) [a, b]).2 else .wait

/-- A request names a DPA at or beyond the usable limit (R215). -/
def overLimit (d : Dev) (r : Req) : Dev :=
  let c := chanOf r.dpa
  logErr (chanEvent d c 9 2 2 r.dpa 0) { kind := 8, src := 256 + c, loc := r.dpa, who := whoOf r }

/-- A read reaches its controller (R107, R215, R223, R357); `chk` is what a cached check line shows. -/
def readArrival (d : Dev) (i : Nat) (err chk : Ecc) : Dev :=
  match d.xact? i with
  | none => d
  | some x =>
    if x.mem ≠ .toMc ∨ d.mcTakes x = false then d
    else
      let m := mcOf x.req.dpa
      if d.limit ≤ x.req.dpa then (overLimit d x.req).putSent i { x with mem := .back 0 true false }
      else
        let d := checkEntries d x.line err
        match wbFind (d.wbOf x.line) with
        | .forward data poison =>
          let data := if x.req.op == .sweepRead then 0 else data
          (count d (mcBlock m) 0x21 1 x.req.counted).putSent i { x with mem := .back data poison false }
        | .wait => d.putXact i { x with mem := .waitMerge }
        | .channel =>
          let d := runRepairs d (chanOf x.req.dpa)
          let d := count (count d (mcBlock m) 0x20 1 x.req.counted) (mcBlock m) 0x25 1 {}
          (checkRead d x.line x.req.counted chk).putXact i { x with mem := .channel }

/-- What a line read from its channel decodes to; one read from the wrong address is uncorrectable, through the folded
address symbols (R217). -/
def Dev.readAs (d : Dev) (line symbols : Nat) (wrongAddr : Bool) : LineRead := if wrongAddr then .ue else d.decodeLine line symbols

/-- A line of a channel is read and decoded (R218, R219): its data, whether it is poison, and what a sweep counts it as
(0 good, 1 corrected, 2 uncorrectable). A correctable or uncorrectable line is to be written back. -/
def readLine (d : Dev) (line symbols : Nat) (wrongAddr : Bool) (who : Who) : Dev × Line × Bool × Nat :=
  let dpa := 64 * line
  let c := chanOf dpa
  let data := d.memLine line
  match d.readAs line symbols wrongAddr with
  | .good => (d, data, false, 0)
  | .poisoned => (d.drawn, data, true, 2)
  | .corrected n =>
    let d := (repairLater d line data false).updMc (c / 8) (fun x => { x with ce := satInc 32 x.ce })
    let d := logErr d { kind := 1, src := 256 + c, loc := dpa, who := who, detail := n }
    (chanEvent d c 1 1 1 dpa n, data, false, 1)
  | .ue =>
    let d := (repairLater d line data true).updMc (c / 8) (fun x => { x with ue := satInc 32 x.ue })
    let d := logErr d { kind := 2, src := 256 + c, poisoned := true, loc := dpa, who := who }
    ((chanEvent d c 2 2 2 dpa 0).drawn, data, true, 2)

/-- The channel's data returns to a read (R218, R223). An OPEN entry that is alone and partial becomes full with it; others, accepted
since, stay as they are. A read that fills an OPEN entry is a read of R218 and no merge: an
uncorrectable old line raises MEM_UE, and MEM_RMW_COUNT does not count it (DESIGN CHOICE, log entry 118). The entry's own data is
read with it (R356, R357). -/
def channelReturn (d : Dev) (i symbols : Nat) (wrongAddr : Bool) : Dev :=
  match d.xact? i with
  | none => d
  | some x =>
    if x.mem ≠ .channel ∨ d.mcRuns (mcOf x.req.dpa) = false then d
    else
      let (d, data, poison, code) := readLine (runRepairs d (chanOf x.req.dpa)) x.line symbols wrongAddr (whoOf x.req)
      let d := if (d.wbOf x.line).isEmpty then d else checkEntries d x.line .ok
      let now := mergedOver (data, poison) (d.wbOf x.line)
      let d := match d.wbOf x.line with
        | [e] =>
          if e.draining || e.full then d
          else (dropRepair d x.line).updMc (mcOf x.req.dpa) (fun m => { m with wb := m.wb.map (fun (f : WbEntry) =>
            if f.num = e.num then { f with data := now.1, mask := BitVec.allOnes 64, poison := now.2 } else f) })
        | _ => d
      d.putSent i { x with mem := .back (if x.req.op == .sweepRead then BitVec.ofNat 512 code else now.1) now.2 false }

/-- A write of a memory mover that no write buffer has accepted by the target timeout completes with an error (R358). -/
def moverWriteLate (d : Dev) (i : Nat) (x : Xact) : Dev :=
  match x.phase with
  | .queued => finish d i 0 false false
  | .needCredit => finish d i 0 false false
  | .toBuffer => finish d i 0 false false
  | _ => d

/-- A read has no data within the target timeout (R229), or a mover's write is not accepted by then (R358).
DESIGN CHOICE (log entry 145): a read of a mover or of the sweep that times out raises READ_TIMEOUT and logs kind 9 as any
other, beside what R229 has its mover do. -/
def readTimesOut (d : Dev) (i : Nat) : Dev :=
  match d.xact? i with
  | none => d
  | some x =>
    if x.req.op == .moverWrite then if d.pwr.unlocked.getLsbD 10 then d else moverWriteLate d i x
    else
    let waiting := match x.mem with
      | .toMc => true
      | .waitMerge => true
      | .channel => true
      | _ => false
    if !waiting || d.pwr.unlocked.getLsbD (25 + mcOf x.req.dpa) then d
    else
      let c := chanOf x.req.dpa
      let d := logErr d { kind := 9, src := 256 + c, loc := x.req.dpa, who := whoOf x.req }
      let d := chanEvent d c 8 2 2 x.req.dpa 0
      let d := d.updChan c (fun y => { y with timeouts := y.timeouts + 1 })
      let mover := match x.req.src with
        | .mover _ _ => true
        | _ => false
      d.putSent i { x with mem := .back 0 (!mover) mover }

/-- A write merged into the OPEN entry of its line (R222, R219): one of all 64 bytes decides its poison, any other adds its
own (log entry 70); a poison code makes the entry poison. What a flip left wrong goes with the bytes it was in, an uncorrectable
error with the whole line (R375). -/
def WbEntry.merge (f : WbEntry) (r : Req) (code : Bool) (bad : Nat) : WbEntry :=
  if code then { f with poison := true }
  else { f with data := mergeLine f.data r.data r.mask, mask := f.mask ||| r.mask
                poison := if r.mask = BitVec.allOnes 64 then r.poison else f.poison || r.poison
                codeOnly := false, bad := (if r.mask.extractLsb' 0 8 = 0xFF#8 then 0 else f.bad) ^^^ bad
                ue := f.ue && r.mask != BitVec.allOnes 64 }

/-- A write has an entry (R221, R222). -/
def takeEntry (d : Dev) (i : Nat) (x : Xact) (bad : Nat) : Dev :=
  let m := mcOf x.req.dpa
  let code := x.req.op == .poison
  match (d.wbOf x.line).find? (fun e => !e.draining) with
  | some e =>
    (d.updMc m (fun y => { y with wb := y.wb.map (fun f => if f.num = e.num then f.merge x.req code bad else f) })).putSent i
      { x with phase := .accepted true }
  | none =>
    let e : WbEntry := { line := x.line, data := x.req.data, mask := if code then 0 else x.req.mask
                         poison := x.req.poison || code, draining := false, aged := false, slice := x.slice
                         codeOnly := code, bad := bad, num := (d.mc m).nextNum }
    (d.updMc m (fun y => { y with wb := y.wb ++ [e], nextNum := y.nextNum + 1 })).putSent i { x with phase := .accepted false }

/-- Data of a write-buffer entry is uncorrectable as it drains: the line becomes poison (R357). -/
def wbUeFound (d : Dev) (m : Nat) (e : WbEntry) : Dev :=
  let d := logErr d { kind := 4, src := 457, poisoned := true, loc := 64 * e.line }
  raise d 457 2 2 (info (m + fld 2 (bits (64 * e.line) 39 6)))

/-- An entry starts to drain: its data is checked (R357). -/
def drainEntry (d : Dev) (m : Nat) (dataUe : List Nat) (e : WbEntry) : Dev :=
  let ue := dataUe.contains e.line || e.ecc .ok == .ue
  let d := d.updMc m (fun y => { y with wb := y.wb.map (fun f =>
    if f.num = e.num then { f with draining := true, bad := 0, ue := false, poison := f.poison || ue } else f) })
  if ue then wbUeFound d m e else d

/-- Every entry of a controller goes DRAINING at once: at a full reset, and for a write accepted after its controller's
switch-off was (R231, R454, R517). -/
def drainAll (d : Dev) (m : Nat) : Dev := d.each ((d.mc m).wb.filter (fun e => !e.draining)) (fun d e => drainEntry d m [] e)

/-- A write reaches its controller and is accepted (R215, R218, R221, R222). -/
def acceptWrite (d : Dev) (i : Nat) : Dev :=
  match d.xact? i with
  | none => d
  | some x =>
    if x.phase ≠ .toBuffer ∨ d.mcTakes x = false then d
    else
      let m := mcOf x.req.dpa
      if d.limit ≤ x.req.dpa then
        resolveLine (retryRecalls (finish ((overLimit d x.req).putXact i { x with due := none }) i 0 false false) (x.due.getD x.line))
          x.slice x.req.dpa
      else
        let d := if x.req.poison then
            logErr d { kind := 7, src := 256 + chanOf x.req.dpa, poisoned := true, loc := x.req.dpa, who := whoOf x.req } else d
        let whole := x.req.op != .poison && x.req.mask == BitVec.allOnes 64
        let d := count (repairBefore d x.line whole) (mcBlock m) 0x22 1 x.req.counted
        let (d, bad) := flipWrite d 7 m x.req.dpa 64 true
        let d := takeEntry d i x bad
        if d.leaving (mcDom m) then drainAll d m else d

/-- The acceptance returns to the slice (R109); recalls that waited for it end, and the line's words of resigned agents are
resolved (R165, R203). -/
def ackWrite (d : Dev) (i : Nat) : Dev :=
  match d.xact? i with
  | none => d
  | some x =>
    match x.phase with
    | .accepted _ =>
      if d.nextAcross x Xact.comesBack then
        let d := finish (d.putXact i { x with due := none }) i ((x.pre.map (·.1)).getD 0) false true
        resolveLine (retryRecalls d (x.due.getD x.line)) x.slice x.req.dpa
      else d
    | _ => d

/-- An OPEN entry becomes older than MEM_DRAIN_AGE (R224). -/
def ageEntry (d : Dev) (m line : Nat) : Dev :=
  d.updMc m (fun y => { y with wb := y.wb.map (fun e => if e.line = line ∧ e.draining = false then { e with aged := true } else e) })

/-- Entries of a channel. -/
def Dev.chanEntries (d : Dev) (c : Nat) : List WbEntry := (d.mc (c / 8)).wb.filter (fun e => decide (chanOf (64 * e.line) = c))

/-- A batch can start on a channel (R224). -/
def Dev.batchDue (d : Dev) (c : Nat) : Bool :=
  let es := d.chanEntries c
  let opens := es.filter (fun e => !e.draining)
  let reads := d.xacts.any (fun x => x.2.mem == .channel && decide (chanOf x.2.req.dpa = c))
  !es.any (·.draining) && !opens.isEmpty
    && (decide (192 < (d.mc (c / 8)).wb.length) || opens.any (·.aged) || (!reads && decide (8 ≤ opens.length)))

/-- The DPA field of a write-buffer entry is uncorrectable as it drains: fatal (R357, R420 cause 6). -/
def wbAddrUe (d : Dev) (m k : Nat) (e : WbEntry) : Dev :=
  enterRecovery (raise d 457 3 3 (info (m + fld 2 (bits (64 * e.line) 39 6) + fld 36 1))) 6 (info (m + fld 2 k))

/-- A drain batch starts on a channel and takes every OPEN entry (R224, R357). -/
def batchStart (d : Dev) (c : Nat) (dataUe : List Nat) (addrUe : Option (BitVec 8)) : Dev :=
  if !d.batchDue c then d
  else
    let m := c / 8
    match addrUe.bind (fun k => (d.mc m).wb[k.toNat]?.map (fun e => (k, e))) with
    | some (k, e) => wbAddrUe d m k.toNat e
    | none => d.each (d.chanEntries c) (fun d e => drainEntry d m dataUe e) |>.updChan c (fun x => { x with burst := [] })

/-- The old line of an entry's merge read: one that is uncorrectable raises RMW_UE (R225). -/
def mergeRead (d : Dev) (line symbols : Nat) (wrongAddr : Bool) : Dev × Line × Bool :=
  let c := chanOf (64 * line)
  match d.readAs line symbols wrongAddr with
  | .ue =>
    let data := d.memLine line
    let d := d.updMc (c / 8) (fun y => { y with ue := satInc 32 y.ue })
    let d := logErr d { kind := 3, src := 256 + c, poisoned := true, loc := 64 * line }
    ((chanEvent d c 3 2 2 (64 * line) 0).drawn, data, true)
  | _ =>
    let r := readLine d line symbols wrongAddr {}
    (dropRepair r.1 line, r.2.1, r.2.2.1)

/-- Reads that wait for a merge of their line get the line the write buffer then forwards (R223). -/
def mergeWaiters (d : Dev) (line : Nat) : Dev :=
  let d := checkEntries d line .ok
  match wbFind (d.wbOf line) with
  | .forward data poison =>
    d.each ((d.xacts.filter (fun x => x.2.mem == .waitMerge && decide (x.2.line = line))).map (·.1)) (fun d i =>
      match d.xact? i with
      | some x =>
        (count d (mcBlock (mcOf (64 * line))) 0x21 1 x.req.counted).putSent i
          { x with mem := .back (if x.req.op == .sweepRead then 0 else data) poison false }
      | none => d)
  | _ => d

/-- The merge read of the line's oldest entry, partial and DRAINING, returns (R223, R225, R231). An entry that only writes the
poison code takes the old data to form it: it merges no bytes and is not counted (R219). -/
def mergeReturn (d : Dev) (m line symbols : Nat) (wrongAddr : Bool) (chk : Ecc) : Dev :=
  match d.wbOf line with
  | [] => d
  | e :: _ =>
    if mcOf (64 * line) ≠ m ∨ e.draining = false ∨ e.full = true ∨ d.mcRuns m = false then d
    else
      let counted : Counted := { dpa := some (64 * line) }
      let d := runRepairs d (chanOf (64 * line))
      let d := if e.codeOnly then d
        else (count d (mcBlock m) 0x23 1 counted).updMc m (fun y => { y with rmw := satInc 32 y.rmw })
      let d := checkRead (count d (mcBlock m) 0x25 1 {}) line counted chk
      let (d, data, poison) := mergeRead d line symbols wrongAddr
      let d := d.updMc m (fun y => { y with wb := y.wb.map (fun f =>
        if f.num = e.num then { f with data := mergeLine data e.data e.mask, mask := BitVec.allOnes 64, poison := e.poison || poison }
        else f) })
      mergeWaiters d line

/-- CLEANs that waited for lines now in the channel end (R306). -/
def endDrains (d : Dev) : Dev :=
  d.each ((d.xacts.filter (fun x => x.2.phase == .drain && d.drained x.2)).map (·.1)) cmoEnd

/-- The channel has taken the write of the line's oldest entry (R224, R226, R231, R517): a burst of its data, but for a poison
code alone, and one for all the check bytes its batch changes in the check line; the batch ends with the channel's last draining
entry. `err` is what the check of the entry's data finds as it drains: an uncorrectable error, found now or by a read it was
forwarded to, drains as poison (R357). -/
def writeTaken (d : Dev) (m line : Nat) (err : Ecc) : Dev :=
  match d.wbOf line with
  | [] => d
  | e :: _ =>
    if mcOf (64 * line) ≠ m ∨ e.draining = false ∨ e.full = false ∨ d.mcRuns m = false then d
    else
      let c := chanOf (64 * line)
      let csec := csecOf (64 * line)
      let out := (d.chan c).burst.contains csec
      let d := if e.ecc err == .ue then wbUeFound d m e else d
      let poison := e.poison || e.ecc err == .ue
      let d := count (storeLine (runRepairs d c) line e.data poison e.codeOnly) (mcBlock m) 0x25 (b2n (!e.codeOnly) + b2n (!out)) {}
      let d := d.updMc m (fun y => { y with wb := y.wb.filter (fun f => !decide (f.num = e.num)) })
      let last := !(d.chanEntries c).any (·.draining)
      endDrains (d.updChan c (fun x => { x with burst := if last then [] else if out then x.burst else csec :: x.burst }))

/-- The DPA field of the line's oldest entry is uncorrectable as the channel takes its write: fatal (R357). -/
def writeAddrUe (d : Dev) (m line : Nat) : Dev :=
  match d.wbOf line with
  | [] => d
  | e :: _ =>
    if mcOf (64 * line) ≠ m ∨ e.draining = false ∨ d.mcRuns m = false then d
    else wbAddrUe d m ((d.mc m).wb.findIdx (fun f => decide (f.num = e.num))) e

/-- The channel is in service: its controller runs, and it has not failed. -/
def Dev.chanRuns (d : Dev) (c : Nat) : Bool := d.mcRuns (c / 8) && (d.chan c).st == 2

/-- A channel fails (R229). -/
def failChannel (d : Dev) (c : Nat) (timeouts : Bool) : Dev :=
  let x := d.chan c
  if (if timeouts then x.timeouts < 3 else x.failsInRow < 3) then d
  else
    let d := d.updChan c (fun y => { y with st := 5 })
    enterRecovery (chanEvent d c 7 3 3 0 0) 3 (info (c + fld 5 (b2n timeouts)))

/-- Data rate of a code of MEM_CFG.RATE, in MT/s (R236). -/
def rateOf (code : Nat) : Nat :=
  match code with
  | 0 => 6400 | 1 => 7500 | 2 => 8533 | 3 => 9600 | _ => 10667

/-- Background work blocks a channel for at most `ns` nanoseconds (R227): REFRESH_CYC counts the cycles (R468), a number the
spec does not give up to that bound (log entry 51). -/
def blocks (d : Dev) (c ns : Nat) : Dev :=
  let b := mcBlock (c / 8)
  if (d.pmc b).run && d.pmcOn b then (count d b 0x26 (d.freeUpTo (ns * rateOf (d.mc (c / 8)).rate.toNat / 8000)) {}).drawn else d

/-- The ZQ calibration latch (R227), which a management client may have asked for (R400). -/
def zqLatch (d : Dev) (c : Nat) : Dev := (blocks d c 30).updChan c (fun x => { x with zqDue := false })

/-- Write DQ retraining runs (R227). One that fails, or that a management client asked for, raises RETRAIN and counts as any
other (DESIGN CHOICE, log entry 118). -/
def retrainDq (d : Dev) (c : Nat) (ok : Bool) : Dev :=
  if !d.chanRuns c || (!(d.chan c).retrainDue && decide ((d.chan c).drift.toNat < (d.mc (c / 8)).driftLimit.toNat)) then d
  else
    let d := blocks d c 1500
    let d := d.updChan c (fun x => { x with
      retrains := satInc 8 x.retrains, retrainDue := false, drift := if ok then 0 else x.drift, failsInRow := if ok then 0 else x.failsInRow + 1 })
    chanEvent d c 4 0 0 0 0

/-- An MR4 read (R227). -/
def readMr4 (d : Dev) (c : Nat) (code : BitVec 3) (hot : Bool) : Dev :=
  if !d.chanRuns c then d
  else
    let old := (d.chan c).refreshX2
    let d := blocks d c 100
    let d := d.updChan c (fun x => { x with mr4 := code, refreshX2 := hot })
    if old = hot then d else chanEvent d c 6 0 0 0 0

end Sys2Proof.Machine
end

