-- ==== Sys2Proof/Machine/Tiles.lean ====
section
/-! DEFINITION. Tiles and banks leaving and coming back (R139-R146), and what a tile read returns. -/

namespace Sys2Proof.Machine

/-- Code of TIL_STATE.STATE (R153). -/
def TileState.code : TileState → Nat
  | .absent => 0 | .online => 1 | .draining => 2 | .offline => 3 | .retired => 4

/-- The tile a read under way waits on. -/
def Xact.onTile (x : Xact) (t : Nat) : Bool :=
  match x.phase with
  | .tile _ w _ _ _ => decide (tileOfWay w = t)
  | _ => false

/-- A tile begins to leave (R139, R140): its mask is set in every slice. -/
def startDrain (d : Dev) (t cause : Nat) (retiring : Bool) : Dev :=
  let d := d.updTile t (fun x => { x with st := .draining, cause := BitVec.ofNat 3 cause, retiring := retiring })
  (List.range 16).foldl (fun d s =>
    markWhere (d.updSlice s (fun x => { x with walks := x.walks + 1 })) s (fun x => match x.phase with
      | .miss (some w) _ => decide (tileOfWay w = t)
      | _ => false)) d

/-- A walk writes every entry that satisfies a test, in ascending sets and ways: the first of them through an armed flip
(R374, log entry 75). -/
def flipFirst (d : Dev) (s : Nat) (f : Nat → Nat → Bool) : Dev :=
  if d.flips 2 s 0 then
    match firstIdx (fun k => f (k / 16) (k % 16)) 131072 with
    | some k => putTag d s (k / 16) (k % 16) {}
    | none => d
  else d

/-- The tag entries of a slice that satisfy a test are cleared by a walk (R140, R141). -/
def clearTags (d : Dev) (s : Nat) (f : Nat → Nat → Bool) : Dev :=
  let hit (k : Nat) : Bool := f (k / 16) (k % 16)
  let locked := ((d.slice s).tags.filter (fun e => hit e.1 && e.2.lock)).map (fun e => sa (dpaOfTag s (e.1 / 16) e.2.tag.toNat))
  let d := d.updSlice s (fun x => { x with
    tags := x.tags.filter (fun e => !hit e.1), data := x.data.filter (fun e => !hit (e.1 / 8))
    tileBad := x.tileBad.filter (fun e => !hit (e.1 / 8)), walks := x.walks - 1 })
  lockedInval (flipFirst d s f) s locked

/-- A draining tile's walk and drain end (R139). -/
def walkEnd (d : Dev) (t : Nat) : Dev :=
  if d.tileSt t ≠ .draining ∨ d.xacts.any (fun x => x.2.onTile t) = true then d
  else
    let d := (List.range 16).foldl (fun d s => clearTags (countWalk d s 8192) s (fun _ w => decide (tileOfWay w = t))) d
    let x := d.tile t
    let d := d.updTile t (fun x => { x with
      st := if x.retiring then .retired else .offline, tileRetired := x.tileRetired || x.retiring, retiring := false, repeat_ := [] })
    raise d (192 + 8 * t + 2) 0 1 (info x.cause.toNat)

/-- BANK_RETIRE sets a bank's mask (R141). -/
def retireBank (d : Dev) (t b : Nat) : Dev :=
  let s := b / 4
  let d := d.updTile t (fun x => { x with retireMap := x.retireMap ||| BitVec.ofNat 64 (2 ^ b), bankWalks := x.bankWalks ++ [b] })
  markWhere (d.updSlice s (fun x => { x with walks := x.walks + 1 })) s (fun x => match x.phase with
    | .miss (some w) _ => decide (tileOfWay w = t) && decide (bankOf s (csetOf x.req.dpa) = b)
    | _ => false)

/-- A bank's walk ends (R141). -/
def bankWalkEnd (d : Dev) (t b : Nat) : Dev :=
  if !(d.tile t).bankWalks.contains b || d.xacts.any (fun x => x.2.onTile t && decide (bankOf x.2.slice (csetOf x.2.req.dpa) = b)) then d
  else
    let d := d.updTile t (fun x => { x with bankWalks := x.bankWalks.filter (· ≠ b) })
    let d := clearTags (countWalk d (b / 4) 2048) (b / 4) (fun c w => decide (tileOfWay w = t) && decide (bankOf (b / 4) c = b))
    raise d (192 + 8 * t + 4) 5 0 (info b)

/-- A tile goes online (R139, R142). -/
def goOnline (d : Dev) (t : Nat) : Dev :=
  let d := loseCells d t
  raise (d.updTile t (fun x => { x with st := .online })) (192 + 8 * t + 3) 0 0 0

/-- Location of a tile error (R151, R360). -/
def tilePlace (s dpa way : Nat) : Nat :=
  bankOf s (csetOf dpa) + fld 6 (rowOf (csetOf dpa) way) + fld 18 (subOf dpa)

/-- A tile answers a read (R144, R148), while its clock runs (R15): from the repeat buffer where it holds the line. An
uncorrectable error there drops the entry, and the bank serves the read (R355). A disabled slice writes no tag (R122). -/
def tileReturn (d : Dev) (i : Nat) (err : Ecc) : Dev :=
  match d.xact? i with
  | none => d
  | some x =>
    match x.phase with
    | .tile c w data poison bad =>
      let s := x.slice
      let dpa := x.req.dpa
      let t := tileOfWay w
      let held := (d.tile t).repeatHit x.line
      let c' := if held ∧ err ≠ .ue then .ok else eccWith (if held then .ok else err) bad
      let key := dataKey c w (subOf dpa)
      let clean (d : Dev) : Dev := d.updSlice s (fun y => { y with tileBad := Tab.del y.tileBad key })
      if d.pwr.unlocked.getLsbD (17 + t) || d.tileStopped (17 + t) then d
      else
      let d := if held ∧ err = .ue then raise (d.updTile t (fun y => y.repeatDrop x.line)) 460 1 1 (info (2 + fld 3 t)) else d
      match c' with
      | .ok => finish (d.updTile t (fun y => y.repeatAdd x.line)) i data poison true
      | .ce b =>
        let d := (clean d).updTile t (fun y => { y with ce := satInc 32 y.ce })
        let d := logErr d { kind := 10, src := 192 + 8 * t, loc := t + fld 3 (tilePlace s dpa w), who := whoOf x.req, detail := b.toNat }
        let d := raise d (192 + 8 * t) 1 1 (info (tilePlace s dpa w + fld 21 b.toNat))
        finish (d.updTile t (fun y => y.repeatAdd x.line)) i data poison true
      | .ue =>
        let d := (clean d).updTile t (fun y => { y with ue := satInc 32 y.ue })
        let d := logErr d { kind := 11, src := 192 + 8 * t + 1, loc := t + fld 3 (tilePlace s dpa w), who := whoOf x.req, detail := 0x3FF }
        let d := raise d (192 + 8 * t + 1) 2 2 (info (tilePlace s dpa w + fld 21 0x3FF))
        let e := d.tag s c w
        let bit := BitVec.ofNat 8 (2 ^ subOf dpa)
        let d := if d.enabled s then putTag d s c w { e with valid := e.valid &&& ~~~bit, poison := e.poison &&& ~~~bit } else d
        readStage d i
    | _ => d

/-- A tile has not answered an access for 1 µs (R146): it leaves, and the reads that waited on it are sent as misses. The
access may be any: a read, a write update, an install, a promotion, a background read of a sweep or patrol (log entry 119). -/
def noAnswer (d : Dev) (t : Nat) : Dev :=
  let waiting := (d.xacts.filter (fun x => x.2.onTile t)).map (·.1)
  (if d.tileSt t = .online then startDrain d t 3 false else d).each waiting readStage

end Sys2Proof.Machine
end

