-- ==== Sys2Proof/Machine/Views.lean ====
section
/-! DEFINITION. The view tables as routines read them (R61-R66, R169, R313), and invalidation of the LABs (R85-R87). -/

namespace Sys2Proof.Machine

/-- DPA of a table. -/
def Dev.tableDpa (d : Dev) (t : Nat) : Nat := d.glob.tableBase.toNat * 65536 + 2048 * t
/-- The map tables (R313). -/
def Dev.mapTables (d : Dev) : Nat := (d.glob.tableSize.toNat + 16383) / 16384
/-- The first table page (R61). -/
def Dev.firstTable (d : Dev) : Nat := 8 + d.mapTables + 8
/-- DPA of a view's descriptor. -/
def Dev.descDpa (d : Dev) (view : BitVec 12) : Nat := d.tableDpa 0 + 4 * view.toNat
/-- LEVELS, GRANULE and ROOT of a descriptor (R62). -/
def descLevels (x : BitVec 32) : Nat := bits x.toNat 25 24
def descGran (x : BitVec 32) : Nat := bits x.toNat 27 26
def descRoot (x : BitVec 32) : Nat := bits x.toNat 23 0
/-- DPA of a frame's reverse pair. -/
def Dev.rmapDpa (d : Dev) (frame : Nat) : Nat := d.glob.rmapBase.toNat * 65536 + 4 * frame

/-- Pages of 64 KiB that one entry of a level covers (R62). -/
def levelPages (l : Nat) : Nat := 512 ^ (3 - l)
/-- Index of a view address at a level. -/
def levelIndex (l va : Nat) : Nat := va / (65536 * levelPages l) % 512

/-- PTE fields (R63). -/
def pteFrame (p : BitVec 32) : Nat := bits p.toNat 23 0
def pteV (p : BitVec 32) : Bool := p.getLsbD 24
/-- A table pointer (R64). -/
def ptePointer (p : BitVec 32) : Bool := p.getLsbD 24 && p.getLsbD 28 && p.getLsbD 29
/-- A pointer's other attribute bits are zero. -/
def pointerOk (p : BitVec 32) : Bool := !p.getLsbD 25 && !p.getLsbD 26 && !p.getLsbD 27 && !p.getLsbD 30 && !p.getLsbD 31
/-- A pointer to a table. -/
def pointerTo (t : Nat) : BitVec 32 := BitVec.ofNat 32 (0x31000000 + t)
/-- The entry a handler installs for a PTE (R67, R81). -/
def pteOf (p : BitVec 32) (frame : Nat) : Pte :=
  { frame := frame, v := pteV p, w := p.getLsbD 25, x := p.getLsbD 26, u := p.getLsbD 27, device := p.getLsbD 28
    stream := p.getLsbD 29, nopf := p.getLsbD 30, lockhint := p.getLsbD 31 }

/-- What a walk finds (R66): a leaf, an unmapped or held entry, with the DPA of the entry and its level. -/
inductive Walk where
  | leaf (dpa level : Nat) (p : BitVec 32)
  | empty (dpa level : Nat) (p : BitVec 32)
  | fault
  deriving DecidableEq, Repr

/-- Walks from a table at a level (R62, R66). -/
def Dev.walkFrom (d : Dev) (gran va : Nat) : Nat → Nat → Nat → Walk
  | 0, _, _ => .fault
  | fuel + 1, level, table =>
    let dpa := d.tableDpa table + 4 * levelIndex level va
    let (p, bad) := d.pairAt dpa
    if bad then .fault
    else if !pteV p then .empty dpa level p
    else if level < 3 ∧ ptePointer p = true then
      if pointerOk p = true ∧ d.firstTable ≤ pteFrame p ∧ pteFrame p < d.glob.tableSize.toNat then
        d.walkFrom gran va fuel (level + 1) (pteFrame p)
      else .fault
    else if level = 0 ∨ ptePointer p = true then .fault
    else if pteFrame p % levelPages level ≠ 0 ∨ levelPages level < 512 ^ gran
        ∨ d.limit < (pteFrame p + levelPages level) * 65536 then .fault
    else .leaf dpa level p

/-- A table number a walk may go to (R66). -/
def Dev.tableOk (d : Dev) (t : Nat) : Bool := decide (d.firstTable ≤ t) && decide (t < d.glob.tableSize.toNat)

/-- A pointer a walk follows (R66): the descriptor tables and those of the map and the locks are never table pages (R313). -/
def Dev.goodPointer (d : Dev) (p : BitVec 32) : Bool := ptePointer p && pointerOk p && d.tableOk (pteFrame p)

/-- The valid leaf a view address meets, followed or not: level, DPA and PTE (R314). A walk of it may fault (R66). -/
def Dev.leafFrom (d : Dev) (va : Nat) : Nat → Nat → Nat → Option (Nat × Nat × BitVec 32)
  | 0, _, _ => none
  | fuel + 1, level, table =>
    let dpa := d.tableDpa table + 4 * levelIndex level va
    let (p, bad) := d.pairAt dpa
    if bad || !pteV p then none
    else if level < 3 ∧ ptePointer p = true then
      if d.goodPointer p then d.leafFrom va fuel (level + 1) (pteFrame p) else none
    else some (level, dpa, p)

/-- The descriptor of a view: none where it is poisoned, or where LEVELS or GRANULE makes it invalid (R62). -/
def Dev.desc? (d : Dev) (view : BitVec 12) : Option (BitVec 32) :=
  let (x, bad) := d.pairAt (d.descDpa view)
  if bad || !(descLevels x == 1 || descLevels x == 2) || descGran x == 3 then none else some x

/-- The walk of a view address (R66): a root outside the table pages faults too. -/
def Dev.walk (d : Dev) (view : BitVec 12) (va : Nat) : Walk :=
  match d.desc? view with
  | none => .fault
  | some x =>
    if d.tableOk (descRoot x) then d.walkFrom (descGran x) va 4 (if descLevels x = 1 then 1 else 0) (descRoot x) else .fault

/-- Lines of the PTEs a walk from a table reads. -/
def Dev.pathReads (d : Dev) (va : Nat) : Nat → Nat → Nat → List Nat
  | 0, _, _ => []
  | fuel + 1, level, table =>
    let dpa := d.tableDpa table + 4 * levelIndex level va
    let (p, bad) := d.pairAt dpa
    dpa / 64 :: (if !bad && pteV p && decide (level < 3) && d.goodPointer p then d.pathReads va fuel (level + 1) (pteFrame p) else [])

/-- Level of a view's root. -/
def rootLevel (x : BitVec 32) : Nat := if descLevels x = 1 then 1 else 0

/-- Lines a walk of a view address reads: its descriptor's and those of the PTEs (R61, R66). -/
def Dev.walkReads (d : Dev) (view : BitVec 12) (va : Nat) : List Nat :=
  d.descDpa view / 64 :: (match d.desc? view with
    | some x => if d.tableOk (descRoot x) then d.pathReads va 4 (rootLevel x) (descRoot x) else []
    | none => [])

/-- The leaf whose PTE is valid at a view address (R314). -/
def Dev.leafAt (d : Dev) (view : BitVec 12) (va : Nat) : Option (Nat × Nat × BitVec 32) :=
  match d.desc? view with
  | none => none
  | some x => if d.tableOk (descRoot x) then d.leafFrom va 4 (if descLevels x = 1 then 1 else 0) (descRoot x) else none

/-- View addresses of a view end here (R62). -/
def viewEnd (x : BitVec 32) : Nat := if descLevels x = 1 then 2 ^ 43 else 2 ^ 52

/-- A table is in use (R313): a map pair that reads as poison counts as in use. -/
def Dev.tableUsed (d : Dev) (t : Nat) : Bool :=
  let (p, bad) := d.pairAt (d.tableDpa 8 + t / 32 * 4)
  bad || p.getLsbD (t % 32)
/-- DPA of the map pair with a table's bit, and of a view's lock (R313). -/
def Dev.mapDpa (d : Dev) (t : Nat) : Nat := d.tableDpa 8 + t / 32 * 4
def Dev.lockDpa (d : Dev) (view : BitVec 12) : Nat := d.tableDpa (8 + d.mapTables) + 4 * view.toNat

/-- The step that gives a table's map bit back. -/
def Dev.freeStep (d : Dev) (t : Nat) : CallStep := .rmw (d.mapDpa t) (.clearBit (t % 32))

/-- The lowest free table from `t` on, `n` tables left to look at. -/
def Dev.freeTableFrom (d : Dev) : Nat → Nat → Option Nat
  | 0, _ => none
  | n + 1, t => if d.tableUsed t then d.freeTableFrom n (t + 1) else some t
def Dev.freeTable (d : Dev) : Option Nat := d.freeTableFrom (d.glob.tableSize.toNat - d.firstTable) d.firstTable

/-- Entries of a table that are pointers to tables, and leaves, with their DPAs. -/
def Dev.entriesOf (d : Dev) (t : Nat) : List (Nat × BitVec 32) :=
  (List.range 512).map (fun i => (d.tableDpa t + 4 * i, (d.pairAt (d.tableDpa t + 4 * i)).1))

/-- Tables reachable from a table, each with the DPA of the pointer to it; `level` of the table. -/
def Dev.subTables (d : Dev) : Nat → Nat → Nat → List (Nat × Nat)
  | 0, _, _ => []
  | fuel + 1, level, t =>
    if level = 3 then []
    else ((d.entriesOf t).filter (fun e => d.goodPointer e.2)).flatMap (fun e =>
      (pteFrame e.2, e.1) :: d.subTables fuel (level + 1) (pteFrame e.2))

/-- Leaves of a table and those below it that satisfy a test: level, DPA, PTE and view address. -/
def Dev.leavesOf (d : Dev) : Nat → Nat → Nat → Nat → List (Nat × Nat × BitVec 32 × Nat)
  | 0, _, _, _ => []
  | fuel + 1, level, t, va =>
    ((List.range 512).map (fun i => (i, d.tableDpa t + 4 * i, (d.pairAt (d.tableDpa t + 4 * i)).1))).flatMap (fun e =>
      let va' := va + e.1 * (65536 * levelPages level)
      if level < 3 ∧ ptePointer e.2.2 = true then
        if d.goodPointer e.2.2 then d.leavesOf fuel (level + 1) (pteFrame e.2.2) va' else []
      else if e.2.2 = 0 then [] else [(level, e.2.1, e.2.2, va')])

/-- Lines of a table and of those below it. -/
def Dev.treeReads (d : Dev) (x : BitVec 32) : List Nat :=
  (descRoot x :: (d.subTables 4 (rootLevel x) (descRoot x)).map (·.1)).flatMap (fun t => (List.range 32).map (fun k => d.tableDpa t / 64 + k))

-- LABI
/-- A LABI enters the system: it takes effect later in all LABs (R85). -/
def labiIssue (d : Dev) (e form : Nat) (view : BitVec 12) (gran : BitVec 2) (vpn : Nat) : Dev × Nat :=
  ({ d with labis := d.labis ++ [(d.nextId, e, form, view, gran, vpn)], nextId := d.nextId + 1 }, d.nextId)

/-- An entry a LABI removes (R85): by address 0, by view 1, all 2. -/
def labiHits (form : Nat) (view : BitVec 12) (gran : BitVec 2) (vpn : Nat) (v : BitVec 12) (g : BitVec 2) (n : Nat) : Bool :=
  form == 2 || (v == view && (form == 1 || (g == gran && decide (n = vpn))))

/-- A request has completed as R87 counts it. -/
def Phase.completed : Phase → Bool
  | .done _ _ _ => true
  | .accepted _ => true
  | _ => false

/-- Requests under way that were translated through an entry of a LAB (R87). -/
def Dev.through (d : Dev) (l : Nat) (e : LabEntry) : List Nat :=
  (d.xacts.filter (fun x =>
    x.2.req.entry == some (l, e.uid) && !x.2.phase.completed && (match x.2.phase with
        | .parked _ => false
        | _ => true))).map (·.1)

/-- Engines of a quad's LAB. -/
def enginesOfLab (l : Nat) : List Nat := (List.range 24).filter (fun e => decide (8 + quadOf e = l))

/-- Combining lines translated through an entry start to drain, so that they can complete (R87). -/
def drainThrough (d : Dev) (l : Nat) (x : LabEntry) : Dev :=
  d.each (enginesOfLab l) (fun d e => d.updEngine e (fun y =>
    ((y.nt.filter (fun n => n.page.entry == some (l, x.uid))).map (·.line)).foldl Engine.drainLine y))

/-- Store-buffer entries translated through an entry, by engine. -/
def Dev.storesThrough (d : Dev) (l : Nat) (x : LabEntry) : List (Nat × Nat) :=
  (enginesOfLab l).flatMap (fun e =>
    ((d.engine e).sb.filter (fun b =>
      b.page.entry == some (l, x.uid) || b.writes.any (fun w => w.page.entry == some (l, x.uid)))).map (fun b => (e, b.id)))

/-- A LABI takes effect in all 14 LABs (R85, R87, R170). -/
def labiEffect (d : Dev) (e id : Nat) : Dev :=
  match d.labis.find? (fun x => decide (x.1 = id) && decide (x.2.1 = e)) with
  | none => d
  | some (_, _, form, view, gran, vpn) =>
    let hit (x : LabEntry) : Bool := labiHits form view gran vpn x.view x.gran x.vpn
    let gone := (List.range 14).flatMap (fun l => ((d.lab l).filter (fun x => hit x.2)).map (fun x => (l, x.2)))
    let d := d.each gone (fun d g => drainThrough d g.1 g.2)
    let waits := (gone.flatMap (fun g => d.through g.1 g.2)).eraseDups
    let stores := (gone.flatMap (fun g => d.storesThrough g.1 g.2)).eraseDups
    let d := (List.range 14).foldl (fun d l => d.setLab l ((d.lab l).filter (fun x => !hit x.2))) d
    let d := (List.range 8).foldl (fun d p => d.updPort p (fun q => { q with
      rcache := []
      slots := q.slots.map (fun s =>
        if labiHits form view gran vpn s.2.view s.2.gran s.2.vpn then (s.1, { s.2 with stale := true }) else s) })) d
    { d with labis := d.labis.filter (fun x => !decide (x.1 = id)), labEffects := d.labEffects ++ [(e, id, waits, stores)] }

/-- Every earlier LABI of an engine has taken effect, and the requests translated through what it removed have
completed (R87). -/
def Dev.labSynced (d : Dev) (e : Nat) : Bool :=
  !d.labis.any (fun x => decide (x.2.1 = e))
    && d.labEffects.all (fun x => decide (x.1 ≠ e)
      || (x.2.2.1.all (fun i => match d.xact? i with
          | none => true
          | some y => y.phase.completed)
        && x.2.2.2.all (fun s => !(d.engine s.1).sb.any (fun b => decide (b.id = s.2)))))

end Sys2Proof.Machine
end

