-- ==== Sys2Proof/Machine/MemView.lean ====
section
/-! DEFINITION. The memory-view cache of an engine (R238, R281, R282, R287, R355). -/

namespace Sys2Proof.Machine

/-- The cached line. -/
def Engine.cached (y : Engine) (line : Nat) : Option MvLine := y.mview.find? (fun l => decide (l.line = line))

/-- A lookup of the memory-view cache (R355): a corrected line is written back, a line with an uncorrectable error is
dropped with BUFFER_UE. -/
def mvCheck (d : Dev) (e line : Nat) (c : Ecc) : Dev :=
  match (d.engine e).cached line with
  | none => d
  | some l =>
    match eccWith c l.bad with
    | .ue => raise (d.updEngine e (fun y => y.dropMview line)) 460 1 1 (info (3 + fld 3 e))
    | _ => d.updEngine e (fun y => { y with
        mvClock := y.mvClock + 1
        mview := y.mview.map (fun l => if l.line = line then { l with bad := 0, used := y.mvClock + 1 } else l) })

/-- A firmware handler reads a line of a walk as any load does (R238, R469): from its engine's cache, from a tile, or from its
controller, which corrects the line or finds it uncorrectable (R218, R355, R375); a line whose correction waits to be written
reads as corrected. The load takes effect with the walk and records no holder (DESIGN CHOICE, log entry 110). -/
def handlerRead (d : Dev) (e line : Nat) : Dev :=
  let d := mvCheck d e line .ok
  if ((d.engine e).cached line).isSome then d
  else
  let dpa := 64 * line
  let s := sliceOf dpa
  let r : Counted := { cls := 1, priv := 4, agent := some (engAgent e), dpa := some dpa }
  let d := count d (8 + s) 0x10 1 r
  if d.enabled s && (d.hitWay s dpa).isSome then count d (8 + s) 0x11 1 r
  else
    let d := if d.enabled s then count d (8 + s) 0x12 1 r else d
    let d := checkEntries d line .ok
    if (d.wbOf line).any WbEntry.full then count d (mcBlock (mcOf dpa)) 0x21 1 r
    else
      let d := count (count d (mcBlock (mcOf dpa)) 0x20 1 r) (mcBlock (mcOf dpa)) 0x25 1 {}
      if (d.chan (chanOf dpa)).repair.any (fun x => decide (x.1 = line)) then d
      else (readLine d line 0 false { agent := engAgent e }).1

/-- What the built-in handler's walk of a host program's LAB miss reads (R79); the walk follows with the trap (R322). -/
def missReads (d : Dev) (e : Nat) (view : BitVec 12) (va : Nat) : Dev :=
  if (d.engine e).running.isSome then d.each (d.walkReads view va) (handlerRead · e ·) else d

/-- Least recently used line of a set that is full (R238; set index: log entry 48). -/
def Engine.mvVictim (y : Engine) (line : Nat) : Option Nat :=
  let s := y.mview.filter (fun l => decide (l.line % 16 = line % 16))
  if s.length < 4 then none
  else (s.foldl (fun (b : Option MvLine) l => match b with
    | none => some l
    | some m => if l.used < m.used then some l else b) none).map (·.line)

/-- A line enters the memory-view cache (R238, R374 path 10). -/
def mvInstall (d : Dev) (e line : Nat) (data : Line) (poison : Bool) : Dev :=
  let (d, bad) := flipWrite d 10 e (64 * line) 64 true
  d.updEngine e (fun y =>
    let y := { y with mview := y.mview.filter (fun l => !decide (l.line = line)) }
    let y := match y.mvVictim line with
      | some v => y.dropMview v
      | none => y
    { y with mvClock := y.mvClock + 1, mview := y.mview ++ [⟨line, data, poison, y.mvClock + 1, bad⟩] })

/-- A cached line goes with a clean eviction (R282). -/
def mvEvict (d : Dev) (e line : Nat) : Dev :=
  match (d.engine e).cached line with
  | none => d
  | some _ =>
    ((d.updEngine e (fun y => y.dropMview line)).start
      { req := { src := .orphan e, agent := engAgent e, op := .cleanEvict, dpa := 64 * line, sup := true }
        slice := sliceOf (64 * line), t0 := d.glob.time }).1

/-- A line a load read enters the memory-view cache if the directory still records the engine and no recall of the line has
been answered since its order point (R238, R287, log entry 27). -/
def cacheLine (d : Dev) (e i : Nat) : Dev :=
  match d.xact? i with
  | some x =>
    match x.phase, d.dirEntry x.slice x.req.dpa with
    | .done data poison true, some y =>
      if x.req.op == .readShared && !x.untracked && !x.recalled && y.has (engAgent e) then mvInstall d e x.line data poison else d
    | _, _ => d
  | none => d

end Sys2Proof.Machine
end

