-- ==== Sys2Proof/Machine/Calls.lean ====
section
/-! DEFINITION. Routine calls as they run: the steps of each, the requests they make, their completion records, and the
mover channels they use (11_routines_and_maintenance.md, 13_errors_and_repair.md). -/

namespace Sys2Proof.Machine

/-- Q0 firmware's own work is numbered after the engines. -/
def q0Call : Nat := 24

/-- The call on an engine, or the oldest work of Q0. -/
def Dev.callOf (d : Dev) (e : Nat) : Option Call := if e = q0Call then d.q0work.head? else (d.engine e).call
def Dev.setCall (d : Dev) (e : Nat) (c : Option Call) : Dev :=
  if e = q0Call then
    { d with q0work := match c with
        | some c => c :: d.q0work.drop 1
        | none => d.q0work.drop 1 }
  else d.updEngine e (fun x => { x with call := c })
/-- The engine that runs a call; Q0's own work runs on E0. -/
def callEngine (e : Nat) : Nat := if e = q0Call then 0 else e

/-- Operations of a routine that complete with an error where their target does not answer (R294). -/
def Op.storesOrCmo : Op → Bool
  | .cmo _ _ _ => true
  | .cmoSw _ _ _ _ => true
  | op => op.stores

/-- Starts a request of a call to a line; in RECOVERY a store of an engine of Q1 to Q5 ends at once with an error
(R421). -/
def callReq (d : Dev) (e line : Nat) (op : Op) (data : Line) (mask : Mask) (device : Bool) : Dev × Nat :=
  d.start { req := { src := .call (callEngine e), agent := engAgent (callEngine e), op := op, dpa := 64 * line, data := data
                     mask := mask, device := device, sup := true }
            slice := sliceOf (64 * line), t0 := d.glob.time
            phase := if d.recovering (callEngine e) && op.stores then .done 0 false false else .ingress }

/-- Starts a preload of a sector, with the attributes of its page (R125, R136). -/
def preloadReq (d : Dev) (e sector : Nat) (g : BitVec 4) (device stream : Bool) : Dev × Nat :=
  let r := callReq d e (8 * sector) (.preload g) 0 0 device
  (r.1.updXact r.2 (fun x => { x with req := { x.req with stream := stream } }), r.2)

/-- Counts a sector in a call's list of slices: the first sector of each, and how many (R136, R137). -/
def noteSlice (l : List (Nat × Nat × Nat)) (s sec : Nat) : List (Nat × Nat × Nat) :=
  if l.any (fun r => decide (r.1 = s)) then l.map (fun r => if r.1 = s then (r.1, r.2.1, r.2.2 + 1) else r) else l ++ [(s, sec, 1)]

/-- A CMO of the call emptied a locked way of a slice (R137). -/
def Call.noteEmptied (c : Call) (s n : Nat) : Call :=
  if n < 65536 then c else { c with emptied := noteSlice c.emptied s (n / 65536 - 1) }

/-- Adds to a result count. -/
def Call.bump (c : Call) (i n : Nat) : Call := { c with counts := c.counts.set i (c.counts.getD i 0 + n) }

/-- Two words of a count, three of an address (R302, R340). -/
def words2 (n : Nat) : List Word := [BitVec.ofNat 18 n, BitVec.ofNat 18 (n / 2 ^ 18)]
def words3 (n : Nat) : List Word := [BitVec.ofNat 18 n, BitVec.ofNat 18 (n / 2 ^ 18), BitVec.ofNat 18 (n / 2 ^ 36)]

/-- A request of a call has ended: what it adds to the results (R304, R136). -/
def Call.took (c : Call) (x : Xact) (data : Line) (ok : Bool) : Call :=
  let n := data.toNat
  match x.req.op with
  | .cmo _ _ _ =>
    let c := c.noteEmptied x.slice n
    if 2 ≤ c.code ∧ c.code ≤ 4 then ((c.bump 0 1).bump 2 (n % 65536)).bump 3 (b2n (decide (65536 ≤ n))) else c
  | .cmoSw _ _ _ _ => ((c.noteEmptied x.slice n).bump 0 1).bump 1 (b2n (decide (65536 ≤ n)))
  | .preload _ =>
    if ok then c.bump 0 1
    else
      let c := c.bump 1 1
      { c with status := if c.status = 0 then 1 else c.status, refused := noteSlice c.refused x.slice (sa x.req.dpa) }
  | _ => c

/-- Issues up to `n` requests, `f` making the `k`th. -/
def issueMany (d : Dev) (c : Call) (n : Nat) (f : Dev → Nat → Dev × Nat) : Dev × Call :=
  (List.range n).foldl (fun (acc : Dev × Call) k =>
    let r := f acc.1 k
    (r.1, { acc.2 with outstanding := acc.2.outstanding ++ [r.2] })) (d, c)

/-- The pair bytes of a value as a write of its line. -/
def pairWrite (dpa : Nat) (v : BitVec 32) : Line × Mask :=
  let off := dpa % 64
  (v.setWidth 512 <<< (8 * off), 0xF#64 <<< off)

/-- The engine of a call reserves a pair whose line it has cached (R254, R291). -/
def reserve (d : Dev) (e dpa : Nat) : Dev :=
  d.updEngine (callEngine e) (fun y => { y with rsv := if (y.cached (dpa / 64)).isSome then some dpa else none })

/-- An LRP of a call has read a pair (R313): the SCP of the changed pair goes out, unless the change does not fit it or its
line is poisoned. -/
def rmwTake (d : Dev) (e : Nat) (c : Call) (dpa : Nat) (k : Rmw) (line : Line) (bad : Bool) : Dev × Call :=
  let old := line.extractLsb' (8 * (dpa % 64)) 32
  let c := { c with rmwOld := old }
  match (if bad then none else k.apply old) with
  | none => (d, { c with rmw := none, rmwOk := false })
  | some v =>
    let w := pairWrite dpa v
    let r := callReq (reserve d e dpa) e (dpa / 64) .scp w.1 w.2 false
    (r.1, { c with outstanding := c.outstanding ++ [r.2] })

/-- A call changes a pair with LRP and SCP (R313): the LRP goes through the memory-view cache (R291). -/
def rmwReq (d : Dev) (e : Nat) (c : Call) (dpa : Nat) (k : Rmw) : Dev × Call :=
  let d := mvCheck d (callEngine e) (dpa / 64) .ok
  let c := { c with rmw := some (dpa, k) }
  match (d.engine (callEngine e)).cached (dpa / 64) with
  | some m => rmwTake d e c dpa k m.data m.poison
  | none =>
    let r := callReq d e (dpa / 64) .readShared 0 0 false
    (r.1, { c with outstanding := c.outstanding ++ [r.2] })

/-- A store, CMO or LABI of a call fails (R277): ENG_STORE_FAULT with an untranslated address (log entry 128). -/
def callFaultAt (d : Dev) (e dpa : Nat) : Dev := raise d (288 + 4 * callEngine e + 1) 2 2 (info (dpa / 2))

/-- A store or CMO of a call fails: the line of a store leaves the engine's cache (R282). -/
def callFault (d : Dev) (e : Nat) (x : Xact) : Dev :=
  let d := callFaultAt d e (64 * x.line)
  if x.req.op.stores then mvEvict d (callEngine e) x.line else d

/-- A request nobody waits for any more still runs. -/
def orphan (d : Dev) (i : Nat) : Dev :=
  match d.xact? i with
  | some x => match x.phase with
    | .done _ _ _ => d.dropXact i
    | _ => match x.req.src with
      | .engine e => d.putXact i { x with req := { x.req with src := .orphan e } }
      | .call e => d.putXact i { x with req := { x.req with src := .orphan e } }
      | _ => d
  | none => d

/-- A request of a call has ended: its data enters the memory-view cache, its SCP follows its LRP, an SCP that failed is tried
again from its LRP, and a store or CMO that failed is reported (R277, R287, R313). -/
def reapOne (d : Dev) (e : Nat) (c : Call) (i : Nat) (x : Xact) (data : Line) (poison ok : Bool) : Dev × Call :=
  match x.req.op, c.rmw with
  | .readShared, some (dpa, k) => rmwTake ((cacheLine d (callEngine e) i).dropXact i) e c dpa k data (poison || !ok)
  | .readShared, none => ((cacheLine d (callEngine e) i).dropXact i, c)
  | .scp, some (dpa, k) =>
    let d := (d.dropXact i).updEngine (callEngine e) (fun y => { y with rsv := none })
    if ok then (d, { c with rmw := none, rmwOk := true }) else rmwReq d e c dpa k
  | op, _ =>
    let d := if ok || op.isRead || (match op with
      | .preload _ => true
      | _ => false) then d else callFault d e x
    (d.dropXact i, c.took x data ok)

/-- A request has ended, and whether it succeeded. -/
def Dev.result (d : Dev) (i : Nat) : Option Bool :=
  match d.xact? i with
  | some x => match x.phase with
    | .done _ _ ok => some ok
    | _ => none
  | none => some false

/-- A store, CMO, ZERO or SCP of a call has no answer by the target timeout: it completes with an error (R294); an SCP is tried
again from its LRP. -/
def callLate (d : Dev) (e i : Nat) (c : Call) : Dev × Call :=
  match d.xact? i with
  | some x =>
    if !x.req.op.storesOrCmo || (d.result i).isSome then (d, c)
    else
      let c := { c with outstanding := c.outstanding.filter (· ≠ i) }
      let d := orphan d i
      match x.req.op, c.rmw with
      | .scp, some (dpa, k) => rmwReq (mvEvict (d.updEngine (callEngine e) (fun y => { y with rsv := none })) (callEngine e) x.line) e c dpa k
      | _, _ => (callFault d e x, c.took x 0 false)
  | none => (d, c)

/-- Takes the results of requests that have ended. -/
def reap (d : Dev) (e : Nat) (c : Call) : Dev × Call :=
  c.outstanding.foldl (fun (acc : Dev × Call) i =>
    match acc.1.xact? i with
    | some x => match x.phase with
      | .done data poison ok => reapOne acc.1 e acc.2 i x data poison ok
      | _ => (acc.1, { acc.2 with outstanding := acc.2.outstanding ++ [i] })
    | none => acc) (d, { c with outstanding := [] })

/-- The step of a range routine over a run of lines of one page. -/
def rangeStep (c : Call) (va : Option Nat) (dpa len : Nat) (device stream : Bool) : CallStep :=
  if c.code = 6 then .preloads (BitVec.ofNat 4 c.mode) device stream (dpa / 512) ((dpa + len + 511) / 512 - dpa / 512)
  else if c.code = 7 then .sweepLines va (dpa / 64) (len / 64)
  else if c.code = 0x14 then .loads device (dpa / 64) (len / 64)
  else .cmos (c.code - 2) c.coh false (dpa / 64) (len / 64)

/-- The engine loads of a frame array come before the mapping (R315): a holder's data is recalled to memory. -/
def Call.listLoads (c : Call) : List CallStep :=
  if c.list then [.loads false (c.first / 64) ((c.first + 4 * c.pages + 63) / 64 - c.first / 64)] else []

/-- Frame `i` of a VIEW_MAP or DC_ADD call; none where its pair in the list is poisoned (R315). -/
def Dev.callFrame (d : Dev) (c : Call) (i : Nat) : Option Nat :=
  if c.list then
    let (p, bad) := d.pairAt (c.first + 4 * i)
    if bad then none else some (bits p.toNat 23 0)
  else some (c.first + i)

/-- Where an entry for a leaf of a level goes: its DPA with the PTE there, or the table entry that is missing a table. -/
def Dev.slotFor (d : Dev) (va level : Nat) : Nat → Nat → Nat → Option (Nat × BitVec 32 × Bool)
  | 0, _, _ => none
  | fuel + 1, l, t =>
    let dpa := d.tableDpa t + 4 * levelIndex l va
    let (p, bad) := d.pairAt dpa
    if bad then none
    else if l = level then some (dpa, p, true)
    else if ptePointer p then if d.goodPointer p then d.slotFor va level fuel (l + 1) (pteFrame p) else none
    else if pteV p then none
    else some (dpa, p, false)

/-- The reverse entry of a frame lets VIEW_MAP map it at a page (R168, R315); a pair that reads as poison does not (log entry
129). -/
def Dev.revAllows (d : Dev) (c : Call) (x : BitVec 32) (vpn f : Nat) : Bool :=
  let (p, bad) := d.pairAt (d.rmapDpa f)
  decide (descLevels x ≠ 1) || (!bad && (Rmw.apply (.raiseMaps vpn c.keep) p).isSome)

/-- The leaf level VIEW_MAP writes for page `i` (R63, R66, R315): with LARGE the largest for which the run of pages and
frames is aligned and no page of it is refused for its reverse entry; never smaller than the granule. None where even that
does not fit. -/
def Dev.mapLevel (d : Dev) (c : Call) (x : BitVec 32) (i va : Nat) : Option Nat :=
  let fits (l : Nat) : Bool :=
    let n := levelPages l
    decide (512 ^ descGran x ≤ n) && (c.large || decide (n = 512 ^ descGran x)) && decide (i + n ≤ c.pages)
      && decide (va % (65536 * n) = 0) && (match d.callFrame c i with
        | some f => decide (f % n = 0) && (!c.list || (List.range n).all (fun k => d.callFrame c (i + k) == some (f + k)))
            && (List.range n).all (fun k => d.revAllows c x (va / 65536 + k) (f + k))
        | none => false)
      && (match d.slotFor va l 4 (rootLevel x) (descRoot x) with
        | some (_, p, true) => !pteV p
        | some (_, _, false) => true
        | none => false)
  [1, 2, 3].find? fits

/-- What VIEW_MAP does at a page: the steps for it, a page already mapped or refused, each with the pages it covers. -/
inductive PageMap where
  | steps (l : List CallStep) (n : Nat)
  | already (n : Nat)
  | refused (n : Nat)
  deriving DecidableEq, Repr

/-- Page `i` of VIEW_MAP (R314, R315): a page whose PTE is valid is skipped, also where a walk of it would fault; a leaf with a
frame that reaches the usable limit is refused whole. MAPS is checked once more where it is raised. -/
def Dev.mapPage (d : Dev) (c : Call) (x : BitVec 32) (i : Nat) : PageMap :=
  let va := c.base + 65536 * i
  let unit := min (512 ^ descGran x) (c.pages - i)
  match d.leafAt c.view va with
  | some (level, _, _) => .already (min (c.pages - i) (levelPages level - va / 65536 % levelPages level))
  | none =>
    match d.mapLevel c x i va, d.callFrame c i with
    | some l, some f =>
      let n := levelPages l
      if d.limit < (f + n) * 65536 then .refused n
      else match d.slotFor va l 4 (rootLevel x) (descRoot x) with
      | some (dpa, _, true) =>
        let attr := if c.attr.getLsbD 4 then c.attr &&& 0xDF else c.attr
        let first := if descLevels x = 1 then 0 else n
        .steps [.leaf f (va / 65536) n first dpa (BitVec.ofNat 32 (f + fld 24 (attr.toNat ||| 1)))] n
      | some (dpa, _, false) => .steps [.alloc (.table dpa)] 0
      | none => .refused unit
    | _, _ => .refused unit

/-- What VIEW_UNMAP finds at a view address: a valid leaf is unmapped also where a walk of it would fault, unless it stands
in a root of four levels, where no leaf can (R66, R316). -/
def Dev.mapped (d : Dev) (view : BitVec 12) (va : Nat) : Walk :=
  match d.leafAt view va with
  | some (level, dpa, p) => if level = 0 then .fault else .leaf dpa level p
  | none => d.walk view va

/-- Steps that make a table just allocated what it is for (R315-R317). -/
def Dev.tableSteps (d : Dev) (c : Call) (t : Nat) (k : AllocFor) : List CallStep :=
  match k with
  | .root => [.zeroLines (d.tableDpa t / 64) 32, .store (d.descDpa c.view) (BitVec.ofNat 32 (t + fld 24 c.mode)), .finish]
  | .table entry => [.zeroLines (d.tableDpa t / 64) 32, .store entry (pointerTo t)]
  | .split level dpa p =>
    (List.range 512).map (fun i => CallStep.store (d.tableDpa t + 4 * i) (BitVec.ofNat 32 (p.toNat + i * levelPages (level + 1))))
      ++ [.store dpa (pointerTo t)]

/-- Leaves of a view that map a frame (R520), held entries of an earlier call included (R314): DPA, level, PTE and view
address. -/
def Dev.leavesFor (d : Dev) (view : BitVec 12) (old spare : Nat) : List (Nat × Nat × BitVec 32 × Nat) :=
  let want (level : Nat) (p : BitVec 32) : Bool :=
    (pteV p && decide (pteFrame p ≤ old) && decide (old < pteFrame p + levelPages level))
      || (!pteV p && decide (level = 3) && decide (pteFrame p = spare) && decide (spare ≠ 0))
  match d.desc? view with
  | none => []
  | some x =>
    if descLevels x = 1 then
      let (r, bad) := d.pairAt (d.rmapDpa old)
      let va := 65536 * revVpn r
      if bad || decide (revMaps r = 0) || decide (2 ^ 24 ≤ old) then []
      else match d.walk view va with
        | .leaf dpa level p => if want level p then [(dpa, level, p, va)] else []
        | .empty dpa level p => if want level p then [(dpa, level, p, va)] else []
        | .fault => []
    else ((d.leavesOf 4 0 (descRoot x) 0).filter (fun y => want y.1 y.2.2.1)).map (fun y => (y.2.1, y.1, y.2.2.1, y.2.2.2))

/-- A leaf of a view can be remapped once split (R520). -/
def Dev.canSplit (d : Dev) (view : BitVec 12) : Bool :=
  match d.desc? view with
  | some x => descGran x == 0
  | none => false

/-- LABI by address of a page found (R90). -/
def Dev.labiOf (d : Dev) (f : BitVec 12 × Nat × BitVec 32 × Nat) : CallStep :=
  let g := match d.desc? f.1 with
    | some x => descGran x
    | none => 0
  .labi 0 f.1 (BitVec.ofNat 2 g) (f.2.2.2 / 2 ^ granShift g)

/-- Steps that look for a table page with no mapped entry left and free it (R316). -/
def Dev.emptyTable (d : Dev) (view : BitVec 12) : Option (Nat × Nat) :=
  match d.desc? view with
  | none => none
  | some x => (d.subTables 4 (rootLevel x) (descRoot x)).find? (fun t => (d.entriesOf t.1).all (fun e => e.2 == 0))

/-- Lines of tables, locks and reverse pairs that the step at hand reads. The engine of the call loads them first, as any load
does: what another agent holds of them is recalled, and an error in them is found and handled where it is read (R281, R313, R355,
R375). -/
def Dev.stepReads (d : Dev) (c : Call) : List Nat :=
  let tree (v : BitVec 12) : List Nat := d.descDpa v / 64 :: (match d.desc? v with
    | some x => d.treeReads x
    | none => [])
  let rmap (f : Nat) : List Nat := [d.rmapDpa f / 64]
  let reads : List Nat := match c.steps with
    | .lockViews (v :: _) :: _ => [d.lockDpa v / 64]
    | .alloc _ :: _ => (List.range ((d.freeTable.getD d.glob.tableSize.toNat) / 512 + 1)).map (fun k => d.tableDpa 8 / 64 + k)
    | .viewGo :: _ => [d.descDpa c.view / 64]
    | .leaf _ _ _ _ _ _ :: _ => [d.descDpa c.view / 64]
    | .range va stop :: _ => if va < stop then d.walkReads c.view va else []
    | .mapFrom i :: _ =>
      if c.pages ≤ i then []
      else d.walkReads c.view (c.base + 65536 * i) ++ (match d.callFrame c i with
        | some f => rmap f
        | none => [])
    | .unmapFrom va :: _ => if va < c.base + 65536 * c.pages then d.walkReads c.view va else []
    | .mapEnd :: _ => [d.descDpa c.view / 64]
    | .clinvFound :: _ => [d.descDpa c.view / 64]
    | .tablesOf v :: _ => tree v
    | .deleteTables :: _ => tree c.view
    | .remapFind (v :: _) :: _ => rmap c.old ++ (match d.desc? v with
        | some x => if descLevels x = 1 then d.walkReads v (65536 * revVpn (d.pairAt (d.rmapDpa c.old)).1) else tree v
        | none => [d.descDpa v / 64])
    | .remapGo :: _ => rmap c.old ++ rmap c.spare ++ c.found.map (fun f => d.descDpa f.1 / 64)
    | _ => []
  reads.eraseDups

/-- Loads of a call's engine for the lines the step at hand reads that it has not loaded yet, eight at a time; none is left when
the list comes out empty and nothing is outstanding. -/
def stepLoads (d : Dev) (e : Nat) (c : Call) : Dev × Call × Bool :=
  let need := (d.stepReads c).filter (fun l => !c.reads.contains l && decide (64 * l < d.limit))
  let d := d.each need (fun d l => mvCheck d (callEngine e) l .ok)
  let miss := need.filter (fun l => ((d.engine (callEngine e)).cached l).isNone)
  if miss = [] then (d, c, false)
  else if !c.outstanding.isEmpty then (d, c, true)
  else
    let now := miss.take 8
    let r := issueMany d { c with reads := c.reads ++ now } now.length (fun d i => callReq d e (now.getD i 0) .readShared 0 0 false)
    (r.1, r.2, true)

/-- The result words of a completion, the status first (R305, R339). -/
def Call.results (c : Call) : List Word :=
  BitVec.ofNat 18 c.status :: (c.counts.flatMap words2 ++ c.words
    ++ (if c.code = 7 ∧ c.counts ≠ [] then
        words3 (c.firstFail.getD (2 ^ 54 - 1)) ++ words3 (c.lastFail.getD (2 ^ 54 - 1)) else []))

/-- The completion record's words (R339). -/
def Call.record (c : Call) (e : Nat) (tag : BitVec 10) : List Word :=
  let results := c.results
  BitVec.ofNat 18 (results.length + 1 + fld 8 tag.toNat) :: BitVec.ofNat 18 (c.code + fld 8 e) :: results

/-- Routines whose calls are journalled when they change state (R433). -/
def journalled (code : Nat) : Bool :=
  decide (8 ≤ code) && decide (code ≤ 0x14) || code == 6 || code == 0x16 || code == 0x17 || code == 0x18

/-- The call has changed state (R433): VIEW_MAP and DC_ADD by a page mapped or a table made, whatever they end with; VIEW_UNMAP,
VIEW_REMAP and LOCK_PRELOAD by what they count; VIEW_DELETE and the calls that take a tile or a bank out of use or back by the
mark they leave when they find something to change; VIEW_BIND by another binding; the others by ending OK or PARTIAL. -/
def Call.changes (c : Call) : Bool :=
  match c.code with
  | 0xB => c.changed
  | 0x17 => c.changed
  | 9 => c.changed
  | 0xC => c.changed
  | 0xD => c.changed
  | 0xF => c.changed
  | 0x10 => c.changed
  | 0x11 => c.changed
  | 0x12 => c.changed
  | 6 => decide (c.counts.headD 0 ≠ 0)
  | 0xA => decide (c.status = 0) && decide ((c.words.headD 0).toNat ≠ (if c.keep then 0 else c.view.toNat + 4096))
  | _ => decide (c.status ≤ 1)

/-- What the journal's TARGET names beside the code. -/
def Call.subject (c : Call) : Nat := if 0xF ≤ c.code ∧ c.code ≤ 0x12 then c.mode else c.view.toNat

/-- Who called (R434): a management client, or through a queue the engine that runs the call (DESIGN CHOICE, log entry 136). -/
def Call.origin (c : Call) (e : Nat) : Origin := if c.reply.isNone then .mgmt else .engine (Fin.ofNat 24 e)

/-- A call ends: LOCK_REFUSED, LOCKED_INVAL, the journal, the completion record or the management answer (R136, R299, R341, R433). -/
def endCall (d : Dev) (e : Nat) (c : Call) : Dev :=
  let d := d.each c.refused (fun d r => raise d (64 + 8 * r.1 + 4) 0 1 (info (r.2.1 % 2 ^ 31 + fld 31 (min r.2.2 0x1FFFF))))
  let d := d.each c.emptied (fun d r => lockedNote d r.1 r.2.1 r.2.2)
  let d := if journalled c.code ∧ c.changes ∧ e ≠ q0Call then journalCall d (c.origin e) c.code c.subject c.body c.results else d
  let d := d.setCall e none
  if e = q0Call then d
  else
    let d := d.updEngine e (fun x => { x with popped := none })
    match c.reply with
    | some (n, tag) => if (d.pair n).isOpen && (d.pair n).poppedBy.contains e then pushPacket d n (c.record e tag) else d
    | none => emit d (.mgmt c.code (c.record e 0 |>.map (·.toNat)))

/-- The completion record waits for a credit (R341, R518). -/
def Dev.mustWait (d : Dev) (e : Nat) (c : Call) : Bool :=
  match c.reply with
  | some (n, _) => decide (e ≠ q0Call) && (d.pair n).isOpen && (d.pair n).poppedBy.contains e && decide ((d.pair n).pool = 0)
  | none => false

/-- An engine waits in QPUSH with its completion record, or goes on (R276, R341, R422). -/
def callWaits (d : Dev) (e : Nat) (waits : Bool) : Dev :=
  d.updEngine e (fun y =>
    if y.wait = .none ∧ y.st = (if waits then .running else .waiting) then { y with st := if waits then .waiting else .running } else y)

/-- DC_RESPONSE and DC_RELEASED (R91). -/
def dcEvent (d : Dev) (src p m region base : Nat) (accepted : Bool) : Dev :=
  raise d src 5 0 (info (p + fld 3 m + fld 7 region + fld 10 (bits base 42 16) + fld 37 (b2n accepted)))

/-- A mailbox command completes (R51, R56): its return code and payload go to the LD, and MAILBOX is raised. -/
def mailboxDone (d : Dev) (p m op code : Nat) (payload : List Nat) : Dev :=
  raise (emit (d.updLd p m (fun l => { l with mbox := some (op, code) })) (.mailbox p m op code payload)) (8 * p + 6) 0 0 (info (m + fld 5 op + fld 21 code))

-- view routines
/-- A call ends with a status and nothing else. -/
def Call.fails (c : Call) (status : Nat) : Call := { c with status := status, counts := [], words := [], steps := [.finish] }

/-- A range of pages that VIEW_MAP or VIEW_UNMAP takes (R89, R315, R316): in the view, at its granule. -/
def Call.pagesOk (c : Call) (x : BitVec 32) : Bool :=
  decide (c.base % (65536 * 512 ^ descGran x) = 0) && decide (c.pages % 512 ^ descGran x = 0)
    && decide (c.base + 65536 * c.pages ≤ viewEnd x) && decide (descGran x ≠ 3)

/-- VIEW_CREATE (R317): `mode` holds LEVELS and GRANULE. -/
def viewCreateGo (d : Dev) (c : Call) : Call :=
  if descLevels (d.pairAt (d.descDpa c.view)).1 ≠ 0 then c.fails 8 else { c with steps := [.alloc .root] }

/-- Some LD's binding names a view. -/
def Dev.viewBound (d : Dev) (v : BitVec 12) : Bool := d.binds.any (fun b => b.2 == v)

/-- VIEW_DELETE (R317). -/
def viewDeleteGo (d : Dev) (c : Call) : Call :=
  if d.viewBound c.view then c.fails 7
  else match d.desc? c.view with
  | none => { c with counts := [0, 0], steps := [.finish] }
  | some x =>
    { c with base := 0, pages := viewEnd x / 65536, counts := [0, 0], changed := true
             steps := [.unmapFrom 0, .mapEnd, .clinvFound, .deleteTables, .labi 1 c.view 0 0, .labsync, .finish] }

/-- The LD's binding cannot be changed (R57, R317): its agent is attached, or its committed decoder holds a place. -/
def Dev.bindHeld (d : Dev) (p m : Nat) : Bool :=
  let l := d.ld p m
  l.st == .attached || (l.committed && l.st == .unbound)

/-- VIEW_BIND (R317): `keep` is UNBIND. -/
def viewBindGo (d : Dev) (c : Call) : Dev × Call :=
  let k := 16 * c.port + c.ld
  let prev := match Tab.find d.binds k with
    | some v => v.toNat + 4096
    | none => 0
  if d.bindHeld c.port c.ld then (d, c.fails 7)
  else if !c.keep && (d.desc? c.view).isNone then (d, c.fails 2)
  else
    ({ d with binds := if c.keep then Tab.del d.binds k else Tab.put d.binds k c.view },
      { c with words := [BitVec.ofNat 18 prev], steps := [.finish] })

/-- VIEW_MAP and VIEW_UNMAP begin (R315, R316). -/
def viewMapGo (d : Dev) (c : Call) : Call :=
  match d.desc? c.view with
  | none => c.fails 2
  | some x =>
    if !c.pagesOk x then c.fails 2
    else if c.code = 0xB then { c with counts := [0, 0, 0], steps := c.listLoads ++ [.mapFrom 0, .mapEnd, .finish] }
    else { c with counts := [0, 0]
                  steps := [.unmapFrom c.base, .mapEnd, .clinvFound, .tablesOf c.view, .labi 1 c.view 0 0, .labsync, .finish] }

/-- A DC region of an LD (R42, log entry 49): base and length. -/
def dcRegion? (p m r : Nat) : Option (Nat × Nat) :=
  if Config.dcRegions p m % 8 < r then none
  else
    let x := Config.dcRegion p m r
    some (x.1 % 32768 * 2 ^ 28, (x.2 % (32768 - x.1 % 32768) + 1) * 2 ^ 28)

/-- An extent overlaps another. -/
def overlaps (b n b' n' : Nat) : Bool := decide (b < b' + 65536 * n') && decide (b' < b + 65536 * n)

/-- DC_ADD begins (R45). DESIGN CHOICE (log entry 144): a call whose LD was bound to another view while it waited for the lock
of its view ends BAD_PARAM; R45 does not say. -/
def dcAddGo (d : Dev) (c : Call) : Call :=
  let xs := (d.ld c.port c.ld).extents
  match Tab.find d.binds (16 * c.port + c.ld), dcRegion? c.port c.ld c.region, d.desc? c.view with
  | some v, some (rb, rl), some x =>
    if v ≠ c.view ∨ c.pages = 0 ∨ c.base < rb ∨ rb + rl < c.base + 65536 * c.pages ∨ c.pagesOk x = false
        ∨ xs.any (fun y => overlaps c.base c.pages y.base y.pages) = true then c.fails 2
    else if 64 ≤ (xs.filter (fun y => !y.accepted)).length ∨ 8192 ≤ (xs.filter (fun y => y.accepted)).length then c.fails 9
    else { c with counts := [0], steps := c.listLoads ++ [.mapFrom 0, .dcCheck] }
  | _, _, _ => c.fails 2

/-- After the mapping of DC_ADD (R45): the offer, or every page it mapped is unmapped again. -/
def dcCheckGo (c : Call) : Call :=
  if c.status = 0 then { c with steps := [.mapEnd, .dcOffer, .finish] }
  else { c with
    status := if c.status = 9 then 9 else 8, counts := []
    steps := c.found.map (fun f => CallStep.store f.2.1 0) ++ [.mapEnd, .clinvFound, .tablesOf c.view, .labi 1 c.view 0 0, .labsync, .finish] }

/-- What a view routine does once it holds its lock. -/
def viewGo (d : Dev) (c : Call) : Dev × Call :=
  if c.code = 8 then (d, viewCreateGo d c)
  else if c.code = 9 then (d, viewDeleteGo d c)
  else if c.code = 0xA then viewBindGo d c
  else if c.code = 0x17 then (d, dcAddGo d c)
  else (d, viewMapGo d c)

-- program images
/-- The pair at a byte of a call's range, none where its page is not mapped or its line is poisoned. -/
def Dev.imagePair (d : Dev) (c : Call) (off : Nat) : Option (BitVec 32) :=
  let at_ (dpa : Nat) : Option (BitVec 32) :=
    let (p, bad) := d.pairAt dpa
    if bad then none else some p
  if c.keep then at_ (c.base + off)
  else match d.walk c.view (c.base + off) with
    | .leaf _ level p => at_ (65536 * pteFrame p + (c.base + off) % (65536 * levelPages level))
    | _ => none

/-- CRC-32 of pairs, lowest byte first (R318, log entry 7). -/
def crcPairs (ps : List (BitVec 32)) : BitVec 32 :=
  crc32 (ps.flatMap (fun p => (List.range 4).map (fun i => p.extractLsb' (8 * i) 8)))

/-- The pairs of an image, none where one cannot be read. -/
def Dev.image (d : Dev) (c : Call) : Option (List (BitVec 32)) := (List.range (c.last / 4)).mapM (fun i => d.imagePair c (4 * i))

/-- The header and CRC of an image (R318). -/
def imageOk (ps : List (BitVec 32)) : Bool :=
  let h (i : Nat) : Nat := (ps.getD i 0).toNat
  let words := h 1
  decide (h 0 = 0x1F05A) && decide (1 ≤ words) && decide (words ≤ 8192) && decide (h 2 < words) && decide (h 3 ≤ 16384)
    && (List.range 11).all (fun i => decide (h (5 + i) = 0)) && decide (words ≤ ps.length - 16)
    && decide (h 4 = (crcPairs (ps.drop 16)).toNat)

/-- The program is copied and its scratch zeroed (R319). -/
def loadProgram (d : Dev) (e : Nat) (ps : List (BitVec 32)) : Dev :=
  let code := (ps.drop 16).take 8192
  let d := putScratch (putImem d e 0x2000 ((code.getD 0 0).extractLsb' 0 18)) e 0x4000 0
  d.updEngine e (fun y => { y with
    imem := y.imem.filter (fun w => decide (w.1 ≤ 0x2000)) ++ ((List.range code.length).drop 1).map
        (fun i => (0x2000 + i, (code.getD i 0).extractLsb' 0 18)) ++ y.imem.filter (fun w => decide (0x2000 + code.length ≤ w.1 ∧ 0x2000 < w.1))
    imemBad := y.imemBad.filter (fun w => decide (w.1 ≤ 0x2000) || decide (0x2000 + code.length ≤ w.1))
    scratch := y.scratch.filter (fun w => decide (w.1 ≤ 0x4000)) ++ ((List.range 16384).drop 1).map (fun i => (0x4000 + i, 0))
      ++ y.scratch.filter (fun w => decide (0x8000 ≤ w.1))
    scratchBad := y.scratchBad.filter (fun w => decide (w.1 ≤ 0x4000))
    loads := y.loads + 1
    prog := some ⟨y.loads + 1, (ps.getD 2 0).extractLsb' 0 13, (ps.getD 1 0).toNat, (ps.getD 3 0).toNat⟩ })

/-- PROG_LOAD once its image is current (R319): `keep` is PHYS, `last` the length. -/
def progGo (d : Dev) (e : Nat) (c : Call) : Dev × Call :=
  match d.image c with
  | none => (d, c.fails 2)
  | some ps =>
    if imageOk ps then
      let d := loadProgram d e ps
      (d, { c with status := 0, words := [BitVec.ofNat 18 (e + fld 5 (d.engine e).loads.toNat)], steps := [.finish] })
    else (d, c.fails 2)

/-- No table is free for an allocation (R315-R317): the call ends its mapping, unmapping or search with NO_SPACE. -/
def Call.noTable (c : Call) (k : AllocFor) (rest : List CallStep) : Call :=
  if k = .root then c.fails 9
  else { c with status := 9, steps := match rest with
      | .mapFrom _ :: more => more
      | .unmapFrom _ :: more => more
      | _ => [.finish] }

/-- Another engine's call works on a tile (R300). -/
def Dev.tileTaken (d : Dev) (e t : Nat) : Bool :=
  (List.range 24).any (fun k => decide (k ≠ e) && (match (d.engine k).call with
    | some c => decide (0xF ≤ c.code) && decide (c.code ≤ 0x12) && decide (c.mode = t) && (match c.steps.head? with
        | some .tileGo => false
        | _ => true)
    | none => false))

/-- A tile routine that ends with the tile's state. -/
def tileDone (d : Dev) (c : Call) (t : Nat) : Call := { c with words := [BitVec.ofNat 18 (d.tileSt t).code], steps := [.finish] }

/-- TILE_OFFLINE (R139). -/
def tileOfflineGo (t : Nat) (d : Dev) (c : Call) : Dev × Call :=
  if d.tileSt t = .online then (startDrain d t 1 false, { c with changed := true, steps := [.awaitTile t, .finish] }) else (d, tileDone d c t)

/-- TILE_ONLINE (R139): the tile must be OFFLINE. -/
def tileOnlineGo (t : Nat) (d : Dev) (c : Call) : Dev × Call :=
  if d.tileSt t = .offline then (d, { c with steps := [.bringOnline t, .finish] }) else (d, c.fails 5)

/-- TILE_RETIRE (R139, R143). -/
def tileRetireGo (t : Nat) (d : Dev) (c : Call) : Dev × Call :=
  if d.tileSt t = .online then (startDrain d t 2 true, { c with changed := true, steps := [.awaitTile t, .finish] })
  else
    let c := { c with changed := d.tileSt t != .retired || !(d.tile t).tileRetired }
    let d := d.updTile t (fun x => { x with st := .retired, tileRetired := true })
    (d, tileDone d c t)

/-- BANK_RETIRE (R141): a walk only where the tile serves. -/
def bankRetireGo (t b : Nat) (d : Dev) (c : Call) : Dev × Call :=
  let c := { c with changed := !(d.tile t).retireMap.getLsbD b }
  if (d.tile t).bankWalks.contains b then (d, c.fails 10)
  else if d.tileSt t = .online then (retireBank d t b, { c with steps := [.awaitBank t b, .finish] })
  else (d.updTile t (fun x => { x with retireMap := x.retireMap ||| BitVec.ofNat 64 (2 ^ b) }), { c with steps := [.finish] })

/-- A tile is between two states, or its self-test runs (R300, R305 BUSY). -/
def Dev.tileMoving (d : Dev) (t : Nat) : Bool := d.tileSt t == .draining || (d.tile t).bist == 1

/-- What a tile routine does once no other runs on its tile (R300): `mode` is the tile, `base` the bank. -/
def tileGo (d : Dev) (c : Call) : Dev × Call :=
  let t := c.mode
  if d.tileSt t = .absent then (d, c.fails 2)
  else if d.tileMoving t then (d, c.fails 10)
  else if c.code = 0xF then tileOfflineGo t d c
  else if c.code = 0x10 then tileOnlineGo t d c
  else if c.code = 0x11 then tileRetireGo t d c
  else bankRetireGo t c.base d c

/-- One pass over the head step of a call. Answers whether the next step can run at once. -/
def runStep (d : Dev) (e : Nat) (c : Call) : Dev × Option Call × Bool :=
  let room := 8 - c.outstanding.length
  let idle := c.outstanding.isEmpty
  match c.steps with
  | [] => (d.setCall e none, none, false)
  | .lockViews [] :: rest => (d, some { c with steps := rest }, true)
  | .lockViews (v :: vs) :: rest =>
    if !idle || (d.pairAt (d.lockDpa v)).1 != 0 then (d, some c, false)
    else
      let r := rmwReq d e { c with steps := .lockTaken v :: .lockViews vs :: rest } (d.lockDpa v) (.lock (callEngine e))
      (r.1, some r.2, true)
  | .lockTaken v :: rest =>
    if !idle then (d, some c, false)
    else if c.rmwOk then (d, some { c with held := v :: c.held, steps := rest }, true)
    else match rest with
      | .lockViews vs :: rest => (d, some { c with steps := .lockViews (v :: vs) :: rest }, true)
      | _ => (d, some { c with steps := .lockViews [v] :: rest }, true)
  | .store dpa v :: rest =>
    if !idle then (d, some c, false)
    else
      let w := pairWrite dpa v
      let r := callReq d e (dpa / 64) (.write .i) w.1 w.2 false
      (r.1, some { c with outstanding := [r.2], steps := rest }, false)
  | .rmw dpa k :: rest =>
    if !idle then (d, some c, false)
    else
      let r := rmwReq d e { c with steps := rest } dpa k
      (r.1, some r.2, true)
  | .alloc k :: rest =>
    if !idle then (d, some c, false)
    else match d.freeTable with
    | none => if e = q0Call then (d, some c, false) else (d, some (c.noTable k rest), true)
    | some t =>
      let r := rmwReq d e { c with steps := .allocated t k :: rest } (d.mapDpa t) (.setBit (t % 32))
      (r.1, some r.2, true)
  | .allocated t k :: rest =>
    if !idle then (d, some c, false)
    else if !c.rmwOk then (d, some { c with steps := .alloc k :: rest }, true)
    else
      let c := if k = .root then { c with words := words2 t } else c
      (d, some { c with changed := true, steps := d.tableSteps c t k ++ rest }, true)
  | .leaf f vpn n i pte v :: rest =>
    if !idle then (d, some c, false)
    else
      let three := match d.desc? c.view with
        | some x => descLevels x == 1
        | none => false
      if three && decide (0 < i) && !c.rmwOk then
        let undo : List CallStep := (List.range (i - 1)).map (fun k => .rmw (d.rmapDpa (f + k)) (.lowerMaps 1))
        (d, some { c with steps := undo ++ .mapFrom (vpn - c.base / 65536) :: rest.drop 1 }, true)
      else if i < n then
        let r := rmwReq d e { c with steps := .leaf f vpn n (i + 1) pte v :: rest } (d.rmapDpa (f + i)) (.raiseMaps (vpn + i) c.keep)
        (r.1, some r.2, true)
      else
        (d, some { c.bump 0 n with
          changed := true
          steps := (if c.keep then [] else [.zeroLines (1024 * f) (1024 * n)]) ++ .store pte v :: rest
          found := if c.code = 0x17 then c.found ++ [(BitVec.ofNat 12 (if n = 1 then 3 else if n = 512 then 2 else 1), pte, v, 65536 * vpn)]
                   else c.found }, true)
  | .cmos k coh unlock line n :: rest =>
    if n = 0 then (d, some { c with steps := rest }, idle)
    else
      let m := min room n
      let r := issueMany d c m (fun d i => callReq d e (line + i) (.cmo k coh unlock) 0 0 false)
      (r.1, some { r.2 with steps := .cmos k coh unlock (line + m) (n - m) :: rest }, false)
  | .loads dev line n :: rest =>
    if n = 0 then (d, some { c with steps := rest }, idle)
    else
      let m := min room n
      let r := issueMany d c m (fun d i => callReq d e (line + i) (if dev then .readUntracked else .readShared) 0 0 dev)
      (r.1, some { r.2 with steps := .loads dev (line + m) (n - m) :: rest }, false)
  | .zeroLines line n :: rest =>
    if n = 0 then (d, some { c with steps := rest }, idle)
    else
      let m := min room n
      let r := issueMany d c m (fun d i => callReq d e (line + i) (.write .i) 0 (BitVec.allOnes 64) false)
      (r.1, some { r.2 with steps := .zeroLines (line + m) (n - m) :: rest }, false)
  | .preloads g dev stream sector n :: rest =>
    if n = 0 then (d, some { c with steps := rest }, idle)
    else
      let m := min room n
      let r := issueMany d c m (fun d i => preloadReq d e (sector + i) g dev stream)
      (r.1, some { r.2 with steps := .preloads g dev stream (sector + m) (n - m) :: rest }, false)
  | .sweepLines va line n :: rest =>
    if n ≠ 0 then
      let op : MoverOp := { src := line, dst := 0, left := n, xid := none, wid := none, va := va, staging := .ok }
      ({ d with movers := Tab.put d.movers (callEngine e) op },
        some { c with steps := .sweepLines va line 0 :: rest }, false)
    else if (Tab.find d.movers (callEngine e)).isSome then (d, some c, false)
    else if c.halted then (d, some { c with status := 1, steps := [.finish] }, true)
    else (d, some { c with steps := rest }, true)
  | .range va stop :: rest =>
    if !idle then (d, some c, false)
    else if stop ≤ va then (d, some { c with steps := rest }, true)
    else
      let skip (next : Nat) : Call :=
        let next := min stop next
        let n := (next + 65535) / 65536 - va / 65536
        let c := if c.code = 7 then c else c.bump (if c.code = 6 then 2 else 1) n
        { c with status := 1, steps := .range next stop :: rest }
      match d.walk c.view va with
      | .leaf _ level p =>
        let span := 65536 * levelPages level
        let next := min stop ((va / span + 1) * span)
        (d, some { c with steps := rangeStep c (some va) (65536 * pteFrame p + va % span) (next - va) (p.getLsbD 28) (p.getLsbD 29)
                            :: .range next stop :: rest }, true)
      | .empty _ level _ => (d, some (skip ((va / (65536 * levelPages level) + 1) * (65536 * levelPages level))), true)
      | .fault => (d, some (skip ((va / 65536 + 1) * 65536)), true)
  | .setways s k w :: rest =>
    if 16 ≤ s then (d, some { c with steps := rest }, idle)
    else if !c.slices.getLsbD s ∨ c.last < k then (d, some { c with steps := .setways (s + 1) c.base 0 :: rest }, true)
    else if 16 ≤ w then (d, some { c with steps := .setways s (k + 1) 0 :: rest }, true)
    else if !c.ways.getLsbD w ∨ d.usable s k w = false then (d, some { c with steps := .setways s k (w + 1) :: rest }, true)
    else if room = 0 then (d, some c, false)
    else
      let r := d.start { req := { src := .call (callEngine e), agent := engAgent (callEngine e), op := .cmoSw c.mode false k w
                                  dpa := dpaOfTag s k (d.tag s k w).tag.toNat, sup := true }
                         slice := s, t0 := d.glob.time }
      (r.1, some { c with outstanding := c.outstanding ++ [r.2], steps := .setways s k (w + 1) :: rest }, true)
  | .release s :: rest =>
    if 16 ≤ s then (d, some { c with steps := rest }, true)
    else
      let mine := (d.slice s).tags.filter (fun t => t.2.lock && decide (t.2.lgrp.toNat = c.mode))
      let d := d.each mine (fun d t => putTag d s (t.1 / 16) (t.1 % 16) { t.2 with lock := false, lgrp := 0 })
      (countWalk d s 8192, some { c.bump 0 mine.length with steps := .release (s + 1) :: rest }, true)
  | .viewGo :: _ =>
    let r := viewGo d c
    (r.1, some r.2, true)
  | .tileGo :: _ =>
    if d.tileTaken e c.mode && d.tileSt c.mode != .draining then (d, some c, false)
    else
      let r := tileGo d c
      (r.1, some r.2, true)
  | .dcCheck :: _ => if !idle then (d, some c, false) else (d, some (dcCheckGo c), true)
  | .progGo :: _ =>
    if !idle then (d, some c, false)
    else
      let r := progGo d e c
      (r.1, some r.2, true)
  | .mapFrom i :: rest =>
    if !idle then (d, some c, false)
    else if c.pages ≤ i then (d, some { c with steps := rest }, true)
    else match d.desc? c.view with
    | none => (d, some { c with status := 2, steps := [.finish] }, true)
    | some x =>
      match d.mapPage c x i with
      | .steps l n => (d, some { c with steps := l ++ .mapFrom (i + n) :: rest }, true)
      | .already n => (d, some { c.bump 1 n with steps := .mapFrom (i + max n 1) :: rest }, true)
      | .refused n => (d, some { c.bump 2 n with status := 1, steps := .mapFrom (i + max n 1) :: rest }, true)
  | .mapEnd :: rest =>
    match d.desc? c.view with
    | none => (d, some { c with steps := rest }, true)
    | some x =>
      let g := descGran x
      let n := c.pages / 512 ^ g
      let labis : List CallStep := if c.pages ≤ 64 then
          (List.range n).map (fun k => .labi 0 c.view (BitVec.ofNat 2 g) (c.base / 2 ^ granShift g + k))
        else [.labi 1 c.view 0 0]
      (d, some { c with steps := labis ++ .labsync :: rest }, true)
  | .unmapAll :: rest => (d, some { c with steps := .lockViews [c.view] :: .unmapFrom c.base :: .mapEnd :: .clinvFound :: .tablesOf c.view
                                      :: .labi 1 c.view 0 0 :: .labsync :: rest, found := [] }, true)
  | .unmapFrom va :: rest =>
    let stop := c.base + 65536 * c.pages
    if !idle then (d, some c, false)
    else if stop ≤ va then (d, some { c with steps := rest }, true)
    else match d.mapped c.view va with
    | .leaf dpa level p =>
      let n := levelPages level
      let start := va / (65536 * n) * (65536 * n)
      if c.base ≤ start ∧ start + 65536 * n ≤ stop then
        (d, some { c.bump 0 n with changed := true
                                   found := c.found ++ [(BitVec.ofNat 12 level, dpa, p, va)]
                                   steps := .store dpa 0 :: .unmapFrom (start + 65536 * n) :: rest }, true)
      else (d, some { c with steps := .alloc (.split level dpa p) :: .unmapFrom va :: rest }, true)
    | .empty dpa level p =>
      let next := (va / (65536 * levelPages level) + 1) * (65536 * levelPages level)
      (d, some { c with changed := c.changed || p != 0, steps := (if p = 0 then [] else [.store dpa 0]) ++ .unmapFrom next :: rest }, true)
    | .fault => (d, some { c with steps := .unmapFrom (va + 65536) :: rest }, true)
  | .clinvFound :: rest =>
    if !idle then (d, some c, false)
    else match c.found with
    | [] => (d, some { c with steps := rest }, true)
    | (level, _, p, _) :: more =>
      let n := levelPages level.toNat
      let f := pteFrame p
      let three := match d.desc? c.view with
        | some x => descLevels x == 1
        | none => false
      let lower : List CallStep := if three then (List.range n).map (fun k => .rmw (d.rmapDpa (f + k)) (.lowerMaps 1)) else []
      (d, some { c with found := more, steps := .cmos 2 true false (1024 * f) (1024 * n) :: lower ++ .clinvFound :: rest }, true)
  | .tablesOf view :: rest =>
    if !idle then (d, some c, false)
    else match d.emptyTable view with
    | none => (d, some { c with steps := rest }, true)
    | some (t, entry) =>
      (d, some { c.bump 1 1 with changed := true, steps := .store entry 0 :: d.freeStep t :: .tablesOf view :: rest }, true)
  | .deleteTables :: rest =>
    if !idle then (d, some c, false)
    else match d.desc? c.view with
    | none => (d, some { c with steps := rest }, true)
    | some x =>
      match (d.subTables 4 (rootLevel x) (descRoot x)).getLast? with
      | some (t, entry) =>
        (d, some { c.bump 1 1 with steps := .store entry 0 :: d.freeStep t :: .deleteTables :: rest }, true)
      | none =>
        let root : List CallStep := if d.tableOk (descRoot x) then [d.freeStep (descRoot x)] else []
        (d, some { c.bump 1 root.length with steps := .store (d.descDpa c.view) 0 :: root ++ rest }, true)
  | .labi f v g n :: rest =>
    if !idle then (d, some c, false) else ((labiIssue d (callEngine e) f v g n).1, some { c with steps := rest }, true)
  | .labsync :: _ => (d, some c, false)
  | .remapFind vs :: rest =>
    if !idle then (d, some c, false)
    else match vs with
    | [] => (d, some { c with steps := rest }, true)
    | v :: more =>
      if more.contains v then (d, some { c with steps := .remapFind more :: rest }, true)
      else
      let ls := d.leavesFor v c.old c.spare
      match ls.find? (fun l => decide (l.2.1 < 3)) with
      | some (dpa, level, p, _) =>
        if d.canSplit v then (d, some { c with steps := .alloc (.split level dpa p) :: .remapFind vs :: rest }, true)
        else (d, some { c.bump 1 1 with status := 1, steps := .remapFind more :: rest }, true)
      | none =>
        if ls = [] then (d, some { c.bump 1 1 with status := 1, steps := .remapFind more :: rest }, true)
        else (d, some { c with found := c.found ++ ls.map (fun l => (v, l.1, l.2.2.1, l.2.2.2)), steps := .remapFind more :: rest }, true)
  | .remapGo :: rest =>
    if c.found = [] then (d, some { c with steps := rest }, true)
    else
      let (oldRev, _) := d.pairAt (d.rmapDpa c.old)
      let threes := (c.found.filter (fun f => match d.desc? f.1 with
        | some x => descLevels x == 1
        | none => false)).length
      if (d.pairAt (d.rmapDpa c.spare)).2 then (d, some { c with status := 2, counts := [0, 0], steps := [.finish] }, true)
      else
        let r := rmwReq d e { c with steps := .remapHold threes :: rest } (d.rmapDpa c.spare) (.claim (revVpn oldRev) threes)
        (r.1, some r.2, true)
  | .remapHold threes :: rest =>
    if !idle then (d, some c, false)
    else if !c.rmwOk then (d, some { c with status := 8, counts := [0, 0], steps := [.finish] }, true)
    else
      let hold : List CallStep := c.found.map (fun f => .store f.2.1 (BitVec.ofNat 32 (c.spare + fld 24 (bits f.2.2.1.toNat 31 24 / 2 * 2))))
      (d, some { c with
        saved := c.rmwOld, mode := threes
        steps := hold ++ c.found.map d.labiOf ++ .labsync :: .cmos 2 true false (1024 * c.old) 1024 :: .copyFrame c.old c.spare :: .remapEnd :: rest }, true)
  | .copyFrame old spare :: rest =>
    if !idle then (d, some c, false)
    else
      let op : MoverOp := { src := 1024 * old, dst := 1024 * spare, left := 1024, xid := none, wid := none, va := none, staging := .ok }
      ({ d with movers := Tab.put d.movers (24 + callEngine e) op },
        some { c with halted := false, steps := rest }, false)
  | .remapEnd :: rest =>
    if (Tab.find d.movers (24 + callEngine e)).isSome then (d, some c, false)
    else
      let frame := if c.halted then c.old else c.spare
      let final : List CallStep := c.found.map (fun f => .store f.2.1 (BitVec.ofNat 32 (frame + fld 24 (bits f.2.2.1.toNat 31 24 / 2 * 2 + 1))))
      if c.halted then
        let labis := c.found.map d.labiOf
        (d, some { c with status := 1, counts := c.counts.set 0 0
                          steps := final ++ .store (d.rmapDpa c.spare) c.saved :: labis ++ .labsync :: rest }, true)
      else
        let views := (c.found.map (fun f => f.1)).eraseDups.length
        (d, some { c.bump 0 views with changed := true, steps := final ++ .rmw (d.rmapDpa c.old) (.lowerMaps c.mode) :: rest }, true)
  | .dcOffer :: rest =>
    let d := d.updLd c.port c.ld (fun l => { l with extents := l.extents ++ [⟨c.region, c.base, c.pages, c.tag, false, c.view⟩] })
    (emit d (.dcAdd c.port c.ld c.region c.base c.pages c.tag), some { c with steps := rest }, true)
  | .dcDone a :: rest => (dcEvent d 432 c.port c.ld c.region c.base a, some { c with steps := rest }, true)
  | .dcReleased :: rest =>
    let d := d.updLd c.port c.ld (fun l => { l with extents := l.extents.filter (fun x => !(x.accepted && decide (x.region = c.region) && decide (x.base = c.base))) })
    let d := mailboxDone d c.port c.ld 0x4803 0 []
    (dcEvent d 433 c.port c.ld c.region c.base false, some { c with steps := rest }, true)
  | .awaitAgent a ep :: rest =>
    if d.resigningAs a ep && !d.pointPassed a ep then (d, some c, false) else (d, some { c with steps := rest }, true)
  | .awaitTile t :: rest =>
    if d.tileSt t = .draining then (d, some c, false)
    else (d, some { c with words := [BitVec.ofNat 18 (d.tileSt t).code], steps := rest }, true)
  | .bringOnline t :: rest =>
    let asked := d.pwr.waiting.any (fun r => decide (r.domain = tileDom t) && r.on) || (match d.pwr.busy with
      | some r => decide (r.domain = tileDom t)
      | none => false)
    if d.domOn (tileDom t) && !d.leaving (tileDom t) then
      let off := d.tileSt t == .offline
      let d := if off then goOnline d t else d
      (d, some { c with changed := off, words := [BitVec.ofNat 18 (d.tileSt t).code], steps := rest }, true)
    else if asked then (d, some c, false)
    else if c.halted then (d, some { c with words := [BitVec.ofNat 18 (d.tileSt t).code], steps := rest }, true)
    else if 8 ≤ d.pwr.waiting.length then (powerBusy d (tileDom t) true 8, some { c with halted := true }, true)
    else
      (d.setPwr (fun p => { p with waiting := p.waiting ++ [⟨tileDom t, true, .q0, some e⟩] }), some { c with halted := true }, false)
  | .awaitBank t b :: rest => if (d.tile t).bankWalks.contains b then (d, some c, false) else (d, some { c with steps := rest }, true)
  | .awaitPark :: rest =>
    if d.park.st = 2 then (d, some { c with counts := [d.park.recalled], words := [BitVec.ofNat 18 (b2n d.park.resigned)], steps := rest }, true)
    else (d, some c, false)
  | .awaitRun :: _ => (d, some c, false)
  | .line dpa data poison :: rest =>
    if !idle then (d, some c, false)
    else
      let r := d.start { req := { src := .call (callEngine e), agent := engAgent (callEngine e), op := .write .i, dpa := dpa / 64 * 64
                                  data := data, mask := BitVec.allOnes 64, poison := poison, sup := true }
                         slice := sliceOf dpa, t0 := d.glob.time }
      (r.1, some { c with outstanding := [r.2], steps := rest }, false)
  | .answer op :: rest =>
    if !idle then (d, some c, false)
    else
      let d := if op = 0x4302 then freeLine d c.base else d
      (mailboxDone d c.port c.ld op 0 [], some { c with steps := rest }, true)
  | .finish :: _ =>
    if !idle then (d, some c, false)
    else match c.held with
    | v :: vs =>
      let w := pairWrite (d.lockDpa v) 0
      let r := callReq d e (d.lockDpa v / 64) (.write .i) w.1 w.2 false
      (r.1, some { c with outstanding := [r.2], held := vs }, false)
    | [] =>
      if d.mustWait e c then (callWaits d e true, some c, false)
      else (endCall (if e = q0Call then d else callWaits d e false) e c, none, false)

/-- A record of a wake queue is a LAB_MISS (R91). -/
def Rec.isMiss (r : Rec) : Bool := decide (416 ≤ r.src) && decide (r.src < 424)

/-- A LAB_MISS record waits for the engine's handler, which goes before the next step of its call (R518). -/
def Dev.missWaits (d : Dev) (e : Nat) : Bool := decide (4 ≤ e) && decide (e < 24) && (d.engine e).wake.any Rec.isMiss

/-- The engine of a call fetches (R273, R422): Q0 for its own work. -/
def Dev.callRuns (d : Dev) (e : Nat) : Bool :=
  if e = q0Call then d.q0Runs else d.engSt e != .halted && d.engSt e != .off && d.quadRuns e

/-- Runs a call as far as it goes; `fuel` steps at most in one command. Each step is taken once the lines it reads are loaded
(R281), and only while no LAB_MISS record waits (R518); the requests of a step under way end meanwhile. -/
def runCall (e : Nat) : Nat → Dev → Dev
  | 0, d => d
  | fuel + 1, d =>
    match d.callOf e with
    | none => d
    | some c =>
      let (d, c) := reap d e c
      let (d, c, more) := if d.missWaits e then (d, some c, false)
        else match stepLoads d e c with
          | (d, c, true) => (d, some c, false)
          | (d, c, false) => runStep d e { c with reads := [] }
      let d := match c with
        | some c => d.setCall e (some c)
        | none => d
      if more then runCall e fuel d else d

-- movers
/-- A mover channel halts before a line (R358). -/
def haltMover (d : Dev) (key reason : Nat) (op : MoverOp) : Dev :=
  let m := key / 24
  let ch := key % 24
  let dpa := 64 * (if reason = 3 ∧ op.src * 64 < d.limit then op.dst else op.src)
  let d := if reason = 1 then raise d 460 1 1 (info (5 + fld 3 m)) else d
  let d := if reason = 3 then overLimit d { src := .mover m ch, agent := BitVec.ofNat 12 (4088 + m), dpa := dpa } else d
  let d := logErr d { kind := 18, src := 454, loc := dpa, who := { agent := BitVec.ofNat 12 (4088 + m) } }
  let d := raise d 454 2 2 (info (m + fld 2 ch + fld 7 reason + fld 10 (bits dpa 39 6)))
  let d := { d with movers := Tab.del d.movers key }
  let mark (c : Call) : Call := { c with halted := true }
  match (d.engine ch).call with
  | some c => d.updEngine ch (fun x => { x with call := some (mark c) })
  | none => d

/-- A line of a mover channel is done. -/
def MoverOp.advance (op : MoverOp) : MoverOp :=
  { op with src := op.src + 1, dst := op.dst + 1, left := op.left - 1, xid := none, wid := none, va := op.va.map (· + 64) }

/-- Puts back a channel's operation, or ends it. -/
def putMover (d : Dev) (key : Nat) (op : MoverOp) : Dev :=
  { d with movers := if op.left = 0 then Tab.del d.movers key else Tab.put d.movers key op }

/-- A sweep counts a line (R368, R369). -/
def countSwept (d : Dev) (ch : Nat) (op : MoverOp) (code : Nat) : Dev :=
  match (d.engine ch).call with
  | none => d
  | some c =>
    let a := op.va.getD (64 * op.src)
    let c := c.bump 0 1
    let c := if code = 1 then c.bump 1 1 else if code = 2 then c.bump 2 1 else c
    let c := if code = 0 then c else { c with firstFail := some (c.firstFail.getD a), lastFail := some a }
    d.updEngine ch (fun x => { x with call := some c })

/-- A channel's read or write has ended: it goes on (R358, R368). -/
def settleMover (d : Dev) (key : Nat) : Dev :=
  match Tab.find d.movers key with
  | none => d
  | some op =>
    match op.xid, op.wid with
    | some i, _ => match d.xact? i with
      | some x => match x.phase with
        | .done data poison ok =>
          let d := d.dropXact i
          if !ok then haltMover d key 2 op
          else if op.staging = .ue then haltMover d key 1 op
          else if key < 24 then putMover (countSwept d key op data.toNat) key op.advance
          else if d.limit ≤ 64 * op.dst then haltMover d key 3 op
          else
            let m := key / 24
            let r := d.start { req := { src := .mover m (key % 24), agent := BitVec.ofNat 12 (4088 + m), op := .moverWrite, dpa := 64 * op.dst
                                        data := data, mask := BitVec.allOnes 64, poison := poison, sup := true }
                               slice := sliceOf (64 * op.dst), t0 := d.glob.time }
            { r.1 with movers := Tab.put r.1.movers key { op with xid := none, wid := some r.2 } }
        | _ => d
      | none => d
    | none, some i => match d.xact? i with
      | some x => match x.phase with
        | .done _ _ ok =>
          let d := d.dropXact i
          if ok then putMover d key op.advance else haltMover d key 2 op
        | _ => d
      | none => d
    | none, none => d

/-- A mover channel reads its next line. -/
def moverRead (d : Dev) (key : Nat) (staging : Ecc) : Dev :=
  match Tab.find d.movers key with
  | none => d
  | some op =>
    if op.xid.isSome ∨ op.wid.isSome ∨ op.left = 0 then d
    else if d.limit ≤ 64 * op.src then haltMover d key 3 op
    else
      let m := key / 24
      let r := d.start { req := { src := .mover m (key % 24), agent := BitVec.ofNat 12 (4088 + m), op := if m = 0 then .sweepRead else .moverRead
                                  dpa := 64 * op.src, sup := true }
                         slice := sliceOf (64 * op.src), t0 := d.glob.time }
      { r.1 with movers := Tab.put r.1.movers key { op with xid := some r.2, staging := staging } }

-- host programs
/-- A host program's engine returns to it from a service or a walk (R321, R79). -/
def backToUser (d : Dev) (e : Nat) : Dev :=
  d.updEngine e (fun y => { y with
    sup := y.tstat.getLsbD 0, trans := y.tstat.getLsbD 1, guard := y.tstat.getLsbD 2, intrap := false, pc := y.tpc, wait := .none })

/-- The run of a host program ends (R321, R322): its call completes with these words, of eight. -/
def endRun (d : Dev) (e status : Nat) (ws : List Word) : Dev :=
  match (d.engine e).call with
  | none => d
  | some c =>
    d.updEngine e (fun x => { x.drainNt with
      running := none, sup := true, trans := false, guard := false, intrap := false, wait := .none
      call := some { c with status := status, words := (ws ++ List.replicate 8 0).take 8, steps := [.finish] } })

/-- The trap of a program as result words. -/
def trapWords (x : Engine) : List Word := [x.tcause.setWidth 18, x.tpc.setWidth 18, x.tval.setWidth 18]

/-- What the built-in handler does about a page (R66, R79-R81): installs an entry, defers a held PTE, or finds a fault. -/
inductive Handled where
  | install (gran vpn : Nat) (p : Pte)
  | defer
  | fail
  deriving DecidableEq, Repr

/-- The built-in handler's walk (R66, R67, R81): the piece of a leaf that covers the address, a fault entry for an unmapped
PTE or an address beyond the view, a deferral for a held PTE. -/
def Dev.handle (d : Dev) (view : BitVec 12) (va : Nat) : Handled :=
  match d.desc? view with
  | none => .fail
  | some s =>
    let g := descGran s
    let vpn := va / 2 ^ granShift g
    if viewEnd s ≤ va then .install g vpn {}
    else match d.walk view va with
    | .leaf _ level p => .install g vpn (pteOf p (pteFrame p + va / 65536 % levelPages level / 512 ^ g * 512 ^ g))
    | .empty _ _ p => if pteFrame p = 0 then .install g vpn {} else .defer
    | .fault => .fail

/-- A LABW installs its entry: refused locks raise LAB_LOCK_FULL (R70, R71, R259). Answers LABRES. -/
def labwPut (d : Dev) (l : Nat) (view : BitVec 12) (gran : BitVec 2) (vpn : Nat) (p : Pte) (lock : Bool) : Dev × Nat :=
  let (d, refused) := labInstall d l view gran vpn p lock
  if refused then (raise d 427 0 1 (transInfo view.toNat (vpn * 2 ^ granShift gran.toNat) l), 1) else (d, 0)

/-- A LABW of an engine that names a park slot reaches its port (R77, R86, R259): `put` is the entry, none with FAIL.
Answers LABRES. -/
def labwSlot (d : Dev) (e p k : Nat) (put : Option (BitVec 12 × BitVec 2 × Nat × Pte × Bool)) : Dev × Nat :=
  match Tab.find (d.port p).slots k with
  | none => (d, 3)
  | some s =>
    if s.engine ≠ e then (d, 3)
    else if s.stale then (endSlot d p k, 2)
    else match put with
    | none => (failSlot d p k, 0)
    | some (view, gran, vpn, x, lock) =>
      let r := labwPut d p view gran vpn x lock
      (endSlot r.1 p k, r.2)

/-- LABRES and F of an engine after a LABW of its built-in handler (R259); a host program's FLAGS are its own. -/
def setLabres (d : Dev) (e n : Nat) : Dev :=
  d.updEngine e (fun y => { y with
    labres := BitVec.ofNat 3 n, flags := if y.running.isSome then y.flags else setFlag y.flags 4 (decide (n ≠ 0)) })

/-- The handler's fault entry or leaf piece goes into a LAB with the lock its PTE hints (R72). -/
def handlerPut (d : Dev) (e l : Nat) (view : BitVec 12) (g n : Nat) (p : Pte) : Dev :=
  let r := labwPut d l view (BitVec.ofNat 2 g) n p (p.v && p.lockhint)
  setLabres r.1 e r.2

/-- The built-in handler walks one LAB_MISS record to its LABW (R73-R81, R518); a held PTE leaves the slot parked and the
record deferred. -/
def handleMiss (d : Dev) (e : Nat) (r : Rec) : Dev :=
  let p := r.src - 416
  let n := r.info.toNat
  let view : BitVec 12 := BitVec.ofNat 12 (bits n 38 27)
  let d := d.each (d.walkReads view (bits n 26 0 * 65536)) (handlerRead · e ·)
  let labw (put : Option (BitVec 12 × BitVec 2 × Nat × Pte × Bool)) : Dev :=
    let x := labwSlot d e p (bits n 43 39) put
    setLabres x.1 e x.2
  match d.handle view (bits n 26 0 * 65536) with
  | .install g vpn x => labw (some (view, BitVec.ofNat 2 g, vpn, x, x.v && x.lockhint))
  | .defer => d.updEngine e (fun y => { y with deferred := y.deferred ++ [r] })
  | .fail => labw none

/-- A step of a call that itself waits, and so delays walks (R518). -/
def Call.waiting (d : Dev) (e : Nat) (c : Call) : Bool :=
  !c.outstanding.isEmpty || (match c.steps with
    | .labsync :: _ => true
    | .awaitAgent _ _ :: _ => true
    | .finish :: _ => d.mustWait e c
    | _ => false)

/-- The catalogue firmware can walk now (R518): the engine fetches, no step of its call waits, and a host program, if one
runs, is in a service. -/
def Dev.handlerFree (d : Dev) (e : Nat) : Bool :=
  let y := d.engine e
  decide (4 ≤ e) && d.quadRuns e && (d.engSt e == .running || d.engSt e == .waiting)
    && (match y.wait with
      | .none => true
      | .ewait _ => true
      | .qpop _ _ _ => true
      | _ => false)
    && (match y.call with
      | some c => !c.waiting d e
      | none => true)
    && (y.running.isNone || (y.intrap && decide (bits y.tcause.toNat 4 0 = 3)))

/-- One turn of the built-in handler: the oldest LAB_MISS record of the wake queue, or a deferred one walked again (R79,
R264, R518). -/
def handlerTurn (d : Dev) (e : Nat) : Dev :=
  let y := d.engine e
  if !d.handlerFree e then d
  else match y.wake.find? Rec.isMiss, y.deferred with
  | some r, _ => handleMiss (d.updEngine e (fun y => { y with wake := y.wake.erase r })) e r
  | none, r :: rest => handleMiss (d.updEngine e (fun y => { y with deferred := rest })) e r
  | none, [] => d

/-- A program's quad LAB miss is walked (R66, R79, R81): a leaf or a fault entry is installed and the access retries, a held
entry defers it, and a walk that faults ends the run. -/
def runMiss (d : Dev) (e : Nat) (view : BitVec 12) : Dev :=
  let x := d.engine e
  match d.handle view (2 * waddr x.tval) with
  | .install g n p => backToUser (handlerPut d e (8 + quadOf e) view g n p) e
  | .defer => backToUser d e
  | .fail => endRun d e 11 (trapWords x)

/-- The program an engine runs has trapped without asking for a service (R322). -/
def settleRun (d : Dev) (e : Nat) : Dev :=
  let x := d.engine e
  let cause := bits x.tcause.toNat 4 0
  match x.running with
  | none => d
  | some view =>
    if x.st = .halted || !x.intrap then d
    else if cause = 7 then runMiss d e view
    else if cause = 17 then endRun d e 12 (trapWords x)
    else if cause = 3 ∧ x.tval.toNat ≤ 3 then d
    else endRun d e 11 (trapWords x)

/-- A store of a program failed after its run had ended (R322). -/
def settleFault (d : Dev) (e : Nat) : Dev :=
  let x := d.engine e
  match x.call, x.fault with
  | some c, some a =>
    if c.code = 0x15 ∧ x.running.isNone = true then
      d.updEngine e (fun y => { y with
        fault := none
        call := some { c with status := 11, words := ([0x30, 0, a.2.setWidth 18] ++ List.replicate 8 0).take 8 } })
    else d
  | _, _ => d

/-- The program's stores have completed (R289, R322). -/
def Dev.storesDone (d : Dev) (e : Nat) : Bool := (d.engine e).sb.isEmpty && (d.engine e).nt.isEmpty

/-- A call waits for its program's stores. -/
def Dev.callHeld (d : Dev) (e : Nat) : Bool :=
  decide (e < 24) && (d.engine e).call.isSome && (d.engine e).prog.isSome && !d.storesDone e

/-- Recalls whose holders have all answered and whose writebacks are accepted, or have ended otherwise, end (R165). -/
def settleRecalls (d : Dev) : Dev :=
  d.each ((d.xacts.filter (fun x => match x.2.phase with
    | .recall [] _ => true
    | _ => false)).map (·.1)) recallDone

/-- The recalls of the set a slice parks have not all been answered, or its entries are UNK, busy until the set's flush ends
(R161, R323). -/
def Dev.parkBusy (d : Dev) (s : Nat) : Bool :=
  let sl := d.slice s
  sl.parkWait.any (fun i => (d.xact? i).isSome) || (decide (sl.parkNext ≠ 0) && d.unkSet s (sl.parkNext - 1))
/-- Sets a slice has parked. -/
def Dev.parked (d : Dev) (s : Nat) : Nat := if d.parkBusy s then (d.slice s).parkNext - 1 else (d.slice s).parkNext

/-- PARK is complete once every slice has walked its last set (R325, R327). -/
def parkFinish (d : Dev) : Dev :=
  if d.park.st = 1 ∧ (List.range 16).all (fun s => decide (d.parked s = 32768)) = true then
    raise { d with park := { d.park with st := 2 } } 452 5 0 (info (d.park.recalled + fld 24 (b2n d.park.resigned)))
  else d

/-- What goes on by itself once a command has taken effect: recalls, PARK's end, mover channels, host programs, calls. -/
def settle (d : Dev) : Dev :=
  let d := if d.islandRuns 10 then
      let d := parkFinish (settleRecalls d)
      d.each (d.movers.map (·.1)) settleMover
    else d
  let d := d.each ((List.range 24).filter d.quadRuns) settleRun
  let d := d.each ((List.range 24).filter d.quadRuns) settleFault
  d.each (List.range 25) (fun d e => if d.callHeld e || !d.callRuns e then d else runCall e 4096 d)

/-- A meaning over the device, followed by what goes on by itself. -/
def onDevice (s : State) (f : Dev → Dev) : Answer := onDev s (fun d => settle (f d))

/-- A meaning of a block in a clock island: a block whose clock has failed does nothing (R15, R459). -/
def onIsland (i : Nat) (s : State) (f : Dev → Dev) : Answer :=
  onDevice s (fun d => if d.pwr.unlocked.getLsbD i then d else f d)

end Sys2Proof.Machine
end

