-- ==== Sys2Proof/Machine/Ports.lean ====
section
/-! DEFINITION. Links, port resets and clocks of the ports (02, R458, R459). -/

namespace Sys2Proof.Machine

/-- Cause codes of LINK_DOWN (R56). -/
def dropCode : DropCause → Nat
  | .lossOfLock => 1 | .hotReset => 2 | .linkDisable => 3 | .perst => 4 | .surprise => 5 | .refclk => 6 | .powerOff => 7

/-- LDs the port presents while its link is up. -/
def Dev.ldsOf (d : Dev) (p : Nat) : Nat := if (d.port p).link == .up then min (d.port p).cfg.lds.toNat 16 else 0

/-- PRT_LINK_STATUS (02_agent_ports.md). -/
def Dev.linkStatus (d : Dev) (p : Nat) : Nat :=
  let x := d.port p
  d.linkCode p + fld 3 x.width.toNat + fld 5 x.rate.toNat + fld 7 (b2n x.flit256) + fld 8 (b2n x.lopt) + fld 9 (b2n x.degraded)
    + fld 10 (d.ldsOf p)

/-- A port's function is ready (R382): at the latest 1 s, 400,000,000 always-on cycles, after DEV_RST_N and PERST_N are both
released. -/
def Dev.fnReady (d : Dev) (p : Nat) : Bool :=
  let t := max d.glob.riseT (d.port p).perstT
  decide (t + min (Config.readyDelay p t) 400000000 ≤ d.glob.time)

/-- A port can train (R31, R33, R55, R389, R454, R458). -/
def Dev.canTrain (d : Dev) (p : Nat) : Bool :=
  let x := d.port p
  d.domOn (portDom p) && !d.leaving (portDom p) && !x.perst && !x.refclkLost && !d.pwr.unlocked.getLsbD (p + 2) && !x.cfg.disabled && !x.failed && x.released

/-- A port starts to train. -/
def startTrain (d : Dev) (p : Nat) : Dev :=
  if d.canTrain p && (d.port p).link == .down then d.updPort p (fun x => { x with link := .training }) else d

/-- An LD's configuration space as a reset of its port leaves it (log entry 25). -/
def Ld.portReset (l : Ld) : Ld :=
  { l with
    base := 0, size := 0, committed := false, errNotCommitted := false, memEnable := false, biEnable := false
    viralEnable := false, viral := false, memActive := false, memInfoValid := false, msix := [], msixPending := 0, ras := 0 }

/-- The link drops (R34, R54, R192): every agent of the port is resigned, its queue pairs close, and LINK_DOWN is raised. Of a
drop in the cycle of a full reset nothing is recorded (R55, log entry 112). -/
def linkDown (d : Dev) (p code : Nat) : Dev :=
  if d.glob.resetPhase != .none then d.updPort p (fun x => { x with link := .down })
  else match (d.port p).link with
  | .down => d
  | .training => d.updPort p (fun x => { x with link := .down })
  | .up =>
    let mine := d.agents.filter (fun a => a.2.attached && decide (a.2.port = p))
    let d := d.updPort p (fun x => { x with
      link := .down, width := 0, rate := 0, flit256 := false, lopt := false, degraded := false, drops := satInc 32 x.drops })
    let d := d.each mine (fun d a => resign d (BitVec.ofNat 12 a.1) 1)
    let d := d.each (List.range 16) (fun d m => d.updLd p m (fun l => { l.portReset with st := .unbound }))
    let d := closePortPairs d p 2
    raise d (8 * p + 1) 0 1 (info (code + fld 3 mine.length))

/-- PERST_N[n] goes low (R20, R33). -/
def perstLow (d : Dev) (p : Nat) : Dev :=
  let d' := d.updPort p (fun x => { x with perst := true })
  if (d.port p).cfg.disabled then d' else linkDown d' p 4

/-- PERST_N_ASSERT. -/
def execPerstNAssert (p : Fin 8) (s : State) : Answer := onDevice s (fun d => perstLow d p.val)

/-- PERST_N_RELEASE: the PHY starts training (R55). -/
def execPerstNRelease (p : Fin 8) (s : State) : Answer :=
  onDevice s (fun d => startTrain (d.updPort p.val (fun x => { x with perst := false, perstT := d.glob.time })) p.val)

/-- Step 10 of R380 is reached: after step 9, every port that can train is up. -/
def Dev.linksReady (d : Dev) : Bool :=
  d.glob.dev == .start && !d.glob.quick && decide (d.glob.step = 9)
    && (List.range 8).all (fun p => !d.canTrain p || (d.port p).link == .up)

/-- DEGRADED, with the limits in force (R33, R56). -/
def raiseDegraded (d : Dev) (p : Nat) : Dev :=
  let x := d.port p
  raise d (8 * p + 2) 0 1 (info (d.linkStatus p + fld 15 x.cfg.maxWidth.toNat + fld 17 x.cfg.maxRate.toNat))

/-- The link reaches L0 (R31-R33, R53, R56). DESIGN CHOICE (log entry 141): with no package, the limits are the reset ones, x16
and 64 GT/s, and a port below them is degraded. A link that dropped without PERST_N trains again by itself (log entry 28). -/
def reachL0 (d : Dev) (p : Nat) (width rate : BitVec 2) (flit256 lopt : Bool) : Dev :=
  let x := d.port p
  if x.link == .up || !d.canTrain p || decide (x.cfg.maxWidth < width) || decide (x.cfg.maxRate < rate)
      || (!flit256 && (rate == 3 || lopt)) then d
  else
    let low := decide (width < x.cfg.maxWidth) || decide (rate < x.cfg.maxRate)
    let d := d.updPort p (fun x => { x with
      link := .up, width := width, rate := rate, flit256 := flit256, lopt := lopt, degraded := low })
    let d := if d.inService then
        d.each (List.range (d.ldsOf p)) (fun d m => d.updLd p m (fun l => { l with memActive := true, memInfoValid := true }))
      else d
    let d := if d.linksReady then d.setGlob (fun g => { g with step := 10 }) else d
    let d := raise d (8 * p) 0 0 (info (d.linkStatus p))
    if low then raiseDegraded d p else d

/-- LINK_UP. -/
def execLinkUp (p : Fin 8) (width rate : BitVec 2) (flit256 lopt : Bool) (s : State) : Answer :=
  if (Instr.linkUp p width rate flit256 lopt).wf then onDevice s (fun d => reachL0 d p.val width rate flit256 lopt)
  else .fault .illFormed

/-- LINK_DROP (R34, R54): a link that is up drops. -/
def execLinkDrop (p : Fin 8) (cause : DropCause) (s : State) : Answer :=
  onDevice s (fun d => if (d.port p.val).link == .up then linkDown d p.val (dropCode cause) else d)

/-- A status bit of the RAS capability of an LD, or of every LD of the port where the error belongs to none. -/
def setRas (d : Dev) (p : Nat) (ld : Option Nat) (bit : Nat) (correctable : Bool) : Dev :=
  let f (l : Ld) : Ld :=
    if correctable then { l with rasCor := l.rasCor ||| BitVec.ofNat 32 (2 ^ bit) } else { l with ras := l.ras ||| BitVec.ofNat 32 (2 ^ bit) }
  match ld with
  | some m => d.updLd p m f
  | none => d.each (List.range (d.ldsOf p)) (fun d m => d.updLd p m f)

/-- PROTOCOL (R56): LD 0xF where the error belongs to none; `birsp` is the agent of a BIRsp error of R166. -/
def protocol (d : Dev) (p : Nat) (ld : Option Nat) (bit : Nat) (correctable : Bool) (birsp : Option (BitVec 12)) : Dev :=
  raise (setRas d p ld bit correctable) (8 * p + 7) 0 1 (info (ld.getD 0xF + fld 4 bit + fld 9 (b2n correctable) + (match birsp with
    | some a => fld 10 1 + fld 11 a.toNat
    | none => 0)))

/-- LINK_REPLAY: nothing is lost or duplicated (R34); the error that made it, or one the port meets otherwise, is a CXL
protocol error (R56). -/
def replayed (d : Dev) (p : Nat) (err : Option ProtoErr) : Dev :=
  match err with
  | some x => if (d.port p).link == .up then protocol d p (x.ld.map (·.val)) x.bit.toNat x.correctable none else d
  | none => d

/-- LINK_REPLAY. -/
def execLinkReplay (p : Fin 8) (err : Option ProtoErr) (s : State) : Answer := onDevice s (fun d => replayed d p.val err)

/-- REPLAY_THRESHOLD (R56). -/
def execReplayThreshold (p : Fin 8) (count : BitVec 16) (s : State) : Answer :=
  onDevice s (fun d => if (d.port p.val).link == .up && decide ((d.port p.val).replayThresh < count) then
      raise d (8 * p.val + 3) 0 1 (info count.toNat)
    else d)

/-- The PLL of an island that runs loses its lock, or locks again: PLL_UNLOCK reports each (R463). -/
def pllOut (d : Dev) (i : Nat) : Dev :=
  if !d.domOn (islandDom i) || d.pwr.unlocked.getLsbD i then d
  else raise (d.setPwr (fun q => { q with unlocked := q.unlocked ||| BitVec.ofNat 29 (2 ^ i) })) 486 2 2 (info i)
def pllIn (d : Dev) (i : Nat) : Dev :=
  if !d.pwr.unlocked.getLsbD i then d
  else raise (d.setPwr (fun q => { q with unlocked := q.unlocked &&& ~~~(BitVec.ofNat 29 (2 ^ i)) })) 486 2 2 (info (i + fld 5 1))

/-- A port loses its REFCLK, and its PLL the lock (R458, R463). -/
def refclkGone (d : Dev) (p : Nat) : Dev :=
  if (d.port p).refclkLost then d
  else linkDown (pllOut (raise (d.updPort p (fun x => { x with refclkLost := true })) 488 0 1 (info (p + fld 3 1))) (p + 2)) p 6

/-- REFCLK_LOSS. -/
def execRefclkLoss (p : Fin 8) (s : State) : Answer := onDevice s (fun d => refclkGone d p.val)

/-- The REFCLK returns: the port's PLL locks, and it may train (R458). -/
def refclkBack (d : Dev) (p : Nat) : Dev :=
  if !(d.port p).refclkLost then d
  else
    let d := d.updPort p (fun x => { x with refclkLost := false })
    startTrain (pllIn (raise d 488 0 1 (info p)) (p + 2)) p

/-- REFCLK_RESTORE. -/
def execRefclkRestore (p : Fin 8) (s : State) : Answer := onDevice s (fun d => refclkBack d p.val)

/-- XIN_LOSS (R459): the PLLs hold their frequency. -/
def execXinLoss (s : State) : Answer :=
  onDevice s (fun d => if d.pwr.xinLost then d else raise (d.setPwr (fun q => { q with xinLost := true })) 485 2 2 0)

/-- A PLL loses lock (R459); a port's PLL takes its link down as R458 states. -/
def pllLost (d : Dev) (i : Nat) : Dev :=
  if !d.domOn (islandDom i) || d.pwr.unlocked.getLsbD i then d
  else
    let d := pllOut d i
    if 2 ≤ i ∧ i ≤ 9 then linkDown d (i - 2) 6 else d

/-- PLL_UNLOCK. -/
def execPllUnlock (island : Fin 29) (s : State) : Answer := onDevice s (fun d => pllLost d island.val)

end Sys2Proof.Machine
end

