-- ==== Sys2Proof/Machine/Attach.lean ====
section
/-! DEFINITION. Agents attaching and detaching through the HDM decoder and Mem_Enable (07_agent_lifecycle.md). -/

namespace Sys2Proof.Machine

/-- An LD function a host can reach. -/
def Dev.ldPresent (d : Dev) (p m : Nat) : Bool := d.portUp p && decide (m < d.ldsOf p)

/-- A committed decoder without an agent holds a place (R187). -/
def Ld.place (l : Ld) : Bool := l.committed && l.st == .unbound

/-- Places held on a port. -/
def Dev.places (d : Dev) (p : Nat) : Nat := ((List.range 16).filter (fun m => (d.ld p m).place)).length
/-- Agents attached on a port. -/
def Dev.attachedOn (d : Dev) (p : Nat) : Nat := (d.agents.filter (fun a => a.2.attached && decide (a.2.port = p))).length
/-- Agents attached. -/
def Dev.attachedAll (d : Dev) : Nat := (d.agents.filter (·.2.attached)).length
/-- Resignations not ended. -/
def Dev.resigningAll (d : Dev) : Nat := (d.agents.filter (fun a => !a.2.attached)).length
/-- Places held on all ports. -/
def Dev.placesAll (d : Dev) : Nat := (List.range 8).foldl (fun n p => n + d.places p) 0

/-- The check of R187 that fails first, in the order of its table; none when all pass. -/
def Dev.attachCheck (d : Dev) (p m size : Nat) : Option Nat :=
  match Tab.find d.binds (16 * p + m) with
  | none => some 1
  | some v =>
    if !(match d.desc? v with
      | some x => descLevels x == 1
      | none => false) then some 2
    else if size % 2 ^ 28 ≠ 0 ∨ 2 ^ 43 < size then some 3
    else if 128 ≤ d.attachedAll + d.placesAll ∨ 16 ≤ d.attachedOn p + d.places p then some 4
    else if !d.inService then some 5
    else if 256 ≤ d.attachedAll + d.resigningAll + d.placesAll then some 6
    else none

/-- The next free agent ID above the one allocated last (R189). -/
def Dev.nextAgent (d : Dev) : Nat :=
  (((List.range 4064).map (fun i => (d.glob.lastId + 1 + i) % 4064)).find? (fun a => (Tab.find d.agents a).isNone)).getD 0

/-- An agent attaches (R36, R187-R189, R192). -/
def attach (d : Dev) (p m : Nat) : Dev :=
  let a := d.nextAgent
  let ep := Tab.get 0 d.epochs a + 1
  let l := d.ld p m
  let v := Tab.get 0 d.binds (16 * p + m)
  let x := (d.desc? v).getD 0
  let db := (d.port p).flit256 && l.biEnable
  let d := { d with
    epochs := Tab.put d.epochs a ep
    agents := Tab.put d.agents a { port := p, ld := m, epoch := ep, hdmDb := db, view := v } }
  let d := d.setGlob (fun g => { g with lastId := a })
  let d := d.updLd p m (fun l => { l with
    st := .attached, agent := BitVec.ofNat 12 a, epoch := ep, hdmDb := db, view := v, gran := BitVec.ofNat 2 (descGran x) })
  ldBind d p m (BitVec.ofNat 12 a) ep true db

/-- Where HDM decoder 0's control register stands in BAR0 (log entry 22). -/
def hdmCtlOff : Nat := 0x00101220

/-- HDM decoder 0's control register: Commit, Committed, Error Not Committed (log entry 22). -/
def Ld.hdmCtl (l : Ld) : Nat := if l.committed then 0x600 else if l.errNotCommitted then 0xA00 else 0

/-- HDM_DECODER_COMMIT (R187). -/
def commit (d : Dev) (p m base size : Nat) : Dev :=
  if !d.ldPresent p m || (d.ld p m).committed then d
  else match d.attachCheck p m size with
  | some r => raise (d.updLd p m (fun l => { l with errNotCommitted := true })) 451 0 1 (info (m + fld 4 p + fld 7 r))
  | none =>
    let d' := d.updLd p m (fun l => { l with committed := true, errNotCommitted := false, base := base, size := size })
    let d' := journalReg d' (.host (Fin.ofNat 8 p) (Fin.ofNat 16 m)) hdmCtlOff 4 (d.ld p m).hdmCtl (d'.ld p m).hdmCtl
    if (d'.ld p m).memEnable then attach d' p m else d'

/-- HDM_DECODER_COMMIT. -/
def execHdmDecoderCommit (p : Fin 8) (ld : Fin 16) (base size : Nat) (s : State) : Answer :=
  if base < 2 ^ 52 then onDevice s (fun d => commit d p.val ld.val base size) else .fault .illFormed

/-- The agent of an LD leaves when its host clears Commit or Mem_Enable (R192). -/
def detach (d : Dev) (p m : Nat) : Dev :=
  let l := d.ld p m
  match l.st with
  | .attached => resign d l.agent 3
  | .resigned => ldBind (d.updLd p m (fun x => { x with st := .unbound })) p m l.agent l.epoch false l.hdmDb
  | .unbound => d

/-- An LD's configuration space takes a request (R382): before the port's function is ready it only asks for a retry. -/
def Dev.configTakes (d : Dev) (p m : Nat) : Bool := d.ldPresent p m && d.fnReady p

/-- Mem_Enable is set (R187): a committed decoder attaches at once. The same register carries Viral_Enable, for which the
row has no operand (log entry 21). -/
def memOn (d : Dev) (p m : Nat) : Dev :=
  if !d.configTakes p m then d
  else
    let viral := Config.wire 8 d.glob.draws % 2 = 1
    let d := d.drawn.updLd p m (fun l => { l with memEnable := true, viralEnable := decide viral })
    if (d.ld p m).place && d.inService then attach d p m else d

/-- MEM_ENABLE_SET. -/
def execMemEnableSet (p : Fin 8) (ld : Fin 16) (s : State) : Answer := onDevice s (fun d => memOn d p.val ld.val)

/-- Commit is cleared (R192). -/
def uncommit (d : Dev) (p m : Nat) : Dev :=
  if !d.ldPresent p m then d
  else
    let d := if (d.ld p m).committed then
        journalReg d (.host (Fin.ofNat 8 p) (Fin.ofNat 16 m)) hdmCtlOff 4 (d.ld p m).hdmCtl 0
      else d
    detach (d.updLd p m (fun l => { l with committed := false, errNotCommitted := false })) p m

/-- HDM_DECODER_UNCOMMIT. -/
def execHdmDecoderUncommit (p : Fin 8) (ld : Fin 16) (s : State) : Answer := onDevice s (fun d => uncommit d p.val ld.val)

/-- MEM_ENABLE_CLEAR (R192). -/
def execMemEnableClear (p : Fin 8) (ld : Fin 16) (s : State) : Answer :=
  onDevice s (fun d => if d.configTakes p.val ld.val then
      detach (d.updLd p.val ld.val (fun l => { l with memEnable := false })) p.val ld.val
    else d)

end Sys2Proof.Machine
end

