-- ==== Sys2Proof/Machine/CxlMem.lean ====
section
/-! DEFINITION. CXL.mem requests as a port decodes them, BIRsp and BIConflict (02, 04, 06). -/

namespace Sys2Proof

/-- The line address of a request in its view. -/
def M2S.va (h : M2S) (l : Machine.Ld) : Nat := (h.hpa - l.base) / 64 * 64

/-- The requester of a request to an LD, as the log names it. -/
def M2S.who (h : M2S) (l : Machine.Ld) : Machine.Who :=
  { agent := l.agent, epoch := l.epoch, view := l.view, port := BitVec.ofNat 3 h.port.val, ld := BitVec.ofNat 4 h.ld.val }

end Sys2Proof

namespace Sys2Proof.Machine

/-- MetaValue a write keeps (R163, R164): No-Op and HDM-H writes keep nothing. -/
def keepOf (db : Bool) (m : MetaReq) : Meta :=
  match db, m with
  | true, .state m => m
  | _, _ => .i

/-- What MemRd asks of the slice (R163, R164). -/
def readOp (db : Bool) (m : MetaReq) : Op :=
  match db, m with
  | true, .state .s => .readShared
  | true, .state .a => .readOwn
  | _, _ => .readUntracked

/-- What MemInv and MemInvNT ask (R163, R164; No-Op taken as an invalidate). -/
def invOp (db : Bool) (m : MetaReq) : Op :=
  match db, m with
  | true, .state .a => .ownNoData
  | _, _ => .invalidate

/-- An LD decodes a host physical address. -/
def Ld.decodes (l : Ld) (hpa : Nat) : Bool := l.committed && decide (l.base ≤ hpa) && decide (hpa < l.base + l.size)

/-- The port answers a request itself: a read with poison, another with its completion. POISON_SENT then has no DPA (R56). -/
def portAnswer (d : Dev) (h : M2S) (l : Ld) (op : Op) : Dev :=
  let p := h.port.val
  let m := h.ld.val
  if op.isRead then
    let d := emit d (.memData p m h.tag 0 true (if l.hdmDb then some .i else none))
    let d := count d p 8 0 { cls := 1, priv := 1, agent := some l.agent }
    count (raise d (8 * p + 5) 0 1 (info (m + fld 4 l.agent.toNat))) p 2 1 { cls := 1, priv := 1, agent := some l.agent }
  else emit d (if op == .ownNoData then .cmpE p m h.tag else .cmp p m h.tag)

/-- A request to a RESIGNED LD (R193). -/
def resignedRequest (d : Dev) (h : M2S) (l : Ld) (op : Op) : Dev :=
  let d := if op.isRead || op.isWrite then
      logErr d { kind := 15, src := 425, va := true, loc := h.va l % 2 ^ 43, who := h.who l } else d
  portAnswer d h l op

/-- A request in RECOVERY (R26, R421). -/
def recoveryRequest (d : Dev) (h : M2S) (l : Ld) (op : Op) : Dev :=
  let d := if op.isWrite then
      logErr d { kind := 19, src := 8 * h.port.val + 5, va := true, loc := h.va l % 2 ^ 43, who := h.who l } else d
  portAnswer d h l op

/-- The BISnp of an agent that awaits its BIRsp at a view address (R103). -/
def Port.snoopAt (q : Port) (a : BitVec 12) (va : Nat) : Option Snoop :=
  q.snoops.find? (fun s => s.agent == a && s.sent && decide (s.va = va))

/-- DPA a request is decoded to, for the counter REQ (R469): none where its translation misses or fails. -/
def Dev.reqDpa (d : Dev) (p : Nat) (l : Ld) (op : Op) (va : Nat) : Option Nat :=
  match labFind (d.lab p) p l.view l.gran (va / 2 ^ granShift l.gran.toNat) with
  | some (_, e) => if e.pte.v && (!op.isWrite || e.pte.w) then some (e.dpa va) else none
  | none => none

/-- A writeback that answers an outstanding BISnp goes to the line recalled (R103, R177); a page the LAB holds read-only
drops it (R80). LABSYNC counts it among those translated through the entry it hit (R87). -/
def matchedWrite (d : Dev) (h : M2S) (x : Xact) (s : Snoop) (l : Ld) : Dev :=
  let (d, hit) := labLookup d h.port.val l.view l.gran x.req.va h.lab
  let x := x.matchedTo s.line
  match hit with
  | some e =>
    let d := count d h.port.val 3 1 { cls := 32, priv := 1, agent := some x.req.agent }
    if e.pte.v && !e.pte.w then failRequest d x.req x.t0 16
    else (d.start { x with req := { x.req with entry := some (h.port.val, e.uid) } }).1
  | none => (d.start x).1

/-- Requests of an LD that stand in its port's queues to the slices (R104). -/
def Dev.ingressOf (d : Dev) (p m : Nat) : Nat :=
  (d.xacts.filter (fun x => x.2.phase == .ingress && (match x.2.req.src with
    | .host q k _ => decide (q = p) && decide (k = m)
    | _ => false))).length

/-- The port has no credit to return for an LD: its queues hold all that the LD's share of the port's credits lets in, a number the
spec does not give (R42, R104, log entry 84). -/
def Dev.ingressFull (d : Dev) (p m : Nat) : Bool := !decide (d.ingressOf p m < Config.ingressSpace (d.ld p m).share.toNat + 1)

/-- The port takes no request of an LD from its link: all 32 park slots are in use (R74), or its queues are full (R104). -/
def Dev.withholds (d : Dev) (p m : Nat) : Bool := decide (32 ≤ (d.port p).slots.length) || d.ingressFull p m

/-- A request an LD's port decodes (R54, R57, R73-R81, R163). One the port withholds credits for waits on the link (R74, R104). -/
def hostRequest (d : Dev) (h : M2S) (opOf : Bool → Op) (data : Line) (mask : Mask) (poison : Bool) : Dev :=
  let p := h.port.val
  let m := h.ld.val
  let l := d.ld p m
  let op := opOf l.hdmDb
  let va := h.va l
  if !d.portUp p || d.glob.resetPhase != .none || l.st == .unbound || !l.decodes h.hpa || d.withholds p m then d
  else
    let r : Req := { src := .host p m h.tag, agent := l.agent, epoch := l.epoch, hdmDb := l.hdmDb, op := op, data := data
                     mask := mask, poison := poison, view := l.view, gran := l.gran, va := va }
    let x : Xact := { req := r, t0 := d.glob.time }
    let snoop := (d.port p).snoopAt l.agent va
    let d := count d p 1 1 { r.counted with dpa := if op.isWrite && snoop.isSome then snoop.map (64 * ·.line) else d.reqDpa p l op va }
    if d.glob.dev == .recovery then recoveryRequest d h l op
    else if l.st == .resigned then resignedRequest d h l op
    else match op, snoop with
    | .write _, some s => matchedWrite d h x s l
    | .cleanEvict, some _ => respondCmp d r false
    | _, _ => translateHost d p x h.lab

/-- PROTOCOL for a BIRsp that breaks R166 (R56). The status bit it names is open (log entry 20). -/
def protocolError (d : Dev) (p m : Nat) (a : BitVec 12) : Dev :=
  protocol d p (some m) (Config.wire 7 0 % 32) (decide (Config.wire 7 1 % 2 = 1)) (some a)

/-- A BIRsp is a request of class snoop that the port decodes (R468, R469); `line` is the one it answers for. -/
def birspCounted (d : Dev) (p : Nat) (l : Ld) (line : Option Nat) : Dev :=
  count d p 1 1 { cls := 4, priv := 1, agent := some l.agent, dpa := line.map (64 * ·) }

/-- A BIRsp arrives (R166, R172). A BISnpInv that waits for it is sent now. -/
def birsp (d : Dev) (p m hpa : Nat) (kept : Bool) : Dev :=
  let l := d.ld p m
  if !d.portUp p || l.st != .attached then d
  else match (d.port p).snoops.find? (fun s => s.agent == l.agent && s.sent && decide (l.base + s.va = hpa / 64 * 64)) with
  | none => protocolError (birspCounted d p l none) p m l.agent
  | some s =>
    let d := birspCounted d p l (some s.line)
    let d := d.updPort p (fun q => { q with snoops := q.snoops.filter (fun t => !(t.agent == s.agent && decide (t.line = s.line))) })
    let d := if kept && !s.data then protocolError d p m l.agent else d
    let d := match s.conflict with
      | some tag => emit d (.biConflictAck p m tag)
      | none => d
    let d := answer d s.agent s.line (kept && s.data) false s.inv
    if s.inv then portRecall d p s.agent s.line false else d

/-- MEM_RD (R163). -/
def execMemRd (h : M2S) (m : MetaReq) (s : State) : Answer :=
  if h.wf then onDevice s (fun d => hostRequest d h (readOp · m) 0 0 false) else .fault .illFormed

/-- MEM_RD_DATA (R163). -/
def execMemRdData (h : M2S) (s : State) : Answer :=
  if h.wf then onDevice s (fun d => hostRequest d h (fun db => if db then .readData else .readUntracked) 0 0 false)
  else .fault .illFormed

/-- MEM_INV (R163). -/
def execMemInv (h : M2S) (m : MetaReq) (s : State) : Answer :=
  if h.wf then onDevice s (fun d => hostRequest d h (invOp · m) 0 0 false) else .fault .illFormed

/-- MEM_INV_NT (R163). -/
def execMemInvNt (h : M2S) (m : MetaReq) (s : State) : Answer :=
  if h.wf then onDevice s (fun d => hostRequest d h (fun db => invOp db m) 0 0 false) else .fault .illFormed

/-- MEM_CLN_EVCT (R163, R177). -/
def execMemClnEvct (h : M2S) (s : State) : Answer :=
  if h.wf then onDevice s (fun d => hostRequest d h (fun _ => .cleanEvict) 0 0 false) else .fault .illFormed

/-- MEM_WR (R163). -/
def execMemWr (h : M2S) (m : MetaReq) (data : Line) (poison : Bool) (s : State) : Answer :=
  if h.wf then onDevice s (fun d => hostRequest d h (fun db => .write (keepOf db m)) data (BitVec.allOnes 64) poison)
  else .fault .illFormed

/-- MEM_WR_PTL (R163). -/
def execMemWrPtl (h : M2S) (m : MetaReq) (data : Line) (mask : Mask) (poison : Bool) (s : State) : Answer :=
  if h.wf then onDevice s (fun d => hostRequest d h (fun db => .write (keepOf db m)) data mask poison) else .fault .illFormed

/-- MEM_SPEC_RD: ignored, no response (R163). -/
def execMemSpecRd (h : M2S) (s : State) : Answer := if h.wf then onDevice s id else .fault .illFormed

/-- BI_CONFLICT (R178, R193): a RESIGNED LD's is acknowledged at once; the ack waits for the responses to requests before the recall; with no BISnp outstanding it is
sent at once. -/
def biConflict (d : Dev) (h : M2S) : Dev :=
  let p := h.port.val
  let l := d.ld p h.ld.val
  if !d.portUp p then d
  else if l.st == .resigned then emit d (.biConflictAck p h.ld.val h.tag)
  else if l.st != .attached || !l.hdmDb then d
  else match (d.port p).snoopAt l.agent (h.va l) with
  | none => emit d (.biConflictAck p h.ld.val h.tag)
  | some s =>
    ackConflicts (d.updPort p (fun q => { q with snoops := q.snoops.map (fun t =>
      if t.agent = s.agent ∧ t.line = s.line then { t with conflict := some h.tag } else t) })) p

/-- BI_CONFLICT. -/
def execBiConflict (h : M2S) (s : State) : Answer := if h.wf then onDevice s (biConflict · h) else .fault .illFormed

/-- BIRSP_I (R166). -/
def execBirspI (p : Fin 8) (ld : Fin 16) (hpa : Nat) (s : State) : Answer :=
  if hpa < 2 ^ 52 then onDevice s (fun d => birsp d p.val ld.val hpa false) else .fault .illFormed

/-- BIRSP_S (R166). -/
def execBirspS (p : Fin 8) (ld : Fin 16) (hpa : Nat) (s : State) : Answer :=
  if hpa < 2 ^ 52 then onDevice s (fun d => birsp d p.val ld.val hpa true) else .fault .illFormed

end Sys2Proof.Machine
end

