-- ==== Sys2Proof/Machine/EngAlu.lean ====
section
/-! DEFINITION. Engine instructions on registers: arithmetic, address registers, control transfer, status (R250-R257). -/

namespace Sys2Proof.Machine

/-- A local instruction: rewrites the engine and completes. -/
def localDone (d : Dev) (e len : Nat) (f : Engine → Engine) : Dev := advance (d.updEngine e f) e len

/-- A register is named for a pair with an odd number (R239). -/
def odd (k : Nat) : Bool := k % 2 == 1

/-- Runs an instruction that only changes its engine. -/
def runLocal (x : Env) (word : Word) (illegal priv : Bool) (len : Nat) (f : Engine → Engine) (s : State) : Answer :=
  onDevice s (fun d => runInstr d x word illegal priv (fun d => localDone d x.e.val len f))

-- arithmetic
/-- Result of a word operation written back. -/
def Engine.takeWord (y : Engine) (k : Nat) (r : Word × BitVec 6) : Engine := { y.setG k r.1 with flags := r.2 }
/-- Result of a pair operation written back. -/
def Engine.takePair (y : Engine) (k : Nat) (r : Pair × BitVec 6) : Engine := { y.setP k r.1 with flags := r.2 }

/-- ALU on words (R251). -/
def aluWord (fn d s : Nat) (y : Engine) : Engine :=
  match aluFn fn y.flags (y.rg d) (y.rg s) (bits (y.rg s).toNat 5 0) with
  | (some r, f) => { y.setG d r with flags := f }
  | (none, f) => { y with flags := f }

/-- ALUP on pairs (R251). -/
def aluPair (fn d s : Nat) (y : Engine) : Engine :=
  match aluFn fn y.flags (y.rp d) (y.rp s) (bits (y.rg s).toNat 5 0) with
  | (some r, f) => { y.setP d r with flags := f }
  | (none, f) => { y with flags := f }

/-- ALU. -/
def execAlu (x : Env) (fn d s : Fin 16) (st : State) : Answer :=
  runLocal x (wordR 0x00 d.val s.val fn.val) false false 1 (aluWord fn.val d.val s.val) st

/-- ALUP. -/
def execAlup (x : Env) (fn d s : Fin 16) (st : State) : Answer :=
  runLocal x (wordR 0x01 d.val s.val fn.val) (odd d.val || odd s.val) false 1 (aluPair fn.val d.val s.val) st

/-- The immediate as a word and as a pair (R252). -/
def immW (i : ImmI) : Word := BitVec.ofInt 18 i.val
def immP (i : ImmI) : Pair := BitVec.ofInt 36 i.val

/-- LI (R252). -/
def execLi (x : Env) (d : Fin 16) (i : ImmI) (st : State) : Answer :=
  runLocal x (wordI 0x02 d.val i) (!i.ok) false i.len (fun y => y.setG d.val (immW i)) st

/-- ADDI (R252). -/
def execAddi (x : Env) (d : Fin 16) (i : ImmI) (st : State) : Answer :=
  runLocal x (wordI 0x03 d.val i) (!i.ok) false i.len (fun y => y.takeWord d.val (addFlags y.flags (y.rg d.val) (immW i) false)) st

/-- ANDI (R252). -/
def execAndi (x : Env) (d : Fin 16) (i : ImmI) (st : State) : Answer :=
  runLocal x (wordI 0x04 d.val i) (!i.ok) false i.len
    (fun y => y.takeWord d.val (y.rg d.val &&& immW i, flagsZN y.flags (y.rg d.val &&& immW i))) st

/-- ORI (R252). -/
def execOri (x : Env) (d : Fin 16) (i : ImmI) (st : State) : Answer :=
  runLocal x (wordI 0x05 d.val i) (!i.ok) false i.len
    (fun y => y.takeWord d.val (y.rg d.val ||| immW i, flagsZN y.flags (y.rg d.val ||| immW i))) st

/-- XORI (R252). -/
def execXori (x : Env) (d : Fin 16) (i : ImmI) (st : State) : Answer :=
  runLocal x (wordI 0x06 d.val i) (!i.ok) false i.len
    (fun y => y.takeWord d.val (y.rg d.val ^^^ immW i, flagsZN y.flags (y.rg d.val ^^^ immW i))) st

/-- CMPI (R252). -/
def execCmpi (x : Env) (d : Fin 16) (i : ImmI) (st : State) : Answer :=
  runLocal x (wordI 0x07 d.val i) (!i.ok) false i.len
    (fun y => { y with flags := (subFlags y.flags (y.rg d.val) (immW i) true).2 }) st

/-- Type and amount of SHI and SHIP (R252). -/
def shType (i : ImmI) : Nat := bits i.imm7.toNat 6 5
def shAmount (i : ImmI) : Nat := bits i.imm7.toNat 4 0

/-- SHI: an amount of 18 or more is ILLEGAL (R252). -/
def execShi (x : Env) (d : Fin 16) (i : ImmI) (st : State) : Answer :=
  runLocal x (wordI 0x08 d.val i) (i.x || decide (18 ≤ shAmount i)) false 1
    (fun y => y.takeWord d.val (shiftFlags (shType i) y.flags (y.rg d.val) (shAmount i))) st

/-- LIP (R252). -/
def execLip (x : Env) (d : Fin 16) (i : ImmI) (st : State) : Answer :=
  runLocal x (wordI 0x09 d.val i) (!i.ok || odd d.val) false i.len (fun y => y.setP d.val (immP i)) st

/-- ADDIP (R252). -/
def execAddip (x : Env) (d : Fin 16) (i : ImmI) (st : State) : Answer :=
  runLocal x (wordI 0x0A d.val i) (!i.ok || odd d.val) false i.len
    (fun y => y.takePair d.val (addFlags y.flags (y.rp d.val) (immP i) false)) st

/-- CMPIP (R252). -/
def execCmpip (x : Env) (d : Fin 16) (i : ImmI) (st : State) : Answer :=
  runLocal x (wordI 0x0B d.val i) (!i.ok || odd d.val) false i.len
    (fun y => { y with flags := (subFlags y.flags (y.rp d.val) (immP i) true).2 }) st

/-- SHIP (R252). -/
def execShip (x : Env) (d : Fin 16) (i : ImmI) (st : State) : Answer :=
  runLocal x (wordI 0x0C d.val i) (i.x || odd d.val) false 1
    (fun y => y.takePair d.val (shiftFlags (shType i) y.flags (y.rp d.val) (shAmount i))) st

-- address registers
/-- APUT (R255). -/
def execAput (x : Env) (a : Fin 8) (g : Fin 16) (st : State) : Answer :=
  runLocal x (wordAop 0 a.val (2 * g.val)) (decide (13 < g.val)) false 1 (fun y => y.setA a.val (y.rt g.val)) st

/-- AGET (R255). -/
def execAget (x : Env) (g : Fin 16) (a : Fin 8) (st : State) : Answer :=
  runLocal x (wordAop 1 a.val (2 * g.val)) (decide (13 < g.val)) false 1 (fun y => y.setT g.val (y.ra a.val)) st

/-- AMOV (R255). -/
def execAmov (x : Env) (a m : Fin 8) (st : State) : Answer :=
  runLocal x (wordAop 2 a.val (2 * m.val)) false false 1 (fun y => y.setA a.val (y.ra m.val)) st

/-- AADDW (R255). -/
def execAaddw (x : Env) (a : Fin 8) (g : Fin 16) (st : State) : Answer :=
  runLocal x (wordAop 3 a.val (2 * g.val)) false false 1
    (fun y => y.setA a.val (moveAddr (y.ra a.val) (y.rg g.val).toInt)) st

/-- AADDP (R255). -/
def execAaddp (x : Env) (a : Fin 8) (g : Fin 16) (st : State) : Answer :=
  runLocal x (wordAop 4 a.val (2 * g.val)) (odd g.val) false 1
    (fun y => y.setA a.val (moveAddr (y.ra a.val) (y.rp g.val).toInt)) st

/-- ACMP (R255). -/
def execAcmp (x : Env) (a m : Fin 8) (st : State) : Answer :=
  runLocal x (wordAop 5 a.val (2 * m.val)) false false 1
    (fun y => { y with flags := (subFlags y.flags (y.ra a.val) (y.ra m.val) true).2 }) st

/-- ASPC (R255). -/
def execAspc (x : Env) (a : Fin 8) (n : BitVec 2) (st : State) : Answer :=
  runLocal x (wordAop 6 a.val (2 * n.toNat)) false false 1
    (fun y => y.setA a.val (n ++ ((y.ra a.val).extractLsb' 0 52))) st

/-- The 24-bit number {G[g+1][7:0], G[g][15:0]} (R255). -/
def Engine.frameIn (y : Engine) (g : Nat) : Nat := bits (y.rg (g + 1)).toNat 7 0 * 65536 + bits (y.rg g).toNat 15 0

/-- AFRM (R255). -/
def execAfrm (x : Env) (a : Fin 8) (g : Fin 16) (st : State) : Answer :=
  runLocal x (wordAop 7 a.val (2 * g.val)) (odd g.val) false 1
    (fun y => y.setA a.val (withWaddr (y.ra a.val) (BitVec.ofNat 52 (y.frameIn g.val * 32768)))) st

/-- ATBL (R255). -/
def execAtbl (x : Env) (a : Fin 8) (g : Fin 16) (st : State) : Answer :=
  runLocal x (wordAop 8 a.val (2 * g.val)) (odd g.val) false 1
    (fun y => y.setA a.val (moveAddr (y.ra a.val) ((y.frameIn g.val * 1024 : Nat) : Int))) st

/-- AADDI (R255). -/
def execAaddi (x : Env) (a : Fin 8) (i : ImmA) (st : State) : Answer :=
  runLocal x (wordAaddi a.val i) (!i.ok) false i.len (fun y => y.setA a.val (moveAddr (y.ra a.val) i.val)) st

/-- ALI (R255). -/
def execAli (x : Env) (a : Fin 8) (space : BitVec 2) (i : ImmL) (st : State) : Answer :=
  runLocal x (wordAli a.val space.toNat i) (!i.ok) false i.len (fun y => y.setA a.val (space ++ BitVec.ofNat 52 i.val)) st

-- control transfer
/-- A branch from its own address (R256). -/
def branchTo (d : Dev) (e : Nat) (taken : Bool) (off : BitVec 8) (len : Nat) : Dev :=
  if taken then jumpTo d e ((d.engine e).pc + BitVec.ofInt 14 off.toInt) else advance d e len

/-- BR (R256). -/
def execBr (x : Env) (cond : Fin 16) (off : BitVec 8) (st : State) : Answer :=
  onDevice st (fun d => runInstr d x (wordB 0x28 cond.val off.toNat) false false (fun d =>
    branchTo d x.e.val (condHolds (d.engine x.e.val).flags cond.val) off 1))

/-- A target extension word has its bits 17:14 zero (R250). -/
def targetOk (ext : Word) : Bool := decide (ext.toNat < 2 ^ 14)

/-- JC (R256): off8 is zero. -/
def execJc (x : Env) (cond : Fin 16) (off : BitVec 8) (ext : Word) (st : State) : Answer :=
  onDevice st (fun d => runInstr d x (wordB 0x29 cond.val off.toNat) (off != 0 || !targetOk ext) false (fun d =>
    if condHolds (d.engine x.e.val).flags cond.val then jumpTo d x.e.val (ext.extractLsb' 0 14) else advance d x.e.val 2))

/-- CALL (R256): PC + 2 into G15. -/
def execCall (x : Env) (ext : Word) (st : State) : Answer :=
  onDevice st (fun d => runInstr d x (wordB 0x2A 0 0) (!targetOk ext) false (fun d =>
    jumpTo (d.updEngine x.e.val (fun y => y.setG 15 ((y.pc + 2).setWidth 18))) x.e.val (ext.extractLsb' 0 14)))

/-- JR (R256). -/
def execJr (x : Env) (g : Fin 16) (st : State) : Answer :=
  onDevice st (fun d => runInstr d x (wordB 0x2B g.val 0) false false (fun d =>
    jumpTo d x.e.val (((d.engine x.e.val).rg g.val).extractLsb' 0 14)))

/-- DJNZ (R256). -/
def execDjnz (x : Env) (g : Fin 16) (off : BitVec 8) (st : State) : Answer :=
  onDevice st (fun d => runInstr d x (wordB 0x2C g.val off.toNat) false false (fun d =>
    let v := (d.engine x.e.val).rg g.val - 1
    branchTo (d.updEngine x.e.val (fun y => y.setG g.val v)) x.e.val (v != 0) off 1))

-- status registers (R240)
/-- Status registers that user code may not read. -/
def statusHidden (n : Nat) : Bool :=
  !(n == 0 || n == 1 || n == 0x0A || (decide (0x0C ≤ n) && decide (n ≤ 0x12)) || n == 0x14)

/-- Quad cycles since the quad's domain came on: 8 in one tick of 5 ns. -/
def Dev.quadCycles (d : Dev) (e : Nat) : Nat := 8 * (d.glob.ticks - (d.engine e).onTick)

/-- The value of a status register. -/
def statusRead (d : Dev) (e n : Nat) : Word :=
  let y := d.engine e
  match n with
  | 0x00 => y.flags.setWidth 18
  | 0x01 => BitVec.ofNat 18 (b2n y.sup + fld 1 (b2n y.trans) + fld 2 (b2n y.guard) + fld 3 (b2n y.intrap))
  | 0x02 => y.cview.setWidth 18
  | 0x03 => y.tcause.setWidth 18
  | 0x04 => y.tpc.setWidth 18
  | 0x05 => y.tstat.setWidth 18
  | 0x06 => y.tval.extractLsb' 0 18
  | 0x07 => y.tval.extractLsb' 18 18
  | 0x08 => y.tval.extractLsb' 36 18
  | 0x09 => BitVec.ofNat 18 (fld 6 y.tvec.toNat)
  | 0x0A => BitVec.ofNat 18 (e + fld 5 (quadOf e))
  | 0x0B => y.labres.setWidth 18
  | 0x0C => BitVec.ofNat 18 (fld 4 y.iubase.toNat)
  | 0x0D => y.subase.setWidth 18
  | 0x0E => y.budget.extractLsb' 0 18
  | 0x0F => y.budget.extractLsb' 18 18
  | 0x10 => BitVec.ofNat 18 (d.quadCycles e)
  | 0x11 => BitVec.ofNat 18 (d.quadCycles e / 2 ^ 18)
  | 0x12 => BitVec.ofNat 18 (d.quadCycles e / 2 ^ 36)
  | 0x13 => BitVec.ofNat 18 y.wake.length
  | 0x14 => BitVec.ofNat 18 (b2n y.rsv.isSome)
  | _ => 0

/-- Word `k` of a 54-bit value replaced. -/
def setTriple (v : Info) (k : Nat) (w : Word) : Info :=
  (v &&& ~~~((0x3FFFF#54) <<< (18 * k))) ||| ((w.setWidth 54) <<< (18 * k))

/-- The engine after a write of a status register; one of BUDGET withdraws a BUDGET trap that is due (R248). -/
def statusWrite (y : Engine) (n : Nat) (w : Word) : Engine :=
  match n with
  | 0x00 => { y with flags := w.extractLsb' 0 6 }
  | 0x01 => { y with trans := w.getLsbD 1, guard := w.getLsbD 2 }
  | 0x02 => { y with cview := w.extractLsb' 0 12 }
  | 0x03 => { y with tcause := w.extractLsb' 0 6 }
  | 0x04 => { y with tpc := w.extractLsb' 0 14 }
  | 0x05 => { y with tstat := w.extractLsb' 0 3 }
  | 0x06 => { y with tval := setTriple y.tval 0 w }
  | 0x07 => { y with tval := setTriple y.tval 1 w }
  | 0x08 => { y with tval := setTriple y.tval 2 w }
  | 0x09 => { y with tvec := w.extractLsb' 6 8 }
  | 0x0C => { y with iubase := w.extractLsb' 4 10 }
  | 0x0D => { y with subase := w.extractLsb' 0 15 }
  | 0x0E => { y with budget := (y.budget.extractLsb' 18 18) ++ w, budgetDue := false }
  | 0x0F => { y with budget := w ++ (y.budget.extractLsb' 0 18), budgetDue := false }
  | _ => y

/-- MFS (R240, R257). -/
def execMfs (x : Env) (g : Fin 16) (n : BitVec 8) (st : State) : Answer :=
  onDevice st (fun d => runInstr d x (wordB 0x30 g.val n.toNat) false (statusHidden n.toNat) (fun d =>
    localDone d x.e.val 1 (fun y => y.setG g.val (statusRead d x.e.val n.toNat))))

/-- MTS (R240, R257): privileged but for FLAGS. -/
def execMts (x : Env) (n : BitVec 8) (g : Fin 16) (st : State) : Answer :=
  onDevice st (fun d => runInstr d x (wordB 0x31 g.val n.toNat) false (n != 0) (fun d =>
    localDone d x.e.val 1 (fun y => statusWrite y n.toNat (y.rg g.val))))

end Sys2Proof.Machine
end

