-- ==== Sys2Proof/Machine/Power.lean ====
section
/-! DEFINITION. Power domains and temperature (17_power_and_clocks.md). -/

namespace Sys2Proof.Machine

-- requests
/-- A power request arrives (R451, R452): it joins the queue, or finds it full. -/
def powerRequest (d : Dev) (o : Origin) (dom : Nat) (on : Bool) : Dev :=
  if d.glob.dev == .off then d
  else if 8 ≤ d.pwr.waiting.length then powerBusy d dom on 8
  else d.setPwr (fun p => { p with waiting := p.waiting ++ [⟨dom, on, o, none⟩] })

/-- The four engines of a quad. -/
def quadEngines (q : Nat) : List Nat := [4 * q, 4 * q + 1, 4 * q + 2, 4 * q + 3]

/-- A quad's engines let its domain go (R274). -/
def Dev.quadIdle (d : Dev) (q : Nat) : Bool :=
  (quadEngines q).all (fun e => (d.engine e).st == .stopped && (d.engine e).sb.isEmpty && (d.engine e).nt.isEmpty)

/-- A port or quad that failed the hub's self-test stays off (R389), as a port the package disables does. -/
def Dev.failedBlock (d : Dev) (dom : Nat) : Bool :=
  (decide (2 ≤ dom) && decide (dom ≤ 9) && (d.port (dom - 2)).failed)
    || (decide (11 ≤ dom) && decide (dom ≤ 15) && d.glob.lbist.getLsbD (dom - 3))

/-- The first row of R452 that refuses a request; rows in the order of the table. A failed port or quad is refused as reason 3,
which R452 gives for a disabled port (DESIGN CHOICE, log entry 133). -/
def Dev.powerReason (d : Dev) (dom : Nat) (on : Bool) : Option Nat :=
  let port := decide (2 ≤ dom) && decide (dom ≤ 9)
  let quad := decide (11 ≤ dom) && decide (dom ≤ 15)
  let tile := decide (16 ≤ dom) && decide (dom ≤ 23)
  let mc := decide (24 ≤ dom) && decide (dom ≤ 27)
  let t := dom - 16
  if d.glob.dev == .start || d.glob.resetPhase != .none then some 1
  else if 28 ≤ dom ∨ (on = false ∧ (dom = 0 ∨ dom = 1 ∨ dom = 10)) then some 2
  else if port && on && (d.port (dom - 2)).cfg.disabled then some 3
  else if on && d.failedBlock dom then some 3
  else if decide (20 ≤ dom) && decide (dom ≤ 23) && !d.glob.part1024 then some 3
  else if tile && !on && (d.tileSt t == .online || d.tileSt t == .draining || (d.tile t).bist == 1) then some 4
  else if tile && on && d.tileSt t == .retired then some 4
  else if quad && !on && !d.quadIdle (dom - 10) then some 5
  else if mc && !on && !(d.mc (dom - 24)).wb.isEmpty then some 5
  else if port && !on && (List.range 16).any (fun m => (d.ld (dom - 2) m).st == .attached) then some 6
  else if mc && !on && d.inService then some 7
  else if d.domOn dom == on then some 8
  else none

/-- An engine's memory-view cache is evicted, each line as a clean eviction (R156). -/
def evictMview (d : Dev) (e : Nat) : Dev :=
  let d := d.each (d.engine e).mview (fun d l =>
    (d.start { req := { src := .orphan e, agent := engAgent e, op := .cleanEvict, dpa := 64 * l.line, sup := true }
               slice := sliceOf (64 * l.line), t0 := d.glob.time }).1)
  d.updEngine e (fun x => { x with mview := [], rsv := none })

/-- Channels of a controller. -/
def channelsOf (m : Nat) : List Nat := (List.range 8).map (fun j => 8 * m + j)

/-- Channels of a controller enter self-refresh (R230). -/
def selfRefresh (d : Dev) (m : Nat) : Dev :=
  (d.each (channelsOf m) (fun d c => d.updChan c (fun x => { x with st := if x.st = 2 then 3 else x.st }))).updMc m
    (fun x => { x with selfRefresh := true })

/-- Step 2 of a switch-off (R454). -/
def offPrepare (d : Dev) (dom : Nat) : Dev :=
  if 2 ≤ dom ∧ dom ≤ 9 then linkDown d (dom - 2) 7
  else if 11 ≤ dom ∧ dom ≤ 15 then d.each (quadEngines (dom - 10)) evictMview
  else if 24 ≤ dom ∧ dom ≤ 27 then selfRefresh d (dom - 24)
  else d

/-- The sequencer checks the request at the head of its queue (R451, R452). -/
def powerCheck (d : Dev) : Dev :=
  match d.pwr.busy, d.pwr.waiting with
  | none, r :: rest =>
    let d := d.setPwr (fun p => { p with waiting := rest })
    match d.powerReason r.domain r.on with
    | some n => powerBusy d r.domain r.on n
    | none =>
      let d := d.setPwr (fun p => { p with
        busy := some r, lastDomain := BitVec.ofNat 5 r.domain, lastOn := r.on, lastResult := 0 })
      if r.on then d else offPrepare d r.domain
  | _, _ => d

/-- The clock islands of a domain as a mask (R456). -/
def islandsOf (dom : Nat) : BitVec 29 := BitVec.ofNat 29 (mapBits 29 (fun i => decide (islandDom i = dom)))

/-- A domain's bit of PWR_ON_MAP. Switched on, its PLLs lock (R455). -/
def setDomain (d : Dev) (dom : Nat) (on : Bool) : Dev :=
  d.setPwr (fun p => { p with
    on := if on then p.on ||| BitVec.ofNat 28 (2 ^ dom) else p.on &&& ~~~(BitVec.ofNat 28 (2 ^ dom))
    unlocked := if on then p.unlocked &&& ~~~(islandsOf dom) else p.unlocked })

/-- A block's counters read zero while its domain is off (R467). -/
def pmcLose (d : Dev) (b : Nat) : Dev := d.updPmc b (fun p => { p with cycle := 0, cnt := [] })

/-- What a port keeps while its domain is off: its package limits, what the pins and the LAB block of PD10 hold, and the
extents and shares Q0 keeps. -/
def Port.offState (p : Port) : Port :=
  { perst := p.perst, perstT := p.perstT, refclkLost := p.refclkLost, released := p.released, failed := p.failed, cfg := p.cfg
    cfgLoaded := p.cfgLoaded, handlers := p.handlers, hstatus := p.hstatus
    lds := p.lds.map (fun l => (l.1, { share := l.2.share, extents := l.2.extents, policy := l.2.policy
                                       records := l.2.records, recOverflow := l.2.recOverflow : Ld })) }

/-- Records in the output buffers of a domain's blocks are lost with it, and counted (R14, R346). -/
def loseRecords (d : Dev) (dom : Nat) : Dev :=
  let mine := d.sources.filter (fun s => decide (srcDom s.1 = dom))
  { d with
    evt := { d.evt with lost := satAdd 32 d.evt.lost ((mine.map (fun s => s.2.buf.length)).foldl (· + ·) 0) }
    sources := d.sources.map (fun (s : Nat × Source) => if srcDom s.1 = dom then (s.1, { s.2 with buf := [] }) else s) }

/-- A domain's local state is lost when its switch opens (R454, R272). DESIGN CHOICE (log entry 146): an engine of a quad that
is off shows its PC, CAUSE and SUP at their reset values. -/
def loseDomain (d : Dev) (dom : Nat) : Dev :=
  let d := loseRecords d dom
  if 2 ≤ dom ∧ dom ≤ 9 then
    let p := dom - 2
    let d := d.each ((d.port p).slots.map (·.1)) (fun d k => failSlot d p k)
    pmcLose (d.updPort p Port.offState) p
  else if 11 ≤ dom ∧ dom ≤ 15 then
    let q := dom - 10
    let d := d.each (quadEngines q) (fun d e => (d.engine e).wakeIn.foldl (fun d r => dropWake d e r) d)
    let d := d.each (quadEngines q) (fun d e => markHandlers (d.updEngine e (fun x =>
      { traps := x.traps, startPc := x.startPc, wakeDrops := x.wakeDrops, wakeRun := x.wakeRun : Engine })) e)
    { d with qlabs := Tab.del d.qlabs q }
  else if 16 ≤ dom ∧ dom ≤ 23 then
    loseCells (d.updTile (dom - 16) (fun t => { t with repeat_ := [] })) (dom - 16)
  else if 24 ≤ dom ∧ dom ≤ 27 then
    let m := dom - 24
    let d := finishRepairs d m
    let d := d.each (channelsOf m) (fun d c => d.updChan c (fun x => { st := x.st, trained := x.trained, bad := x.bad, badChk := x.badChk : Chan }))
    pmcLose (d.updMc m (fun x => { rate := x.rate, selfRefresh := true : Mc })) (24 + m)
  else d

/-- PWR_DONE (R463). -/
def powerDone (d : Dev) (dom : Nat) (on : Bool) : Dev :=
  raise (d.setPwr (fun p => { p with busy := none })) 480 0 0 (info (dom + fld 5 (b2n on)))

/-- Items in flight are delivered and their credits return before a domain goes off (R454 step 3): what is on its way into a
controller's domain or in it, its write buffer, and the clean evictions of a quad. -/
def Dev.crossing (d : Dev) (dom : Nat) : Bool :=
  if 24 ≤ dom then
    !(d.mc (dom - 24)).wb.isEmpty
      || d.xacts.any (fun x => (x.2.mem != .idle || x.2.phase == .toBuffer) && decide (mcDom (mcOf x.2.req.dpa) = dom))
  else d.xacts.any (fun x => match x.2.req.src with
    | .engine e => decide (quadDom (quadOf e) = dom)
    | .call e => decide (quadDom (quadOf e) = dom)
    | .orphan e => x.2.req.op == .cleanEvict && decide (quadDom (quadOf e) = dom)
    | _ => false)

/-- A switch-off ends (R454). -/
def offDone (d : Dev) : Dev :=
  match d.pwr.busy with
  | some r => if r.on || d.crossing r.domain then d else powerDone (setDomain (loseDomain d r.domain) r.domain false) r.domain false
  | none => d

/-- A STOPPED engine starts (R272): registers cleared, status registers at their values at start (log entry 41). -/
def startEngine (d : Dev) (e : Nat) (pc : BitVec 14) : Dev :=
  if d.engSt e != .stopped || d.leaving (quadDom (quadOf e)) then d
  else d.updEngine e (fun x => { x with
    st := .running, g := [], a := [], flags := 0, sup := true, trans := false, guard := false, intrap := false, cview := 0
    tcause := 0, tpc := 0, tstat := 0, tval := 0, tvec := 0, labres := 0, iubase := 0, subase := 0, budget := 0
    budgetDue := false, rsv := none, scpFails := 0, fault := none, wait := .none, wake := [], deferred := []
    pc := pc, startPc := pc })

/-- A quad's engines start at the PC their control registers hold, once Q0 has copied the catalogue (R399, R455). -/
def startQuad (d : Dev) (q : Nat) : Dev :=
  if d.q0Runs then d.each (quadEngines q) (fun d e => startEngine d e (d.engine e).startPc) else d

/-- Step 5 of a switch-on (R455). -/
def onStart (d : Dev) (dom : Nat) : Dev :=
  if 2 ≤ dom ∧ dom ≤ 9 then startTrain d (dom - 2)
  else if 11 ≤ dom ∧ dom ≤ 15 then
    startQuad (d.each (quadEngines (dom - 10)) (fun d e => d.updEngine e (fun x => { x with onTick := d.glob.ticks }))) (dom - 10)
  else if 24 ≤ dom ∧ dom ≤ 27 then
    (d.each (channelsOf (dom - 24)) (fun d c => d.updChan c (fun x => { x with st := if x.st = 3 then 2 else x.st }))).updMc
      (dom - 24) (fun x => { x with selfRefresh := false })
  else d

/-- A switch-on ends (R455). -/
def onDone (d : Dev) : Dev :=
  match d.pwr.busy with
  | some r => if r.on then powerDone (onStart (setDomain d r.domain true) r.domain) r.domain true else d
  | none => d

/-- POWER_ON_REQUEST (R451). -/
def execPowerOnRequest (o : Origin) (domain : BitVec 5) (s : State) : Answer :=
  onDevice s (fun d => powerRequest d o domain.toNat true)

/-- POWER_OFF_REQUEST (R451). -/
def execPowerOffRequest (o : Origin) (domain : BitVec 5) (s : State) : Answer :=
  onDevice s (fun d => powerRequest d o domain.toNat false)

/-- POWER_REQUEST_CHECK (R452). -/
def execPowerRequestCheck (s : State) : Answer := onDevice s powerCheck

/-- POWER_OFF_DONE (R454). -/
def execPowerOffDone (s : State) : Answer := onDevice s offDone

-- temperature
/-- A sensor's tile is off or absent: it reads invalid (R460). -/
def Dev.sensorOff (d : Dev) (i : Nat) : Bool := decide (16 ≤ i) && !d.domOn (tileDom (i - 16))

/-- A sensor's reading is taken: none fails its range check (R460). -/
def takeReading (d : Dev) (i : Nat) (r : Option Int) : Dev :=
  let put (d : Dev) (v : Nat) (ok : Bool) : Dev :=
    d.setPwr (fun p => { p with sensors := Tab.put p.sensors i (BitVec.ofNat 8 v, ok) })
  if d.sensorOff i || d.pwr.faulty.getLsbD i then put d 0 false
  else match r with
  | some t => put d (min t.toNat 255) true
  | none => raise (put (d.setPwr (fun p => { p with faulty := p.faulty ||| BitVec.ofNat 24 (2 ^ i) })) 0 false) 487 2 2 (info i)

/-- The hottest valid sensor, the lowest of several, and its reading. -/
def Dev.hottest (d : Dev) : Option (Nat × Nat) :=
  (List.range 24).foldl (fun b i =>
    match (if d.sensorOff i then none else Tab.find d.pwr.sensors i), b with
    | some (v, true), none => some (i, v.toNat)
    | some (v, true), some (_, w) => if w < v.toNat then some (i, v.toNat) else b
    | _, _ => b) none

/-- THM_CTRL fields. -/
def Pwr.throttleAt (p : Pwr) : Nat := bits p.thmCtrl.toNat 6 0
def Pwr.thermAt (p : Pwr) : Nat := bits p.thmCtrl.toNat 13 7

/-- The throttle level after a reading (R461). -/
def Pwr.nextLevel (p : Pwr) (tj : Nat) : Nat :=
  let a := p.throttleAt
  if !p.thmCtrl.getLsbD 14 then 0
  else if a + 3 ≤ tj ∨ (p.level = 2 ∧ a < tj + 2) then 2
  else if a ≤ tj ∨ (p.level ≠ 0 ∧ a < tj + 5) then 1
  else 0

/-- THERM_N (R461, R462). -/
def thermPin (d : Dev) (i tj : Nat) : Dev :=
  let a := d.pwr.thermAt
  let low := d.pwr.shut || decide (a ≤ tj) || (d.glob.thermN && decide (a < tj + 3))
  if low = d.glob.thermN then d
  else raise (d.setGlob (fun g => { g with thermN := low })) 482 0 1 (info (i + fld 5 tj + fld 13 (b2n low)))

/-- The throttle level (R461). -/
def throttle (d : Dev) (i tj : Nat) : Dev :=
  let n := d.pwr.nextLevel tj
  if n = d.pwr.level.toNat then d
  else raise (d.setPwr (fun p => { p with level := BitVec.ofNat 2 n })) 483 0 1 (info (n + fld 2 i + fld 7 tj))

/-- Shutdown at 115 °C (R461, R462). A device that a reset holds until it has cooled is not shut down again (DESIGN CHOICE, log
entry 130). -/
def shutdown (d : Dev) (i tj : Nat) : Dev :=
  if tj < 115 ∨ d.pwr.shut = true ∨ (d.glob.resetPhase = .held ∧ d.glob.thermHold.isSome = true) then d
  else
    let d := d.setPwr (fun p => { p with shut := true })
    let d := d.each [0, 1, 2, 3] selfRefresh
    let d := raise d 484 3 3 (info (d.pwr.nextLevel tj + fld 2 i + fld 7 tj))
    enterRecovery d 7 (info (i + fld 8 tj))

/-- A sample of the sensors (R460, R461). -/
def sample (d : Dev) (readings : List (Option Int)) : Dev :=
  let d := d.each (List.range 24) (fun d i => takeReading d i (readings.getD i none))
  match d.hottest with
  | none => d
  | some (i, tj) =>
    let d := d.setPwr (fun p => { p with tjMax := BitVec.ofNat 8 tj, hottest := BitVec.ofNat 5 i })
    throttle (thermPin (shutdown d i tj) i tj) i tj

/-- THERMAL_SAMPLE (R461). -/
def execThermalSample (readings : List (Option Int)) (s : State) : Answer :=
  if readings.length = 24 then onDevice s (fun d => if d.glob.dev == .off then d else sample d readings) else .fault .illFormed

end Sys2Proof.Machine
end

