-- ==== Sys2Proof/Machine/RegRead.lean ====
section
/-! DEFINITION. The registers as they read: every register table of the spec, by dword offset in BAR0 (R476, R490-R492 and
the tables they name). An offset that no table lists reads zero (R478). -/

namespace Sys2Proof.Machine

/-- Low or high dword of a 64-bit value, by its offset. -/
def half (hi : Bool) (v : Nat) : Nat := if hi then v / 2 ^ 32 % 2 ^ 32 else v % 2 ^ 32

/-- Digest of the image that runs (R445, R447); zero where none does. -/
def Dev.fwDigest (d : Dev) : BitVec 512 :=
  match d.glob.fwImg with
  | some i => i.digest
  | none => 0

/-- SVN of the image that runs. -/
def Dev.fwSvn (d : Dev) : Nat :=
  match d.glob.fwImg with
  | some i => i.svn.toNat
  | none => 0

/-- Contents of the fuse banks as one number. -/
def bankNumber (t : Tab (BitVec 512)) : Nat := t.foldl (fun n f => n + f.2.toNat * 2 ^ (512 * f.1)) 0

/-- The fuse banks as loaded (R384, R447): the part, the banks FUSE_PROGRAM wrote, the floor and the repairs of each tile. -/
def Dev.fuseNumber (d : Dev) : Nat :=
  (List.range 8).foldl (fun n t =>
    (List.range 64).foldl (fun n b => 256 * n + 4 * Tab.get 0 (d.tile t).fuseRows b + Tab.get 0 (d.tile t).fuseGroups b) n)
    (b2n d.glob.part1024 + fld 1 d.sec.floor.toNat + fld 8 (bankNumber d.sec.fused))

-- keys
/-- The maker key, where the key in flash has the digest fused (R425, R432). Keys stand as their digests. -/
def Sec.makerKey (s : Sec) : Option (BitVec 512) :=
  if s.fused = [] ∨ Config.fusedMaker (bankNumber s.fused) = Config.makerKey then some Config.makerKey else none

/-- The installer key: its record is signed by the maker key, and absent without one (R432). -/
def Sec.installerKey (s : Sec) : Option (BitVec 512) := if s.makerKey.isSome then s.installer else none

/-- The firmware authority key: its record is signed by the installer key (R432). -/
def Sec.authorityKey (s : Sec) : Option (BitVec 512) :=
  if s.installerKey.isSome && s.authSigner == s.installerKey then s.authority else none

/-- GLB_STATE.CAUSE (R490). -/
def Dev.stateCause (d : Dev) : Nat :=
  match d.glob.dev with
  | .held => d.glob.heldCause.toNat
  | .recovery => d.glob.cause.toNat
  | _ => 0

/-- GLB_START_STATUS (R408). -/
def Dev.startStatus (d : Dev) : Nat :=
  d.glob.step + fld 5 d.glob.heldCause.toNat + fld 8 (b2n d.glob.quick) + fld 9 (b2n d.glob.fwSlot) + fld 10 (b2n d.glob.fwFallback)
    + fld 11 (b2n d.glob.memKept)
/-- Sets walked by the slowest slice under PARK (R328). -/
def Dev.parkDone (d : Dev) : Nat :=
  if d.park.st = 0 then 0 else (List.range 16).foldl (fun m s => min m (d.parked s)) 32768

/-- GLB (R490, R328, R408, R424). -/
def glbRead (d : Dev) (r : Nat) : Nat :=
  let g := d.glob
  match r with
  | 0x00 => if g.part1024 then 0xFF1024 else 0x0F0512
  | 0x04 => 0x11
  | 0x08 => match g.fwImg with
    | some i => i.version.toNat
    | none => 0
  | 0x0C => g.gen.toNat
  | 0x10 => g.dev.code + fld 3 d.stateCause
  | 0x20 => g.targetTimeout.toNat
  | 0x24 => b2n g.lockTables + fld 1 (b2n g.lockRmap)
  | 0x44 => d.park.st.toNat + fld 2 d.parkDone
  | 0x4C => b2n g.fullBist + fld 1 (b2n g.fullTrain)
  | 0x50 => d.startStatus
  | 0x54 => g.lbist.toNat
  | 0x5C => b2n d.resync.busy + fld 1 (b2n d.resync.pending) + fld 2 (b2n d.resync.noQ0) + fld 3 d.resync.seq.toNat
  | _ => 0

/-- PRT_LD_AGENT_m (R210). -/
def Dev.ldAgent (d : Dev) (p m : Nat) : Nat :=
  let l := d.ld p m
  match l.st with
  | .unbound => 0
  | _ => l.agent.toNat + fld 12 l.epoch.toNat + fld 16 (if l.st = .attached then 1 else 2) + fld 18 (b2n l.hdmDb) + fld 19 l.view.toNat

/-- PRT_LD_BOUND and PRT_LD_MODE. -/
def Dev.ldBound (d : Dev) (p : Nat) : Nat := mapBits 16 (fun m => (d.ld p m).st != .unbound)
def Dev.ldMode (d : Dev) (p : Nat) : Nat := mapBits 16 (fun m => (d.ld p m).st != .unbound && (d.ld p m).hdmDb)

/-- PRT of a port (R210, R491 and 02_agent_ports.md). -/
def prtRead (d : Dev) (p r : Nat) : Nat :=
  let x := d.port p
  if 0x40 ≤ r ∧ r < 0x80 then d.ldAgent p ((r - 0x40) / 4)
  else if 0x80 ≤ r ∧ r < 0xC0 then
    match Tab.find d.binds (16 * p + (r - 0x80) / 4) with
    | some v => v.toNat + fld 12 1
    | none => 0
  else match r with
  | 0x00 => d.linkStatus p
  | 0x04 => x.replayThresh.toNat
  | 0x08 => d.ldBound p
  | 0x0C => d.ldMode p
  | 0x10 => x.drops
  | 0x20 => if x.cfgLoaded then x.cfg.maxWidth.toNat + fld 2 x.cfg.maxRate.toNat + fld 4 x.cfg.lds.toNat + fld 9 (b2n x.cfg.disabled)
    else 0
  | _ => 0

/-- LAB (R92). -/
def labRead (d : Dev) (r : Nat) : Nat :=
  if r < 0x200 then
    let p := d.port (r / 0x40)
    match r % 0x40 with
    | 0x00 => p.handlers.toNat
    | 0x04 => labLocked p.lab
    | 0x08 => mapBits 32 (fun k => (Tab.find p.slots k).isSome)
    | 0x0C => p.hstatus.toNat
    | _ => 0
  else if r < 0x260 then (if r % 0x10 = 0 then labLocked (d.lab (8 + (r - 0x200) / 0x10)) else 0)
  else if r = 0x300 then d.glob.tableBase.toNat
  else if r = 0x304 then d.glob.tableSize.toNat
  else 0

/-- A tile or bank walk runs in a slice (R152). -/
def Dev.walkBusy (d : Dev) (s : Nat) : Bool := 0 < (d.slice s).walks

/-- SLC of a slice (R152, R492). -/
def slcRead (d : Dev) (s r : Nat) : Nat :=
  let x := d.slice s
  match r with
  | 0x000 => x.ctrl.toNat
  | 0x004 => b2n x.tagsClean + fld 1 (b2n (d.walkBusy s)) + fld 2 (d.missRegs s) + fld 9 x.side.length
  | 0x008 => mapBits 16 (fun w => (decide (w < 8) || d.glob.part1024) && d.tileSt (tileOfWay w) == .online)
  | 0x00C => (x.tags.filter (fun e => e.2.lock)).length
  | 0x010 => x.lockedInval
  | 0x100 => d.recallRegs s + fld 5 x.flushQueue.length + fld 8 (b2n x.flush.isSome) + fld 9 x.guards.length
  | 0x104 => match x.flush with
    | some f => f.dset + fld 15 f.next
    | none => 0
  | 0x108 => x.dirCe
  | 0x10C => x.dirUe
  | _ => 0

/-- Sets walked by the slowest slice in the running pass (R208, R211). -/
def Dev.slowestWalk (d : Dev) : Nat :=
  if d.glob.sweepActive then (List.range 16).foldl (fun n s => min n (d.slice s).walked) 32768 else 0

/-- DIR (R185, R211). -/
def dirRead (d : Dev) (r : Nat) : Nat :=
  let g := d.glob
  match r with
  | 0x000 => b2n g.rddataE
  | 0x004 => g.bisnpTimeout.toNat
  | 0x008 => g.rmapBase.toNat
  | 0x00C => mapBits 16 (fun s => (d.slice s).flush.isSome)
  | 0x010 => g.dirFlushes
  | 0x014 => g.dirGuards
  | 0x018 => (List.range 16).foldl (fun n s => n + d.recallRegs s) 0
  | 0x100 => d.attachedAll + fld 8 d.resigningAll
  | 0x104 => b2n g.sweepActive + fld 1 d.slowestWalk + fld 17 g.sweepCovered
  | 0x108 => g.resigns
  | 0x10C => g.linesLost
  | _ => 0

/-- MEM_CH_STATE.STATE: 4 while a retraining is due, which the next WRITE_DQ_RETRAINING runs (log entry 118). -/
def Dev.chanCode (d : Dev) (c : Nat) : Nat :=
  let x := d.chan c
  if x.st = 2 ∧ (x.retrainDue = true ∨ (d.mc (c / 8)).driftLimit.toNat ≤ x.drift.toNat) then 4 else x.st.toNat

/-- MEM of a controller (R236). -/
def memRead (d : Dev) (m r : Nat) : Nat :=
  let x := d.mc m
  let loaded := d.glob.gen != 0
  if 0x100 ≤ r ∧ r < 0x120 then
    let k := 8 * m + (r - 0x100) / 4
    let c := d.chan k
    d.chanCode k + fld 3 (b2n c.refreshX2) + fld 4 c.retrains + fld 12 c.mr4.toNat
  else match r with
  | 0x000 => if loaded then d.glob.memRate.toNat + fld 3 d.glob.pop.density.toNat + fld 5 (b2n d.glob.pop.ranks) else 0
  | 0x004 =>
    let off := match d.pwr.busy with
      | some q => !q.on && decide (q.domain = mcDom m)
      | none => false
    x.rate.toNat + fld 3 x.wb.length + fld 12 (b2n (d.glob.resetPhase == .draining || off)) + fld 13 (b2n (x.selfRefresh || (List.range 8).all (fun j => (d.chan (8 * m + j)).st == 3)))
  | 0x008 => if loaded then d.limit / 2 ^ 25 else 0
  | 0x00C => x.drainAge.toNat
  | 0x010 => x.driftLimit.toNat
  | 0x014 => x.ce
  | 0x018 => x.ue
  | 0x01C => x.rmw
  | _ => 0

/-- Spares in use on a tile (R394). -/
def Tile.rowsUsed (t : Tile) (b : Nat) : Nat := Tab.get 0 t.softRows b + Tab.get 0 t.fuseRows b
def Tile.groupsUsed (t : Tile) (b : Nat) : Nat := Tab.get 0 t.softGroups b + Tab.get 0 t.fuseGroups b

/-- A failing entry as the list shows it (R391). -/
def failValue (t : Nat) (f : BistEntry × Bool) : Nat :=
  t + fld 3 f.1.bank.toNat + fld 9 f.1.row.toNat + fld 23 f.1.column.toNat + fld 28 f.1.bit.toNat + fld 35 f.1.kind.toNat
    + fld 37 (b2n f.2)

/-- TIL (R153, R409, R391). -/
def tilRead (d : Dev) (r : Nat) : Nat :=
  let t := r / 0x1000 % 8
  let x := d.tile t
  if 0x8000 ≤ r then
    match x.fails[r % 0x1000 / 16]? with
    | some f => if r % 16 / 4 = 3 then 0 else failValue t f / 2 ^ (18 * (r % 16 / 4)) % 2 ^ 18
    | none => 0
  else match r % 0x1000 with
  | 0x000 => (d.tileSt t).code + fld 3 x.cause.toNat
  | 0x008 => half false x.retireMap.toNat
  | 0x00C => half true x.retireMap.toNat
  | 0x010 => x.ce
  | 0x014 => x.ue
  | 0x018 => half false x.unrepaired.toNat
  | 0x01C => half true x.unrepaired.toNat
  | 0x020 => x.bist.toNat + fld 3 (b2n x.incomplete) + fld 4 (b2n x.sigMatch) + fld 5 (b2n x.overflow) + fld 6 x.fails.length
      + fld 15 (b2n x.quarter)
  | 0x028 => half false x.signature.toNat
  | 0x02C => half true x.signature.toNat
  | 0x030 => (List.range 64).foldl (fun n b => n + x.rowsUsed b) 0 + fld 11 ((List.range 64).foldl (fun n b => n + x.groupsUsed b) 0)
      + fld 20 (b2n x.mapValid)
  | _ => 0

/-- Code of ENG_STATE_e.STATE (R276). -/
def EngState.code : EngState → Nat
  | .stopped => 0 | .running => 1 | .waiting => 2 | .halted => 3 | .off => 4

/-- ENG_STATE_e (R276). -/
def Dev.engState (d : Dev) (e : Nat) : Nat :=
  let x := d.engine e
  (d.engSt e).code + fld 3 (b2n x.sup) + fld 4 (b2n x.intrap) + fld 5 (b2n x.double) + fld 6 x.lastCause.toNat

/-- ENG (R276). -/
def engRead (d : Dev) (r : Nat) : Nat :=
  if 24 * 0x10 ≤ r then 0
  else match r % 0x10 with
  | 0x0 => d.engState (r / 0x10)
  | 0x4 => (d.engine (r / 0x10)).pc.toNat
  | 0x8 => (d.engine (r / 0x10)).traps
  | _ => 0

/-- QUE_STATUS_n (R353). -/
def Pair_.status (p : Pair_) : Nat :=
  p.st.toNat + fld 2 p.port.toNat + fld 5 p.ld.toNat + fld 9 p.lastClose.toNat + fld 11 p.openings.toNat

/-- QUE (R353). -/
def queRead (d : Dev) (r : Nat) : Nat :=
  if r = 0x800 then mapBits 32 (fun n => (d.pair n).isOpen)
  else if r = 0x804 then mapBits 32 (fun n => (d.pair (32 + n)).isOpen)
  else if 0x800 ≤ r then 0
  else
    let p := d.pair (r / 0x20)
    match r % 0x20 with
    | 0x00 => b2n (p.st != 0) + fld 1 p.cplVec.toNat + fld 7 (b2n p.cplMsi)
    | 0x04 => p.status
    | 0x08 => p.serve.toNat
    | 0x0C => p.cmdProd.toNat + fld 8 p.cmdCons.toNat + fld 16 p.credits
    | 0x10 => p.cplProd.toNat + fld 8 p.cplHead.toNat + fld 16 p.poolNow
    | 0x14 => p.cplHead.toNat
    | 0x18 => p.thresh.toNat + fld 8 p.timeout.toNat
    | 0x1C => p.bad
    | _ => 0

/-- A slot of an event-queue entry (R351): zero where the queue has not written it. -/
def ringSlot (q : Evq) (e j : Nat) : Nat :=
  match Tab.find q.ring e with
  | none => 0
  | some (r, ph) =>
    if j < 4 then (r.words.getD j 0).toNat else if j = 4 then b2n ph else r.t / 2 ^ (18 * (j - 5)) % 2 ^ 18

/-- EVT (R354). -/
def evtRead (d : Dev) (r : Nat) : Nat :=
  if r < 0x800 then (d.source (r / 4)).route.toNat
  else if r < 0x890 then
    let q := d.evq ((r - 0x800) / 0x10)
    match r % 0x10 with
    | 0x0 => q.ctrl.toNat
    | 0x4 => q.tail.toNat + fld 8 q.head.toNat + fld 16 q.overflow
    | 0x8 => q.head.toNat
    | _ => 0
  else if r = 0x900 then d.evt.portLd.toNat
  else if r = 0x904 then d.evt.lost
  else if r = 0x908 then d.evt.wakeDrops
  else if 0x4000 ≤ r ∧ r < 0xD000 then ringSlot (d.evq ((r - 0x4000) / 0x1000)) (r % 0x1000 / 32) (r % 32 / 4)
  else 0

/-- Words of an error-log entry (R361). -/
def LogEntry.word (e : LogEntry) (j : Nat) : Nat :=
  let triple (v i : Nat) : Nat := v / 2 ^ (18 * i) % 2 ^ 18
  match j with
  | 0 => e.source + fld 9 e.kind + fld 14 (b2n e.va) + fld 15 (b2n e.poisoned) + fld 16 1
  | 1 => triple e.location.toNat 0
  | 2 => triple e.location.toNat 1
  | 3 => triple e.location.toNat 2
  | 4 => e.agent.toNat + fld 12 e.epoch.toNat
  | 5 => e.view.toNat + fld 12 e.port.toNat
  | 6 => e.ld.toNat
  | 7 => e.count
  | 8 => triple e.first 0
  | 9 => triple e.first 1
  | 10 => triple e.first 2
  | 11 => triple e.last 0
  | 12 => triple e.last 1
  | 13 => triple e.last 2
  | 14 => e.detail.toNat
  | _ => e.upd.toNat

/-- ERR_FLIP_CTRL (R379). -/
def Err.flipCtrl (e : Err) : Nat :=
  b2n e.flipArm + fld 1 (b2n e.flipMatch) + fld 2 e.flipPath.toNat + fld 6 e.flipInst.toNat + fld 11 (b2n e.flipFired)
    + fld 16 e.flipChk.toNat

/-- ERR (R379). -/
def errRead (d : Dev) (r : Nat) : Nat :=
  let e := d.err
  if 0x8000 ≤ r then
    match Tab.find e.log ((r - 0x8000) / 64) with
    | some x => x.word (r % 64 / 4)
    | none => 0
  else if 0x4000 ≤ r ∧ r < 0x5000 then (d.rlogAt ((r - 0x4000) / 4)).toNat
  else match r with
  | 0x000 => e.log.length
  | 0x004 => e.drops
  | 0x010 => e.sweepRate.toNat
  | 0x014 => e.patrolHours.toNat
  | 0x020 => e.flipCtrl
  | 0x028 => half false e.flipMask.toNat
  | 0x02C => half true e.flipMask.toNat
  | 0x030 => half false e.flipAddr.toNat
  | 0x034 => half true e.flipAddr.toNat
  | 0x038 => b2n e.lockFlip
  | 0x040 => bits (d.rlogAt 0).toNat 3 0 + fld 4 (b2n d.fatalSet)
  | _ => 0

/-- An island runs locked (R464). -/
def Dev.islandLocked (d : Dev) (i : Nat) : Bool :=
  d.islandRuns i && !(decide (2 ≤ i) && decide (i ≤ 9) && (d.port (i - 2)).refclkLost)

/-- PWR/CLK (R464). -/
def pwrRead (d : Dev) (r : Nat) : Nat :=
  let p := d.pwr
  if 0x100 ≤ r ∧ r < 0x160 then
    let i := (r - 0x100) / 4
    let v := if d.sensorOff i then (0, false) else Tab.get (0, false) p.sensors i
    v.1.toNat + fld 8 (b2n v.2)
  else match r with
  | 0x004 => b2n p.busy.isSome + fld 1 p.waiting.length + fld 5 p.lastDomain.toNat + fld 10 (b2n p.lastOn) + fld 11 p.lastResult.toNat
  | 0x008 => p.on.toNat
  | 0x010 => p.thmCtrl.toNat
  | 0x014 => p.tjMax.toNat + fld 8 p.hottest.toNat + fld 13 p.level.toNat + fld 15 (b2n d.glob.thermN)
  | 0x040 => mapBits 29 d.islandLocked
  | _ => 0

/-- Type of a counter block (R474). -/
def pmcType (b : Nat) : Nat := if b < 8 then 0 else if b < 24 then 1 else 2

/-- PMC_USER_EN.LIVE (R473). -/
def Dev.pmcLive (d : Dev) : Bool := d.pmcUserEn && d.inService

/-- PMC (R474). Counters of a block whose domain is off read zero (R467). -/
def pmcRead (d : Dev) (r : Nat) : Nat :=
  if r = 0x2000 then b2n d.pmcUserEn + fld 1 (b2n d.pmcLive)
  else if 28 * 0x100 ≤ r then 0
  else
    let b := r / 0x100
    let p := d.pmc b
    let k := r % 0x100
    let hi := decide (k % 8 = 4)
    if 0x40 ≤ k ∧ k < 0x60 then (Tab.get 0 p.sel ((k - 0x40) / 4)).toNat
    else if 0x60 ≤ k ∧ k < 0xA0 then (if d.pmcOn b then half hi (Tab.get 0 p.cnt ((k - 0x60) / 8)).toNat else 0)
    else match k with
    | 0x00 => b2n p.run + fld 2 (b2n p.cycInt)
    | 0x04 => p.ovf.toNat + fld 9 (pmcType b)
    | 0x08 => p.master.toNat
    | 0x10 => half false p.addrBase.toNat
    | 0x14 => half true p.addrBase.toNat
    | 0x18 => half false p.addrLimit.toNat
    | 0x1C => half true p.addrLimit.toNat
    | 0x20 => if d.pmcOn b then half false p.cycle.toNat else 0
    | 0x24 => if d.pmcOn b then half true p.cycle.toNat else 0
    | _ => 0

/-- A commit record with its CRC over the rest of it (R443). -/
def CommitRec.sealed (c : CommitRec) : CommitRec :=
  { c with crc := crc32 (leBytes 4 c.counter ++ leBytes 1 (b2n c.slot) ++ leBytes 64 c.digest.toNat) }

/-- The valid record of a sector: one whose CRC fails is ignored. -/
def validRec (c : Option CommitRec) : Option CommitRec := c.filter (fun c => c.sealed == c)

/-- The newest valid commit record, and whether it stands in the second sector (R443). -/
def Sec.named (s : Sec) : Option (CommitRec × Bool) :=
  match validRec s.commit0, validRec s.commit1 with
  | some a, some b => if a.counter < b.counter then some (b, true) else some (a, false)
  | some a, none => some (a, false)
  | none, some b => some (b, true)
  | none, none => none

/-- SVN of a slot's image. -/
def FwSlot.svn (f : FwSlot) : Nat :=
  match f.img with
  | some i => i.svn.toNat
  | none => 0

/-- Four bytes of a little-endian value. -/
def dwordOf (v i : Nat) : Nat := v / 2 ^ (32 * i) % 2 ^ 32

/-- Dword `i` of a journal entry. -/
def jDword (e : JEntry) (i : Nat) : Nat := ((jBytes e).drop (4 * i)).take 4 |>.foldr (fun b n => b.toNat + 256 * n) 0

/-- SEC/JNL (R449). -/
def secRead (d : Dev) (r : Nat) : Nat :=
  let s := d.sec
  if 0x040 ≤ r ∧ r < 0x080 then dwordOf s.head.toNat ((r - 0x040) / 4)
  else if 0x080 ≤ r ∧ r < 0x0C0 then dwordOf s.base.toNat ((r - 0x080) / 4)
  else if 0x100 ≤ r ∧ r < 0x160 then
    match Tab.find s.journal s.select.toNat with
    | some e => jDword e ((r - 0x100) / 4)
    | none => 0
  else match r with
  | 0x000 => b2n s.installerKey.isSome + fld 1 (b2n s.authorityKey.isSome) + fld 2 (b2n d.glob.fwSlot) + fld 3 s.floor.toNat
      + fld 10 d.fwSvn + fld 17 (b2n s.testArmed) + fld 18 (b2n s.mirrorFault)
  | 0x004 => b2n s.slotA.valid + fld 1 s.slotA.svn + fld 8 (b2n s.slotB.valid) + fld 9 s.slotB.svn
      + fld 16 (match s.named with
        | some n => b2n n.1.slot
        | none => 0)
  | 0x010 => s.nextSeq
  | 0x014 => s.mirrored
  | 0x018 => s.select.toNat
  | 0x01C => s.gaps
  | _ => 0

/-- The dword at an offset of BAR0, per-function ranges aside. -/
def regRead (d : Dev) (off : Nat) : Nat :=
  let r := off % 0x10000 / 4 * 4
  match off / 0x10000 with
  | 0x0 => glbRead d r
  | 0x1 => if r / 0x1000 < 8 then prtRead d (r / 0x1000) (r % 0x1000) else 0
  | 0x2 => labRead d r
  | 0x3 => slcRead d (r / 0x1000) (r % 0x1000)
  | 0x4 => dirRead d r
  | 0x5 => memRead d (r / 0x4000) (r % 0x4000)
  | 0x6 => tilRead d r
  | 0x7 => engRead d r
  | 0x8 => queRead d r
  | 0x9 => evtRead d r
  | 0xA => errRead d r
  | 0xB => pwrRead d r
  | 0xC => pmcRead d r
  | 0xD => secRead d r
  | _ => 0

/-- A memory BAR (R475). -/
structure Bar where
  bits64 : Bool
  size : Nat
  prefetchable : Bool
  deriving DecidableEq, Repr

/-- What the configuration space of an LD's function shows (R5, R35, R52, R475): the Revision ID, the BARs, the capability bits of
the features of R35, and the memory bits of the CXL DVSEC. -/
structure FnConfig where
  revisionId : Nat
  /-- BAR0 to BAR5, none where not implemented -/
  bars : List (Option Bar)
  expansionRom : Bool
  cxlIo : Bool
  cxlMem : Bool
  bi : Bool
  mld : Bool
  dynamicCapacity : Bool
  viral : Bool
  doe : Bool
  mailbox : Bool
  cxlCache : Bool
  hdmD : Bool
  ide : Bool
  tsp : Bool
  flr : Bool
  cxlReset : Bool
  gpf : Bool
  sanitize : Bool
  portBasedRouting : Bool
  memEnable : Bool
  memInfoValid : Bool
  memActive : Bool
  memActiveTimeout : Nat
  deriving DecidableEq, Repr

/-- Configuration space of an LD (R5, R35, R36, R52): what R35 supports is advertised, back-invalidation in 256-byte flit mode
only, and the capability bit of what it does not support is clear. -/
def Dev.ldConfig (d : Dev) (p m : Nat) : FnConfig :=
  let l := d.ld p m
  { revisionId := 0x11, bars := [some ⟨true, 32 * 2 ^ 20, false⟩, none, some ⟨true, 8 * 2 ^ 20, true⟩, none, none, none]
    expansionRom := false, cxlIo := true, cxlMem := true, bi := (d.port p).flit256, mld := true, dynamicCapacity := true
    viral := true, doe := true, mailbox := true, cxlCache := false, hdmD := false, ide := false, tsp := false, flr := false, cxlReset := false
    gpf := false, sanitize := false, portBasedRouting := false, memEnable := l.memEnable, memInfoValid := l.memInfoValid
    memActive := l.memActive, memActiveTimeout := 4 }

/-- What a configuration request is answered with (R382): nothing before the link reaches L0, a retry before the port's function
is ready, then the LD's space. -/
inductive ConfigAnswer where
  | none
  | retry
  | space (c : FnConfig)
  deriving DecidableEq, Repr

/-- A configuration read of an LD (R382). -/
def Dev.configRead (d : Dev) (p m : Nat) : ConfigAnswer :=
  if !d.ldPresent p m then .none else if d.fnReady p then .space (d.ldConfig p m) else .retry

/-- The mailbox status of an LD, which answers in HELD, SERVICE and RECOVERY (R26): opcode and return code of the command
completed last. -/
def Dev.mailboxStatus (d : Dev) (p m : Nat) : Option (Nat × Nat) :=
  match d.glob.dev with
  | .held => (d.ld p m).mbox
  | .service => (d.ld p m).mbox
  | .recovery => (d.ld p m).mbox
  | _ => none

/-- What a host reads at BAR2 (R329, R413, R473, R477): completion rings, the counter mirror, the Position window. -/
def bar2Read (d : Dev) (off : Nat) : Nat :=
  if off < 0x400000 then
    let p := d.pair (off / 0x10000)
    let w := off % 0x10000
    if w < 0x8000 then 0 else (Tab.get 0 p.cpl ((w - 0x8000) / 4)).toNat
  else if off < 0x402000 then
    let k := off % 0x100
    if d.pmcLive && ((decide (0x20 ≤ k) && decide (k < 0x28)) || (decide (0x60 ≤ k) && decide (k < 0xA0))) then pmcRead d (off - 0x400000)
    else 0
  else if off = 0x402000 then pmcRead d 0x2000
  else if 0x410000 ≤ off ∧ off < 0x411000 then (Tab.get 0 d.resync.slots ((off - 0x410000) / 4)).toNat
  else 0

end Sys2Proof.Machine
end

