-- ==== Sys2Proof/Machine/Reset.lean ====
section
/-! DEFINITION. Full reset, loss of supplies and the way back to START (14_startup_bist_reset.md, R231-R233, R366, R367). -/

namespace Sys2Proof.Machine

-- the beginning of a full reset
/-- Slot 0 of the retained log after one more reset (R366, R367): RESETS saturates, FATAL stays, CLEAN is not known yet. -/
def resetSlot0 (old : Word) (src : ResetSrc) : Word :=
  BitVec.ofNat 18 (min (bits old.toNat 3 0 + 1) 15 + fld 4 src.code + fld 8 (b2n (old.getLsbD 8)))

/-- Slot of a slice in the retained log (R326, R366). -/
def parkSlot (n : Nat) : Word := if n = 0 then 0 else BitVec.ofNat 18 (n - 1 + fld 15 1)

/-- Writes slots from `i` on. -/
def rlogFrom (d : Dev) (i : Nat) (ws : List Word) : Dev :=
  d.each (List.range ws.length) (fun d k => rlogPut d (i + k) (ws.getD k 0))

/-- Step 1 of R231 rewrites slots 0 and 9-1023 (R367). The last set walked is that of the pass that covers the resignation
(R208), zero where none does or none is walked yet (log entry 27). -/
def resetLog (d : Dev) (src : ResetSrc) : Dev :=
  let gone := d.agents.filter (fun a => !a.2.attached)
  let slot0 := resetSlot0 (d.rlogAt 0) src
  let sets := (List.range 16).map (fun s => parkSlot (d.parked s))
  let park := d.park.st.setWidth 18
  let gen := d.glob.gen
  let d := d.setErr (fun e => { e with rlog := e.rlog.filter (fun x => decide (x.1 < 9)) })
  let d := rlogFrom (rlogPut (rlogPut (rlogPut d 0 slot0) 9 gen) 16 park) 17 sets
  let d := rlogPut d 256 (BitVec.ofNat 18 gone.length)
  let walked := BitVec.ofNat 18 (d.slowestWalk - 1)
  rlogFrom d 257 (gone.flatMap (fun a =>
    [BitVec.ofNat 18 (a.1 + fld 12 a.2.epoch.toNat + fld 16 1), if a.2.covered then walked else 0]))

/-- The hottest sensor is at or above a limit (R462). -/
def Dev.tooHot (d : Dev) (limit : Nat) : Bool :=
  match d.hottest with
  | some (_, tj) => decide (limit ≤ tj)
  | none => false

/-- A full reset begins (R231, R401): it is journalled, the retained log is rewritten, engine buffers and every request no
controller has accepted are discarded, calls end without a record (R301), running tests are cut short (R393), power
requests go (R453), and every write-buffer entry starts to drain. FAULT_N is released (R508). A further source joins the
reset until step 7; one after it, while the device is held, is a reset of its own, whose step 5 finds no channel in self-refresh
that the one before left out of it (log entry 131). A device that is too hot now will wait (R462). -/
def beginReset (d : Dev) (src : ResetSrc) (role origin : Nat) : Dev :=
  if d.glob.dev == .off || d.glob.resetPhase == .draining then d
  else
    let d := journal d { role := role, action := 5, origin := origin, target := src.code }
    let d := cutTests (resetLog d src)
    let d := { d with xacts := [], movers := [], q0work := [], labis := [], labEffects := [] }
    let d := { d with engines := d.engines.map (fun (x : Nat × Engine) =>
      (x.1, { x.2 with sb := [], nt := [], call := none, popped := none, running := none })) }
    let d := d.setPwr (fun p => { p with waiting := [], busy := none })
    let hot := d.tooHot d.pwr.throttleAt
    let limit := match d.glob.thermHold with
      | some n => some n
      | none => if hot then some d.pwr.throttleAt else none
    let d := d.setGlob (fun g => { g with
      resetPhase := .draining, drainT := g.time, faultN := false, thermHold := limit
      cleanStep5 := g.resetPhase == .none || g.cleanStep5 })
    d.each [0, 1, 2, 3] (fun d m => drainAll (endBatches d m) m)

/-- DEV_RST_N_ASSERT (R20, R401): the pin is low; every output but THERM_N is released (R508). -/
def pinLow (d : Dev) : Dev :=
  beginReset (d.setGlob (fun g => { g with rstHigh := false, alertN := false, faultN := false })) .pin 0 0

/-- DEV_RST_N_ASSERT. -/
def execDevRstNAssert (s : State) : Answer := onDevice s (fun d => if d.glob.rstHigh then pinLow d else d)

/-- MANAGEMENT_RESET_REQUEST (R20). -/
def execManagementResetRequest (s : State) : Answer :=
  onDevice s (fun d => beginReset d .mgmt (originRole .mgmt) (originField .mgmt))

-- the reset of the domains
/-- A tile's repair maps and retirement, which PD0 keeps (R143, R394, R402). -/
def Tile.kept (t : Tile) : Tile :=
  { st := if t.tileRetired then .retired else .offline, retireMap := t.retireMap, tileRetired := t.tileRetired
    unrepaired := t.unrepaired, mapValid := t.mapValid, softRows := t.softRows, softGroups := t.softGroups
    fuseRows := t.fuseRows, fuseGroups := t.fuseGroups, fuseNextRows := t.fuseNextRows, fuseNextGroups := t.fuseNextGroups
    failedOutright := t.failedOutright }

/-- What the pins give a port. -/
def Port.pinState (p : Port) : Port := { perst := p.perst, perstT := p.perstT, refclkLost := p.refclkLost }

/-- The part of the roles and the journal that PD0 and flash hold (R402, R428, R436, R449): nonces, queued requests and
a durable entry not in flash yet are gone, and so is a delivery in progress. -/
def Sec.kept (s : Sec) : Sec :=
  { s with
    committing := none, staging := none, committedNotBooted := false, nonces := [], requests := [], durable := none
    inForce := none, delivery := .idle, lastCheck := 0, spdm := [] }

/-- A start now would be a quick restart (R404, R431). -/
def Dev.quickOk (d : Dev) : Bool :=
  !d.glob.fullBist && d.glob.dev != .recovery && d.glob.hubMapValid && !d.sec.testArmed
    && (List.range 8).all (fun t => !d.tilePresent t || (d.tile t).tileRetired || (d.tile t).mapValid)

/-- What PD0 holds of the global state, and the pins (R402). -/
def Glob.kept (g : Glob) (clean quick : Bool) : Glob :=
  { part1024 := g.part1024, dev := .start, supplies := g.supplies, rstHigh := g.rstHigh, straps := g.straps, time := g.time
    ticks := g.ticks, draws := g.draws, resetPhase := .held, resetT := g.time, cleanStep5 := clean, step := 0
    quick := quick, fusesOk := g.fusesOk, fullBist := g.fullBist, fullTrain := g.fullTrain, hubMapValid := g.hubMapValid
    savedValid := g.savedValid, savedRate := g.savedRate, savedPop := g.savedPop, thermN := g.thermN
    riseT := g.riseT, thermHold := g.thermHold }

/-- What PD0 holds of power and temperature; the THM_CTRL register has a reset value (log entry 45). -/
def Pwr.kept (p : Pwr) : Pwr :=
  { xinLost := p.xinLost, sensors := p.sensors, tjMax := p.tjMax, hottest := p.hottest }

/-- Every domain but PD0 is reset (R231 step 7, R402). The I3C target and the JTAG port, in PD1, go with it (R450, R511). -/
def resetDomains (d : Dev) (clean : Bool) : Dev :=
  { glob := d.glob.kept clean d.quickOk
    mem := if clean then d.mem else Memory.undefined
    ports := d.ports.map (fun p => (p.1, p.2.pinState))
    binds := if clean then d.binds else []
    tiles := d.tiles.map (fun t => (t.1, t.2.kept))
    chans := if clean then d.chans.map (fun c => (c.1, { st := 3, bad := c.2.bad, badChk := c.2.badChk : Chan })) else []
    nextId := d.nextId
    err := { rlog := d.err.rlog }
    sec := d.sec.kept
    pwr := d.pwr.kept
    out := d.out }

/-- Entries still in the write buffers, in the order found (R231 step 6). -/
def Dev.undrained (d : Dev) : List Nat := [0, 1, 2, 3].flatMap (fun m => (d.mc m).wb.map (fun e => 64 * e.line))

/-- Three slots of a DPA. -/
def dpaSlots (dpa : Nat) : List Word := words3 dpa

/-- The drain ends (R231 steps 4-7, R366, R367): CLEAN and the undrained entries go into the retained log, the domains are
reset, and the device is in START. -/
def drainEnd (d : Dev) (clean : Bool) : Dev :=
  if d.glob.resetPhase != .draining then d
  else
    let clean := clean && d.glob.cleanStep5
    let d := d.each [0, 1, 2, 3] finishRepairs
    let u := d.undrained
    let d := if clean then rlogPut d 0 (d.rlogAt 0 ||| 0x80) else d
    let d := rlogFrom d 40 (words2 u.length)
    let d := rlogFrom d 42 ((u.take 64).flatMap dpaSlots)
    let old := d.glob.dev
    let d := resetDomains d clean
    if old == .start then d else setState (d.setGlob (fun g => { g with dev := old })) .start

/-- FULL_RESET_DRAIN_END. -/
def execFullResetDrainEnd (clean : Bool) (s : State) : Answer := onDevice s (fun d => drainEnd d clean)

/-- START can begin again (R401, R462): DEV_RST_N is high, 10 µs of the always-on clock have passed since step 7, the
device has cooled below the limit that held it, and no fatal error has led it to RECOVERY since (R27). -/
def Dev.canBegin (d : Dev) : Bool :=
  d.glob.dev == .start && d.glob.resetPhase == .held && d.glob.rstHigh && decide (d.glob.resetT + 4000 ≤ d.glob.time)
    && (match d.glob.thermHold with
      | some n => !d.tooHot n
      | none => true)

/-- START begins again at step 2 (R401, R405). -/
def startBegin (d : Dev) : Dev := d.setGlob (fun g => { g with resetPhase := .none, thermHold := none, step := 2 })

-- supplies
/-- What flash and the fuses hold of the roles and the journal, and what the spec has in flash of a tile's maps. -/
def Sec.offState (s : Sec) : Sec :=
  { s.kept.flashView with
    testArmed := false, mirrorFault := false, seed := none, identity := none, aliasOf := none, kFwDigest := none
    kPkgDigest := none, fused := [], floor := 0, select := 0, timestamp := 0, timestampSet := false }

/-- Supplies are lost (R27, R402): PD0 goes too. What is left is in flash, in the fuses and on the board. -/
def supplyLost (d : Dev) : Dev :=
  { glob := { part1024 := d.glob.part1024, dev := .off, supplies := false, rstHigh := d.glob.rstHigh, time := d.glob.time
              ticks := d.glob.ticks, draws := d.glob.draws, step := 0 }
    ports := d.ports.map (fun p => (p.1, p.2.pinState))
    tiles := d.tiles.map (fun t => (t.1, { t.2.kept with mapValid := t.2.mapValid }))
    nextId := d.nextId
    sec := d.sec.offState
    pwr := { on := 0, xinLost := d.pwr.xinLost }
    out := d.out }

/-- SUPPLY_LOSS. -/
def execSupplyLoss (s : State) : Answer :=
  onDevice s (fun d => if d.glob.dev == .off then d else supplyLost (cutTests d))

/-- DEV_RST_N rises with supplies valid and MGT_XIN running (R27, R380 step 1, R459, R509): the straps are sampled, and a device
in OFF leaves it for START with PD0 on, the power-on in the retained log (R366), and the journal rebuilt from flash (R437); the
change of state is then journalled and raised as any other (R407, R433). -/
def pinHigh (d : Dev) (straps : BitVec 4) : Dev :=
  let was := d.glob.dev
  let d := (d.setGlob (fun g => { g with rstHigh := true, riseT := g.time, straps := straps, supplies := true })).setPwr
    (fun q => { q with xinLost := false })
  if was == .off then
    let d := d.setGlob (fun g => { g with step := 1 })
    setState (rebuildJournal { d with err := Err.atPowerOn, pwr := { d.pwr with on := 1 } }) .start
  else d

/-- DEV_RST_N_RELEASE: only a rising edge samples the straps (R509); at a power-up the pin has been low (R500). -/
def execDevRstNRelease (straps : BitVec 4) (s : State) : Answer :=
  onDevice s (fun d => if d.glob.rstHigh && d.glob.dev != .off then d else pinHigh d straps)

end Sys2Proof.Machine
end

