-- ==== Sys2Proof/Machine/SecOps.lean ====
section
/-! DEFINITION. Operations of the roles, the images and the journal that several commands share (16_roles_and_security.md). -/

namespace Sys2Proof.Machine

/-- A firmware slot: false is A, true is B. -/
def Sec.slot (s : Sec) (b : Bool) : FwSlot := if b then s.slotB else s.slotA
def Sec.setSlot (s : Sec) (b : Bool) (f : FwSlot) : Sec := if b then { s with slotB := f } else { s with slotA := f }

/-- The slot the newest commit record names; slot A where no record is valid (log entry 46). -/
def Sec.namedSlot (s : Sec) : Bool :=
  match s.named with
  | some n => n.1.slot
  | none => false

/-- Counter of the newest commit record. -/
def Sec.counter (s : Sec) : Nat :=
  match s.named with
  | some n => n.1.counter
  | none => 0

/-- OLD or NEW of an entry about a slot's image: the first half of the image's SHA-512 (R434). -/
def FwSlot.digest (f : FwSlot) : BitVec 256 :=
  match f.img with
  | some i => i.digest.setWidth 256
  | none => 0

/-- The sector the next record goes into, the second for true (R443): the one that does not hold the newest valid record. -/
def Sec.spareSector (s : Sec) : Bool :=
  match s.named with
  | some n => !n.2
  | none => false

/-- A sector's record, none for an erased one. -/
def Sec.putCommit (s : Sec) (second : Bool) (c : Option CommitRec) : Sec :=
  if second then { s with commit1 := c } else { s with commit0 := c }

/-- That sector is erased first (R443). -/
def Sec.eraseSpare (s : Sec) : Sec := s.putCommit s.spareSector none

/-- SHA-512 of a slot's image. -/
def FwSlot.whole (f : FwSlot) : BitVec 512 :=
  match f.img with
  | some i => i.digest
  | none => 0

/-- The single commit write (R443): a record with the next counter, for a slot and its image. -/
def Sec.writeCommit (s : Sec) (b : Bool) : Sec :=
  let c : CommitRec := { counter := (s.counter + 1) % 2 ^ 32, slot := b, digest := (s.slot b).whole, crc := 0 }
  s.putCommit s.spareSector (some c.sealed)

/-- FW_COMMIT is appended for the newest record and goes to flash (R433, R444); CASTLED is raised (R448). -/
def fwCommitEntry (d : Dev) (role origin : Nat) : Dev :=
  let s := d.sec
  let b := s.namedSlot
  let d := journalDurable d { role := role, action := 8, origin := origin, target := b2n b, old := (s.slot (!b)).digest, new := (s.slot b).digest }
  let d := d.setSec (fun s => { s with lastFwCommit := s.counter })
  raise d 508 6 1 (info (b2n b + fld 1 (s.slot b).svn + fld 8 s.counter))

/-- First four bytes of a key's SHA-512 (R434). Keys are held as their digests. -/
def keyId (k : Option (BitVec 512)) : BitVec 32 :=
  match k with
  | some k => k.setWidth 32
  | none => 0

/-- First half of a key's digest; zero for no key. -/
def keyDigest (k : Option (BitVec 512)) : BitVec 256 :=
  match k with
  | some k => k.setWidth 256
  | none => 0

/-- Who signed, as an entry shows it (R434): the role and KEYID of a key whose signature verified, an operator otherwise (DESIGN
CHOICE, log entry 136). -/
structure Signer where
  role : Nat := 3
  keyid : BitVec 32 := 0
  deriving DecidableEq, Repr

/-- A refused signed request is journalled, with the digest of its bytes, and AUTH_FAIL raised (R430, R433, R448). `code` is the
request's, `reason` as R448 numbers it. -/
def authFail (d : Dev) (code reason : Nat) (by_ : Signer) (origin : Nat) (mgmt : Bool) (bytes : BitVec 512) : Dev :=
  let d := journal d { role := by_.role, action := 13, origin := origin, target := code, keyid := by_.keyid, new := bytes.setWidth 256 }
  raise d 505 6 1 (info (code + fld 8 reason + fld 11 (b2n mgmt)))

/-- A nonce is consumed by its first use (R428): whether it was current, and the nonces left. -/
def Sec.useNonce (s : Sec) (handle : BitVec 2) (value : BitVec 256) : Bool × Sec :=
  (s.nonces.any (fun n => n.handle == handle && n.value == value), { s with nonces := s.nonces.filter (fun n => n.handle != handle) })

-- signatures
/-- A signature verifies under a key, for a digest (R429, log entry 137). -/
def sigVerifies (g : Signature) (key text : BitVec 512) : Bool := g.key == key && g.signed == text

/-- The 126 bytes a requester signs (R429). -/
def Dev.signText (d : Dev) (nonce : BitVec 256) (code role target : Nat) (params : BitVec 512) : List Byte :=
  [0x49, 0x53, 0x4D, 0x2D, 0x53, 0x49, 0x47, 0x4E] ++ leBytes 16 (Config.identityDigest (d.sec.identity.getD 0)).toNat
    ++ leBytes 32 nonce.toNat ++ leBytes 1 code ++ leBytes 1 role ++ leBytes 4 target ++ leBytes 64 params.toNat

/-- SHA-512 of a request's bytes as its AUTH_FAIL entry digests them: the signed text, then r and s (R429, R433; DESIGN CHOICE, log
entry 136). -/
def signedDigest (q : Signed) (text : List Byte) : BitVec 512 :=
  sha512 (text ++ bigEndian 66 q.sig.r.toNat ++ bigEndian 66 q.sig.s.toNat)

/-- A header gives a length of at most 2 MiB and an SVN of at most 64 (R442). -/
def headerOk (i : FwImage) : Bool := decide (i.length ≤ 2 ^ 21) && decide (i.svn.toNat ≤ 64)

/-- The key that signed an image is held: the maker's, or the authority's where the header names it (R426, R442). -/
def Sec.signerHeld (s : Sec) (i : FwImage) : Bool := if i.authoritySigned then s.authorityKey.isSome else s.makerKey.isSome

end Sys2Proof.Machine
end

