-- ==== Sys2Proof/Machine/Start.lean ====
section
/-! DEFINITION. Start-up from fuses to SERVICE, HELD or TEST (14_startup_bist_reset.md, R380-R399). -/

namespace Sys2Proof.Machine

-- fuses and firmware
/-- The ports are released and train where they can (R389 step 9, R385). -/
def releasePorts (d : Dev) : Dev :=
  d.each (List.range 8) (fun d p => startTrain (d.updPort p (fun x => { x with released := true })) p)

/-- Switches domains on, in the order given. -/
def domainsOn (d : Dev) (l : List Nat) : Dev := d.each l (fun d n => setDomain d n true)

/-- Neither slot is accepted (R385, R509): the ports train under the boot ROM, and it waits for an image. -/
def waitForImage (d : Dev) : Dev :=
  releasePorts (domainsOn (d.setGlob (fun g => { g with waitMctp := true })) [10, 2, 3, 4, 5, 6, 7, 8, 9])

/-- PD1 comes on and E0 runs the boot ROM (R380 step 3, R272); with STRAP[3] it waits for an image at once (R509). -/
def bootRom (d : Dev) : Dev :=
  let d := setDomain (d.setGlob (fun g => { g with step := 3 })) 1 true
  let d := startEngine (d.each (quadEngines 0) (fun d e => d.updEngine e (fun x => { x with onTick := d.glob.ticks }))) 0 0
  if d.glob.straps.getLsbD 3 then waitForImage d else d

/-- The crypto unit takes the seed of the fuses and derives the identity key (R384, R445). -/
def loadSeed (d : Dev) : Dev :=
  let seed := Config.identitySeed (bankNumber d.sec.fused)
  d.setSec (fun s => { s with seed := some seed, identity := some (Config.identityKey seed) })

/-- The alias key of a start (R445): from the seed and the digest of the firmware that runs. -/
def deriveAlias (d : Dev) : Dev := d.setSec (fun s => { s with aliasOf := s.seed.map (fun k => Config.aliasKey k d.fwDigest) })

/-- Spares a tile's fuses take, by bank: those FUSE_REPAIR programmed, and those that banks FUSE_PROGRAM wrote ask for, at most
`max` (R384, R396, log entry 138). -/
def loadedSpares (banks : Tab (BitVec 512)) (t max : Nat) (which : Nat × Nat → Nat) (prog : Tab Nat) : Tab Nat :=
  if banks = [] then prog
  else (List.range 64).foldl (fun tab b =>
    let n := min max (Tab.get 0 prog b + which (Config.fusedSpares (bankNumber banks) t b))
    if n = 0 then tab else Tab.put tab b n) []

/-- The fuse banks are loaded (R384): the floor, the repairs of every tile, the keys' digests. The part and the stepping are those of
the die (R1, R4). -/
def loadFuses (d : Dev) : Dev :=
  let banks := d.sec.fuses
  let floor := if banks = [] then d.sec.floorFuse
    else BitVec.ofNat 7 (max d.sec.floorFuse.toNat (min 64 (Config.fusedFloor (bankNumber banks))))
  let d := d.setSec (fun s => { s with fused := banks, floor := floor })
  { d with tiles := d.tiles.map (fun (t : Nat × Tile) => (t.1, { t.2 with
      fuseRows := loadedSpares banks t.1 4 (·.1) t.2.fuseNextRows, fuseGroups := loadedSpares banks t.1 1 (·.2) t.2.fuseNextGroups })) }

/-- FUSE_LOAD_DONE (R384): what was programmed before the power-on takes effect (R396). -/
def fuseLoaded (d : Dev) (bad : Option (BitVec 4)) : Dev :=
  if d.glob.dev != .start || d.glob.step != 1 || d.glob.resetPhase != .none then d
  else match bad with
  | some b => enterRecovery d 1 (info b.toNat)
  | none => bootRom (loadSeed (loadFuses (d.setGlob (fun g => { g with fusesOk := true }))))

/-- FUSE_LOAD_DONE. -/
def execFuseLoadDone (bad : Option (BitVec 4)) (s : State) : Answer := onDevice s (fun d => fuseLoaded d bad)

/-- START_BEGIN (R401). -/
def execStartBegin (s : State) : Answer :=
  onDevice s (fun d => if d.canBegin then bootRom (startBegin d) else d)

/-- Firmware of a slot runs in Q0 (R385, R444): the commit record it finds newer than the last FW_COMMIT is journalled,
and from now on every state change asks for a snapshot (R413). Running from the slot the record does not name raises
FW_FALLBACK. -/
def runFirmware (d : Dev) (b : Bool) : Dev :=
  let f := d.sec.slot b
  let fall := b != d.sec.namedSlot
  let d := d.setSec (fun s => { s.setSlot b { f with valid := true } with kFwDigest := f.img.map (·.digest) })
  let d := d.setGlob (fun g => { g with
    fwRunning := true, fwImg := f.img, fwSlot := b, fwFallback := fall, waitMctp := false, step := if g.quick then 4 else 5 })
  let d := deriveAlias d
  let d := if d.sec.lastFwCommit < d.sec.counter then fwCommitEntry d 0 0 else d
  if fall then raise d 463 6 1 (info (b2n b)) else d

/-- The slot the boot ROM verifies now. -/
def Dev.bootSlot (d : Dev) : Bool := if d.glob.fwFailed.isSome then !d.sec.namedSlot else d.sec.namedSlot

/-- The boot ROM accepts a slot (R385, R404, R426, R442): its SVN is at or above the floor, and it verifies under a key that is
held, or a quick restart finds the digest PD0 keeps. -/
def Dev.accepts (d : Dev) (b ok : Bool) : Bool :=
  match (d.sec.slot b).img with
  | some i => headerOk i && decide (d.sec.floor ≤ i.svn)
      && ((ok && d.sec.signerHeld i) || (d.glob.quick && some i.digest == d.sec.kFwDigest))
  | none => false

/-- FW_VERIFY_DONE (R385). -/
def fwVerified (d : Dev) (b ok : Bool) : Dev :=
  if d.glob.dev != .start || d.glob.step != 3 || d.glob.waitMctp || d.glob.resetPhase != .none || b != d.bootSlot then d
  else if d.accepts b ok then runFirmware d b
  else
    let d := d.setSec (fun s => s.setSlot b { s.slot b with valid := false })
    if d.glob.fwFailed.isSome then waitForImage d else d.setGlob (fun g => { g with fwFailed := some b })

/-- FW_VERIFY_DONE. -/
def execFwVerifyDone (slot ok : Bool) (s : State) : Answer := onDevice s (fun d => fwVerified d slot ok)

/-- A verified image stands in its slot (R433, R444, R448): journalled and announced. -/
def fwStaged (d : Dev) (origin : Nat) (b : Bool) (old : BitVec 256) (img : FwImage) : Dev :=
  let d := journal d { role := 3, action := 7, origin := origin, target := b2n b, old := old, new := img.digest.setWidth 256 }
  raise d 507 6 1 (info (b2n b + fld 1 img.svn.toNat))

/-- An image arrives over MCTP while the boot ROM waits (R385): accepted, it goes into the inactive slot, is committed and
runs. -/
def mctpImage (d : Dev) (img : FwImage) (sigOk : Bool) : Dev :=
  if d.glob.dev != .start || d.glob.resetPhase != .none || !d.glob.waitMctp || !d.q0Runs || !sigOk || decide (img.svn < d.sec.floor) || !headerOk img || !d.sec.signerHeld img then d
  else
    let b := !d.sec.namedSlot
    let old := (d.sec.slot b).digest
    let d := fwStaged (d.setSec (fun s => s.setSlot b { img := some img, valid := true })) (originField .mgmt) b old img
    runFirmware (d.setSec (fun s => s.eraseSpare.writeCommit b)) b

/-- MCTP_FW_IMAGE_DELIVER. -/
def execMctpFwImageDeliver (img : FwImage) (sigOk : Bool) (s : State) : Answer := onDevice s (fun d => mctpImage d img sigOk)

-- package
/-- A package's length and field ranges are those R439 and its own header give. -/
def packageChecked (p : Package) : Bool := p.fieldsOk && decide (p.length ≤ 2 ^ 20)

/-- Causes 1, 2, 3 and 5 of R386, in that order; 0 where all pass. A quick restart takes a package whose digest PD0 keeps
as signed (R404). A package area that a delivery left half written fails as CHECK (R388, R403). -/
def Dev.pkgCause (d : Dev) (sigOk : Bool) : Nat :=
  match d.sec.pkg with
  | none => 1
  | some p =>
    if d.sec.pkgPart then 3
    else if d.sec.installerKey.isNone || !(sigOk || (d.glob.quick && some p.digest == d.sec.kPkgDigest)) then 2
    else if !packageChecked p then 3
    else if !d.sec.pkgCommitted then 5
    else 0

/-- Limits of one port from a package. -/
def pkgPort (p : Package) (n : Nat) : PortCfg := p.ports.getD n ⟨3, 3, 1, false⟩

/-- A port the package disables goes down, one it lowers retrains through Recovery (R388): the link keeps to the new limits, and
a port below them is degraded (R33). -/
def applyPort (d : Dev) (p : Package) (n : Nat) : Dev :=
  let c := pkgPort p n
  let d := d.updPort n (fun x => { x with
    cfg := c
    width := if c.maxWidth < x.width then c.maxWidth else x.width
    rate := if c.maxRate < x.rate then c.maxRate else x.rate })
  if c.disabled then setDomain (linkDown d n 7) (portDom n) false
  else if (d.port n).link != .up then d
  else
    let low := decide ((d.port n).width < c.maxWidth) || decide ((d.port n).rate < c.maxRate)
    let d := d.updPort n (fun x => { x with degraded := low })
    if low then raiseDegraded d n else d

/-- Domains of step 7 of R380, in its order; a disabled port's stays off (R33), and an absent tile has none. -/
def Dev.stepSeven (d : Dev) : List Nat :=
  [10, 24, 25, 26, 27, 11, 12, 13, 14, 15] ++ ((List.range 8).filter (fun p => !(d.port p).cfg.disabled)).map portDom
    ++ ((List.range 8).filter d.tilePresent).map tileDom

/-- Training from the values saved in PD0 is allowed for a package (R398). -/
def Dev.savedOk (d : Dev) (p : Package) : Bool :=
  d.glob.cleanStep5 && d.glob.savedValid && d.glob.savedRate == p.rate && d.glob.savedPop == some p.population && !d.glob.fullTrain

/-- Memory training starts on every channel (R398), from the saved values where they stand. Full training leaves memory undefined
(R233). The saved values are invalid until training ends (R403). -/
def trainMemory (d : Dev) (p : Package) : Dev :=
  let keep := d.savedOk p
  let d := if keep then d else { d with mem := Memory.undefined, chans := [], binds := [] }
  let d := d.each (List.range 32) (fun d c => d.updChan c (fun x => { x with st := 1, trained := false }))
  let d := d.each [0, 1, 2, 3] (fun d m => d.updMc m (fun x => { x with rate := p.rate, selfRefresh := false }))
  d.setGlob (fun g => { g with memKept := false, foundPop := none, savedValid := false, trainSaved := keep })

/-- Tiles that start-up tests (R390). -/
def Dev.testable (d : Dev) (t : Nat) : Bool := d.tilePresent t && !(d.tile t).tileRetired

/-- A tile's march test starts: its map is invalid until it passes or is repaired (R394). -/
def startTest (d : Dev) (quarter : Bool) (t : Nat) : Dev :=
  (loseCells d t).updTile t (fun x => { x with
    bist := 1, quarter := quarter, mapValid := false, incomplete := false, sigMatch := false, overflow := false, fails := [] })

/-- The pair of tiles tested next in START (R390). -/
def Dev.nextPair (d : Dev) : List Nat :=
  match (List.range 4).find? (fun k => [2 * k, 2 * k + 1].any (fun t => d.testable t && !(d.tile t).tested)) with
  | some k => [2 * k, 2 * k + 1].filter (fun t => d.testable t && !(d.tile t).tested)
  | none => []

/-- All channels are ready. -/
def Dev.memReady (d : Dev) : Bool := (List.range 32).all (fun c => (d.chan c).st == 2)

/-- No tile waits for its test or is under test. -/
def Dev.tilesDone (d : Dev) : Bool := d.nextPair.isEmpty && !(List.range 8).any (fun t => (d.tile t).bist == 1)

/-- Tiles that can go online do (R139, R404). -/
def tilesOnline (d : Dev) : Dev :=
  d.each ((List.range 8).filter (fun t => d.testable t && (d.tile t).mapValid && (d.tile t).st == .offline && d.domOn (tileDom t))) goOnline

/-- Steps 11 and 12 of R380, or 7 of R405: memory trained where there is a package, tiles online. Without a package the
device enters HELD (R387). Back from HELD no tile is tested or put online (R388). -/
def startProgress (d : Dev) : Dev :=
  if d.glob.quick then
    if d.memReady || !d.glob.pkgUsable then
      let d := d.setGlob (fun g => { g with step := 7 })
      let d := if d.glob.heldBack then d else tilesOnline d
      if d.glob.pkgUsable then d else setState d .held
    else d
  else
    let tiles := d.glob.heldBack || d.tilesDone
    let d := if tiles && !d.glob.heldBack then tilesOnline d else d
    let mem := d.memReady || !d.glob.pkgUsable
    if tiles && mem then
      let d := d.setGlob (fun g => { g with step := 12 })
      if d.glob.pkgUsable then d else setState d .held
    else if mem && d.glob.pkgUsable then d.setGlob (fun g => { g with step := 11 })
    else d

/-- Step 9: ports are released, memory training and tile self-test start together (R380, R387, R405). -/
def stepNine (d : Dev) : Dev :=
  let d := releasePorts d
  let d := match d.sec.pkg with
    | some p => if d.glob.pkgUsable then trainMemory d p else d
    | none => d
  if d.glob.quick then startProgress d
  else
    let d := d.setGlob (fun g => { g with step := 9 })
    startProgress (d.each d.nextPair (fun d t => startTest d false t))

/-- PACKAGE_CHECK_DONE (R386): the causes of step 6, the port limits, and the domains of step 7. A quick restart repairs the
hub from its map and goes on at once (R405). -/
def pkgCheck (d : Dev) (sigOk : Bool) : Dev :=
  if d.glob.dev != .start || !d.glob.fwRunning || d.glob.pkgChecked || d.glob.resetPhase != .none then d
  else
    let cause := d.pkgCause sigOk
    let d := d.setGlob (fun g => { g with pkgChecked := true, pkgUsable := cause == 0, heldCause := BitVec.ofNat 3 cause })
    let d := d.setSec (fun x => { x with lastCheck := BitVec.ofNat 3 cause })
    let d := match d.sec.pkg with
      | some p => if cause = 0 then
          (d.setSec (fun s => { s with kPkgDigest := some p.digest })).each (List.range 8) (fun d n => applyPort d p n)
        else d
      | none => d
    let d := domainsOn d d.stepSeven
    let d := d.each [1, 2, 3, 4, 5] (fun d q => d.each (quadEngines q) (fun d e => d.updEngine e (fun x => { x with onTick := d.glob.ticks })))
    if d.glob.quick then stepNine (d.setGlob (fun g => { g with step := 6, hubTested := true }))
    else d.setGlob (fun g => { g with step := 7 })

/-- PACKAGE_CHECK_DONE. -/
def execPackageCheckDone (sigOk : Bool) (s : State) : Answer := onDevice s (fun d => pkgCheck d sigOk)

-- hub self-test
/-- GLB_LBIST_RESULT from the outcome. -/
def lbistBits (ports : BitVec 8) (quads : BitVec 5) (core mc : Bool) : Nat :=
  ports.toNat + fld 8 quads.toNat + fld 13 (b2n core) + fld 14 (b2n mc)

/-- A failed port or quad is left off (R389). -/
def leaveOff (d : Dev) (ports : BitVec 8) (quads : BitVec 5) : Dev :=
  let d := d.each (List.range 8) (fun d p => d.updPort p (fun x => { x with failed := ports.getLsbD p }))
  let d := d.each ((List.range 8).filter (fun p => ports.getLsbD p)) (fun d p => setDomain d (portDom p) false)
  d.each ((List.range 5).filter (fun q => quads.getLsbD q)) (fun d q =>
    (quadEngines (q + 1)).foldl markHandlers (setDomain d (quadDom (q + 1)) false))

/-- HUB_SELF_TEST_DONE (R389, R431): failed ports and quads stay off, which LBIST_FAIL reports (R407); a failed core or controller
is fatal; after step 8 an armed TEST is entered. -/
def hubDone (d : Dev) (ports : BitVec 8) (quads : BitVec 5) (core mc : Bool) : Dev :=
  let test := d.glob.dev == .test
  if d.glob.hubTested || d.glob.resetPhase != .none || !(test || (d.glob.dev == .start && d.glob.pkgChecked)) then d
  else
    let r := lbistBits ports quads core mc
    let d := d.setGlob (fun g => { g with hubTested := true, lbist := BitVec.ofNat 15 r, hubMapValid := r == 0 })
    let d := leaveOff d ports quads
    let d := if ports = 0 ∧ quads = 0 then d else raise d 462 2 2 (info r)
    if core || mc then enterRecovery d 2 (info r)
    else if test then d
    else
      let d := d.setGlob (fun g => { g with step := 8 })
      if d.sec.testArmed then setState (d.setSec (fun s => { s with testArmed := false })) .test else stepNine d

/-- HUB_SELF_TEST_DONE. -/
def execHubSelfTestDone (ports : BitVec 8) (quads : BitVec 5) (core mc : Bool) (s : State) : Answer :=
  onDevice s (fun d => hubDone d ports quads core mc)

-- memory
/-- The last channel is trained (R398): saved values are valid; contents are kept when the saved values were used. -/
def memoryTrained (d : Dev) (p : Package) (full : Bool) : Dev :=
  startProgress (d.setGlob (fun g => { g with
    memKept := !full, savedValid := true, savedRate := p.rate, savedPop := g.foundPop }))

/-- Training ends on a channel (R213, R229, R398): a channel that trains at no rate has failed; one that falls back takes its
controller with it. DESIGN CHOICE (log entry 145): RATE_DOWN is raised for the channel whose fall-back lowers the controller's
rate, and not for a later one that falls back no further; R213 does not say. -/
def trained (d : Dev) (c : Nat) (full : Bool) (rate : Option (BitVec 3)) (pop : Population) : Dev :=
  match d.sec.pkg with
  | none => d
  | some p =>
    if d.glob.dev != .start || (d.chan c).st != 1 || full == d.glob.trainSaved then d
    else match rate with
    | none =>
      let d := d.updChan c (fun x => { x with st := 5 })
      enterRecovery (chanEvent d c 7 3 3 0 0) 3 (info c)
    | some r =>
      if p.rate < r then d
      else
        let m := c / 8
        let d := d.updChan c (fun x => { x with st := 2, trained := true })
        let d := if r < (d.mc m).rate then chanEvent (d.updMc m (fun x => { x with rate := r })) c 5 0 1 0 0 else d
        let d := d.setGlob (fun g => { g with foundPop := if g.foundPop.isSome && pop == p.population then g.foundPop else some pop })
        if d.memReady then memoryTrained d p full else d

/-- MEMORY_TRAINING_DONE. -/
def execMemoryTrainingDone (c : Fin 32) (full : Bool) (rate : Option (BitVec 3)) (pop : Population) (s : State) : Answer :=
  if (Instr.memoryTrainingDone c full rate pop).wf then onDevice s (fun d => trained d c.val full rate pop) else .fault .illFormed

-- tiles
/-- A plan for one bank: rows and groups assigned, spares left, entries left uncovered, and the entries covered. -/
structure Plan where
  rows : List Nat := []
  groups : List Nat := []
  left : Nat := 0
  done : List BistEntry := []
  deriving DecidableEq, Repr

/-- Assigns a spare row, or a spare group, or leaves the entry. -/
def Plan.row (p : Plan) (max : Nat) (e : BistEntry) : Option Plan :=
  if p.rows.length < max then some { p with rows := p.rows ++ [e.row.toNat], done := p.done ++ [e] } else none
def Plan.group (p : Plan) (max : Nat) (e : BistEntry) : Option Plan :=
  if p.groups.length < max then some { p with groups := p.groups ++ [e.column.toNat], done := p.done ++ [e] } else none
def Plan.fail (p : Plan) : Plan := { p with left := p.left + 1 }

/-- `repair(bank)` of R394 over a bank's entries, `rows` and `groups` spares being free. -/
def planBank (es : List BistEntry) (rows groups : Nat) : Plan :=
  let p := (es.filter (fun e => e.kind == 2)).foldl (fun (p : Plan) e => (p.group groups e).getD p.fail) {}
  let p := (es.filter (fun e => e.kind == 1 || e.kind == 3)).foldl (fun (p : Plan) e => (p.row rows e).getD p.fail) p
  (es.filter (fun e => e.kind == 0)).foldl (fun (p : Plan) e =>
    if p.rows.contains e.row.toNat || p.groups.contains e.column.toNat then { p with done := p.done ++ [e] }
    else (p.row rows e).getD ((p.group groups e).getD p.fail)) p

/-- Soft repair of one bank is planned (R394, R395): REPAIR_SHORT for entries left, SPARES_LOW when few spares are free. -/
def repairBank (d : Dev) (t b : Nat) (es : List BistEntry) : Dev :=
  let x := d.tile t
  let p := planBank es (16 - Tab.get 0 x.fuseRows b) (4 - Tab.get 0 x.fuseGroups b)
  let put (tab : Tab Nat) (n : Nat) : Tab Nat := if n = 0 then Tab.del tab b else Tab.put tab b n
  let d := d.updTile t (fun x => { x with
    softRows := put x.softRows p.rows.length, softGroups := put x.softGroups p.groups.length
    unrepaired := if p.left = 0 then x.unrepaired else x.unrepaired ||| BitVec.ofNat 64 (2 ^ b)
    fails := x.fails.map (fun f => if p.done.contains f.1 then (f.1, true) else f) })
  let d := if p.left = 0 then d else raise d (192 + 8 * t + 6) 2 2 (info (b + fld 6 (min p.left 127)))
  let rows := (d.tile t).rowsUsed b
  let groups := (d.tile t).groupsUsed b
  if 13 ≤ rows ∨ 4 ≤ groups then raise d (192 + 8 * t + 7) 0 1 (info (b + fld 6 rows + fld 11 groups)) else d

/-- BIST_DONE (R406). -/
def bistDone (d : Dev) (t result : Nat) : Dev :=
  let x := d.tile t
  raise d (192 + 8 * t + 5) 5 0 (info (result + fld 3 x.fails.length + fld 12 (b2n x.overflow) + fld 13 (b2n x.quarter)))

/-- A march test that reached its last step ends (R392). -/
def testEnds (d : Dev) (t : Nat) (r : BistOutcome) : Dev :=
  let bad := r.overflow || (r.fails.isEmpty && !r.sigMatch)
  let d := (loseCells d t).updTile t (fun x => { x with
    bist := 2, sigMatch := r.sigMatch, overflow := r.overflow, signature := r.signature, tested := true, failedOutright := bad
    mapValid := !bad, unrepaired := 0, fails := r.fails.map (fun f => (f, false)) })
  if bad then bistDone d t 3
  else if r.fails.isEmpty then
    bistDone (d.updTile t (fun x => { x with softRows := [], softGroups := [] })) t 1
  else
    let d := d.each (List.range 64) (fun d b => repairBank d t b (r.fails.filter (fun f => f.bank.toNat == b)))
    bistDone d t 2

/-- TILE_SELF_TEST_DONE (R390-R395): in START the next pair follows. -/
def tileTested (d : Dev) (t : Nat) (r : BistOutcome) : Dev :=
  if (d.tile t).bist ≠ 1 then d
  else
    let d := if r.complete then testEnds d t r
      else (cutTest d t).updTile t (fun x => { x with tested := true, signature := r.signature })
    if d.glob.dev == .start && d.glob.resetPhase == .none then
      if (List.range 8).any (fun u => (d.tile u).bist == 1) then d
      else startProgress (d.each d.nextPair (fun d t => startTest d false t))
    else d

/-- TILE_SELF_TEST_DONE. -/
def execTileSelfTestDone (t : Fin 8) (r : BistOutcome) (s : State) : Answer :=
  if (Instr.tileSelfTestDone t r).wf then onDevice s (fun d => tileTested d t.val r) else .fault .illFormed

-- steps 13 to 15
/-- INVAL_ALL on a slice (R123, R304): every tag entry written zero with good check bits. -/
def tagsInvalid (d : Dev) (s : Nat) : Dev :=
  flipFirst (d.updSlice s (fun x => { x with tags := [], tagsClean := true })) s (fun _ _ => true)

/-- Every tag invalidated and EN set; the directory written invalid (R399 items 1 and 2). -/
def openSlice (d : Dev) (s : Nat) : Dev :=
  putDir ((tagsInvalid d s).updSlice s (fun x => { x with ctrl := x.ctrl ||| 1, dir := [] })) s 0 0 {}

/-- The DPAs the retained log holds as undrained (R232, R366). -/
def Dev.undrainedLog (d : Dev) : List Nat :=
  let n := min ((d.rlogAt 40).toNat + (d.rlogAt 41).toNat * 2 ^ 18) 64
  (List.range n).map (fun i => (d.rlogAt (42 + 3 * i)).toNat + (d.rlogAt (43 + 3 * i)).toNat * 2 ^ 18
    + (d.rlogAt (44 + 3 * i)).toNat * 2 ^ 36)

/-- The poison code is written into an undrained line, and the line logged (R232, R360 kind 6). -/
def poisonInPlace (d : Dev) (dpa : Nat) : Dev :=
  storeLine (logErr d { kind := 6, src := 256 + chanOf dpa, poisoned := true, loc := dpa }) (dpa / 64) 0 true true

/-- The first of `n` lines from `a` on whose write an armed flip of path 5 or 6 would corrupt (R374): the line it names, or
the first of its channel, which the first 4,096 lines cannot miss. -/
def Dev.flipLine (d : Dev) (a n : Nat) : Option Nat :=
  let hit (l : Nat) : Bool := d.flips 5 (chanOf (64 * l)) (64 * l) || d.flips 6 (chanOf (64 * l)) (64 * l)
  if !d.err.flipArm then none
  else if d.err.flipMatch then
    let l := bits d.err.flipAddr.toNat 39 6
    if a ≤ l ∧ l < a + n ∧ hit l = true then some l else none
  else ((List.range (min n 4096)).find? (fun k => hit (a + k))).map (a + ·)

/-- Zeroes lines of device memory, those below a limit. -/
def zeroMem (d : Dev) (lim dpa bytes : Nat) : Dev :=
  let stop := min lim (dpa + bytes)
  let a := dpa / 64
  let n := (stop + 63) / 64 - a
  let z : Dev := { d with
    mem := d.mem.zeroLines a n
    chans := d.chans.map (fun (c : Nat × Chan) =>
      let keep (t : Tab Nat) : Tab Nat := t.filter (fun x => !(decide (a ≤ x.1) && decide (x.1 < a + n)))
      (c.1, { c.2 with bad := keep c.2.bad, badChk := keep c.2.badChk })) }
  match d.flipLine a n with
  | some l => storeLine z l 0 false false
  | none => z

/-- Stores a pair in place, as start-up writes it. -/
def pairInPlace (d : Dev) (lim dpa : Nat) (v : BitVec 32) : Dev :=
  if lim ≤ dpa then d
  else
    let w := pairWrite dpa v
    let line := dpa / 64
    storeLine d line (mergeLine (d.memLine line) w.1 w.2) false false

/-- The map pairs of the reserved tables, all their bits set (R313). -/
def reservedBits (n k : Nat) : BitVec 32 := BitVec.ofNat 32 (mapBits 32 (fun i => decide (32 * k + i < n)))

/-- Bytes of the reverse array (R169). -/
def revBytes : Nat := 2 ^ 26

/-- Item 3 of R399: lines poisoned under R232 where contents were kept; otherwise the descriptor array, the allocation map and
the reverse array zeroed and the reserved tables marked. The lock array is zeroed in both cases. -/
def settleMemory (d : Dev) (p : Package) (lim : Nat) : Dev :=
  let base := p.tableBase.toNat * 65536
  let m := (p.tableSize.toNat + 16383) / 16384
  let first := 8 + m + 8
  let d := if d.glob.memKept then d.each (d.undrainedLog.filter (· < lim)) poisonInPlace
    else
      let d := zeroMem d lim base (2048 * (8 + m))
      let d := zeroMem d lim (p.rmapBase.toNat * 65536) revBytes
      d.each (List.range ((first + 31) / 32)) (fun d k => pairInPlace d lim (base + 2048 * 8 + 4 * k) (reservedBits first k))
  zeroMem d lim (base + 2048 * (8 + m)) (2048 * 8)

/-- Check 4 of R386 passes. -/
def Dev.consistent (d : Dev) (p : Package) : Bool :=
  let lim := usableLimit p.population.density.toNat
  let tLo := p.tableBase.toNat * 65536
  let tHi := tLo + p.tableSize.toNat * 2048
  let rLo := p.rmapBase.toNat * 65536
  let rHi := rLo + revBytes
  p.tiles == (if d.glob.part1024 then 0xFF#8 else 0x0F#8) && d.glob.foundPop == some p.population
    && decide (p.rmapBase.toNat % 0x400 = 0) && decide (18 ≤ p.tableSize.toNat) && decide (tHi ≤ lim) && decide (rHi ≤ lim)
    && (decide (tHi ≤ rLo) || decide (rHi ≤ tLo)) && p.ports.all (fun c => decide (c.lds.toNat ≤ 16))

/-- Registers loaded from the package and locked (R399 item 4, R375). -/
def loadPackage (d : Dev) (p : Package) : Dev :=
  let d := d.setGlob (fun g => { g with
    tableBase := p.tableBase, tableSize := p.tableSize, rmapBase := p.rmapBase, lockTables := true, lockRmap := true
    memRate := p.rate, pop := p.population })
  let d := d.setErr (fun e => { e with lockFlip := e.lockFlip || !p.flipAllowed })
  let d := d.each (List.range 8) (fun d n => d.updPort n (fun x => { x with handlers := p.handlers.getD n 0 &&& 0x9F9F9F9F, hstatus := 0, cfgLoaded := true }))
  let d := d.each ((List.range 24).filter (fun e => d.engSt e == .off || d.engSt e == .halted)) markHandlers
  let d := d.each (List.range 64) (fun d n => d.updPair n (fun x => { x with serve := p.serve.getD n 0 &&& 0x00FFFFF0 }))
  let d := d.each p.routes (fun d r => d.updSource r.1 (fun x => { x with route := r.2 }))
  d.setSec (fun s => { s with inForce := some p })

/-- Memory_Info_Valid and Memory_Active set in every LD present (R52). -/
def memoryActive (d : Dev) : Dev :=
  d.each (List.range 8) (fun d p => d.each (List.range (d.ldsOf p)) (fun d m =>
    d.updLd p m (fun l => { l with memActive := true, memInfoValid := true })))

/-- Step 13 and item 3 of R399: slices opened, memory settled. -/
def stepThirteen (d : Dev) (p : Package) : Dev :=
  let d := d.each (List.range 16) openSlice
  let lim := match d.glob.foundPop with
    | some x => usableLimit x.density.toNat
    | none => 0
  settleMemory (d.setGlob (fun g => { g with step := if g.quick then 7 else 13 })) p lim

/-- A package fails check 4 (R386, R387). -/
def holdInconsistent (d : Dev) : Dev :=
  setState ((d.setGlob (fun g => { g with heldCause := 4, heldBack := false })).setSec (fun x => { x with lastCheck := 4 })) .held

/-- Steps 13 to 15 (R380, R399). A package that fails check 4 leads to HELD with cause 4 (R387); back from HELD the check comes
first (R388). -/
def finalSteps (d : Dev) : Dev :=
  match d.sec.pkg with
  | none => d
  | some p =>
    if d.glob.dev != .start || !d.glob.pkgUsable || d.glob.resetPhase != .none || !d.memReady
        || decide (d.glob.step ≠ (if d.glob.quick then 7 else 12)) then d
    else
      let ok := d.consistent p
      let d := if d.glob.heldBack && !ok then d else stepThirteen d p
      if !ok then holdInconsistent d
      else
        let d := d.each (List.range 8) (fun d n => applyPort d p n)
        let d := loadPackage d p
        let d := d.each [1, 2, 3, 4, 5] startQuad
        let d := memoryActive (d.setGlob (fun g => { g with
          gen := p.generation, heldCause := 0, heldBack := false, step := if g.quick then 9 else 15 }))
        setState d .service

/-- START_FINAL_STEPS. -/
def execStartFinalSteps (s : State) : Answer := onDevice s finalSteps

end Sys2Proof.Machine
end

