-- ==== Sys2Proof/Machine/ParkOps.lean ====
section
/-! DEFINITION. PARK (R323-R327). -/

namespace Sys2Proof.Machine

/-- PARK can start (R323). -/
def Dev.canPark (d : Dev) : Bool := d.inService && d.park.st == 0 && d.glob.resetPhase == .none

/-- PARK starts (R323): every slice walks from set 0. -/
def parkStart (d : Dev) (pace : BitVec 8) : Dev :=
  if d.canPark then
    ({ d with park := { st := 1, pace := pace } }).each (List.range 16)
      (fun d s => d.updSlice s (fun x => { x with parkNext := 0, parkWait := [] }))
  else d

/-- GLB_PARK.GO (R323, R433): a start by doorbell is journalled as the routine is. -/
def parkGo (d : Dev) (o : Origin) (pace : BitVec 8) : Dev :=
  if d.canPark then journalCall (parkStart d pace) o 0x13 0 [pace.setWidth 18] [] else d

/-- Lines of the entries of a set that PARK recalls. -/
def Dev.parkLines (d : Dev) (s dset : Nat) : List Nat :=
  (List.range 16).filterMap (fun w =>
    let e := d.dirAt s dset w
    if e.st == .i || e.st == .unk then none else d.wayLine s dset w)

/-- A recall of a PARK set enters the slice (R323, class 2). -/
def parkRecallReq (d : Dev) (s line : Nat) : Dev :=
  let sl := d.slice s
  let r := (d.updSlice s (fun y => { y with nextOrd := y.nextOrd + 1 })).start
    { req := { op := .parkRecall, dpa := 64 * line, sup := true }, slice := s, ord := sl.nextOrd, phase := .queued, t0 := d.glob.time }
  r.1.updSlice s (fun x => { x with parkWait := x.parkWait ++ [r.2] })

/-- The pace of PARK lets a slice's next set start: PACE µs of the always-on clock after the set before began (R323). -/
def Dev.paceMet (d : Dev) (s : Nat) : Bool :=
  let x := d.slice s
  decide (x.parkNext = 0) || decide (x.parkT + 400 * d.park.pace.toNat ≤ d.glob.time)

/-- A slice's PARK walker takes its next set once the recalls of the last are answered and the pace is met (R323),
while Q0 runs (R519). -/
def parkStep (d : Dev) (s : Nat) : Dev :=
  let k := (d.slice s).parkNext
  if d.park.st ≠ 1 ∨ d.parkBusy s = true ∨ d.glob.resetPhase ≠ .none ∨ 32768 ≤ k ∨ d.paceMet s = false ∨ d.q0Runs = false then d
  else
    let lines := d.parkLines s k
    let d := countWalk d s 1
    let d := d.updSlice s (fun x => { x with parkNext := k + 1, parkWait := [], parkT := d.glob.time })
    d.each lines (fun d l => parkRecallReq d s l)

/-- PARK_SET_STEP. -/
def execParkSetStep (s : Fin 16) (st : State) : Answer := onIsland 10 st (fun d => parkStep d s.val)

end Sys2Proof.Machine
end

