-- ==== Sys2Proof/Machine/Registers.lean ====
section
/-! DEFINITION. Register writes: access codes, byte enables, device states, locks and write-once fields (R10, R11,
R478-R489), and what each register's write does. -/

namespace Sys2Proof.Machine

/-- The nearer limit of a range. -/
def clamp (lo hi n : Nat) : Nat := if n < lo then lo else if hi < n then hi else n

-- who may write, and when
/-- The power domain of a block, by offset (R476): GLB_START_CTRL and the retained log with its registers stand in PD0. -/
def blockDom (off : Nat) : Nat :=
  match off / 0x10000 with
  | 0x0 => if off = 0x4C then 0 else 1
  | 0x1 => if off % 0x10000 / 0x1000 < 8 then portDom (off % 0x10000 / 0x1000) else 10
  | 0x5 => mcDom (off % 0x10000 / 0x4000)
  | 0xA => if off = 0xA0040 ∨ off = 0xA0044 ∨ (0xA4000 ≤ off ∧ off < 0xA5000) then 0 else 10
  | 0xB => 0
  | 0xD => 0
  | _ => 10

/-- A per-function range (R475). -/
def perFunction (off : Nat) : Bool := decide (0xE0000 ≤ off) && decide (off < 0x120000)

/-- Writes START, HELD, TEST and RECOVERY accept from a host (R483). -/
def acceptedAnywhere (off : Nat) : Bool :=
  off == 0x58 || off == 0x48 || off == 0x4C || off == 0xA0044 || off == 0xB0000
    || (decide (0xC0000 ≤ off) && decide (off < 0xD0000)) || perFunction off

/-- REG_DROPPED (R495); never from Q0. -/
def regDropped (d : Dev) (o : Origin) (off reason : Nat) (read : Bool) : Dev :=
  match o with
  | .q0 => d
  | .mgmt => d
  | _ => raise d 465 0 1 (info (originInfo o off + fld 38 reason + fld 40 (b2n read)))

/-- A host function that can reach the device's registers now. -/
def Dev.reaches (d : Dev) (o : Origin) : Bool :=
  match o with
  | .host p m => d.ldPresent p.val m.val && d.glob.resetPhase == .none
  | _ => d.glob.resetPhase == .none

/-- A write of an offset is carried out in this state, or why not (R480, R483): none where it is. -/
def Dev.writeBar (d : Dev) (o : Origin) (off : Nat) : Option Nat :=
  match o with
  | .host _ _ => if d.inService || acceptedAnywhere off then none else some 1
  | .engine _ => if perFunction off then some 3 else none
  | _ => none

/-- NARROW_WRITE (R378, R479). -/
def narrowWrite (d : Dev) (o : Origin) (off : Nat) : Dev := raise d 453 0 1 (info (originInfo o off))

/-- Registers of 64 bits (R479). -/
def reg64 (off : Nat) : Bool :=
  let r := off / 4 * 4
  if decide (0x60000 ≤ r) && decide (r < 0x68000) then r % 0x1000 == 0x08 || r % 0x1000 == 0x18 || r % 0x1000 == 0x28
  else if decide (0xC0000 ≤ r) && decide (r < 0xC0000 + 28 * 0x100) then
    let k := r % 0x100
    k == 0x10 || k == 0x18 || k == 0x20 || (decide (0x60 ≤ k) && decide (k < 0xA0) && k % 8 == 0)
  else r == 0x80800 || r == 0xA0028 || r == 0xA0030 || r == 0xE0800

/-- Registers whose changes are journalled as REG_WRITE (R433): RW, RWL and WO1 registers of GLB, LAB, DIR, MEM, ERR, EVT
but EVQ_HEAD_q, PWR/CLK, and QUE_SERVE_n. -/
def regJournalled (off : Nat) : Bool :=
  match off / 0x10000 with
  | 0x0 => off == 0x20 || off == 0x24 || off == 0x4C
  | 0x2 => decide (off % 0x10000 < 0x200) && off % 0x40 == 0 || off == 0x20300 || off == 0x20304
  | 0x4 => off == 0x40000 || off == 0x40004 || off == 0x40008
  | 0x5 => off % 0x4000 == 0xC || off % 0x4000 == 0x10
  | 0x8 => decide (off < 0x80800) && off % 0x20 == 8
  | 0x9 => decide (off < 0x90800) || (decide (off < 0x90890) && off % 0x10 == 0) || off == 0x90900
  | 0xA => off == 0xA0010 || off == 0xA0014 || off == 0xA0020 || off == 0xA0028 || off == 0xA002C || off == 0xA0030
      || off == 0xA0034 || off == 0xA0038
  | 0xB => off == 0xB0010
  | _ => false

/-- A locked register (R489). -/
def Dev.locked (d : Dev) (off : Nat) : Bool :=
  if off == 0x20300 || off == 0x20304 then d.glob.lockTables
  else if off == 0x40008 then d.glob.lockRmap
  else if off == 0xA0020 || (decide (0xA0028 ≤ off) && decide (off < 0xA0038)) then d.err.lockFlip
  else false

-- register by register
/-- Replaces the low or high half of a 64-bit value. -/
def setHalf (hi : Bool) (old v : Nat) : Nat := if hi then old % 2 ^ 32 + fld 32 v else old / 2 ^ 32 * 2 ^ 32 + v

/-- GLB_LOCK and ERR_LOCK (R10, R489): a field written 1 is set; a field already set is a locked field. -/
def writeGlbLock (d : Dev) (o : Origin) (v : Nat) : Dev :=
  let held := glbRead d 0x24
  let d' := d.setGlob (fun g => { g with lockTables := g.lockTables || bitAt v 0, lockRmap := g.lockRmap || bitAt v 1 })
  if held = 0 then d' else lockWrite d' o 0x24 4 held v
def writeErrLock (d : Dev) (o : Origin) (v : Nat) : Dev :=
  if d.err.lockFlip then lockWrite d o 0xA0038 4 1 v else d.setErr (fun e => { e with lockFlip := bitAt v 0 })

/-- GLB writes. -/
def glbWrite (d : Dev) (o : Origin) (r v : Nat) : Dev :=
  match r with
  | 0x20 => d.setGlob (fun g => { g with targetTimeout := BitVec.ofNat 17 (clamp 100 100000 (bits v 16 0)) })
  | 0x24 => writeGlbLock d o v
  | 0x40 => if bitAt v 0 then parkGo d o (BitVec.ofNat 8 (bits v 8 1)) else d
  | 0x48 => if bits v 15 0 = 0x5E75 then beginReset d .doorbell (originRole o) (originField o) else d
  | 0x4C => d.setGlob (fun g => { g with fullBist := bitAt v 0, fullTrain := bitAt v 1 })
  | 0x58 => if bitAt v 0 then resyncRequest d o else d
  | _ => d

/-- PRT writes: a replay threshold of zero stores one (R56). -/
def prtWrite (d : Dev) (p r v : Nat) : Dev :=
  if r = 4 then d.updPort p (fun x => { x with replayThresh := if bits v 15 0 = 0 then 1 else BitVec.ofNat 16 v }) else d

/-- LAB writes (R92, R93). -/
def labWrite (d : Dev) (r v : Nat) : Dev :=
  if r < 0x200 then
    let p := r / 0x40
    match r % 0x40 with
    | 0x00 => d.updPort p (fun x => { x with handlers := BitVec.ofNat 32 v &&& 0x9F9F9F9F })
    | 0x0C => d.updPort p (fun x => { x with hstatus := x.hstatus &&& ~~~(BitVec.ofNat 4 v) })
    | _ => d
  else if r = 0x300 then d.setGlob (fun g => { g with tableBase := BitVec.ofNat 24 v })
  else if r = 0x304 then d.setGlob (fun g => { g with tableSize := BitVec.ofNat 24 v })
  else d

/-- SLC_CTRL (R122, R123, R131, R135). -/
def slcCtrl (d : Dev) (s v : Nat) : Dev :=
  let x := d.slice s
  let en := x.ctrl.getLsbD 0
  let want := bitAt v 0
  let ok := want && (en || x.tagsClean)
  let d := d.updSlice s (fun y => { y with ctrl := BitVec.ofNat 32 (bits v 4 1 * 2 + b2n ok) })
  if want && !ok then raise d (64 + 8 * s) 0 1 0
  else if en && !want then
    markWhere (d.updSlice s (fun y => { y with tagsClean := false, side := [] })) s (fun _ => true)
  else d

/-- DIR writes (R185). -/
def dirWrite (d : Dev) (r v : Nat) : Dev :=
  match r with
  | 0x0 => d.setGlob (fun g => { g with rddataE := bitAt v 0 })
  | 0x4 => d.setGlob (fun g => { g with bisnpTimeout := BitVec.ofNat 17 (clamp 100 100000 (bits v 16 0)) })
  | 0x8 => d.setGlob (fun g => { g with rmapBase := BitVec.ofNat 24 v })
  | _ => d

/-- MEM writes (R236). -/
def memWrite (d : Dev) (m r v : Nat) : Dev :=
  match r with
  | 0x0C => d.updMc m (fun x => { x with drainAge := BitVec.ofNat 8 (clamp 1 255 (bits v 7 0)) })
  | 0x10 => d.updMc m (fun x => { x with driftLimit := BitVec.ofNat 7 (clamp 5 100 (bits v 6 0)) })
  | _ => d

/-- QUE_CTRL_n (R331-R333, R353): a write that closes a pair stores CPL_VEC and CPL_MSI_EN too. While a pair opens, another
LD's write changes nothing and raises nothing (DESIGN CHOICE, log entry 126). -/
def queCtrl (d : Dev) (o : Origin) (n v : Nat) : Dev :=
  let p := d.pair n
  let opens := bitAt v 0
  let keep (d : Dev) : Dev := d.updPair n (fun p => { p with cplVec := BitVec.ofNat 6 (bits v 6 1), cplMsi := bitAt v 7 })
  match o with
  | .host q m =>
    if p.st = 0 then (if opens then openPair d n q.val m.val (BitVec.ofNat 32 v) else keep d)
    else if !p.ownedBy o then (if p.isOpen then queueAccess d n 1 o false else d)
    else if opens then keep d else keep (closePair d n 1)
  | _ => if opens || p.st == 0 then keep d else keep (closePair d n 1)

/-- A host's write to a queue register of an open pair that another LD owns (R333). -/
def Dev.foreign (d : Dev) (o : Origin) (n : Nat) : Bool :=
  match o with
  | .host _ _ => (d.pair n).isOpen && !(d.pair n).ownedBy o
  | _ => false

/-- QUE_CPL_HEAD_n (R333, R341, R342). The head of a closed pair stays (R337). -/
def queHead (d : Dev) (o : Origin) (n v : Nat) (pe : Option (BitVec 2)) : Dev :=
  let d := pairDiffers d n pe
  let p := d.pair n
  let h := BitVec.ofNat 8 v
  let host := match o with
    | .host _ _ => true
    | _ => false
  if host && p.st != 2 then queueAccess d n 2 o false
  else if host && decide ((p.cplProd - p.cplHead).toNat < (h - p.cplHead).toNat) then queueAccess d n 4 o false
  else if p.st != 2 then d
  else moveCplHead d n h

/-- QUE writes (R353). An engine that waits and is newly served takes the packets there are (R338). -/
def queWrite (d : Dev) (o : Origin) (r v : Nat) (pe : Option (BitVec 2)) : Dev :=
  if 0x800 ≤ r then d
  else
    let n := r / 0x20
    let k := r % 0x20
    if k = 0 then queCtrl d o n v
    else if (k = 0x08 ∨ k = 0x14 ∨ k = 0x18) ∧ d.foreign o n = true then queueAccess d n 1 o false
    else match k with
    | 0x08 => serveWaiters (d.updPair n (fun p => { p with serve := BitVec.ofNat 32 v &&& 0x00FFFFF0 })) n
    | 0x14 => queHead d o n v pe
    | 0x18 => d.updPair n (fun p => { p with
        thresh := BitVec.ofNat 8 (clamp 1 128 (bits v 7 0)), timeout := BitVec.ofNat 16 (clamp 1 65535 (bits v 23 8)) })
    | _ => d

/-- EVT writes (R343, R354). -/
def evtWrite (d : Dev) (o : Origin) (r v : Nat) (pe : Option Bool) : Dev :=
  if r < 0x800 then d.updSource (r / 4) (fun s => { s with route := BitVec.ofNat 20 v })
  else if r < 0x890 then
    let q := (r - 0x800) / 0x10
    match r % 0x10 with
    | 0x0 => d.updEvq q (fun x => { x with
        ctrl := BitVec.ofNat 32 (bits v 6 0 + fld 7 (clamp 1 128 (bits v 14 7)) + fld 15 (clamp 1 65535 (bits v 30 15))) })
    | 0x8 => moveEvqHead d o q (BitVec.ofNat 8 v) pe
    | _ => d
  else if r = 0x900 then { d with evt := { d.evt with portLd := BitVec.ofNat 32 v } }
  else d

/-- ERR_FLIP_CTRL (R374, R375). -/
def flipCtrl (d : Dev) (v : Nat) : Dev :=
  let path := bits v 5 2
  d.setErr (fun e => { e with
    flipArm := bitAt v 0 && decide (1 ≤ path) && decide (path ≤ 11), flipMatch := bitAt v 1, flipPath := BitVec.ofNat 4 path
    flipInst := BitVec.ofNat 5 (bits v 10 6), flipFired := e.flipFired && !bitAt v 0, flipChk := BitVec.ofNat 8 (bits v 23 16) })

/-- ERR_LOG_FREE (R364). -/
def logFree (d : Dev) (v : Nat) : Dev :=
  if bitAt v 31 then d.setErr (fun e => { e with log := [], fullRaised := false })
  else if (Tab.find d.err.log (bits v 8 0)).isSome then freeEntry d (bits v 8 0) else d

/-- ERR writes (R379). A zero in ERR_PATROL ends the pass under way, without PATROL_DONE (R371; DESIGN CHOICE, log entry 127). -/
def errWrite (d : Dev) (o : Origin) (r v : Nat) : Dev :=
  match r with
  | 0x008 => logFree d v
  | 0x010 => d.setErr (fun e => { e with sweepRate := BitVec.ofNat 8 (clamp 1 255 (bits v 7 0)) })
  | 0x014 => d.setErr (fun e => { e with patrolHours := BitVec.ofNat 8 v, patrol := e.patrol && decide (v % 256 ≠ 0) })
  | 0x020 => flipCtrl d v
  | 0x028 => d.setErr (fun e => { e with flipMask := BitVec.ofNat 64 (setHalf false e.flipMask.toNat v) })
  | 0x02C => d.setErr (fun e => { e with flipMask := BitVec.ofNat 64 (setHalf true e.flipMask.toNat v) })
  | 0x030 => d.setErr (fun e => { e with flipAddr := BitVec.ofNat 64 (setHalf false e.flipAddr.toNat v) &&& 0xFFFFFFFFC0 })
  | 0x034 => d.setErr (fun e => { e with flipAddr := BitVec.ofNat 64 (setHalf true e.flipAddr.toNat v) &&& 0xFFFFFFFFC0 })
  | 0x038 => writeErrLock d o v
  | 0x044 => if bitAt v 0 then d.setErr (fun e => { e with rlog := [] }) else d
  | _ => d

/-- PWR/CLK writes (R464). -/
def pwrWrite (d : Dev) (o : Origin) (r v : Nat) : Dev :=
  match r with
  | 0x000 => powerRequest d o (bits v 4 0) (bitAt v 5)
  | 0x010 => d.setPwr (fun p => { p with
      thmCtrl := BitVec.ofNat 15 (clamp 85 104 (bits v 6 0) + fld 7 (clamp 80 104 (bits v 13 7)) + fld 14 (b2n (bitAt v 14))) })
  | _ => d

/-- CLEAR zeroes a block's nine counters and OVF (R467); a record due is raised all the same. -/
def pmcClear (p : Pmc) : Pmc := { p with cycle := 0, cnt := [], ovf := 0 }

/-- RUN of all 28 blocks (R466): STOP wins. -/
def pmcGrun (d : Dev) (v : Nat) : Dev :=
  if bitAt v 1 then d.each (List.range 28) (fun d b => d.updPmc b (fun p => { p with run := false }))
  else if bitAt v 0 then d.each (List.range 28) (fun d b => d.updPmc b (fun p => { p with run := true }))
  else d

/-- A counter keeps bits 47:0; one of a block whose domain is off reads zero until it is on (R467). -/
def pmcCounter (d : Dev) (b k : Nat) (hi : Bool) (v : Nat) : Dev :=
  if d.pmcOn b then
    d.updPmc b (fun p => { p with cnt := Tab.put p.cnt k (BitVec.ofNat 48 (setHalf hi (Tab.get 0 p.cnt k).toNat v)) })
  else d

/-- Line bits [39:6] of an address filter (R474). -/
def lineBits (v : Nat) : BitVec 64 := BitVec.ofNat 64 v &&& 0xFFFFFFFFC0

/-- PMC writes (R466, R467, R474). -/
def pmcWrite (d : Dev) (r v : Nat) : Dev :=
  if r = 0x2000 then { d with pmcUserEn := bitAt v 0 }
  else if r = 0x2004 then pmcGrun d v
  else if 28 * 0x100 ≤ r then d
  else
    let b := r / 0x100
    let k := r % 0x100
    if 0x40 ≤ k ∧ k < 0x60 then
      d.updPmc b (fun p => { p with sel := Tab.put p.sel ((k - 0x40) / 4) (BitVec.ofNat 32 (bits v 21 0)) })
    else if 0x60 ≤ k ∧ k < 0xA0 then pmcCounter d b ((k - 0x60) / 8) (k % 8 == 4) v
    else match k with
    | 0x00 => d.updPmc b (fun p => (fun (p : Pmc) => if bitAt v 1 then pmcClear p else p) { p with run := bitAt v 0, cycInt := bitAt v 2 })
    | 0x04 => d.updPmc b (fun p => { p with ovf := p.ovf &&& ~~~(BitVec.ofNat 9 v) })
    | 0x08 => d.updPmc b (fun p => { p with master := BitVec.ofNat 32 v &&& 0x0FFF0FFF })
    | 0x10 => d.updPmc b (fun p => { p with addrBase := lineBits (setHalf false p.addrBase.toNat v) })
    | 0x14 => d.updPmc b (fun p => { p with addrBase := lineBits (setHalf true p.addrBase.toNat v) })
    | 0x18 => d.updPmc b (fun p => { p with addrLimit := lineBits (setHalf false p.addrLimit.toNat v) })
    | 0x1C => d.updPmc b (fun p => { p with addrLimit := lineBits (setHalf true p.addrLimit.toNat v) })
    | _ => d

/-- An MSI-X table dword (R493): a vector unmasked with its pending bit set is sent. -/
def msixWrite (d : Dev) (p m r v : Nat) : Dev :=
  let i := r / 16
  let old := Tab.get (0, 0, true) (d.ld p m).msix i
  let new : BitVec 64 × BitVec 32 × Bool := match r % 16 / 4 with
    | 0 => (BitVec.ofNat 64 (setHalf false old.1.toNat v), old.2)
    | 1 => (BitVec.ofNat 64 (setHalf true old.1.toNat v), old.2)
    | 2 => (old.1, BitVec.ofNat 32 v, old.2.2)
    | _ => (old.1, old.2.1, bitAt v 0)
  let d := d.updLd p m (fun l => { l with msix := Tab.put l.msix i new })
  if !new.2.2 && (d.ld p m).msixPending.getLsbD i then
    sendMsix (d.updLd p m (fun l => { l with msixPending := l.msixPending &&& ~~~(BitVec.ofNat 64 (2 ^ i)) })) p m i
  else d

/-- A dword of HDM decoder 0's base or size, which a committed decoder keeps (R494, log entry 22). -/
def Ld.decoderWord (l : Ld) (k v : Nat) : Ld :=
  if l.committed then l
  else if k < 2 then { l with base := setHalf (k == 1) l.base v / 2 ^ 28 * 2 ^ 28 % 2 ^ 52 }
  else { l with size := setHalf (k == 3) l.size v / 2 ^ 28 * 2 ^ 28 }

/-- A write of HDM decoder 0's control register sets Commit, bit 9, or clears it (R187, R192, log entry 22). -/
def decoderWrite (d : Dev) (p m v : Nat) : Dev :=
  if bitAt v 9 then commit d p m (d.ld p m).base (d.ld p m).size
  else if (d.ld p m).committed then uncommit d p m
  else d

/-- Writes to an LD's own ranges (R493, R494): the MSI-X table, the HDM decoder, BI enable, and RAS status bits (log entry 22). -/
def fnWrite (d : Dev) (o : Origin) (off v : Nat) : Dev :=
  match o with
  | .host p m =>
    if off < 0xE0400 then msixWrite d p.val m.val (off - 0xE0000) v
    else if off = 0x101304 then d.updLd p.val m.val (fun l => { l with biEnable := bitAt v 1 })
    else if off = 0x101100 then d.updLd p.val m.val (fun l => { l with ras := l.ras &&& ~~~(BitVec.ofNat 32 v) })
    else if off = 0x10110C then d.updLd p.val m.val (fun l => { l with rasCor := l.rasCor &&& ~~~(BitVec.ofNat 32 v) })
    else if off = hdmCtlOff then decoderWrite d p.val m.val v
    else if 0x101210 ≤ off ∧ off < 0x101220 then d.updLd p.val m.val (fun l => l.decoderWord ((off - 0x101210) / 4) v)
    else d
  | _ => d

/-- What a write of one dword does. -/
def regEffect (d : Dev) (o : Origin) (off v : Nat) (pe : Option (BitVec 2)) (ev : Option Bool) : Dev :=
  let r := off % 0x10000
  if perFunction off then fnWrite d o off v
  else match off / 0x10000 with
  | 0x0 => glbWrite d o r v
  | 0x1 => if r / 0x1000 < 8 then prtWrite d (r / 0x1000) (r % 0x1000) v else d
  | 0x2 => labWrite d r v
  | 0x3 => if r % 0x1000 = 0 then slcCtrl d (r / 0x1000) v else d
  | 0x4 => dirWrite d r v
  | 0x5 => memWrite d (r / 0x4000) (r % 0x4000) v
  | 0x8 => queWrite d o r v pe
  | 0x9 => evtWrite d o r v ev
  | 0xA => errWrite d o r v
  | 0xB => pwrWrite d o r v
  | 0xC => pmcWrite d r v
  | 0xD => if r = 0x18 then d.setSec (fun s => { s with select := BitVec.ofNat 12 v }) else d
  | _ => d

/-- A dword write that its block takes: a locked register reports it (R11), another changes and is journalled (R433). -/
def regWrite32 (d : Dev) (o : Origin) (off v : Nat) (pe : Option (BitVec 2)) (ev : Option Bool) : Dev :=
  if d.locked off then lockWrite d o off 4 (regRead d off) v
  else
    let d' := regEffect d o off v pe ev
    if regJournalled off then journalReg d' o off 4 (regRead d off) (regRead d' off) else d'

/-- The value of a 64-bit register. -/
def regRead64 (d : Dev) (off : Nat) : Nat := regRead d off + fld 32 (regRead d (off + 4))

/-- An aligned 8-byte write of a 64-bit register, single-copy atomic (R479). -/
def regWrite64 (d : Dev) (o : Origin) (off v : Nat) : Dev :=
  if d.locked off then lockWrite d o off 8 (regRead64 d off) v
  else
    let d' := regEffect (regEffect d o off (v % 2 ^ 32) none none) o (off + 4) (v / 2 ^ 32) none none
    if regJournalled off then journalReg d' o off 8 (regRead64 d off) (regRead64 d' off) else d'

/-- A write reaches its block or not: the state rule of R483 comes before the byte enables of R479 (log entry 47). -/
def gated (d : Dev) (o : Origin) (off : Nat) (f : Dev → Dev) : Dev :=
  match d.writeBar o off with
  | some n => regDropped d o off n false
  | none => f d

/-- A write of one dword with its byte enables (R479). -/
def dwordWrite (d : Dev) (o : Origin) (off v en : Nat) (pe : Option (BitVec 2)) (ev : Option Bool) : Dev :=
  if en % 16 = 0 then d
  else gated d o off (fun d => if en % 16 = 15 then regWrite32 d o off v pe ev else narrowWrite d o off)

/-- The block an access is to, as R476 and R477 lay them out. -/
def HostAccess.block : HostAccess → Nat × Nat
  | .reg off _ _ _ _ _ => (off / 0x10000, blockDom off)
  | .slot _ _ _ _ _ _ _ => (0x200, 10)

/-- An access finds its block with its domain on and its clock running (R15, R484). -/
def Dev.blockRuns (d : Dev) : HostAccess → Bool
  | .reg off _ _ _ _ _ => perFunction off || d.islandRuns (domIsland (blockDom off))
  | .slot _ _ _ _ _ _ _ => d.islandRuns 10

/-- A write waits: its block does not answer, or an earlier access of its requester to that block waits (R484, R485). -/
def Dev.mustQueue (d : Dev) (o : Origin) (a : HostAccess) : Bool :=
  !d.blockRuns a || d.waits.any (fun x => x.1 == o && x.2.block == a.block)

/-- A bus write to BAR0 whose block takes it (R479, R480, R483). -/
def busWriteNow (d : Dev) (o : Origin) (off v : Nat) (size8 : Bool) (en : Nat) (pe : Option (BitVec 2)) (ev : Option Bool) : Dev :=
  if d.glob.dev == .off || !d.reaches o then d
  else if !size8 then dwordWrite d o off (v % 2 ^ 32) en pe ev
  else if off % 8 = 0 ∧ reg64 off = true then
    if en % 256 = 0 then d
    else gated d o off (fun d => if en % 256 = 255 then regWrite64 d o off v else narrowWrite d o off)
  else dwordWrite (dwordWrite d o off (v % 2 ^ 32) (en % 16) pe ev) o (off + 4) (v / 2 ^ 32) (en / 16) pe ev

/-- A bus write to BAR0: one its state allows waits for a block that does not answer (R483, R484). -/
def busWrite (d : Dev) (o : Origin) (off v : Nat) (size8 : Bool) (en : Nat) (pe : Option (BitVec 2)) (ev : Option Bool) : Dev :=
  let off := off / 4 * 4
  let a := HostAccess.reg off v size8 en pe ev
  if d.glob.dev != .off && d.reaches o && decide (en % (if size8 then 256 else 16) ≠ 0) && (d.writeBar o off).isNone && d.mustQueue o a then
    { d with waits := d.waits ++ [(o, a)] }
  else busWriteNow d o off v size8 en pe ev

/-- A whole dword written. -/
def writeReg (d : Dev) (o : Origin) (off : Nat) (v : BitVec 32) : Dev := busWrite d o off v.toNat false 15 none none

/-- REGISTER_WRITE (R10, R479, R483). -/
def execRegisterWrite (o : Origin) (off : BitVec 25) (value : BitVec 64) (size8 : Bool) (enables : BitVec 8) (s : State) : Answer :=
  if size8 || decide (enables.toNat < 16) then
    onDevice s (fun d => busWrite d o off.toNat value.toNat size8 enables.toNat none none)
  else .fault .illFormed

/-- GLB_FULL_RESET (R408). -/
def execGlbFullReset (o : Origin) (value : BitVec 32) (s : State) : Answer := onDevice s (fun d => writeReg d o 0x48 value)
/-- GLB_PARK_GO (R323). -/
def execGlbParkGo (o : Origin) (value : BitVec 32) (s : State) : Answer := onDevice s (fun d => writeReg d o 0x40 value)
/-- GLB_RESYNC_GO (R411). -/
def execGlbResyncGo (o : Origin) (value : BitVec 32) (s : State) : Answer := onDevice s (fun d => writeReg d o 0x58 value)
/-- QUEUE_OPEN (R331). -/
def execQueueOpen (o : Origin) (n : Fin 64) (value : BitVec 32) (s : State) : Answer :=
  onDevice s (fun d => writeReg d o (0x80000 + 0x20 * n.val) value)
/-- QUEUE_CLOSE (R332). -/
def execQueueClose (o : Origin) (n : Fin 64) (value : BitVec 32) (s : State) : Answer :=
  onDevice s (fun d => writeReg d o (0x80000 + 0x20 * n.val) value)
/-- QUE_CPL_HEAD_WRITE (R341, R342). -/
def execQueCplHeadWrite (o : Origin) (n : Fin 64) (value : BitVec 32) (ptrErr : Option (BitVec 2)) (s : State) : Answer :=
  onDevice s (fun d => busWrite d o (0x80014 + 0x20 * n.val) value.toNat false 15 ptrErr none)
/-- EVQ_HEAD_WRITE (R351, R342). -/
def execEvqHeadWrite (o : Origin) (q : Fin 9) (value : BitVec 32) (ptrErr : Option Bool) (s : State) : Answer :=
  onDevice s (fun d => busWrite d o (0x90808 + 0x10 * q.val) value.toNat false 15 none ptrErr)
/-- SLC_CTRL_WRITE (R123). -/
def execSlcCtrlWrite (o : Origin) (sl : Fin 16) (value : BitVec 32) (s : State) : Answer :=
  onDevice s (fun d => writeReg d o (0x30000 + 0x1000 * sl.val) value)
/-- LAB_HSTATUS_WRITE (R93). -/
def execLabHstatusWrite (o : Origin) (p : Fin 8) (value : BitVec 32) (s : State) : Answer :=
  onDevice s (fun d => writeReg d o (0x2000C + 0x40 * p.val) value)
/-- ERR_LOG_FREE (R364). -/
def execErrLogFree (o : Origin) (value : BitVec 32) (s : State) : Answer := onDevice s (fun d => writeReg d o 0xA0008 value)
/-- ERR_RLOG_ACK (R367). -/
def execErrRlogAck (o : Origin) (value : BitVec 32) (s : State) : Answer := onDevice s (fun d => writeReg d o 0xA0044 value)
/-- ERR_FLIP_ARM (R374). -/
def execErrFlipArm (o : Origin) (value : BitVec 32) (s : State) : Answer := onDevice s (fun d => writeReg d o 0xA0020 value)
/-- LOCK_FIELD_WRITE (R489). -/
def execLockFieldWrite (o : Origin) (err : Bool) (value : BitVec 32) (s : State) : Answer :=
  onDevice s (fun d => writeReg d o (if err then 0xA0038 else 0x24) value)
/-- PMC_CLEAR (R467). -/
def execPmcClear (o : Origin) (b : Fin 28) (value : BitVec 32) (s : State) : Answer :=
  onDevice s (fun d => writeReg d o (0xC0000 + 0x100 * b.val) value)
/-- PMC_GRUN_START (R466). -/
def execPmcGrunStart (o : Origin) (value : BitVec 32) (s : State) : Answer := onDevice s (fun d => writeReg d o 0xC2004 value)
/-- PMC_GRUN_STOP (R466). -/
def execPmcGrunStop (o : Origin) (value : BitVec 32) (s : State) : Answer := onDevice s (fun d => writeReg d o 0xC2004 value)

-- what a host reads
/-- The CXL device registers of an LD's function as the manual fixes them (R52, R494): the fatal bit, media status "ready",
Memory_Active, and the mailbox payload in bytes. -/
structure FnStatus where
  fatal : Bool
  mediaReady : Bool
  memActive : Bool
  mailboxBytes : Nat
  deriving DecidableEq, Repr

/-- CXL device registers of an LD (R494). -/
def Dev.ldStatus (d : Dev) (p m : Nat) : FnStatus :=
  { fatal := d.glob.dev == .recovery, mediaReady := d.glob.dev == .service, memActive := (d.ld p m).memActive, mailboxBytes := 4096 }

/-- CXL component registers of an LD (R494, log entry 22): the capability headers, RAS, Link as trained, one HDM decoder, and the
BI decoder. -/
def Dev.componentRead (d : Dev) (p m r : Nat) : Nat :=
  let l := d.ld p m
  let x := d.port p
  let header (id place k : Nat) : Nat := id + fld 16 (Config.wire 9 k % 16) + fld 20 place
  if 0x1180 ≤ r ∧ r < 0x11B8 then (Config.linkWord ((r - 0x1180) / 4) x.width x.rate x.flit256 x.lopt).toNat
  else match r with
  | 0x1000 => 1 + fld 16 (Config.wire 9 0 % 256) + fld 24 4
  | 0x1004 => header 2 0x100 1
  | 0x1008 => header 4 0x180 2
  | 0x100C => header 5 0x200 3
  | 0x1010 => header 0xC 0x300 4
  | 0x1100 => l.ras.toNat
  | 0x110C => l.rasCor.toNat
  | 0x1210 => half false l.base
  | 0x1214 => half true l.base
  | 0x1218 => half false l.size
  | 0x121C => half true l.size
  | 0x1220 => l.hdmCtl
  | 0x1304 => fld 1 (b2n l.biEnable)
  | _ => 0

/-- A mailbox command of an LD has not completed. -/
def Dev.mailboxBusy (d : Dev) (p m : Nat) : Bool :=
  d.q0work.any (fun c => decide (c.port = p) && decide (c.ld = m) && c.steps.any (fun x => match x with
    | .answer _ => true
    | .dcReleased => true
    | _ => false))
  || d.sec.requests.any (fun r => match r.1 with
    | .authorize (some b) _ _ => decide (b.port.val = p) && decide (b.ld.val = m)
    | _ => false)
  || (match d.sec.delivery with
    | .writing _ o => decide (o.toNat = p + fld 3 m)
    | _ => false)

/-- CXL device registers of an LD (R494, log entry 22): the capabilities array, device status, memory device status and the
primary mailbox. -/
def Dev.deviceRead (d : Dev) (p m r : Nat) : Nat :=
  let st := d.ldStatus p m
  let header (id k : Nat) : Nat := id + fld 16 (Config.wire 10 k % 256)
  match r with
  | 0x000 => fld 16 (Config.wire 10 0 % 256) + fld 24 1
  | 0x004 => 3
  | 0x010 => header 1 1
  | 0x014 => 0x100
  | 0x018 => 8
  | 0x020 => header 2 2
  | 0x024 => 0x200
  | 0x028 => 0x20 + st.mailboxBytes
  | 0x030 => header 0x4000 3
  | 0x034 => 0x180
  | 0x038 => 8
  | 0x100 => fld 3 (b2n st.fatal)
  | 0x180 => b2n st.fatal + fld 2 (b2n st.mediaReady)
  | 0x200 => Nat.log2 st.mailboxBytes
  | 0x204 => b2n (d.mailboxBusy p m)
  | 0x208 => ((d.mailboxStatus p m).map (·.1)).getD 0
  | 0x214 => ((d.mailboxStatus p m).map (·.2)).getD 0
  | _ => 0

/-- A dword of an LD's own ranges (R493, R494): the MSI-X table and its pending bits, the component registers, the device
registers; what the manual gives no value for reads zero (log entry 22). -/
def Dev.fnRead (d : Dev) (p m off : Nat) : Nat :=
  let l := d.ld p m
  let v := Tab.get (0, 0, true) l.msix ((off - 0xE0000) / 16)
  if off < 0xE0400 then
    match off % 16 / 4 with
    | 0 => half false v.1.toNat
    | 1 => half true v.1.toNat
    | 2 => v.2.1.toNat
    | _ => b2n v.2.2
  else if off = 0xE0800 then half false l.msixPending.toNat
  else if off = 0xE0804 then half true l.msixPending.toNat
  else if off < 0x100000 then 0
  else if off < 0x110000 then d.componentRead p m (off - 0x100000)
  else d.deviceRead p m (off - 0x110000)

/-- What a host's read of a dword of BAR0 returns (R26, R475, R483-R485): its own registers in the per-function ranges; in START
and HELD the blocks that answer, zero of the others; all ones, at the target timeout, of a block whose domain is off or whose clock
island has failed, or to which a write of the same LD waits. A read is no command of the table and changes nothing (R478, log
entry 142). -/
def Dev.dwordRead (d : Dev) (p : Fin 8) (m : Fin 16) (off : Nat) : Nat :=
  let b := off / 0x10000
  let answers := b == 0 || (decide (0xA ≤ b) && decide (b ≤ 0xD))
  if d.glob.dev = .off then 0
  else if perFunction off then d.fnRead p.val m.val off
  else if (d.glob.dev = .start ∨ d.glob.dev = .held) ∧ answers = false then 0
  else if d.mustQueue (.host p m) (.reg off 0 false 15 none none) then 2 ^ 32 - 1
  else regRead d off

/-- A host's read of BAR0 by the read rows of R479: of one dword, all of it is returned whichever enables are set, and zero with
none; an aligned 8-byte read of a 64-bit register is atomic; any other 8-byte read is two dword reads. -/
def hostRead (d : Dev) (p : Fin 8) (m : Fin 16) (off : Nat) (size8 : Bool) (en : Nat) : Nat :=
  let off := off / 4 * 4
  let one (off en : Nat) : Nat := if en % 16 = 0 then 0 else d.dwordRead p m off
  if !size8 then one off en
  else if off % 8 = 0 ∧ reg64 off = true then
    if en % 256 = 0 then 0 else d.dwordRead p m off + fld 32 (d.dwordRead p m (off + 4))
  else one off (en % 16) + fld 32 (one (off + 4) (en / 16))

/-- A longer read: dword reads in ascending offset (R479). -/
def hostReads (d : Dev) (p : Fin 8) (m : Fin 16) (off : Nat) (ens : List Nat) : List Nat :=
  (List.range ens.length).map (fun k => hostRead d p m (off / 4 * 4 + 4 * k) false (ens.getD k 0))

/-- PMC_OVERFLOW (R471): one record for the overflows of a block's oldest cycle not reported yet. -/
def pmcOverflow (d : Dev) (b : Nat) : Dev :=
  match (d.pmc b).fresh with
  | [] => d
  | x :: rest => raise (d.updPmc b (fun p => { p with fresh := rest })) 464 0 0 (info (b + fld 5 x.2.toNat))

/-- PMC_OVERFLOW. -/
def execPmcOverflow (b : Fin 28) (s : State) : Answer := onDevice s (fun d => pmcOverflow d b.val)

end Sys2Proof.Machine
end

