-- ==== Sys2Proof/Machine/EngMem.lean ====
section
/-! DEFINITION. An engine's accesses: translation and its traps, the memory-view cache, loads and stores to the four
spaces, and how a load ends (R242-R247, R253, R254, R265, R278-R286, R291, R296). -/

namespace Sys2Proof.Machine

-- translation
/-- What an access is, as the checks of R82, R83 and R246 tell them apart. -/
inductive Acc where
  | load | store | instr | cmo
  deriving DecidableEq, Repr

/-- A word of space 0: its DPA and what its page says. -/
structure Loc where
  dpa : Nat
  page : Page
  deriving DecidableEq, Repr

def Loc.line (l : Loc) : Nat := l.dpa / 64
/-- Word of its line (0-31). -/
def Loc.word (l : Loc) : Nat := l.dpa / 2 % 32

/-- Where a word address leads, or the cause of the trap it takes. -/
inductive Found where
  | here (l : Loc)
  | trap (cause : Nat)
  deriving DecidableEq, Repr

/-- Priority among the traps of an access (R268). -/
def trapRank (cause : Nat) : Nat := ([5, 6, 18, 7, 8, 9, 12, 10, 11] : List Nat).findIdx (fun c => c == cause)

/-- The check of a page (R82, R83, R246, R254): none where the access may go on. -/
def pageTrap (k : Acc) (atomic sup guard : Bool) (p : Pte) : Option Nat :=
  if !p.v then some 8
  else if atomic && p.device then some 18
  else if !sup && !p.u then some 9
  else if sup && p.u && !guard && k != .cmo then some 12
  else if k == .store && !p.w then some 10
  else if k == .instr && !sup && !p.x then some 11
  else none

/-- Granule a quad looks up with: the one the view's descriptor holds (log entry 36). -/
def Dev.granOf (d : Dev) (view : BitVec 12) : BitVec 2 :=
  match d.desc? view with
  | some x => BitVec.ofNat 2 (descGran x)
  | none => 0

/-- Translates a word address of space 0 (R59, R246). -/
def locate (d : Dev) (e : Nat) (c : Ecc) (k : Acc) (atomic : Bool) (wa : Nat) : Dev × Found :=
  let y := d.engine e
  if y.sup && !y.trans then (d, if wa < 2 ^ 39 then .here ⟨2 * wa, {}⟩ else .trap 6)
  else if 2 ^ 51 ≤ wa then (d, .trap 6)
  else
    match labLookup d (8 + quadOf e) y.cview (d.granOf y.cview) (2 * wa) c with
    | (d, none) => (missReads d e y.cview (2 * wa), .trap 7)
    | (d, some x) =>
      match pageTrap k atomic y.sup y.guard x.pte with
      | some t => (d, .trap t)
      | none =>
        let base := x.pte.frame * 65536
        (d, .here ⟨x.dpa (2 * wa), { device := x.pte.device, stream := x.pte.stream, nopf := x.pte.nopf, lo := base
                                     hi := base + 2 ^ granShift x.gran.toNat, entry := some (8 + quadOf e, x.uid) }⟩)

/-- Translates each word of an access; the operand's check finds its error at the first lookup. -/
def locateAll (d : Dev) (e : Nat) (c : Ecc) (k : Acc) (atomic : Bool) : List Info → Dev × List (Info × Found)
  | [] => (d, [])
  | a :: rest =>
    let (d, f) := locate d e c k atomic (waddr a)
    let (d, l) := locateAll d e .ok k atomic rest
    (d, (a, f) :: l)

/-- The trap an access takes: the highest of R268, the lower word first (log entry 40). -/
def firstTrap : List (Info × Found) → Option (Nat × Info)
  | [] => none
  | (_, .here _) :: rest => firstTrap rest
  | (a, .trap c) :: rest =>
    match firstTrap rest with
    | some (c', a') => if trapRank c' < trapRank c then some (c', a') else some (c, a)
    | none => some (c, a)

/-- The words that were found. -/
def locs (l : List (Info × Found)) : List Loc := l.filterMap (fun x => match x.2 with
  | .here p => some p
  | .trap _ => none)

/-- Word addresses of an access of `n` words. -/
def wordsFrom (a : Info) (n : Nat) : List Info := (List.range n).map (fun j => moveAddr a (j : Nat))

/-- The address of a format M access, and the register's new value in the update forms (R253). -/
def effAddr (y : Engine) (a : Nat) (o : OffM) (n : Nat) (update : Bool) : Info × Option Info :=
  let m := moveAddr (y.ra a) (o.val * (n : Int))
  if update then (y.ra a, some m) else (m, none)

/-- An address register takes its new value. -/
def Engine.updateA (y : Engine) (a : Nat) (u : Option Info) : Engine :=
  match u with
  | some v => y.setA a v
  | none => y

/-- A word of a line as an engine loads it (R241, R296). -/
def loadedWord (data : Line) (poison : Bool) (i : Nat) : Word :=
  (lineWord data i).setWidth 18 ||| (if poison then 0x30000 else 0)

-- requests
/-- A request of an engine to a line of space 0. -/
def engReq (d : Dev) (e : Nat) (sup : Bool) (op : Op) (line : Nat) (p : Page) (data : Line) (mask : Mask) (poison : Bool) : Xact :=
  { req := { src := .engine e, agent := engAgent e, op := op, dpa := 64 * line, data := data, mask := mask, poison := poison
             device := p.device, stream := p.stream, nopf := p.nopf, lo := p.lo, hi := p.hi, entry := p.entry, sup := sup }
    slice := sliceOf (64 * line), t0 := d.glob.time }

/-- Older buffered work of the engine that targets a line (R281, R284). -/
def Engine.lineWaits (y : Engine) (line : Nat) : Bool :=
  y.sb.any (fun b => b.writes.any (fun w => decide (w.line = line))) || y.nt.any (fun l => decide (l.line = line))

-- how a load ends
/-- The loaded registers are written and the instruction completes; an LRP takes its reservation if its line is cached
(R254, R291, log entry 38). -/
def endLoad (d : Dev) (e : Nat) (k : LoadKind) (g a : Nat) (upd : Option Info) (dpa : Nat) (ws : List Word) (len : Nat) : Dev :=
  match k with
  | .ifill dest => advance (d.each (List.range 16) (fun d j =>
      putImem d e (dest + j) (((ws.getD (2 * j + 1) 0).extractLsb' 0 2) ++ ((ws.getD (2 * j) 0).extractLsb' 0 16)))) e len
  | _ =>
    advance (d.updEngine e (fun y =>
      let y := y.setG g (ws.getD 0 0)
      let y := if ws.length = 2 then y.setG (g + 1) (ws.getD 1 0) else y
      let y := y.updateA a upd
      if k = .reserve then { y with rsv := if (y.cached (dpa / 64)).isSome then some dpa else none } else y)) e len

/-- A load's words are there: an IFILL from a poisoned line traps (R265, R296). -/
def takeLoad (d : Dev) (e : Nat) (k : LoadKind) (g a : Nat) (upd : Option Info) (addr : Info) (dpa : Nat) (ws : List Word)
    (len : Nat) : Dev :=
  match k with
  | .ifill _ => if ws.any (fun w => w.getLsbD 16) then trapHere d e 15 addr else endLoad d e k g a upd dpa ws len
  | _ => endLoad d e k g a upd dpa ws len

/-- Starts the requests a load needs: for each word its value or the request that brings it. -/
def loadWords (d : Dev) (e : Nat) : List Loc → List (Nat × Nat) → Dev × List WordSrc × List (Nat × Nat)
  | [], ids => (d, [], ids)
  | l :: rest, ids =>
    let y := d.engine e
    if l.page.device then
      let r := d.start (engReq d e y.sup .readUntracked l.line l.page 0 0 false)
      let (d, ws, ids) := loadWords r.1 e rest (ids ++ [(2 ^ 60 + ids.length, r.2)])
      (d, .from_ r.2 l.word :: ws, ids)
    else match y.cached l.line with
    | some m =>
      let (d, ws, ids) := loadWords d e rest ids
      (d, .val (loadedWord m.data m.poison l.word) :: ws, ids)
    | none =>
      match ids.find? (fun x => decide (x.1 = l.line)) with
      | some (_, i) =>
        let (d, ws, ids) := loadWords d e rest ids
        (d, .from_ i l.word :: ws, ids)
      | none =>
        let r := d.start (engReq d e y.sup .readShared l.line l.page 0 0 false)
        let (d, ws, ids) := loadWords r.1 e rest (ids ++ [(l.line, r.2)])
        (d, .from_ r.2 l.word :: ws, ids)

/-- The words that need no request. -/
def srcVals (ws : List WordSrc) : List Word := ws.map (fun w => match w with
  | .val v => v
  | .from_ _ _ => 0)

/-- A DEVICE entry of the store buffer. -/
def SbEntry.device (b : SbEntry) : Bool := b.page.device || b.writes.any (fun w => w.page.device)

/-- An older DEVICE store has not issued yet: no DEVICE load goes ahead of it (R284). -/
def Engine.deviceWaits (y : Engine) : Bool := y.sb.any (fun b => b.device && !b.issued)

/-- A located word cannot be read yet: older buffered work on its line (R281, R284), or an older DEVICE store. -/
def Engine.readWaits (y : Engine) (l : Loc) : Bool :=
  (l.page.device || (y.cached l.line).isNone) && (y.lineWaits l.line || (l.page.device && y.deviceWaits))

/-- A load from located words (R278, R281, R284): at once on cached lines, else its requests go out and the engine waits.
Older buffered work on a line that must be read makes it wait first. -/
def loadFrom (d : Dev) (x : Env) (k : LoadKind) (g a : Nat) (upd : Option Info) (addr : Info) (ls : List Loc) (len : Nat) : Dev :=
  let e := x.e.val
  let dpa := (ls.headD ⟨0, {}⟩).dpa
  if d.recovering e then
    takeLoad d.drawn e k g a upd addr dpa ((List.range ls.length).map (fun j =>
      0x30000 ||| (Config.freeData (d.glob.draws + j)).setWidth 18)) len
  else
    let lines := ((ls.filter (fun l => !l.page.device)).map Loc.line).eraseDups
    let d := match lines with
      | [] => d
      | l :: rest => d.each rest (fun d n => mvCheck d e n .ok) |> (mvCheck · e l x.mview)
    let y := d.engine e
    if ls.any y.readWaits then d
    else
      let (d, ws, ids) := loadWords d e ls []
      if ids.isEmpty then takeLoad d e k g a upd addr dpa (srcVals ws) len
      else d.updEngine e (fun y => { y with wait := .load k g a upd addr (dpa / 64) ws (ids.map (·.2)) len })

/-- A load of space 0. -/
def loadMem (d : Dev) (x : Env) (acc : Acc) (k : LoadKind) (g a : Nat) (upd : Option Info) (addr : Info) (n len : Nat) : Dev :=
  let (d, l) := locateAll d x.e.val x.lab acc (k == .reserve) (wordsFrom addr n)
  match firstTrap l with
  | some (c, v) => trapHere d x.e.val c v
  | none => loadFrom d x k g a upd addr (locs l) len

-- space 1
/-- An engine's accesses to registers count as Q0's for engines of Q0 (R483). -/
def engOrigin (e : Nat) : Origin := if e < 4 then .q0 else .engine (Fin.ofNat 24 e)
/-- The management window (R242, R275). -/
def inWindow (wa : Nat) : Bool := decide (0x1000000 ≤ wa) && decide (wa < 0x1008000)
/-- A register address the engine may access (R242, R247). -/
def Dev.regSpace (d : Dev) (e wa : Nat) (load : Bool) : Bool :=
  let y := d.engine e
  if wa < 0x1000000 then y.sup || (load && decide (0x60000 ≤ wa) && decide (wa < 0x68000))
  else inWindow wa && y.sup && decide (e < 4)

/-- Entries of the store buffer for space 1. -/
def SbKind.isReg : SbKind → Bool
  | .reg _ _ => true
  | .narrow _ => true
  | .mgmtReg _ _ => true
  | _ => false

/-- Offset of a register in BAR0, or in the window. -/
def regOff (wa : Nat) : Nat := if inWindow wa then 0x2000000 + (wa - 0x1000000) / 2 * 4 else wa / 2 * 4

/-- A register as an engine reads it (R243, R247, R275, R480). -/
def engRegRead (d : Dev) (e off : Nat) : Nat :=
  if 0x2000000 ≤ off then
    let r := off - 0x2000000
    if r % 0x10 = 0 ∧ r / 0x10 < 24 then (d.engine (r / 0x10)).startPc.toNat else 0
  else if perFunction off then 0
  else if (d.engine e).sup then regRead d off
  else if d.pmcLive || off == 0xC2000 then regRead d off else 0

/-- A register load completes (R243, R480): a word load gives bits 17:0 of its register. At an odd word address that is the register
whose dword holds the address (DESIGN CHOICE, log entry 33). -/
def endRegLoad (d : Dev) (e off g : Nat) (pair : Bool) (a : Nat) (upd : Option Info) (len : Nat) : Dev :=
  let v := engRegRead d e off
  let d := if perFunction off then regDropped d (engOrigin e) off 3 true else d
  advance (d.updEngine e (fun y =>
    (if pair then (y.setG g (BitVec.ofNat 18 (v % 65536))).setG (g + 1) (BitVec.ofNat 18 (v / 65536 % 65536))
     else y.setG g (BitVec.ofNat 18 v)).updateA a upd)) e len

/-- The block of an engine's access answers: its domain is on. -/
def Dev.regAnswers (d : Dev) (off : Nat) : Bool := decide (0x2000000 ≤ off) || perFunction off || d.islandRuns (domIsland (blockDom off))

/-- A load of space 1 (R243, R285, R484). -/
def loadReg (d : Dev) (e g a : Nat) (upd : Option Info) (addr : Info) (pair : Bool) (len : Nat) : Dev :=
  let wa := waddr addr
  let off := regOff wa
  if pair && odd wa then trapHere d e 5 addr
  else if !d.regSpace e wa true then trapHere d e 6 addr
  else if (d.engine e).sb.any (fun b => b.kind.isReg) then d
  else if d.regAnswers off then endRegLoad d e off g pair a upd len
  else d.updEngine e (fun y => { y with wait := .reg off g pair a upd addr len })

-- space 2
/-- A word of space 2 the engine may access (R242, R247). -/
def localOk (y : Engine) (wa : Nat) : Bool :=
  if wa < 0x8000 then y.sup || decide (y.subase.toNat ≤ wa)
  else decide (0x10000 ≤ wa) && decide (wa < 0x14000) && y.sup

/-- The check of an instruction word that is loaded (log entry 34). -/
def imemCheck (d : Dev) (e i : Nat) (c : Ecc) (addr : Info) (ok : Dev → Dev) : Dev :=
  match eccWith c (Tab.get 0 (d.engine e).imemBad i) with
  | .ok => ok d
  | .ce _ => ok (engCe (d.updEngine e (fun y => { y with imemBad := Tab.del y.imemBad i })) e false i)
  | .ue => trapHere d e 14 addr

/-- Reads words of space 2 in turn, each with a check of its own (R267), and goes on with them. -/
def readLocal (d : Dev) (e : Nat) (cs : List Ecc) (k : Dev → List Word → Dev) (acc : List Word) : List Info → Dev
  | [] => k d acc
  | a :: rest =>
    let wa := waddr a
    let c := cs.headD .ok
    if wa < 0x8000 then scratchCheck d e wa c (fun d => readLocal d e cs.tail k (acc ++ [d.scratchWord e wa]) rest)
    else imemCheck d e (wa - 0x10000) c a (fun d => readLocal d e cs.tail k (acc ++ [d.imemWord e (wa - 0x10000)]) rest)

/-- The first word outside what the engine may access. -/
def badLocal (y : Engine) (l : List Info) : Option Info := l.find? (fun a => !localOk y (waddr a))

/-- A load of space 2 (R244, R267). -/
def loadLocal (d : Dev) (x : Env) (k : LoadKind) (g a : Nat) (upd : Option Info) (addr : Info) (n len : Nat) : Dev :=
  let e := x.e.val
  match badLocal (d.engine e) (wordsFrom addr n) with
  | some v => trapHere d e 6 v
  | none => readLocal d e x.checks (fun d ws => endLoad d e k g a upd 0 ws len) [] (wordsFrom addr n)

/-- A word stored in space 2. -/
def putLocal (d : Dev) (e : Nat) (a : Info) (w : Word) : Dev :=
  if waddr a < 0x8000 then putScratch d e (waddr a) w else putImem d e (waddr a - 0x10000) w

-- space 3
/-- A raw cell the engine may access (R245, R397). -/
def Dev.cellOk (d : Dev) (e wa : Nat) : Bool :=
  d.glob.dev == .test && decide (e < 4) && decide (wa < 2 ^ 31) && decide (wa % 256 ≤ 143)
/-- Raw access to its tile is carried out (R397). -/
def Dev.cellAnswers (d : Dev) (wa : Nat) : Bool :=
  d.tileSt (wa / 2 ^ 28) == .offline && d.domOn (tileDom (wa / 2 ^ 28))
/-- A raw cell; one never written is a free value (log entry 31). -/
def Dev.rawCell (d : Dev) (wa : Nat) : Word :=
  match Tab.find d.rawCells wa with
  | some w => w
  | none => Config.freeWord (d.glob.draws + 2 ^ 40 + wa)

/-- A load of space 3 (R397): one that a tile does not carry out ends as a load without data. -/
def loadTile (d : Dev) (e : Nat) (k : LoadKind) (g a : Nat) (upd : Option Info) (addr : Info) (n len : Nat) : Dev :=
  let ws := (wordsFrom addr n).map waddr
  if ws.any (fun w => !d.cellOk e w) then trapHere d e 6 addr
  else if ws.any (fun w => !d.cellAnswers w) then trapHere d e 15 addr
  else endLoad d e k g a upd 0 (ws.map d.rawCell) len

/-- An address no access reaches, whatever the space (LRP and SCP check it before they ask for space 0, R268). -/
def Dev.spaceBad (d : Dev) (e : Nat) (addr : Info) (load : Bool) : Bool :=
  match spaceOf addr with
  | 1 => !d.regSpace e (waddr addr) load
  | 2 => (badLocal (d.engine e) (wordsFrom addr 2)).isSome
  | 3 => (wordsFrom addr 2).any (fun a => !d.cellOk e (waddr a))
  | _ => false

/-- A load to any space. -/
def runLoad (d : Dev) (x : Env) (k : LoadKind) (g a : Nat) (o : OffM) (n : Nat) (update : Bool) : Dev :=
  let e := x.e.val
  let (addr, upd) := effAddr (d.engine e) a o n update
  match spaceOf addr with
  | 0 => loadMem d x .load k g a upd addr n o.len
  | 1 => loadReg d e g a upd addr (n == 2) o.len
  | 2 => loadLocal d x k g a upd addr n o.len
  | _ => loadTile d e k g a upd addr n o.len

-- stores
/-- The word entries hold a slot each but those that drain a combining line. -/
def Engine.sbFull (y : Engine) : Bool := decide (8 ≤ (y.sb.filter (fun b => !b.nt)).length)

/-- One write of a word. -/
def wordWrite (l : Loc) (w : Word) : LineWrite :=
  { line := l.line, data := setLineWord 0 l.word (w.extractLsb' 0 16), mask := wordMask l.word, poison := w.extractLsb' 16 2 != 0
    page := l.page }

/-- Two writes of one line as one. -/
def LineWrite.join (a b : LineWrite) : LineWrite :=
  { line := a.line, data := mergeLine a.data b.data b.mask, mask := a.mask ||| b.mask
    poison := if b.mask = BitVec.allOnes 64 then b.poison else a.poison || b.poison, page := b.page }

/-- The writes of a store: the words of one NORMAL line are one write; a DEVICE pair is two (R284, R286). -/
def storeWrites (ls : List Loc) (ws : List Word) : List LineWrite :=
  match ls.zip ws with
  | [(l, w), (m, v)] =>
    if l.line = m.line ∧ l.page.device = false then [(wordWrite l w).join (wordWrite m v)] else [wordWrite l w, wordWrite m v]
  | l => l.map (fun x => wordWrite x.1 x.2)

/-- Two store entries that are one write of one NORMAL line, the older not issued yet, become one (R279). Where its write fails
it raises one ENG_STORE_FAULT, with the older store's address: R277 does not say which address a merged write shows (DESIGN
CHOICE, log entry 125). -/
def SbEntry.merge (l b : SbEntry) : Option SbEntry :=
  match l.writes, b.writes with
  | [v], [w] =>
    if l.kind = .store ∧ b.kind = .store ∧ l.issued = false ∧ l.device = false ∧ b.device = false ∧ l.beyond = b.beyond ∧ v.line = w.line then
      some { l with writes := [v.join w] }
    else none
  | _, _ => none

/-- Writes of combining lines that drain after the newest word store and go to a line of an entry (R283). -/
def drainsBetween (sb : List SbEntry) (b : SbEntry) : Bool :=
  (sb.reverse.takeWhile (·.nt)).any (fun c => c.writes.any (fun v => b.writes.any (fun w => decide (v.line = w.line))))

/-- An entry comes into the store buffer: merged into the newest word store where R279 lets it, and no drain of its line came
between. Drains of combining lines are no entries of the store buffer (R283). -/
def Engine.enter (y : Engine) (b : SbEntry) : Engine :=
  let add : Engine := { y with sb := y.sb ++ [{ b with id := y.nextSb }], nextSb := y.nextSb + 1 }
  match (y.sb.filter (fun l => !l.nt)).getLast? with
  | none => add
  | some l =>
    match l.merge b with
    | some m => if drainsBetween y.sb b then add else { y with sb := y.sb.map (fun c => if c.id = l.id then m else c) }
    | none => add

/-- A buffered write of the engine: combining lines of its lines drain first (R283), the cached copies of NORMAL lines
take it (R281), and a reservation in one of its lines ends (R254). -/
def Engine.bufferStore (y : Engine) (b : SbEntry) : Engine :=
  let y := b.writes.foldl (fun y w => y.drainLine w.line) y
  let y := (b.writes.filter (fun w => !w.page.device)).foldl Engine.mvWrite y
  let y := { y with rsv := match y.rsv with
    | some r => if b.writes.any (fun w => decide (w.line = r / 64)) then none else y.rsv
    | none => none }
  y.enter b

/-- An entry that is no store: combining lines of its lines drain first (R283). -/
def Engine.enterDrained (y : Engine) (b : SbEntry) : Engine := (b.writes.foldl (fun y w => y.drainLine w.line) y).enter b

/-- A fresh entry. -/
def entryOf (k : SbKind) (addr : Info) (p : Page) (ws : List LineWrite) (beyond sup : Bool) : SbEntry :=
  { id := 0, kind := k, addr := addr, page := p, beyond := beyond, writes := ws, issued := false, xids := [], done := none
    sup := sup, nt := false }

/-- A store to located words, through the store buffer; a full buffer makes it wait. -/
def storeTo (d : Dev) (e a : Nat) (upd : Option Info) (addr : Info) (ls : List Loc) (ws : List Word) (len : Nat) : Dev :=
  let y := d.engine e
  let p := (ls.headD ⟨0, {}⟩).page
  let b := entryOf .store addr p (storeWrites ls ws) (ls.any (fun l => decide (d.limit ≤ l.dpa))) y.sup
  if y.sbFull then d else advance (d.updEngine e (fun y => (y.bufferStore b).updateA a upd)) e len

/-- One word into the combining buffer (R253): a third line makes the older one drain. A mark stays with its line (R296). -/
def Engine.combine (y : Engine) (addr : Info) (l : Loc) (w : Word) : Engine :=
  let y := y.dropMview l.line
  let y := if y.nt.any (fun n => decide (n.line = l.line)) then y
    else
      let y := match y.nt with
        | a :: _ :: _ => y.drainLine a.line
        | _ => y
      { y with nt := y.nt ++ [⟨l.line, moveAddr addr (-(l.word : Int)), 0, 0, 0, l.page, y.sup⟩] }
  { y with nt := y.nt.map (fun n =>
      if n.line = l.line then
        { n with data := setLineWord n.data l.word (w.extractLsb' 0 16), words := n.words ||| BitVec.ofNat 32 (2 ^ l.word)
                 marks := if w.extractLsb' 16 2 = 0 then n.marks else n.marks ||| BitVec.ofNat 32 (2 ^ l.word) }
      else n) }

/-- A store of space 0 (R253, R283): the NORMAL words of a non-temporal store go to the combining buffer, the DEVICE words to
the store buffer. -/
def storeMem (d : Dev) (x : Env) (nt : Bool) (a : Nat) (upd : Option Info) (addr : Info) (ws : List Word) (len : Nat) : Dev :=
  let e := x.e.val
  let (d, l) := locateAll d e x.lab .store false (wordsFrom addr ws.length)
  match firstTrap l with
  | some (c, v) => trapHere d e c v
  | none =>
    let ls := locs l
    if !nt || ls.all (fun l => l.page.device) then storeTo d e a upd addr ls ws len
    else
      let words := (List.range ls.length).map (fun j => (moveAddr addr (j : Nat), ls.getD j ⟨0, {}⟩, ws.getD j 0))
      let put (y : Engine) (p : Info × Loc × Word) : Engine :=
        if p.2.1.page.device then
          y.bufferStore (entryOf .store p.1 p.2.1.page [wordWrite p.2.1 p.2.2] (decide (d.limit ≤ p.2.1.dpa)) y.sup)
        else y.combine p.1 p.2.1 p.2.2
      if ls.any (fun l => l.page.device) && (d.engine e).sbFull then d
      else advance (d.updEngine e (fun y => (words.foldl put y).updateA a upd)) e len

/-- An entry for another space than 0. -/
def bufferOther (d : Dev) (e a : Nat) (upd : Option Info) (addr : Info) (k : SbKind) (len : Nat) : Dev :=
  let y := d.engine e
  if y.sbFull then d
  else advance (d.updEngine e (fun y => (y.enter (entryOf k addr {} [] false y.sup)).updateA a upd)) e len

/-- A store of space 1 (R243): a word write will be dropped with NARROW_WRITE. -/
def storeReg (d : Dev) (e a : Nat) (upd : Option Info) (addr : Info) (ws : List Word) (len : Nat) : Dev :=
  let wa := waddr addr
  let off := regOff wa
  let v : BitVec 32 := ((ws.getD 1 0).extractLsb' 0 16) ++ ((ws.getD 0 0).extractLsb' 0 16)
  if decide (ws.length = 2) && odd wa then trapHere d e 5 addr
  else if !d.regSpace e wa false then trapHere d e 6 addr
  else bufferOther d e a upd addr
    (if ws.length = 1 then .narrow off else if inWindow wa then .mgmtReg off v else .reg off v) len

/-- A store of space 2 (R244). -/
def storeLocal (d : Dev) (e a : Nat) (upd : Option Info) (addr : Info) (ws : List Word) (len : Nat) : Dev :=
  match badLocal (d.engine e) (wordsFrom addr ws.length) with
  | some v => trapHere d e 6 v
  | none =>
    let d := d.each ((wordsFrom addr ws.length).zip ws) (fun d p => putLocal d e p.1 p.2)
    advance (d.updEngine e (fun y => y.updateA a upd)) e len

/-- A store of space 3 (R397). -/
def storeTile (d : Dev) (e a : Nat) (upd : Option Info) (addr : Info) (ws : List Word) (len : Nat) : Dev :=
  if (wordsFrom addr ws.length).any (fun v => !d.cellOk e (waddr v)) then trapHere d e 6 addr
  else bufferOther d e a upd addr (.tile (waddr addr) ((ws.getD 1 0) ++ (ws.getD 0 0)) (ws.length == 2)) len

/-- A store to any space. -/
def runStore (d : Dev) (x : Env) (nt : Bool) (g a : Nat) (o : OffM) (n : Nat) (update : Bool) : Dev :=
  let e := x.e.val
  let y := d.engine e
  let (addr, upd) := effAddr y a o n update
  let ws := (List.range n).map (fun j => y.rg (g + j))
  match spaceOf addr with
  | 0 => storeMem d x nt a upd addr ws o.len
  | 1 => storeReg d e a upd addr ws o.len
  | 2 => storeLocal d e a upd addr ws o.len
  | _ => storeTile d e a upd addr ws o.len

-- LRP and SCP
/-- The checks LRP and SCP make before translation (R254, R268): ALIGN, SPACE, ATOMIC. -/
def atomicTrap (d : Dev) (e : Nat) (addr : Info) (load : Bool) : Option Nat :=
  if odd (waddr addr) then some 5
  else if spaceOf addr = 0 then none
  else if d.spaceBad e addr load then some 6
  else some 18

/-- LRP (R254, R291). -/
def runLrp (d : Dev) (x : Env) (g a : Nat) (o : OffM) : Dev :=
  let (addr, _) := effAddr (d.engine x.e.val) a o 2 false
  match atomicTrap d x.e.val addr true with
  | some c => trapHere d x.e.val c addr
  | none => loadMem d x .load .reserve g a none addr 2 o.len

/-- An SCP ends (R254, R292): flags, the reservation, the count of failures in a row. -/
def endScp (d : Dev) (e : Nat) (ok : Bool) (len : Nat) : Dev :=
  advance (d.updEngine e (fun y => { y with
    flags := setFlag (setFlag y.flags 0 ok) 4 (!ok), rsv := none, scpFails := if ok then 0 else y.scpFails + 1 })) e len

/-- An SCP to its pair (R291): it goes out once the engine's older work on the line is done. -/
def scpTo (d : Dev) (e g : Nat) (ls : List Loc) (len : Nat) : Dev :=
  let y := d.engine e
  let l := ls.headD ⟨0, {}⟩
  if y.rsv ≠ some l.dpa ∨ d.recovering e = true then endScp d e false len
  else if y.lineWaits l.line then d.updEngine e (fun y => y.drainLine l.line)
  else match storeWrites ls [y.rg g, y.rg (g + 1)] with
  | w :: _ =>
    let r := d.start (engReq d e y.sup .scp w.line l.page w.data w.mask w.poison)
    r.1.updEngine e (fun y => { y with wait := .scp r.2 len })
  | [] => d

/-- SCP (R254, R291). -/
def runScp (d : Dev) (x : Env) (g a : Nat) (o : OffM) : Dev :=
  let (addr, _) := effAddr (d.engine x.e.val) a o 2 false
  match atomicTrap d x.e.val addr false with
  | some c => trapHere d x.e.val c addr
  | none =>
    let (d, l) := locateAll d x.e.val x.lab .store true (wordsFrom addr 2)
    match firstTrap l with
    | some (c, v) => trapHere d x.e.val c v
    | none => scpTo d x.e.val g (locs l) o.len

end Sys2Proof.Machine
end

