-- ==== Sys2Proof/Machine/EngBuf.lean ====
section
/-! DEFINITION. The store buffer as it issues and completes, loads that return, and the other events of an engine's
buffers and waits (R248, R253, R264, R272-R275, R278-R295, R350). -/

namespace Sys2Proof.Machine

-- what waits on the buffers
/-- Entries FENCE.S waits for. -/
def SbKind.isStore : SbKind → Bool
  | .cmo _ _ _ => false
  | .cmoSw _ _ _ _ _ => false
  | .labi _ _ _ _ => false
  | _ => true

/-- The waits of a FENCE are over (R258, R288). -/
def Engine.fenced (y : Engine) (s c : Bool) : Bool :=
  (!s || (y.nt.isEmpty && y.sb.all (fun b => !b.kind.isStore))) && (!c || y.sb.all (fun b => b.kind.isStore))

/-- A FENCE completes: E tells that an operation it awaited has failed (R258, R294). -/
def endFence (d : Dev) (e : Nat) (failed : Bool) : Dev :=
  advance (d.updEngine e (fun y => { y with flags := if failed then setFlag y.flags 5 true else y.flags })) e 1

/-- An engine stops once its buffers are empty (R272). -/
def endStop (d : Dev) (e : Nat) : Dev := d.updEngine e (fun y => { y with st := .stopped, wait := .none, rsv := none, deferred := [] })

/-- The CMO service ends (R321): 1 in G0 where its CMO failed. -/
def endSvcCmo (d : Dev) (e id : Nat) : Dev :=
  let bad := match (d.engine e).fault with
    | some a => decide (a.1 = id)
    | none => false
  backToUser (d.updEngine e (fun y => { y.setG 0 (if bad then 1 else 0) with fault := if bad then none else y.fault })) e

/-- A wait on the buffers ends when they let it. -/
def bufferSettle (d : Dev) (e : Nat) : Dev :=
  let y := d.engine e
  match y.wait with
  | .fence s c _ bad => if y.fenced s c then endFence d e bad else d
  | .stop => if y.sb.isEmpty && y.nt.isEmpty then endStop d e else d
  | .svcCmo id => if y.sb.any (fun b => decide (b.id = id)) then d else endSvcCmo d e id
  | _ => d

/-- An entry frees its slot. -/
def dropEntry (d : Dev) (e id : Nat) : Dev := d.updEngine e (fun y => { y with sb := y.sb.filter (fun b => !decide (b.id = id)) })

/-- An engine waits where a STORE_FAULT ends its wait (R268). -/
def EngWait.faultable : EngWait → Bool
  | .ewait _ => true
  | .qpop _ _ _ => true
  | .qpush _ _ => true
  | _ => false

/-- A STORE_FAULT that finds the engine waiting (R268): the wait ends without effect. -/
def faultWaiting (d : Dev) (e : Nat) : Dev :=
  let y := d.engine e
  match y.fault with
  | some a =>
    if y.wait.faultable then
      let d := d.each (List.range 64) (fun d n =>
        if (d.pair n).waiters.contains e then d.updPair n (fun p => { p with waiters := p.waiters.filter (· ≠ e) }) else d)
      trap (d.updEngine e (fun y => { y with fault := none })) e 16 y.pc a.2 true
    else d
  | none => d

/-- A buffered operation completed with an error (R277, R282, R294): ENG_STORE_FAULT, its cached line goes, and the trap
is due unless the engine has halted or stopped. -/
def storeFails (d : Dev) (e : Nat) (b : SbEntry) : Dev :=
  let d := raise d (288 + 4 * e + 1) 2 2 b.addr
  let d := if b.kind = .store ∨ b.kind = .zero then d.each b.writes (fun d w => mvEvict d e w.line) else d
  if (d.engine e).st = .halted ∨ (d.engine e).st = .stopped then d
  else
    faultWaiting (d.updEngine e (fun y => { y with fault := match y.fault with
      | some (i, a) => if b.id < i then some (b.id, b.addr) else some (i, a)
      | none => some (b.id, b.addr) })) e

/-- A FENCE notes the failure of an operation it awaits (R258). -/
def EngWait.noteFailure (w : EngWait) (b : SbEntry) : EngWait :=
  match w with
  | .fence s c i bad => .fence s c i (bad || (if b.kind.isStore then s else c))
  | w => w

/-- An entry completes. -/
def endEntry (d : Dev) (e : Nat) (b : SbEntry) (ok : Bool) : Dev :=
  let d := dropEntry d e b.id
  bufferSettle (if ok then d else storeFails (d.updEngine e (fun y => { y with wait := y.wait.noteFailure b })) e b) e

-- issue
/-- The register block of an offset as a target: 64 KiB blocks of BAR0, with the instances of PRT, SLC and MEM apart. -/
def regTarget (off : Nat) : Nat :=
  let b := off / 0x10000
  100 + 16 * b + (if b = 1 ∨ b = 3 then off / 0x1000 % 16 else if b = 5 then off / 0x4000 % 4 else 0)

/-- Targets of an entry (R280): home slices, register blocks, tiles. LABIs go to all LABs. -/
def SbEntry.targets (b : SbEntry) : List Nat :=
  match b.kind with
  | .store => b.writes.map (fun w => sliceOf (64 * w.line))
  | .zero => b.writes.map (fun w => sliceOf (64 * w.line))
  | .cmo _ _ _ => b.writes.map (fun w => sliceOf (64 * w.line))
  | .cmoSw _ _ s _ _ => [s]
  | .labi _ _ _ _ => [16]
  | .reg off _ => [regTarget off]
  | .narrow off => [regTarget off]
  | .mgmtReg off _ => [regTarget off]
  | .tile a _ _ => [20 + a / 2 ^ 28]

/-- An entry that has not issued may issue, `before` being the older entries still in the buffer (R279, R280, R284):
nothing older for one of its targets waits to issue; a DEVICE entry waits for older work on its lines and for an older
DEVICE entry to issue; a register block answers. -/
def Dev.canIssue (d : Dev) (before : List SbEntry) (b : SbEntry) : Bool :=
  !b.issued
    && !before.any (fun c => !c.issued && c.targets.any b.targets.contains)
    && (!b.device || !before.any (fun c =>
        (c.device && !c.issued) || c.writes.any (fun w => b.writes.any (fun v => decide (v.line = w.line)))))
    && (match b.kind with
      | .reg off _ => d.regAnswers off
      | .narrow off => d.regAnswers off
      | _ => true)

/-- The oldest entry that may issue. -/
def Dev.nextIssue (d : Dev) (before : List SbEntry) : List SbEntry → Option SbEntry
  | [] => none
  | b :: rest => if d.canIssue before b then some b else d.nextIssue (before ++ [b]) rest

/-- An entry has issued with these requests. -/
def issued (d : Dev) (e id : Nat) (xids : List Nat) : Dev :=
  d.updEngine e (fun y => { y with sb := y.sb.map (fun b => if b.id = id then { b with issued := true, xids := xids } else b) })

/-- One request for each write of an entry. -/
def startWrites (d : Dev) (e : Nat) (b : SbEntry) : List LineWrite → Dev × List Nat
  | [] => (d, [])
  | w :: ws =>
    let r := d.start (engReq d e b.sup (.write .i) w.line w.page w.data w.mask w.poison)
    let t := startWrites r.1 e b ws
    (t.1, r.2 :: t.2)

/-- A write of the management window (R275). -/
def windowWrite (d : Dev) (off : Nat) (v : BitVec 32) : Dev :=
  let r := off - 0x2000000
  let e := r / 0x10
  let pc := v.extractLsb' 0 14
  if r % 0x10 = 0 ∧ e < 24 then
    let d := d.updEngine e (fun y => { y with startPc := pc })
    if v.getLsbD 14 then startEngine d e pc else d
  else d

/-- Raw cells of a tile written (R397). -/
def putCells (d : Dev) (a : Nat) (v : Pair) (pair : Bool) : Dev :=
  let c := Tab.put d.rawCells a (v.extractLsb' 0 18)
  { d with rawCells := if pair then Tab.put c (a + 1) (v.extractLsb' 18 18) else c }

/-- A store of an engine that RECOVERY fails (R421). -/
def Dev.failsInRecovery (d : Dev) (e : Nat) (b : SbEntry) : Bool := d.recovering e && b.kind.isStore

/-- An entry goes out to its target. -/
def issueEntry (d : Dev) (e : Nat) (b : SbEntry) : Dev :=
  if d.failsInRecovery e b then endEntry d e b false
  else match b.kind with
  | .store => let r := startWrites d e b b.writes; issued r.1 e b.id r.2
  | .zero => let r := startWrites d e b b.writes; issued r.1 e b.id r.2
  | .cmo k coh unlock =>
    let r := d.start (engReq d e b.sup (.cmo k coh unlock) (b.writes.headD { line := 0, data := 0, mask := 0, poison := false }).line b.page 0 0 false)
    issued r.1 e b.id [r.2]
  | .cmoSw k unlock s set way =>
    let r := d.start { req := { src := .engine e, agent := engAgent e, op := .cmoSw k unlock set way
                                dpa := dpaOfTag s set (d.tag s set way).tag.toNat, sup := true }
                       slice := s, t0 := d.glob.time }
    issued r.1 e b.id [r.2]
  | .labi form view gran vpn =>
    let r := labiIssue d e form view gran vpn
    issued r.1 e b.id [r.2]
  | .reg off v => endEntry (busWrite d (engOrigin e) off v.toNat false 15 none none) e b true
  | .narrow off =>
    endEntry (if 0x2000000 ≤ off then narrowWrite d (engOrigin e) (off % 2 ^ 25)
      else busWrite d (engOrigin e) off 0 false 3 none none) e b true
  | .mgmtReg off v => endEntry (windowWrite d off v) e b true
  | .tile a v pair =>
    let ok := d.cellAnswers a && (!pair || d.cellAnswers (a + 1))
    endEntry (if ok then putCells d a v pair else d) e b ok

/-- The buffer issues one entry (R279): one whose parity fails, in the store buffer or the combining buffer, completes with an
error and writes nothing (R355). -/
def bufferIssue (d : Dev) (e : Nat) (parityOk : Bool) : Dev :=
  if d.engSt e == .off || !d.quadRuns e then d
  else match d.nextIssue [] (d.engine e).sb with
  | some b => if parityOk then issueEntry d e b else endEntry d e b false
  | none => d

/-- STORE_BUFFER_ISSUE (R279). -/
def execStoreBufferIssue (e : Fin 24) (parityOk : Bool) (s : State) : Answer := onDevice s (fun d => bufferIssue d e.val parityOk)

-- completion
/-- An access beyond the usable limit reports it where no write reaches a controller (R215). -/
def beyondLimit (d : Dev) (e dpa : Nat) : Dev :=
  let c := chanOf dpa
  logErr (chanEvent d c 9 2 2 dpa 0) { kind := 8, src := 256 + c, loc := dpa, who := { agent := engAgent e } }

/-- An entry whose target has answered completes (R278). -/
def completeEntry (d : Dev) (e : Nat) (b : SbEntry) : Dev :=
  if !b.issued then d
  else match b.kind with
  | .labi _ _ _ _ => if d.labis.any (fun l => b.xids.contains l.1) then d else endEntry d e b true
  | _ =>
    if b.xids.any (fun i => (d.result i).isNone) then d
    else
      let ok := b.xids.all (fun i => d.result i == some true)
      let d := d.each b.xids (fun d i => d.dropXact i)
      match b.kind with
      | .cmo _ _ _ =>
        if b.beyond then endEntry (d.each b.writes (fun d w => beyondLimit d e (64 * w.line))) e b false else endEntry d e b ok
      | _ => endEntry d e b ok

/-- An SCP is answered (R291). -/
def scpAnswer (d : Dev) (e id len : Nat) : Dev :=
  match d.result id with
  | none => d
  | some ok =>
    let d := match d.xact? id with
      | some x => if ok then d.updEngine e (fun y => y.mvWrite { line := x.line, data := x.req.data, mask := x.req.mask, poison := x.req.poison }) else d
      | none => d
    endScp (d.dropXact id) e ok len

/-- A buffered operation, or the SCP the engine waits for, completes. -/
def storeComplete (d : Dev) (e id : Nat) : Dev :=
  match (d.engine e).wait with
  | .scp x len => if x = id then scpAnswer d e id len else
      match (d.engine e).sb.find? (fun b => decide (b.id = id)) with
      | some b => completeEntry d e b
      | none => d
  | _ =>
    match (d.engine e).sb.find? (fun b => decide (b.id = id)) with
    | some b => completeEntry d e b
    | none => d

/-- ENGINE_STORE_COMPLETE (R278). -/
def execEngineStoreComplete (e : Fin 24) (id : Nat) (s : State) : Answer := onIsland (11 + quadOf e.val) s (fun d => storeComplete d e.val id)

/-- A routine's operation is not answered in time (R294): a request of a call of the engine, or a LABI of one. -/
def callTimeout (d : Dev) (e id : Nat) : Dev :=
  let key? := [e, q0Call].find? (fun k => decide (callEngine k = e) && (match d.callOf k with
    | some c => c.outstanding.contains id
    | none => false))
  match key? with
  | some k => match d.callOf k with
    | some c =>
      let r := callLate d k id c
      r.1.setCall k (some r.2)
    | none => d
  | none => match d.labis.find? (fun l => decide (l.1 = id) && decide (l.2.1 = e) && !(d.engine e).sb.any (fun b => b.xids.contains id)) with
    | some (_, _, _, _, gran, vpn) =>
      callFaultAt { d with labis := d.labis.filter (fun l => !decide (l.1 = id)) } e (vpn * 2 ^ granShift gran.toNat)
    | none => d

/-- An operation's target did not answer (R294, R484): an entry that has issued, or that waits for a block whose domain is
off. An SCP fails the same way (log entry 39), and its line leaves the cache, since the write may still land (R282). A routine's own
operations time out too: a request of the engine's call or of Q0's work, or a LABI no LAB has taken (log entry 128). -/
def storeTimeout (d : Dev) (e id : Nat) : Dev :=
  let regDead (off : Nat) (b : SbEntry) : Dev :=
    if d.regAnswers off then d else endEntry (regDropped d (engOrigin e) off 2 false) e b false
  match (d.engine e).sb.find? (fun b => decide (b.id = id)), (d.engine e).wait with
  | some b, _ =>
    match b.kind with
    | .reg off _ => regDead off b
    | .narrow off => regDead off b
    | _ => if b.issued then endEntry (d.each b.xids orphan) e b false else d
  | none, .scp x len =>
    if x = id then endScp (mvEvict (orphan d id) e (match d.xact? id with
      | some y => y.line
      | none => 0)) e false len
    else callTimeout d e id
  | none, _ => callTimeout d e id

/-- STORE_TARGET_TIMEOUT (R294). -/
def execStoreTargetTimeout (e : Fin 24) (id : Nat) (s : State) : Answer := onIsland (11 + quadOf e.val) s (fun d => storeTimeout d e.val id)

-- loads
/-- The word a load takes from its source. -/
def Dev.sourceWord (d : Dev) (w : WordSrc) : Word :=
  match w with
  | .val v => v
  | .from_ i k => match d.xact? i with
    | some x => match x.phase with
      | .done data poison _ => loadedWord data poison k
      | _ => 0
    | none => 0

/-- Load data returns (R278); a register access whose block answers again ends too (R243). -/
def loadReturn (d : Dev) (e : Nat) : Dev :=
  match (d.engine e).wait with
  | .load k g a upd addr line ws xids len =>
    if xids.any (fun i => (d.result i).isNone) then d
    else if xids.all (fun i => d.result i == some true) then
      let words := ws.map d.sourceWord
      let d := d.each xids (fun d i => cacheLine d e i)
      takeLoad (d.each xids (fun d i => d.dropXact i)) e k g a upd addr (64 * line + 2 * (waddr addr % 32)) words len
    else trapHere (d.each xids (fun d i => d.dropXact i)) e 15 addr
  | .reg off g pair a upd _ len => if d.regAnswers off then endRegLoad d e off g pair a upd len else d
  | _ => d

/-- ENGINE_LOAD_RETURN (R278). -/
def execEngineLoadReturn (e : Fin 24) (s : State) : Answer := onIsland (11 + quadOf e.val) s (fun d => loadReturn d e.val)

/-- A load has no data within the target timeout (R243, R253, R484). -/
def loadTimeout (d : Dev) (e : Nat) : Dev :=
  match (d.engine e).wait with
  | .load _ _ _ _ addr _ _ xids _ => trapHere (d.each xids orphan) e 15 addr
  | .reg off _ _ _ _ addr _ =>
    if d.regAnswers off then d else trapHere (regDropped d (engOrigin e) off 2 true) e 15 addr
  | _ => d

/-- ENGINE_LOAD_TIMEOUT (R253). -/
def execEngineLoadTimeout (e : Fin 24) (s : State) : Answer := onIsland (11 + quadOf e.val) s (fun d => loadTimeout d e.val)

/-- The write of a requester to a register that waits for its block. -/
def waitsAt (o : Origin) (off : Nat) (x : Origin × HostAccess) : Bool :=
  x.1 == o && (match x.2 with
    | .reg k _ _ _ _ _ => decide (k = off)
    | _ => false)

/-- REGISTER_ACCESS_TIMEOUT (R484): an access to a PRT or MEM block whose domain is off ends. A host's read is no command of the
table, so one that has had no answer is only seen here (log entry 142); a write is the oldest of its requester to that offset that
waits. -/
def accessTimeout (d : Dev) (o : Origin) (off : Nat) (read : Bool) : Dev :=
  let off := off / 4 * 4
  if d.regAnswers off then d
  else
    let engine (e : Nat) : Dev :=
      if read then (match (d.engine e).wait with
        | .reg k _ _ _ _ _ _ => if k = off then loadTimeout d e else d
        | _ => d)
      else match (d.engine e).sb.find? (fun b => match b.kind with
          | .reg k _ => decide (k = off)
          | .narrow k => decide (k = off)
          | _ => false) with
        | some b => storeTimeout d e b.id
        | none => d
    match o with
    | .engine e => engine e.val
    | _ =>
      if read then (if d.reaches o then emit (regDropped d o off 2 true) (.regDone o off (BitVec.allOnes 64)) else d)
      else match d.waits.find? (waitsAt o off) with
        | some w => regDropped { d with waits := d.waits.erase w } o off 2 false
        | none => d

/-- REGISTER_ACCESS_TIMEOUT. -/
def execRegisterAccessTimeout (o : Origin) (off : BitVec 25) (read : Bool) (s : State) : Answer :=
  onDevice s (fun d => accessTimeout d o off.toNat read)

-- timers and arrivals
/-- NT_COMBINE_IDLE_DRAIN (R253). -/
def execNtCombineIdleDrain (e : Fin 24) (line : Nat) (s : State) : Answer :=
  onIsland (11 + quadOf e.val) s (fun d => d.updEngine e.val (fun y => y.drainLine line))

/-- A reservation expires unless its SCP is on the way (R292). -/
def expire (d : Dev) (e : Nat) : Dev :=
  match (d.engine e).wait, (d.engine e).call with
  | .scp _ _, _ => d
  | _, some { rmw := some _, .. } => d
  | _, _ => d.updEngine e (fun y => { y with rsv := none })

/-- RESERVATION_EXPIRY (R292). -/
def execReservationExpiry (e : Fin 24) (s : State) : Answer := onIsland (11 + quadOf e.val) s (fun d => expire d e.val)

/-- The limit of an EWAIT passes (R264). -/
def waitLimit (d : Dev) (e : Nat) : Dev :=
  match (d.engine e).wait with
  | .ewait g =>
    if (d.engine e).rg g = 0 then d
    else advance (d.updEngine e (fun y => { y with flags := setFlag y.flags 0 true })) e 1
  | _ => d

/-- EWAIT_LIMIT (R264). -/
def execEwaitLimit (e : Fin 24) (s : State) : Answer := onIsland (11 + quadOf e.val) s (fun d => waitLimit d e.val)

/-- The next record on its way to an engine arrives (R350): one whose parity fails is dropped and counted in
EVT_WAKE_DROPS (R355); a LAB_MISS is sent again, since none is lost (R346). -/
def wakeArrival (d : Dev) (e : Nat) (parityOk : Bool) : Dev :=
  match (d.engine e).wakeIn with
  | [] => d
  | r :: rest =>
    let d := d.updEngine e (fun y => { y with wakeIn := rest })
    if parityOk then toWake d e r
    else if 416 ≤ r.src ∧ r.src < 424 then unsend d e r
    else { d with evt := { d.evt with wakeDrops := satInc 32 d.evt.wakeDrops } }

/-- WAKE_RECORD_ARRIVAL (R350). -/
def execWakeRecordArrival (e : Fin 24) (parityOk : Bool) (s : State) : Answer := onIsland (11 + quadOf e.val) s (fun d => wakeArrival d e.val parityOk)

/-- A budget that has reached zero traps (R248, R268). -/
def budgetTrap (d : Dev) (e : Nat) : Dev :=
  let y := d.engine e
  if d.engSt e == .running && y.wait == .none && y.fault.isNone && y.budgetDue && !y.sup then
    trap (d.updEngine e (fun y => { y with budgetDue := false })) e 17 y.pc 0
  else d

/-- BUDGET_EXHAUSTED (R248). -/
def execBudgetExhausted (e : Fin 24) (s : State) : Answer := onIsland (11 + quadOf e.val) s (fun d => budgetTrap d e.val)

/-- ENGINE_START (R272, R275). -/
def execEngineStart (e : Fin 24) (pc : BitVec 14) (s : State) : Answer :=
  onDevice s (fun d => windowWrite d (0x2000000 + 0x10 * e.val) (BitVec.ofNat 32 (pc.toNat + fld 14 1)))

end Sys2Proof.Machine
end

