-- ==== Sys2Proof/Machine/EngSys.lean ====
section
/-! DEFINITION. Engine instructions that leave the engine: loads and stores, atomics, SYS, LABW, LABI, CMO, ZERO, QPOP,
QPUSH, IFILL (R253, R254, R258-R265). -/

namespace Sys2Proof.Machine

/-- LDW (R253). -/
def execLdw (x : Env) (g : Fin 16) (a : Fin 8) (o : OffM) (s : State) : Answer :=
  onDevice s (fun d => runInstr d x (wordM 0x10 g.val a.val o) (!o.ok) false
    (fun d => runLoad d x .plain g.val a.val o 1 false))

/-- LDP (R253). -/
def execLdp (x : Env) (g : Fin 16) (a : Fin 8) (o : OffM) (s : State) : Answer :=
  onDevice s (fun d => runInstr d x (wordM 0x11 g.val a.val o) (!o.ok || odd g.val) false
    (fun d => runLoad d x .plain g.val a.val o 2 false))

/-- LDWU (R253). -/
def execLdwu (x : Env) (g : Fin 16) (a : Fin 8) (o : OffM) (s : State) : Answer :=
  onDevice s (fun d => runInstr d x (wordM 0x14 g.val a.val o) (!o.ok) false
    (fun d => runLoad d x .plain g.val a.val o 1 true))

/-- LDPU (R253). -/
def execLdpu (x : Env) (g : Fin 16) (a : Fin 8) (o : OffM) (s : State) : Answer :=
  onDevice s (fun d => runInstr d x (wordM 0x15 g.val a.val o) (!o.ok || odd g.val) false
    (fun d => runLoad d x .plain g.val a.val o 2 true))

/-- STW (R253). -/
def execStw (x : Env) (g : Fin 16) (a : Fin 8) (o : OffM) (s : State) : Answer :=
  onDevice s (fun d => runInstr d x (wordM 0x12 g.val a.val o) (!o.ok) false
    (fun d => runStore d x false g.val a.val o 1 false))

/-- STP (R253). -/
def execStp (x : Env) (g : Fin 16) (a : Fin 8) (o : OffM) (s : State) : Answer :=
  onDevice s (fun d => runInstr d x (wordM 0x13 g.val a.val o) (!o.ok || odd g.val) false
    (fun d => runStore d x false g.val a.val o 2 false))

/-- STWU (R253). -/
def execStwu (x : Env) (g : Fin 16) (a : Fin 8) (o : OffM) (s : State) : Answer :=
  onDevice s (fun d => runInstr d x (wordM 0x16 g.val a.val o) (!o.ok) false
    (fun d => runStore d x false g.val a.val o 1 true))

/-- STPU (R253). -/
def execStpu (x : Env) (g : Fin 16) (a : Fin 8) (o : OffM) (s : State) : Answer :=
  onDevice s (fun d => runInstr d x (wordM 0x17 g.val a.val o) (!o.ok || odd g.val) false
    (fun d => runStore d x false g.val a.val o 2 true))

/-- STWNT (R253). -/
def execStwnt (x : Env) (g : Fin 16) (a : Fin 8) (o : OffM) (s : State) : Answer :=
  onDevice s (fun d => runInstr d x (wordM 0x18 g.val a.val o) (!o.ok) false
    (fun d => runStore d x true g.val a.val o 1 false))

/-- STPNT (R253). -/
def execStpnt (x : Env) (g : Fin 16) (a : Fin 8) (o : OffM) (s : State) : Answer :=
  onDevice s (fun d => runInstr d x (wordM 0x19 g.val a.val o) (!o.ok || odd g.val) false
    (fun d => runStore d x true g.val a.val o 2 false))

/-- LRP (R254). -/
def execLrp (x : Env) (g : Fin 16) (a : Fin 8) (o : OffM) (s : State) : Answer :=
  onDevice s (fun d => runInstr d x (wordM 0x1A g.val a.val o) (!o.ok || odd g.val) false (fun d => runLrp d x g.val a.val o))

/-- SCP (R254). -/
def execScp (x : Env) (g : Fin 16) (a : Fin 8) (o : OffM) (s : State) : Answer :=
  onDevice s (fun d => runInstr d x (wordM 0x1B g.val a.val o) (!o.ok || odd g.val) false (fun d => runScp d x g.val a.val o))

-- SYS (R258)
/-- Runs a SYS sub-operation. -/
def runSys (x : Env) (sub : Nat) (arg : BitVec 6) (illegal priv : Bool) (body : Dev → Dev) (s : State) : Answer :=
  onDevice s (fun d => runInstr d x (wordSys sub arg.toNat) illegal priv body)

/-- SYS NOP. -/
def execSysNop (x : Env) (arg : BitVec 6) (s : State) : Answer :=
  runSys x 0 arg (arg != 0) false (fun d => advance d x.e.val 1) s

/-- A FENCE starts to wait, and ends at once where nothing is to be waited for (R258, R288). -/
def runFence (d : Dev) (e : Nat) (arg : BitVec 6) : Dev :=
  let st := arg.getLsbD 0
  let d := d.updEngine e (fun y => { (if st then y.drainNt else y) with wait := .fence st (arg.getLsbD 1) (arg.getLsbD 2) false })
  bufferSettle d e

/-- SYS FENCE. -/
def execFence (x : Env) (arg : BitVec 6) (s : State) : Answer :=
  runSys x 1 arg (arg == 0 || decide (8 ≤ arg.toNat)) false (fun d => runFence d x.e.val arg) s

/-- SYS TRAP (R267): SYSCALL once the instruction has completed. DESIGN CHOICE (log entry 146): where it also
brings the budget to zero, SYSCALL is taken first and BUDGET stays due until the engine is back in user mode. -/
def runTrap (d : Dev) (e : Nat) (arg : BitVec 6) : Dev :=
  let d := d.updEngine e Engine.spend
  trap d e 3 ((d.engine e).pc + 1) (arg.setWidth 54)

/-- SYS TRAP. -/
def execSysTrap (x : Env) (arg : BitVec 6) (s : State) : Answer := runSys x 2 arg false false (fun d => runTrap d x.e.val arg) s

/-- SYS BKPT (R267). -/
def execBkpt (x : Env) (arg : BitVec 6) (s : State) : Answer :=
  runSys x 3 arg (arg != 0) false (fun d => trapHere d x.e.val 4 0) s

/-- Return from a trap (R270). -/
def returnTrap (d : Dev) (e : Nat) : Dev :=
  d.updEngine e (fun y => { y with
    sup := y.tstat.getLsbD 0, trans := y.tstat.getLsbD 1, guard := y.tstat.getLsbD 2, intrap := false, pc := y.tpc })

/-- SYS RTT (R270). -/
def execRtt (x : Env) (arg : BitVec 6) (s : State) : Answer :=
  runSys x 4 arg (arg != 0) true (fun d => returnTrap d x.e.val) s

/-- SYS HALT (R273). -/
def execHalt (x : Env) (s : State) : Answer := runSys x 5 0 false true (fun d => haltEngine d x.e.val 0 false) s

/-- SYS STOP (R272): the buffers drain first. -/
def runStop (d : Dev) (e : Nat) : Dev :=
  bufferSettle (d.updEngine e (fun y => { y.drainNt with wait := .stop, rsv := none })) e

/-- SYS STOP. -/
def execStop (x : Env) (s : State) : Answer := runSys x 5 1 false true (fun d => runStop d x.e.val) s

/-- LABIs of an engine in its store buffer. -/
def Engine.labiWaits (y : Engine) : Bool := y.sb.any (fun b => match b.kind with
  | .labi _ _ _ _ => !b.issued
  | _ => false)

/-- A LABSYNC is over (R87). -/
def Dev.labsyncOver (d : Dev) (e : Nat) : Bool := d.labSynced e && !(d.engine e).labiWaits
/-- What an engine's LABIs left to wait for is done with. -/
def clearEffects (d : Dev) (e : Nat) : Dev := { d with labEffects := d.labEffects.filter (fun x => !decide (x.1 = e)) }

/-- SYS LABSYNC (R87). -/
def runLabsync (d : Dev) (e : Nat) : Dev :=
  if d.labsyncOver e then advance (clearEffects d e) e 1 else d.updEngine e (fun y => { y with wait := .labsync })

/-- SYS LABSYNC. -/
def execLabsync (x : Env) (arg : BitVec 6) (s : State) : Answer :=
  runSys x 6 arg (arg != 0) true (fun d => runLabsync d x.e.val) s

/-- SYS EWAIT (R264): the reservation goes; without a record the engine waits. -/
def runEwait (d : Dev) (e g : Nat) : Dev :=
  let d := d.updEngine e (fun y => { y with rsv := none })
  if (d.engine e).wake.isEmpty then d.updEngine e (fun y => { y with wait := .ewait g, st := .waiting }) else takeWake d e

/-- SYS EWAIT. -/
def execEwait (x : Env) (arg : BitVec 6) (s : State) : Answer :=
  runSys x 7 arg (decide (16 ≤ arg.toNat)) true (fun d => runEwait d x.e.val (arg.toNat % 16)) s

/-- SYS SIGNAL (R277). -/
def execSignal (x : Env) (arg : BitVec 6) (s : State) : Answer :=
  runSys x 8 arg (arg != 0) true (fun d =>
    advance (raise d (288 + 4 * x.e.val + 3) 4 0 ((d.engine x.e.val).rt 12)) x.e.val 1) s

-- LABs
/-- `n` words of a descriptor in scratch from `addr` on (R259, R260): another space, or words past the scratch, trap. -/
def readDesc (d : Dev) (x : Env) (addr : Info) (n : Nat) (k : Dev → List Word → Dev) : Dev :=
  let e := x.e.val
  if spaceOf addr ≠ 2 then trapHere d e 6 addr
  else match (wordsFrom addr n).find? (fun a => decide (0x8000 ≤ waddr a)) with
    | some v => trapHere d e 6 v
    | none => readLocal d e x.checks k [] (wordsFrom addr n)

/-- LABW (R259): its descriptor goes to the target LAB, and the engine waits for the report. -/
def execLabw (x : Env) (a : Fin 8) (s : State) : Answer :=
  onDevice s (fun d => runInstr d x (wordLabw 0x39 a.val) false true (fun d =>
    readDesc d x ((d.engine x.e.val).ra a.val) 6 (fun d ws => d.updEngine x.e.val (fun y => { y with wait := .labw ws }))))

/-- View page number of a descriptor. -/
def descVpn (ws : List Word) : Nat := (ws.getD 1 0).toNat + fld 18 (ws.getD 2 0).toNat

/-- An entry that writes nothing by itself enters the store buffer. -/
def enterOp (d : Dev) (e : Nat) (b : SbEntry) : Dev := advance (d.updEngine e (fun y => y.enterDrained b)) e 1

/-- LABI (R260). -/
def runLabi (d : Dev) (x : Env) (form : BitVec 2) (addr : Info) : Dev :=
  let e := x.e.val
  let put (d : Dev) (ws : List Word) : Dev :=
    let w0 := ws.getD 0 0
    enterOp d e (entryOf (.labi form.toNat (w0.extractLsb' 0 12) (w0.extractLsb' 12 2) (if form = 0 then descVpn ws else 0))
      addr {} [] false true)
  if (d.engine e).sbFull then d
  else if form = 2 then put d []
  else readDesc d x addr (if form = 0 then 3 else 1) put

/-- LABI. -/
def execLabi (x : Env) (form : BitVec 2) (a : Fin 8) (s : State) : Answer :=
  onDevice s (fun d => runInstr d x (wordLabi form.toNat a.val) (form == 3) true (fun d =>
    runLabi d x form ((d.engine x.e.val).ra a.val)))

-- maintenance
/-- CMO combinations that are ILLEGAL (R261). -/
def cmoIllegal (kind : BitVec 2) (sw coh unlock : Bool) (g : Nat) : Bool :=
  kind == 3 || (!sw && g != 0) || (sw && coh) || (unlock && kind == 0) || (sw && odd g)

/-- CMO (R261). With SW = 1, bits 35:21 of the pair are not looked at (DESIGN CHOICE, log entry 125). -/
def runCmo (d : Dev) (x : Env) (kind : BitVec 2) (sw : Bool) (a : Nat) (coh unlock : Bool) (g : Nat) : Dev :=
  let e := x.e.val
  let y := d.engine e
  let addr := y.ra a
  if y.sbFull then d
  else if sw then
    let v := (y.rp g).toNat
    enterOp d e (entryOf (.cmoSw kind.toNat unlock (bits v 3 0) (bits v 16 4) (bits v 20 17)) addr {} [] false true)
  else if spaceOf addr ≠ 0 then trapHere d e 6 addr
  else
    let (d, l) := locateAll d e x.lab .cmo false [addr]
    match firstTrap l, locs l with
    | some (c, v), _ => trapHere d e c v
    | none, p :: _ =>
      enterOp d e (entryOf (.cmo kind.toNat coh unlock) addr p.page [{ line := p.line, data := 0, mask := 0, poison := false, page := p.page }] (decide (d.limit ≤ p.dpa)) true)
    | none, [] => d

/-- CMO. -/
def execCmo (x : Env) (kind : BitVec 2) (sw : Bool) (a : Fin 8) (coh unlock : Bool) (g : Fin 16) (s : State) : Answer :=
  onDevice s (fun d => runInstr d x (wordCmo kind.toNat (b2n sw) a.val (b2n coh) (b2n unlock) g.val)
    (cmoIllegal kind sw coh unlock g.val) true (fun d => runCmo d x kind sw a.val coh unlock g.val))

/-- ZERO (R262): a full line of zeros. -/
def runZero (d : Dev) (x : Env) (a : Nat) : Dev :=
  let e := x.e.val
  let addr := (d.engine e).ra a
  if spaceOf addr ≠ 0 then trapHere d e 6 addr
  else
    let (d, l) := locateAll d e x.lab .store false [addr]
    match firstTrap l, locs l with
    | some (c, v), _ => trapHere d e c v
    | none, p :: _ =>
      if (d.engine e).sbFull then d
      else advance (d.updEngine e (fun y => y.bufferStore
        (entryOf .zero addr p.page [{ line := p.line, data := 0, mask := BitVec.allOnes 64, poison := false, page := p.page }] (decide (d.limit ≤ p.dpa)) true))) e 1
    | none, [] => d

/-- ZERO. -/
def execZero (x : Env) (a : Fin 8) (s : State) : Answer :=
  onDevice s (fun d => runInstr d x (wordLabw 0x3C a.val) false true (fun d => runZero d x a.val))

-- queues
/-- QPOP (R254, R263, R338): it pops the queue G[g][5:0] names; which one its firmware names is R338's to say. -/
def runQpop (d : Dev) (x : Env) (nb : Bool) (a g : Nat) : Dev :=
  let e := x.e.val
  let y := d.engine e
  let addr := y.ra a
  let n := bits (y.rg g).toNat 5 0
  let p := d.pair n
  let zero (f : Bool) : Dev := advance (d.updEngine e (fun y => { y.setG g 0 with flags := setFlag y.flags 4 f, rsv := none })) e 1
  if spaceOf addr ≠ 2 then trapHere d e 6 addr
  else match (wordsFrom addr 64).find? (fun v => decide (0x8000 ≤ waddr v)) with
  | some v => trapHere d e 6 v
  | none =>
    if !p.isOpen then zero true
    else if p.unpopped ≠ 0 ∧ p.waiters.any p.serves = false ∧ p.serves e = true then popPacket d n e addr g
    else if nb then zero false
    else (d.updEngine e (fun y => { y with wait := .qpop n addr g, st := .waiting, rsv := none, waitT := d.glob.time })).updPair n
      (fun p => { p with waiters := d.joinWaiters p.waiters e })

/-- QPOP. -/
def execQpop (x : Env) (nb : Bool) (a : Fin 8) (g : Fin 16) (s : State) : Answer :=
  onDevice s (fun d => runInstr d x (wordQ 0x3D (b2n nb) a.val g.val) false true (fun d => runQpop d x nb a.val g.val))

/-- The push itself: a closed queue, or one the engine has not popped since it opened, takes nothing (R263, R341). -/
def pushOrWait (d : Dev) (e n : Nat) (ws : List Word) : Dev :=
  let p := d.pair n
  let done (d : Dev) (f : Bool) : Dev := advance (d.updEngine e (fun y => { y with flags := setFlag y.flags 4 f })) e 1
  if !p.isOpen || !p.poppedBy.contains e then done d true
  else if p.pool = 0 then d.updEngine e (fun y => { y with wait := .qpush n ws, st := .waiting })
  else done (pushPacket (endPopped d e n ws) n ws) false

/-- QPUSH (R263, R289, R341): not before the engine's earlier stores have completed. -/
def runQpush (d : Dev) (x : Env) (a g : Nat) : Dev :=
  let e := x.e.val
  let y := d.engine e
  let addr := y.ra a
  let n := bits (y.rg g).toNat 5 0
  let len := bits (y.rg g).toNat 12 6
  if spaceOf addr ≠ 2 then trapHere d e 6 addr
  else if !y.fenced true false then d.updEngine e Engine.drainNt
  else if len = 0 ∨ 64 < len then advance (d.updEngine e (fun y => { y with flags := setFlag y.flags 4 true })) e 1
  else readDesc d x addr len (fun d ws => pushOrWait d e n ws)

/-- QPUSH. -/
def execQpush (x : Env) (a : Fin 8) (g : Fin 16) (s : State) : Answer :=
  onDevice s (fun d => runInstr d x (wordQ 0x3E 0 a.val g.val) false true (fun d => runQpush d x a.val g.val))

/-- IFILL (R265). The SPACE trap for a destination below IUBASE shows the destination's instruction word, with no space bits
(DESIGN CHOICE, log entry 125). -/
def runIfill (d : Dev) (x : Env) (a g : Nat) : Dev :=
  let e := x.e.val
  let y := d.engine e
  let addr := y.ra a
  let dest := bits (y.rg g).toNat 13 0
  if waddr addr % 32 ≠ 0 ∨ dest % 16 ≠ 0 then trapHere d e 5 addr
  else if spaceOf addr ≠ 0 then trapHere d e 6 addr
  else if !y.sup && decide (dest < 16 * y.iubase.toNat) then trapHere d e 6 (info dest)
  else
    let (d, l) := locateAll d e x.lab .instr false [addr]
    match firstTrap l, locs l with
    | some (c, v), _ => trapHere d e c v
    | none, p :: _ =>
      if p.page.device then
        if (d.engine e).lineWaits p.line || (d.engine e).deviceWaits then d
        else
          let r := d.start (engReq d e y.sup .readUntracked p.line p.page 0 0 false)
          r.1.updEngine e (fun y => { y with wait := .load (.ifill dest) 0 0 none addr p.line
                                                 ((List.range 32).map (fun j => WordSrc.from_ r.2 j)) [r.2] 1 })
      else loadFrom d x (.ifill dest) 0 0 none addr ((List.range 32).map (fun j => ⟨64 * p.line + 2 * j, p.page⟩)) 1
    | none, [] => d

/-- IFILL. -/
def execIfill (x : Env) (a : Fin 8) (g : Fin 16) (s : State) : Answer :=
  onDevice s (fun d => runInstr d x (wordIfill a.val g.val) false false (fun d => runIfill d x a.val g.val))

-- LABs answer
/-- A LABW ends with its result (R259). -/
def endLabw (d : Dev) (e r : Nat) : Dev :=
  advance (d.updEngine e (fun y => { y with labres := BitVec.ofNat 3 r, flags := setFlag y.flags 4 (r != 0) })) e 1

/-- LABW descriptors that are invalid (R259). -/
def labwInvalid (w0 w5 : Nat) : Bool :=
  bits w0 17 14 != 0 || bits w0 13 12 == 3 || bits w5 17 12 != 0 || bits w5 11 8 == 15 || (bitAt w5 6 && decide (8 ≤ bits w5 11 8))

/-- The LAB a descriptor targets: 14 is the engine's own quad. -/
def labwTarget (e w5 : Nat) : Nat := if bits w5 11 8 = 14 then 8 + quadOf e else bits w5 11 8

/-- Domain of a LAB: its port or its quad. -/
def labDom (l : Nat) : Nat := if l < 8 then portDom l else quadDom (l - 8)
/-- The clock island of a LAB (R14, R456). -/
def labIsland (l : Nat) : Nat := if l < 8 then 2 + l else 3 + l

/-- PTE of a descriptor (R259). -/
def labwPte (ws : List Word) : BitVec 32 := ((ws.getD 4 0).extractLsb' 0 16) ++ ((ws.getD 3 0).extractLsb' 0 16)

/-- A LABW reaches its LAB (R71, R77, R86, R259). One whose LAB is in a domain that is off stays on its way (log entry 35). -/
def labwArrives (d : Dev) (e : Nat) (ws : List Word) : Dev :=
  let w0 := ws.getD 0 0
  let w5 := (ws.getD 5 0).toNat
  let l := labwTarget e w5
  let p := labwPte ws
  let view := w0.extractLsb' 0 12
  let gran := w0.extractLsb' 12 2
  let entry := pteOf p (pteFrame p)
  if labwInvalid w0.toNat w5 then endLabw d e 4
  else if !d.islandRuns (labIsland l) then d
  else
    let r := if bitAt w5 6 then labwSlot d e l (bits w5 5 1) (if bitAt w5 7 then none else some (view, gran, descVpn ws, entry, bitAt w5 0))
      else labwPut d l view gran (descVpn ws) entry (bitAt w5 0)
    endLabw r.1 e r.2

/-- The park slot the LABW at hand names and reads, if it holds a request: of an engine's own LABW, or of the record its
built-in handler takes next. -/
def Dev.labwNames (d : Dev) (e : Nat) : Option (Nat × Nat) :=
  let y := d.engine e
  let named : Option (Nat × Nat) := match y.wait with
    | .labw ws =>
      let w5 := (ws.getD 5 0).toNat
      if labwInvalid (ws.getD 0 0).toNat w5 || !bitAt w5 6 then none else some (labwTarget e w5, bits w5 5 1)
    | _ =>
      let rec? := match y.wake.find? Rec.isMiss with
        | some r => some r
        | none => y.deferred.head?
      if d.handlerFree e then rec?.map (fun r => (r.src - 416, bits r.info.toNat 43 39)) else none
  named.filter (fun x => decide (x.1 < 8) && (Tab.find (d.port x.1).slots x.2).isSome)

/-- LABW_AT_LAB (R71): the LABW an engine waits in, or else the LABW of its built-in handler, walked for the oldest record
it holds (R79, R518, log entry 110). An uncorrectable error in the park slot it names is fatal (R355, R420 cause 5). -/
def execLabwAtLab (e : Fin 24) (slot : Ecc) (s : State) : Answer :=
  onDevice s (fun d => match d.labwNames e.val, slot with
    | some (p, k), .ue => enterRecovery d 5 (info (4 + fld 3 p + fld 7 k))
    | _, _ => match (d.engine e.val).wait with
      | .labw ws => labwArrives d e.val ws
      | _ => handlerTurn d e.val)

/-- LABI_TAKE_EFFECT (R85). -/
def execLabiTakeEffect (e : Fin 24) (id : Nat) (s : State) : Answer := onDevice s (fun d => labiEffect d e.val id)

/-- The LABSYNC a call waits for at the head of its steps is over. -/
def callSynced (c : Call) : Call :=
  match c.steps with
  | .labsync :: rest => { c with steps := rest }
  | _ => c

/-- A LABSYNC of an engine ends (R87): its own, or the one its call or Q0's work waits for. -/
def labsyncEnds (d : Dev) (e : Nat) : Dev :=
  if !d.labsyncOver e then d
  else
    let d := clearEffects d e
    let d := match (d.engine e).wait with
      | .labsync => advance d e 1
      | .svcLabsync => backToUser (d.updEngine e (fun y => y.setG 0 0)) e
      | _ => d
    let d := d.updEngine e (fun y => { y with call := y.call.map callSynced })
    if e = 0 then
      { d with q0work := match d.q0work with
          | c :: rest => callSynced c :: rest
          | [] => [] }
    else d

/-- LABSYNC_DONE (R87). -/
def execLabsyncDone (e : Fin 24) (s : State) : Answer := onIsland (11 + quadOf e.val) s (fun d => labsyncEnds d e.val)

end Sys2Proof.Machine
end

