-- ==== Sys2Proof/Machine/Programs.lean ====
section
/-! DEFINITION. The services of host programs (R321). -/

namespace Sys2Proof.Machine

/-- A program waits in a service: it runs, and SYS TRAP `n` has brought it to supervisor code. -/
def Engine.inService (y : Engine) (n : Nat) : Bool :=
  y.running.isSome && y.intrap && y.wait == .none && y.st == .running && decide (bits y.tcause.toNat 4 0 = 3)
    && decide (y.tval.toNat = n) && y.fault.isNone

/-- Runs a service where the engine waits in it (log entry 2), once the records its handler found at the service's entry are
walked (R518). -/
def service (d : Dev) (e n : Nat) (f : Dev → Dev) : Dev := if (d.engine e).inService n && d.quadRuns e && !d.missWaits e then f d else d

/-- A service answers in G0 and returns. -/
def svcReturn (d : Dev) (e : Nat) (status : Word) : Dev := backToUser (d.updEngine e (fun y => y.setG 0 status)) e

/-- EXIT (R321): G0-G7 are the result words. -/
def svcExit (d : Dev) (e : Nat) : Dev := endRun d e 0 ((List.range 8).map (fun i => (d.engine e).rg i))

/-- PROG_SVC_EXIT. -/
def execProgSvcExit (e : Fin 24) (s : State) : Answer := onDevice s (fun d => service d e.val 0 (fun d => svcExit d e.val))

/-- Where the address of a service leads: a line with its page, no mapping, or a held PTE, which is walked again (R79, R81). -/
inductive SvcAddr where
  | here (l : Loc)
  | fails
  | held
  deriving DecidableEq, Repr

/-- DPA and page of A7 under the run's view, the guard lifted (R321): a lookup of the quad LAB (R70, R72); a miss is walked and
its entry installed (R79, R81). -/
def svcLine (d : Dev) (e : Nat) : Dev × SvcAddr :=
  let y := d.engine e
  let va := 2 * waddr (y.ra 7)
  let lab := 8 + quadOf e
  let loc (x : LabEntry) : SvcAddr :=
    if x.pte.v then .here ⟨x.dpa va, { device := x.pte.device, entry := some (lab, x.uid) }⟩ else .fails
  if spaceOf (y.ra 7) ≠ 0 ∨ 2 ^ 52 ≤ va then (d, .fails)
  else match labLookup d lab y.cview (d.granOf y.cview) va .ok with
  | (d, some x) => (d, loc x)
  | (d, none) =>
    let d := d.each (d.walkReads y.cview va) (handlerRead · e ·)
    match d.handle y.cview va with
    | .install g n p =>
      let d := handlerPut d e lab y.cview g n p
      (d, match labFind (d.lab lab) lab y.cview (BitVec.ofNat 2 g) n with
        | some (_, x) => loc x
        | none => .fails)
    | .defer => (d, .held)
    | .fail => (d, .fails)

/-- The CMO service (R321): one that R261 calls ILLEGAL, or whose address has no mapping, fails; one at a held PTE stays in
its service until a later walk finds a leaf (R79). -/
def svcCmo (d : Dev) (e : Nat) : Dev :=
  let y := d.engine e
  let w := y.rg 0
  let kind := w.extractLsb' 0 2
  let sw := w.getLsbD 2
  let v := (y.rp 2).toNat
  let enter (d : Dev) (b : SbEntry) : Dev := d.updEngine e (fun y =>
    let y := y.enterDrained b
    { y with wait := .svcCmo (y.nextSb - 1) })
  if cmoIllegal kind sw (w.getLsbD 3) (w.getLsbD 4) 0 then svcReturn d e 1
  else if y.sbFull then d
  else if sw then
    enter d (entryOf (.cmoSw kind.toNat (w.getLsbD 4) (bits v 3 0) (bits v 16 4) (bits v 20 17)) (y.ra 7) {} [] false true)
  else match svcLine d e with
  | (d, .here l) => enter d (entryOf (.cmo kind.toNat (w.getLsbD 3) (w.getLsbD 4)) (y.ra 7) l.page [{ line := l.line, data := 0, mask := 0, poison := false, page := l.page }]
      (decide (d.limit ≤ l.dpa)) true)
  | (d, .fails) => svcReturn d e 1
  | (d, .held) => d

/-- PROG_SVC_CMO. -/
def execProgSvcCmo (e : Fin 24) (s : State) : Answer := onDevice s (fun d => service d e.val 1 (fun d => svcCmo d e.val))

/-- The LABI service (R321): in the run's view only, by address or by view. -/
def svcLabi (d : Dev) (e : Nat) : Dev :=
  let y := d.engine e
  let byView := (y.rg 0).getLsbD 0
  let g := d.granOf y.cview
  if y.sbFull then d
  else if !byView && decide (spaceOf (y.ra 7) ≠ 0) then svcReturn d e 1
  else
    let b := entryOf (.labi (if byView then 1 else 0) y.cview g (2 * waddr (y.ra 7) / 2 ^ granShift g.toNat)) (y.ra 7) {} [] false true
    svcReturn (d.updEngine e (fun y => y.enter b)) e 0

/-- PROG_SVC_LABI. -/
def execProgSvcLabi (e : Fin 24) (s : State) : Answer := onDevice s (fun d => service d e.val 2 (fun d => svcLabi d e.val))

/-- The LABSYNC service (R321). -/
def svcLabsync (d : Dev) (e : Nat) : Dev :=
  if d.labsyncOver e then svcReturn (clearEffects d e) e 0 else d.updEngine e (fun y => { y with wait := .svcLabsync })

/-- PROG_SVC_LABSYNC. -/
def execProgSvcLabsync (e : Fin 24) (s : State) : Answer := onDevice s (fun d => service d e.val 3 (fun d => svcLabsync d e.val))

end Sys2Proof.Machine
end

