-- ==== Sys2Proof/Machine/Routines.lean ====
section
/-! DEFINITION. The routines of the catalogue (R304): what a call does when its engine takes it. -/

namespace Sys2Proof.Machine

/-- Queue and tag of the call an engine takes, none for a management client's (R299, R300): none where the engine has no
such call to take. -/
def Dev.callFor (d : Dev) (e code : Nat) : Option (Option (Nat × BitVec 10)) :=
  let y := d.engine e
  if !d.inService || d.engSt e != .running || y.wait != .none || y.call.isSome || y.running.isSome then none
  else match y.popped with
    | some (q, tag, c, _) => if c.toNat = code then some (some (q, tag)) else none
    | none => if e < 4 then some none else none

/-- The body words of the call an engine takes: those of the packet it popped, or the management client's (R302). -/
def Dev.bodyOf (d : Dev) (k : CallCtx) : List Word :=
  match (d.engine k.e.val).popped with
  | some (_, _, _, ws) => ws
  | none => k.words

/-- Body words as numbers, low word first: one, two or three of them (R302). A word beyond the packet reads as zero. -/
def b1 (ws : List Word) (i : Nat) : Nat := (ws.getD i 0).toNat
def b2 (ws : List Word) (i : Nat) : Nat := b1 ws i + fld 18 (b1 ws (i + 1))
def b3 (ws : List Word) (i : Nat) : Nat := b2 ws i + fld 36 (b1 ws (i + 2))

/-- Words from the `n`th on are zero (R302). -/
def restZero (ws : List Word) (n : Nat) : Bool := (ws.drop n).all (· == 0)

/-- An engine takes a call of `n` parameter words (R299); `f` gives the call its steps from the words. Words beyond the last
parameter that are not zero end it with BAD_PARAM (R302). -/
def beginCall (d : Dev) (k : CallCtx) (code : Nat) (n : List Word → Nat) (f : List Word → Dev → Call → Dev × Call) : Dev :=
  let e := k.e.val
  match d.callFor e code with
  | none => d
  | some reply =>
    let ws := d.bodyOf k
    let c : Call := { code := code, reply := reply, body := ws }
    let r := if restZero ws (n ws) then f ws d c else (d, c.fails 2)
    r.1.updEngine e (fun y => { y with call := some r.2 })

/-- The seven-word range block of the range routines (R303). -/
structure Range where
  view : BitVec 12
  phys : Bool
  coh : Bool
  zeros : Bool
  base : Nat
  len : Nat
  deriving DecidableEq, Repr

/-- The range block at b0-b6. -/
def rangeOf (ws : List Word) : Range :=
  let w := ws.getD 0 0
  ⟨w.extractLsb' 0 12, w.getLsbD 12, w.getLsbD 13, decide (bits w.toNat 17 14 = 0), b3 ws 1, b3 ws 4⟩

/-- A range block is one R303 allows. -/
def Dev.rangeOk (d : Dev) (r : Range) : Bool :=
  r.zeros && decide (r.base % 64 = 0) && decide (r.len % 64 = 0) && decide (r.len ≠ 0)
    && decide (r.base + r.len ≤ if r.phys then d.limit else 2 ^ 43)

/-- The steps of a range routine over its range: run at once with PHYS, page by page otherwise. -/
def rangeSteps (c : Call) (r : Range) : List CallStep :=
  if r.phys then [rangeStep { c with coh := r.coh } none r.base r.len false false]
  else [.range r.base (r.base + r.len)]

/-- A range routine with `n` counts. -/
def beginRange (d : Dev) (k : CallCtx) (code n : Nat) (noCoh : Bool) : Dev :=
  beginCall d k code (fun _ => 7) (fun ws d c =>
    let r := rangeOf ws
    if !d.rangeOk r || (noCoh && r.coh) then (d, c.fails 2)
    else (d, { c with view := r.view, coh := r.coh, counts := List.replicate n 0, steps := rangeSteps c r ++ [.finish] }))

/-- INVAL_ALL (R124, R304). -/
def invalAllGo (ws : List Word) (d : Dev) (c : Call) : Dev × Call :=
  let named := (List.range 16).filter (fun s => (b1 ws 0).testBit s)
  if named.any (fun s => (d.slice s).ctrl.getLsbD 0) then (d, c.fails 6)
  else (d.each named tagsInvalid, { c with counts := [named.length], steps := [.finish] })

/-- INVAL_ALL. -/
def execInvalAll (k : CallCtx) (s : State) : Answer := onDevice s (fun d => beginCall d k 1 (fun _ => 1) invalAllGo)

/-- CLEAN_RANGE. -/
def execCleanRange (k : CallCtx) (s : State) : Answer := onDevice s (fun d => beginRange d k 2 3 false)

/-- INVAL_RANGE. -/
def execInvalRange (k : CallCtx) (s : State) : Answer := onDevice s (fun d => beginRange d k 3 4 false)

/-- CLINV_RANGE. -/
def execClinvRange (k : CallCtx) (s : State) : Answer := onDevice s (fun d => beginRange d k 4 4 false)

/-- MAINT_SETWAY (R310): first and last cset of 13 bits. -/
def maintSetwayGo (ws : List Word) (d : Dev) (c : Call) : Dev × Call :=
  let kind := bits (b1 ws 0) 1 0
  if kind = 3 ∨ 8192 ≤ b1 ws 2 ∨ 8192 ≤ b1 ws 3 then (d, c.fails 2)
  else (d, { c with
    mode := kind, slices := (ws.getD 1 0).extractLsb' 0 16, base := b1 ws 2, last := b1 ws 3
    ways := (ws.getD 4 0).extractLsb' 0 16, counts := [0, 0], steps := [.setways 0 (b1 ws 2) 0, .finish] })

/-- MAINT_SETWAY. -/
def execMaintSetway (k : CallCtx) (s : State) : Answer := onDevice s (fun d => beginCall d k 5 (fun _ => 5) maintSetwayGo)

/-- LOCK_PRELOAD and its release form, whose range words must be zero (R312). -/
def lockPreloadGo (ws : List Word) (d : Dev) (c : Call) : Dev × Call :=
  let r := rangeOf ws
  let c := { c with view := r.view, mode := bits (b1 ws 7) 3 0 }
  if bitAt (b1 ws 7) 4 then
    if (ws.take 7).all (· == 0) then (d, { c with counts := [0, 0, 0], steps := [.release 0, .finish] }) else (d, c.fails 2)
  else if !d.rangeOk r || r.coh then (d, c.fails 2)
  else (d, { c with counts := [0, 0, 0], steps := rangeSteps c r ++ [.finish] })

/-- LOCK_PRELOAD. -/
def execLockPreload (k : CallCtx) (s : State) : Answer := onDevice s (fun d => beginCall d k 6 (fun _ => 8) lockPreloadGo)

/-- SWEEP. -/
def execSweep (k : CallCtx) (s : State) : Answer := onDevice s (fun d => beginRange d k 7 3 true)

/-- A view routine: its parameters are in `c`, and it runs once it holds its view's lock (R314). -/
def viewCall (c : Call) : Call := { c with steps := [.lockViews [c.view], .viewGo] }

/-- The view of body word `i`. -/
def viewAt (ws : List Word) (i : Nat) : BitVec 12 := (ws.getD i 0).extractLsb' 0 12

/-- VIEW_CREATE (R317): LEVELS 0b01 or 0b10 and a granule of R62. -/
def viewCreateArgs (ws : List Word) (d : Dev) (c : Call) : Dev × Call :=
  let levels := bits (b1 ws 1) 1 0
  let gran := bits (b1 ws 1) 3 2
  if (levels = 1 ∨ levels = 2) ∧ gran ≠ 3 then (d, viewCall { c with view := viewAt ws 0, mode := levels + 4 * gran })
  else (d, c.fails 2)

/-- VIEW_CREATE. -/
def execViewCreate (k : CallCtx) (s : State) : Answer := onDevice s (fun d => beginCall d k 8 (fun _ => 2) viewCreateArgs)

/-- VIEW_DELETE. -/
def execViewDelete (k : CallCtx) (s : State) : Answer :=
  onDevice s (fun d => beginCall d k 9 (fun _ => 1) (fun ws d c => (d, viewCall { c with view := viewAt ws 0 })))

/-- VIEW_BIND: `keep` is UNBIND. -/
def viewBindArgs (ws : List Word) (d : Dev) (c : Call) : Dev × Call :=
  (d, viewCall { c with view := viewAt ws 1, port := bits (b1 ws 0) 2 0, ld := bits (b1 ws 0) 6 3, keep := bitAt (b1 ws 0) 7 })

/-- VIEW_BIND. -/
def execViewBind (k : CallCtx) (s : State) : Answer := onDevice s (fun d => beginCall d k 0xA (fun _ => 2) viewBindArgs)

/-- The parameters VIEW_MAP and DC_ADD share at b1-b9 (R45, R304). -/
def Call.withMap (c : Call) (ws : List Word) : Call :=
  { c with
    base := b3 ws 1, pages := b2 ws 4, attr := (ws.getD 6 0).extractLsb' 0 8, keep := bitAt (b1 ws 6) 8, large := bitAt (b1 ws 6) 9
    list := bitAt (b1 ws 6) 10, first := b3 ws 7 }

/-- VIEW_MAP. -/
def execViewMap (k : CallCtx) (s : State) : Answer :=
  onDevice s (fun d => beginCall d k 0xB (fun _ => 10) (fun ws d c => (d, viewCall { c.withMap ws with view := viewAt ws 0 })))

/-- VIEW_UNMAP. -/
def execViewUnmap (k : CallCtx) (s : State) : Answer :=
  onDevice s (fun d => beginCall d k 0xC (fun _ => 6) (fun ws d c =>
    (d, viewCall { c with view := viewAt ws 0, base := b3 ws 1, pages := b2 ws 4 })))

/-- Views in ascending ID, each once (R314). -/
def sortViews (vs : List (BitVec 12)) : List (BitVec 12) := vs.foldr (fun v l =>
  if l.contains v then l else l.takeWhile (fun x => decide (x < v)) ++ v :: l.dropWhile (fun x => decide (x < v))) []

/-- VIEW_REMAP (R90, R314, R520): one to eight views at b5 on; a spare frame at or beyond the usable limit is no frame
(log entry 111). -/
def viewRemapGo (ws : List Word) (d : Dev) (c : Call) : Dev × Call :=
  let n := bits (b1 ws 4) 3 0
  let views := (List.range n).map (fun i => viewAt ws (5 + i))
  let spare := b2 ws 2
  if n = 0 ∨ 8 < n ∨ d.limit ≤ 65536 * spare then (d, c.fails 2)
  else (d, { c with
    view := views.headD 0, old := b2 ws 0, spare := spare, counts := [0, 0]
    steps := [.lockViews (sortViews views), .remapFind views, .remapGo, .finish] })

/-- VIEW_REMAP: its last parameter is the last view it lists. -/
def execViewRemap (k : CallCtx) (s : State) : Answer :=
  onDevice s (fun d => beginCall d k 0xD (fun ws => 5 + bits (b1 ws 4) 3 0) viewRemapGo)

/-- RESIGN (R195): the pair must be attached; the routine ends at the resignation point. -/
def resignGo (ws : List Word) (d : Dev) (c : Call) : Dev × Call :=
  let agent : BitVec 12 := viewAt ws 0
  let epoch : BitVec 4 := (ws.getD 1 0).extractLsb' 0 4
  match d.agent? agent with
  | some x =>
    if x.attached && x.epoch == epoch then
      (resign d agent 4, { c with first := agent.toNat, steps := [.awaitAgent agent epoch, .finish] })
    else (d, c.fails 4)
  | none => (d, c.fails 4)

/-- RESIGN. -/
def execResign (k : CallCtx) (s : State) : Answer := onDevice s (fun d => beginCall d k 0xE (fun _ => 2) resignGo)

/-- A tile routine: it runs once no other runs on its tile (R300). -/
def tileCall (ws : List Word) (d : Dev) (c : Call) : Dev × Call :=
  (d, { c with mode := bits (b1 ws 0) 2 0, base := bits (b1 ws 1) 5 0, steps := [.tileGo] })

/-- TILE_OFFLINE. -/
def execTileOffline (k : CallCtx) (s : State) : Answer := onDevice s (fun d => beginCall d k 0xF (fun _ => 1) tileCall)

/-- TILE_ONLINE. -/
def execTileOnline (k : CallCtx) (s : State) : Answer := onDevice s (fun d => beginCall d k 0x10 (fun _ => 1) tileCall)

/-- TILE_RETIRE. -/
def execTileRetire (k : CallCtx) (s : State) : Answer := onDevice s (fun d => beginCall d k 0x11 (fun _ => 1) tileCall)

/-- BANK_RETIRE. -/
def execBankRetire (k : CallCtx) (s : State) : Answer := onDevice s (fun d => beginCall d k 0x12 (fun _ => 2) tileCall)

/-- The PARK routine (R323). -/
def parkCall (ws : List Word) (d : Dev) (c : Call) : Dev × Call :=
  if d.canPark then (parkStart d ((ws.getD 0 0).extractLsb' 0 8), { c with steps := [.awaitPark, .finish] }) else (d, c.fails 10)

/-- PARK. -/
def execPark (k : CallCtx) (s : State) : Answer := onDevice s (fun d => beginCall d k 0x13 (fun _ => 1) parkCall)

/-- The call's queue is served by exactly one engine (R319). -/
def Dev.oneEngine (d : Dev) (c : Call) : Bool :=
  match c.reply with
  | some (q, _) => decide (onesIn 24 (d.pair q).serve.toNat = 1)
  | none => false

/-- PROG_LOAD (R319): the image is read by the loads of IFILL, which recall its holders and cache its lines (R265, R287). -/
def progLoadGo (e : Nat) (ws : List Word) (d : Dev) (c : Call) : Dev × Call :=
  let r := rangeOf ws
  if !d.oneEngine c then (d, c.fails 3)
  else if !d.rangeOk r || r.coh then (d, c.fails 2)
  else if (d.engine e).prog.isSome then (d, c.fails 9)
  else
    (d, { c with view := r.view, keep := r.phys, base := r.base, last := r.len, steps := rangeSteps c r ++ [.progGo] })

/-- PROG_LOAD. -/
def execProgLoad (k : CallCtx) (s : State) : Answer := onDevice s (fun d => beginCall d k 0x14 (fun _ => 7) (progLoadGo k.e.val))

/-- A handle names the program an engine holds (R319, R320). -/
def Engine.holds (y : Engine) (e : Nat) (h : Word) : Bool :=
  match y.prog with
  | some p => decide (h.toNat = e + fld 5 p.count.toNat)
  | none => false

/-- The state PROG_RUN starts a program in (R248, R320): a BUDGET trap that was due is not. -/
def Engine.enterProgram (y : Engine) (view : BitVec 12) (budget : Pair) (args : List Word) (entry : BitVec 13) : Engine :=
  { y with
    running := some view, sup := false, trans := false, guard := false, intrap := false, iubase := 0x200, subase := 0x4000
    pc := BitVec.ofNat 14 (0x2000 + entry.toNat), cview := view, budget := budget, budgetDue := false, flags := 0, fault := none
    g := (List.range 8).map (fun i => (i, args.getD i 0)), a := [(0, info (fld 52 2 + 0x4000))] }

/-- PROG_RUN (R319, R320). -/
def progRunGo (e : Nat) (ws : List Word) (d : Dev) (c : Call) : Dev × Call :=
  let y := d.engine e
  let view := viewAt ws 1
  let budget : Pair := BitVec.ofNat 36 (b2 ws 2)
  if !d.oneEngine c then (d, c.fails 3)
  else match y.prog with
  | some p =>
    if !y.holds e (ws.getD 0 0) || decide (budget = 0) then (d, c.fails 2)
    else (d.updEngine e (fun y => y.enterProgram view budget ((ws.drop 4).take 8) p.entry), { c with view := view, steps := [.awaitRun] })
  | none => (d, c.fails 2)

/-- PROG_RUN. -/
def execProgRun (k : CallCtx) (s : State) : Answer := onDevice s (fun d => beginCall d k 0x15 (fun _ => 12) (progRunGo k.e.val))

/-- PROG_FREE (R319): a stale handle is BAD_PARAM, as for PROG_RUN. -/
def progFreeGo (e : Nat) (ws : List Word) (d : Dev) (c : Call) : Dev × Call :=
  if (d.engine e).holds e (ws.getD 0 0) then (d.updEngine e (fun y => { y with prog := none }), { c with steps := [.finish] })
  else (d, c.fails 2)

/-- PROG_FREE. -/
def execProgFree (k : CallCtx) (s : State) : Answer := onDevice s (fun d => beginCall d k 0x16 (fun _ => 1) (progFreeGo k.e.val))

/-- Tag of a DC_ADD: two bytes a word from b10 (R45). -/
def dcTag (ws : List Word) : BitVec 128 := BitVec.ofNat 128 ((List.range 8).foldl (fun n i => n + fld (16 * i) (bits (b1 ws (10 + i)) 15 0)) 0)

/-- DC_ADD (R45): the view is the one the LD is bound to; b0[17:10] is zero. -/
def dcAddArgs (ws : List Word) (d : Dev) (c : Call) : Dev × Call :=
  let p := bits (b1 ws 0) 2 0
  let m := bits (b1 ws 0) 6 3
  match Tab.find d.binds (16 * p + m) with
  | some v =>
    if bits (b1 ws 0) 17 10 ≠ 0 then (d, c.fails 2)
    else (d, viewCall { c.withMap ws with view := v, port := p, ld := m, region := bits (b1 ws 0) 9 7, tag := dcTag ws })
  | none => (d, c.fails 2)

/-- DC_ADD. -/
def execDcAdd (k : CallCtx) (s : State) : Answer := onDevice s (fun d => beginCall d k 0x17 (fun _ => 18) dcAddArgs)

/-- DC_RELEASE (R47). -/
def dcReleaseGo (ws : List Word) (d : Dev) (c : Call) : Dev × Call :=
  let p := bits (b1 ws 0) 2 0
  let m := bits (b1 ws 0) 6 3
  let region := bits (b1 ws 0) 9 7
  let base := b3 ws 1
  match (d.ld p m).extents.find? (fun x => x.accepted && decide (x.region = region) && decide (x.base = base)) with
  | some x =>
    if bits (b1 ws 0) 17 10 ≠ 0 then (d, c.fails 2)
    else (emit d (.dcRelease p m region base x.pages), { c with view := d.boundView p m x.view, steps := [.finish] })
  | none => (d, c.fails 2)

/-- DC_RELEASE. -/
def execDcRelease (k : CallCtx) (s : State) : Answer := onDevice s (fun d => beginCall d k 0x18 (fun _ => 4) dcReleaseGo)

/-- A routine code the catalogue does not have (R304). -/
def execRoutineUnknown (k : CallCtx) (code : BitVec 8) (s : State) : Answer :=
  onDevice s (fun d =>
    if 1 ≤ code.toNat ∧ code.toNat ≤ 0x18 then d
    else beginCall d k code.toNat List.length (fun _ d c => (d, c.fails 13)))

end Sys2Proof.Machine
end

