-- ==== Sys2Proof/Machine/Mailbox.lean ====
section
/-! DEFINITION. The component command mailbox of an LD and the MLD commands of a port (R42-R46, R51, R351, R365, R439, R440,
R444). Opcodes and return codes are CXL's (log entry 20). -/

namespace Sys2Proof.Machine

/-- A mailbox answers (R26): its LD is reached, in SERVICE or in HELD. -/
def Dev.mailboxOpen (d : Dev) (b : Mbx) : Bool :=
  d.ldPresent b.port.val b.ld.val && (d.glob.dev == .service || d.glob.dev == .held) && d.glob.resetPhase == .none

/-- A command that completes at once with a return code and a payload. -/
def mbx (d : Dev) (b : Mbx) (op : Nat) (f : Dev → Dev × Nat × List Nat) : Dev :=
  if d.mailboxOpen b then
    let r := f d
    mailboxDone r.1 b.port.val b.ld.val op r.2.1 r.2.2
  else d

/-- A command that only reports. -/
def mbxRead (d : Dev) (b : Mbx) (op : Nat) (payload : Dev → List Nat) : Dev := mbx d b op (fun d => (d, 0, payload d))

/-- Runs a command that Q0 firmware carries out: nothing answers while Q0 is halted. -/
def mbxQ0 (d : Dev) (b : Mbx) (f : Dev → Dev) : Dev := if d.mailboxOpen b && d.glob.fwRunning && d.q0Runs then f d else d

/-- The opcodes of R51. -/
def mailboxOps : List Nat :=
  [0x4000, 0x400, 0x401, 0x100, 0x101, 0x102, 0x103, 0x4200, 0x4300, 0x4301, 0x4302, 0x300, 0x301, 0x200, 0x201, 0x202
   , 0x4800, 0x4801, 0x4802, 0x4803, 0xC000, 0xC001]

/-- ORIGIN of a change asked for over an LD's mailbox, or over the management plane. -/
def mbxOrigin (b : Option Mbx) : Nat :=
  match b with
  | some b => originField (.host b.port b.ld)
  | none => originField .mgmt

-- identity, logs, events
/-- Static capacity of an LD, from the package in force (R51). -/
def Dev.staticCapacity (d : Dev) (p m : Nat) : Nat :=
  match d.sec.inForce with
  | some k => (k.statics.getD (16 * p + m) 0).toNat
  | none => 0

/-- IDENTIFY_MEMORY_DEVICE (R51): the package's static capacity; partition alignment zero. -/
def execIdentifyMemoryDevice (b : Mbx) (s : State) : Answer :=
  onDevice s (fun d => mbxRead d b 0x4000 (fun d => [d.staticCapacity b.port.val b.ld.val, 0]))

/-- GET_SUPPORTED_LOGS: two logs, by their identifiers. -/
def execGetSupportedLogs (b : Mbx) (s : State) : Answer :=
  onDevice s (fun d => mbxRead d b 0x400 (fun _ => [2, Config.wire 0x400 0, Config.wire 0x400 1]))

/-- A record as the mailbox shows it. -/
def recWords (r : Rec) : List Nat := r.words.map (·.toNat)

/-- GET_LOG: the command effects log lists the commands; the vendor log holds the LD's copies of recent events. -/
def execGetLog (b : Mbx) (vendor : Bool) (s : State) : Answer :=
  onDevice s (fun d => mbxRead d b 0x401 (fun d =>
    if vendor then (d.ld b.port.val b.ld.val).records.flatMap recWords
    else mailboxOps.flatMap (fun op => [op, Config.wire 0x401 op])))

/-- GET_EVENT_RECORDS (R351): the overflow indication and the records of the LD's copy. -/
def execGetEventRecords (b : Mbx) (s : State) : Answer :=
  onDevice s (fun d => mbxRead d b 0x100 (fun d =>
    let l := d.ld b.port.val b.ld.val
    b2n l.recOverflow :: l.records.length :: l.records.flatMap recWords))

/-- CLEAR_EVENT_RECORDS (R351): the oldest records of the LD's copy go; more than it holds is an invalid handle. -/
def clearRecords (d : Dev) (b : Mbx) (n : Nat) : Dev × Nat × List Nat :=
  if (d.ld b.port.val b.ld.val).records.length < n then (d, 0xE, [])
  else (d.updLd b.port.val b.ld.val (fun l => { l with records := l.records.drop n, recOverflow := false }), 0, [])

/-- CLEAR_EVENT_RECORDS. -/
def execClearEventRecords (b : Mbx) (count : Nat) (s : State) : Answer :=
  onDevice s (fun d => mbx d b 0x101 (fun d => clearRecords d b count))

/-- GET_EVENT_INTERRUPT_POLICY. -/
def execGetEventInterruptPolicy (b : Mbx) (s : State) : Answer :=
  onDevice s (fun d => mbxRead d b 0x102 (fun d => [(d.ld b.port.val b.ld.val).policy.toNat]))

/-- SET_EVENT_INTERRUPT_POLICY. -/
def execSetEventInterruptPolicy (b : Mbx) (policy : BitVec 64) (s : State) : Answer :=
  onDevice s (fun d => mbx d b 0x103 (fun d => (d.updLd b.port.val b.ld.val (fun l => { l with policy := policy }), 0, [])))

-- health, poison
/-- Errors corrected and uncorrectable, over controllers and tiles. -/
def Dev.errorTotals (d : Dev) : Nat × Nat :=
  let mc := (List.range 4).foldl (fun (n : Nat × Nat) m => (n.1 + (d.mc m).ce, n.2 + (d.mc m).ue)) (0, 0)
  (List.range 8).foldl (fun n t => (n.1 + (d.tile t).ce, n.2 + (d.tile t).ue)) mc

/-- GET_HEALTH_INFO: Tj, correctable and uncorrectable counts, device state (R51). -/
def execGetHealthInfo (b : Mbx) (s : State) : Answer :=
  onDevice s (fun d => mbxRead d b 0x4200 (fun d => [d.pwr.tjMax.toNat, d.errorTotals.1, d.errorTotals.2, d.glob.dev.code]))

/-- The view address at which an LD's view maps a poisoned entry's line (R365), from the reverse entry of its frame. -/
def Dev.poisonAt (d : Dev) (view : BitVec 12) (x : LogEntry) : Option Nat :=
  let loc := x.location.toNat
  let frame := loc / 65536
  let (p, bad) := d.pairAt (d.rmapDpa frame)
  let va := 65536 * revVpn p
  if bad || x.va || !x.poisoned || decide (revMaps p = 0) then none
  else match d.walk view va with
  | .leaf _ level q => if pteFrame q + va / 65536 % levelPages level = frame then some (va + loc % 65536) else none
  | _ => none

/-- Poisoned lines of an LD's view in a range of view addresses, lowest first (R51, R365). -/
def Dev.poisonList (d : Dev) (p m start len : Nat) : List Nat :=
  match Tab.find d.binds (16 * p + m) with
  | some v => ((d.err.log.filterMap (fun x => d.poisonAt v x.2)).filter (fun a => decide (start ≤ a) && decide (a < start + len))).mergeSort
  | none => []

/-- GET_POISON_LIST: at most 256 lines of the range asked for, and whether it holds more; a further call asks for the range
from the first line left out. -/
def execGetPoisonList (b : Mbx) (start len : Nat) (s : State) : Answer :=
  onDevice s (fun d => mbxRead d b 0x4300 (fun d =>
    let l := d.poisonList b.port.val b.ld.val start len
    b2n (decide (256 < l.length)) :: l.take 256))

/-- DPA of a view address of an LD's view, none where it has no mapping. -/
def Dev.ldDpa (d : Dev) (p m va : Nat) : Option Nat :=
  match Tab.find d.binds (16 * p + m) with
  | some v => match d.walk v va with
    | .leaf _ level q => some (65536 * pteFrame q + va % (65536 * levelPages level))
    | _ => none
  | none => none

/-- A line of an LD's view is rewritten by Q0 for a mailbox command (R51, R365): an address without a mapping is an invalid
physical address. -/
def rewriteLine (d : Dev) (b : Mbx) (op va : Nat) (data : Line) (poison : Bool) : Dev :=
  mbxQ0 d b (fun d =>
    match (if d.inService then d.ldDpa b.port.val b.ld.val va else none) with
    | none => mailboxDone d b.port.val b.ld.val op 0xF []
    | some dpa =>
      let c : Call := { steps := [.line dpa data poison, .answer op, .finish], port := b.port.val, ld := b.ld.val, base := dpa / 64 * 64 }
      { d with q0work := d.q0work ++ [c] })

/-- INJECT_POISON. -/
def execInjectPoison (b : Mbx) (va : Nat) (s : State) : Answer := onDevice s (fun d => rewriteLine d b 0x4301 va 0 true)

/-- CLEAR_POISON. -/
def execClearPoison (b : Mbx) (va : Nat) (data : Line) (s : State) : Answer := onDevice s (fun d => rewriteLine d b 0x4302 va data false)

-- timestamp
/-- GET_TIMESTAMP. -/
def execGetTimestamp (b : Mbx) (s : State) : Answer := onDevice s (fun d => mbxRead d b 0x300 (fun d => [d.stamp.toNat]))

/-- SET_TIMESTAMP (R434 TIME): the count goes on from here. -/
def setStamp (d : Dev) (t : BitVec 64) : Dev :=
  d.setSec (fun s => { s with timestamp := t - BitVec.ofNat 64 (5 * d.glob.ticks), timestampSet := true })

/-- SET_TIMESTAMP. -/
def execSetTimestamp (b : Mbx) (t : BitVec 64) (s : State) : Answer := onDevice s (fun d => mbx d b 0x301 (fun d => (setStamp d t, 0, [])))

-- firmware
/-- Version of a slot's image. -/
def FwSlot.version (f : FwSlot) : Nat :=
  match f.img with
  | some i => i.version.toNat
  | none => 0

/-- GET_FW_INFO: two slots, the one that runs, the one committed for the next reset, no online activation, versions. -/
def fwInfo (d : Dev) : List Nat :=
  [2, 1 + b2n d.glob.fwSlot, if d.sec.namedSlot = d.glob.fwSlot then 0 else 1 + b2n d.sec.namedSlot, 0, d.sec.slotA.version, d.sec.slotB.version]

/-- GET_FW_INFO. -/
def execGetFwInfo (b : Mbx) (s : State) : Answer := onDevice s (fun d => mbxRead d b 0x200 fwInfo)

/-- TRANSFER_FW (R442, R444): the slot the newest record does not name is written, and its check follows. Busy while an
activation is committed and not booted, or an image or commit is under way; an SVN below the floor is refused, and so is a header
R442 does not allow. -/
def transferFw (d : Dev) (b : Mbx) (img : FwImage) : Dev :=
  mbxQ0 d b (fun d =>
    let fin (d : Dev) (code : Nat) : Dev := mailboxDone d b.port.val b.ld.val 0x201 code []
    if d.sec.committedNotBooted || d.sec.staging.isSome || d.sec.committing.isSome then fin d 6
    else if !headerOk img then fin d 2
    else if img.svn < d.sec.floor then fin (authFail d 0 5 {} (originField (.host b.port b.ld)) false img.digest) 0xA
    else
      let w := !d.sec.namedSlot
      let old := (d.sec.slot w).digest
      fin (d.setSec (fun s => { s.setSlot w {} with
        staging := some { slot := w, img := img, old := old, origin := BitVec.ofNat 16 (originField (.host b.port b.ld)) } })) 0)

/-- TRANSFER_FW. -/
def execTransferFw (b : Mbx) (img : FwImage) (s : State) : Answer := onDevice s (fun d => transferFw d b img)

/-- FW_STAGE_VERIFY_DONE (R444): a verified image stands in its slot. The key that signed it must be held (R426). -/
def stageVerified (d : Dev) (ok : Bool) : Dev :=
  match d.sec.staging with
  | none => d
  | some t =>
    if !d.q0Runs then d
    else
      let good := ok && d.sec.signerHeld t.img
      let d := d.setSec (fun s => { s.setSlot t.slot { img := some t.img, valid := good } with staging := none })
      if good then fwStaged d t.origin.toNat t.slot t.old t.img else d

/-- FW_STAGE_VERIFY_DONE. -/
def execFwStageVerifyDone (ok : Bool) (s : State) : Answer := onDevice s (fun d => stageVerified d ok)

/-- ACTIVATE_FW (R51, R443, R444): at the next full reset only; the staged slot must hold a verified image. The sector of the new
record is erased, and its programming follows. -/
def activateFw (d : Dev) (b : Mbx) (online : Bool) : Dev :=
  mbxQ0 d b (fun d =>
    let fin (d : Dev) (code : Nat) : Dev := mailboxDone d b.port.val b.ld.val 0x202 code []
    let w := !d.sec.namedSlot
    if online then fin d 3
    else if d.sec.committedNotBooted || d.sec.staging.isSome || d.sec.committing.isSome then fin d 6
    else if !(d.sec.slot w).valid then fin d 0xB
    else d.setSec (fun s => { s.eraseSpare with committing := some (w, BitVec.ofNat 16 (originField (.host b.port b.ld))) }))

/-- ACTIVATE_FW. -/
def execActivateFw (b : Mbx) (online : Bool) (s : State) : Answer := onDevice s (fun d => activateFw d b online)

/-- FW_COMMIT_WRITE_DONE (R443, R444): the record is whole, FW_COMMIT is journalled, CASTLED raised, and Activate FW completes. -/
def commitWritten (d : Dev) : Dev :=
  match d.sec.committing with
  | none => d
  | some (w, origin) =>
    if !d.q0Runs then d
    else
    let d := d.setSec (fun s => { s.writeCommit w with committing := none, committedNotBooted := true })
    mailboxDone (fwCommitEntry d 3 origin.toNat) (bits origin.toNat 2 0) (bits origin.toNat 6 3) 0x202 0 []

/-- FW_COMMIT_WRITE_DONE. -/
def execFwCommitWriteDone (s : State) : Answer := onDevice s commitWritten

-- Dynamic Capacity
/-- GET_DYNAMIC_CAPACITY_CONFIGURATION (R42-R45): regions with base, length and block size. -/
def dcConfig (p m : Nat) : List Nat :=
  let rs := (List.range 8).filterMap (dcRegion? p m)
  rs.length :: rs.flatMap (fun r => [r.1, r.2, 65536])

/-- GET_DYNAMIC_CAPACITY_CONFIGURATION. -/
def execGetDynamicCapacityConfiguration (b : Mbx) (s : State) : Answer :=
  onDevice s (fun d => mbxRead d b 0x4800 (fun _ => dcConfig b.port.val b.ld.val))

/-- GET_DYNAMIC_CAPACITY_EXTENT_LIST: the accepted extents. -/
def execGetDynamicCapacityExtentList (b : Mbx) (s : State) : Answer :=
  onDevice s (fun d => mbxRead d b 0x4801 (fun d =>
    ((d.ld b.port.val b.ld.val).extents.filter (·.accepted)).flatMap (fun x => [x.base, 65536 * x.pages, x.tag.toNat])))

/-- The response names an offer. -/
def namedIn (xs : List Extent) (x : DcExtent) : Bool := xs.any (fun y => decide (y.base = x.base) && decide (y.pages = x.pages))

/-- ADD_DYNAMIC_CAPACITY_RESPONSE (R46): offers it accepts become accepted, each with its DC_RESPONSE; the others are withdrawn. -/
def dcResponse (d : Dev) (p m : Nat) (xs : List Extent) : Dev :=
  let taken := (d.ld p m).extents.filter (fun x => !x.accepted && namedIn xs x)
  let d := d.updLd p m (fun l => { l with extents := l.extents.map (fun x => if namedIn xs x then { x with accepted := true } else x) })
  withdrawOffers (d.each taken (fun d x => dcEvent d 432 p m x.region x.base true)) p m

/-- ADD_DYNAMIC_CAPACITY_RESPONSE. -/
def execAddDynamicCapacityResponse (b : Mbx) (accepted : List Extent) (s : State) : Answer :=
  onDevice s (fun d => mbx d b 0x4802 (fun d => (dcResponse d b.port.val b.ld.val accepted, 0, [])))

/-- RELEASE_DYNAMIC_CAPACITY (R44): Q0 unmaps the extent from the view the LD is bound to; the command
completes after its last step. -/
def dcReleaseHost (d : Dev) (b : Mbx) (x : Extent) : Dev :=
  let p := b.port.val
  let m := b.ld.val
  mbxQ0 d b (fun d =>
    match (d.ld p m).extents.find? (fun y => y.accepted && decide (y.base = x.base) && decide (y.pages = x.pages)) with
    | none => mailboxDone d p m 0x4803 0xF []
    | some y =>
      let c : Call := { port := p, ld := m, region := y.region, base := y.base, pages := y.pages, view := d.boundView p m y.view
                        steps := [.unmapAll, .dcReleased, .finish] }
      { d with q0work := d.q0work ++ [c] })

/-- RELEASE_DYNAMIC_CAPACITY. -/
def execReleaseDynamicCapacity (b : Mbx) (x : Extent) (s : State) : Answer := onDevice s (fun d => dcReleaseHost d b x)

-- installation packages
/-- A nonce is issued (R428): a free handle, or the oldest nonce's, which it replaces. -/
def issueNonce (d : Dev) (value : BitVec 256) : Dev × BitVec 2 :=
  let ns := d.sec.nonces
  let h : BitVec 2 := match ns with
    | old :: _ => if 4 ≤ ns.length then old.handle else (((List.range 4).map (BitVec.ofNat 2)).find? (fun h => !ns.any (fun n => n.handle == h))).getD 0
    | [] => 0
  (d.setSec (fun s => { s with nonces := (if 4 ≤ ns.length then ns.drop 1 else ns) ++ [⟨h, value⟩] }), h)

/-- The reason R430 refuses a package's authorisation for; 0 where it stands. -/
def Dev.authReason (d : Dev) (current sigOk : Bool) : Nat :=
  if !current then 2 else if d.sec.installerKey.isNone then 3 else if !sigOk then 1 else 0

/-- Causes 1-3 of R386 and the authorisation, for a package whose last piece has come (R439, R440); 0 where all pass. -/
def Dev.deliveryCause (d : Dev) (p : Package) (pkgSigOk : Bool) (auth : Nat) : Nat :=
  if d.sec.installerKey.isNone || !pkgSigOk || auth ≠ 0 then 2
  else if !packageChecked p || decide (p.generation ≤ d.sec.lastGen) then 3 else 0

/-- The text a PACKAGE_AUTHORIZE signs (R429, R430): the generation, and the package's SHA-512. -/
def Dev.packageText (d : Dev) (p : Package) (q : Signed) : List Byte := d.signText q.nonce 0x93 2 p.generation.toNat p.digest

/-- A PACKAGE_AUTHORIZE verifies under the installer key. -/
def Dev.authVerifies (d : Dev) (p : Package) (q : Signed) : Bool :=
  match d.sec.installerKey with
  | some k => sigVerifies q.sig k (sha512 (d.packageText p q))
  | none => false

/-- A PACKAGE_AUTHORIZE is refused: journalled and raised as any signed request (R430, R440). -/
def packageRefused (d : Dev) (reason origin : Nat) (mgmt : Bool) (p : Package) (q : Signed) : Dev :=
  let who : Signer := if d.authVerifies p q then { role := 2, keyid := keyId d.sec.installerKey } else {}
  authFail d 0x93 reason who origin mgmt (signedDigest q (d.packageText p q))

/-- The management plane takes a delivery (R51, R430): in HELD and SERVICE. -/
def Dev.takesPackage (d : Dev) : Bool :=
  d.glob.fwRunning && d.q0Runs && d.glob.resetPhase == .none && (d.glob.dev == .service || d.glob.dev == .held)

/-- Another delivery is under way (R388): of another LD, or of another MCTP endpoint. -/
def Dev.deliveryBusy (d : Dev) (b : Option Mbx) (eid : BitVec 8) : Bool :=
  match d.sec.delivery with
  | .idle => false
  | .receiving w e => w != b || (b.isNone && e != eid)
  | .checking => true
  | .writing _ _ => true

/-- Codes of Msg.mgmt beside the routine codes: what a management client is answered. -/
def mgmtDelivery : Nat := 0x100
def mgmtNonce : Nat := 0x101
def mgmtRefused : Nat := 0x102

/-- Answers a mailbox, or the management client. -/
def replyTo (d : Dev) (b : Option Mbx) (op code : Nat) (payload : List Nat) : Dev :=
  match b with
  | some b => mailboxDone d b.port.val b.ld.val op code payload
  | none => emit d (.mgmt mgmtDelivery (op :: code :: payload))

/-- A package command reaches Q0: over its LD's mailbox, or over the management plane. -/
def Dev.packageWay (d : Dev) (b : Option Mbx) : Bool :=
  d.takesPackage && (match b with
    | some b => d.mailboxOpen b
    | none => true)

/-- The PACKAGE_AUTHORIZE of a last piece waits its turn among the signed requests (R430, R431, R440). -/
def authorizeQueued (d : Dev) (b : Option Mbx) (p : Package) (q : Signed) (pkgSigOk : Bool) : Dev :=
  d.setSec (fun s => { s with requests := s.requests ++ [(.authorize b p pkgSigOk, q)] })

/-- A piece of a package (R388, R440): the last one is answered once it has failed or is committed (R436). -/
def deliverPiece (d : Dev) (b : Option Mbx) (eid : BitVec 8) (last : Option (Package × Signed)) (pkgSigOk : Bool) : Dev :=
  if d.deliveryBusy b eid then replyTo d b 0xC000 6 []
  else match last with
  | none => replyTo (d.setSec (fun s => { s with delivery := .receiving b eid })) b 0xC000 0 []
  | some (p, q) => authorizeQueued (d.setSec (fun s => { s with delivery := .checking })) b p q pkgSigOk

/-- PACKAGE_DELIVER. Over MCTP a PACKAGE_AUTHORIZE reaches Q0 also in a state that R430 does not allow, to be refused there. -/
def packageDelivered (d : Dev) (b : Option Mbx) (eid : BitVec 8) (last : Option (Package × Signed)) (pkgSigOk : Bool) : Dev :=
  if d.packageWay b then deliverPiece d b eid last pkgSigOk
  else match last with
  | some (p, q) =>
    if b.isNone && d.glob.fwRunning && d.q0Runs && d.glob.resetPhase == .none then authorizeQueued d b p q pkgSigOk else d
  | none => d

/-- PACKAGE_DELIVER. -/
def execPackageDeliver (b : Option Mbx) (eid : BitVec 8) (lastPiece : Option (Package × Signed)) (pkgSigOk : Bool) (s : State) :
    Answer :=
  if (Instr.packageDeliver b eid lastPiece pkgSigOk).wf then onDevice s (fun d => packageDelivered d b eid lastPiece pkgSigOk)
  else .fault .illFormed

/-- A package fails its checks or its authorisation: the delivery ends, and its sender is told (R440). -/
def packageFails (d : Dev) (b : Option Mbx) : Dev :=
  replyTo (d.setSec (fun s => { s with delivery := if s.delivery = .checking then .idle else s.delivery })) b 0xC000 2 []

/-- A PACKAGE_AUTHORIZE is verified, its nonce used up (R440 steps 3 and 4): the checks run, and a package that passes is written.
The first write invalidates the old package (R388). In a state that R430 does not allow it is refused with reason 4. -/
def packageVerified (d : Dev) (b : Option Mbx) (p : Package) (q : Signed) (pkgSigOk current : Bool) : Dev :=
  let origin := mbxOrigin b
  let auth := d.authReason current (d.authVerifies p q)
  let cause := d.deliveryCause p pkgSigOk auth
  if d.glob.dev != .service && d.glob.dev != .held then
    packageFails (packageRefused d (if auth = 0 then 4 else auth) origin b.isNone p q) b
  else
    let d := d.setSec (fun s => { s with lastCheck := BitVec.ofNat 3 cause })
    if cause = 0 then
      d.setSec (fun s => { s with
        delivery := .writing p (BitVec.ofNat 16 origin), pkg := some p, pkgPart := true, pkgCommitted := false, pkgKey := s.installerKey })
    else if auth ≠ 0 then packageFails (packageRefused d auth origin b.isNone p q) b
    else if cause = 3 ∧ p.generation ≤ d.sec.lastGen then packageFails (packageRefused d 5 origin b.isNone p q) b
    else packageFails d b

/-- PACKAGE_STATUS (R51, R440): the result of the last check, and a delivery nonce. -/
def execPackageStatus (b : Option Mbx) (nonce : BitVec 256) (s : State) : Answer :=
  onDevice s (fun d => if d.packageWay b then
      let r := issueNonce d nonce
      replyTo r.1 b 0xC001 0 [r.1.sec.lastCheck.toNat, r.2.toNat, nonce.toNat]
    else d)

/-- The device returns to START with the package it accepted in HELD (R19, R27, R388): memory trains where it was not trained
or the population differs, and steps 13 to 15 follow. -/
def heldReturn (d : Dev) (p : Package) : Dev :=
  let d := setState (d.setGlob (fun g => { g with pkgChecked := true, pkgUsable := true, heldCause := 0, heldBack := true })) .start
  if d.memReady && d.glob.foundPop == some p.population then d.setGlob (fun g => { g with step := if g.quick then 7 else 12 })
  else trainMemory (d.setGlob (fun g => { g with step := if g.quick then 6 else 11 })) p

/-- MIRROR_FAULT by a flash write that failed (R436, R437, R448). -/
def flashFails (d : Dev) : Dev :=
  let d := d.setSec (fun s => { s with mirrorFault := true })
  raise d 506 6 1 (info ((d.sec.nextSeq - d.sec.mirrored) % 2 ^ 32 + fld 32 1))

/-- The sender of a package, by its ORIGIN (R434). -/
def originMbx (origin : BitVec 16) : Option Mbx :=
  if origin.getLsbD 7 then none else some ⟨Fin.ofNat 8 (bits origin.toNat 2 0), Fin.ofNat 16 (bits origin.toNat 6 3)⟩

/-- The commit entry of a written package cannot reach flash: the request fails, and the package stays uncommitted (R436, R440).
PACKAGE_STATUS then shows cause 5, and the sender is told (DESIGN CHOICE, log entry 139). -/
def commitFails (d : Dev) (origin : BitVec 16) : Dev :=
  replyTo (flashFails (d.setSec (fun s => { s with delivery := .idle, pkgPart := false, lastCheck := 5 }))) (originMbx origin) 0xC000 4 []

/-- PACKAGE_COMMIT (R433, R436, R440 step 5): once the durable entry is in flash the package is committed, and its sender told. The
digest PD0 keeps for a quick restart is one the installer key of now has authorised (R402, R432). -/
def packageCommitted (d : Dev) (ok : Bool) : Dev :=
  match d.sec.delivery with
  | .writing p origin =>
    if !d.q0Runs then d
    else if !ok then commitFails d origin
    else
      let old := match d.sec.inForce with
        | some o => o.digest.setWidth 256
        | none => 0
      let held := d.glob.dev == .held
      let d := if held then d.setGlob (fun g => { g with gen := p.generation }) else d
      let d := journalDurable d { role := 2, action := 6, origin := origin.toNat, target := p.generation.toNat
                                  keyid := keyId d.sec.pkgKey, old := old, new := p.digest.setWidth 256 }
      let d := d.setSec (fun s => { s with
        pkg := some p, pkgPart := false, kPkgDigest := if s.pkgKey = s.installerKey then some p.digest else none, pkgCommitted := true
        lastGen := p.generation, delivery := .idle })
      let d := replyTo (raise d 510 6 1 (info p.generation.toNat)) (originMbx origin) 0xC000 0 []
      if held then heldReturn d p else d
  | _ => d

/-- PACKAGE_COMMIT. -/
def execPackageCommit (ok : Bool) (s : State) : Answer := onDevice s (fun d => packageCommitted d ok)

/-- MAILBOX_UNSUPPORTED (R51): an opcode that the table lists has a row of its own. -/
def execMailboxUnsupported (b : Mbx) (opcode : BitVec 16) (s : State) : Answer :=
  onDevice s (fun d => if mailboxOps.contains opcode.toNat then d else mbx d b opcode.toNat (fun d => (d, 3, [])))

-- the FM-owned LD
/-- The FM-owned LD answers where its port's link is up (R42). -/
def fmAnswer (d : Dev) (p : Nat) (f : Dev → Dev × List Nat) : Dev :=
  if d.portUp p && d.glob.resetPhase == .none then
    let r := f d
    emit r.1 (.fm p r.2)
  else d

/-- GET_LD_INFO: memory size and number of LDs. -/
def execGetLdInfo (p : Fin 8) (s : State) : Answer := onDevice s (fun d => fmAnswer d p.val (fun d => (d, [d.limit, d.ldsOf p.val])))

/-- GET_LD_ALLOCATIONS: the share of port queue credits of each LD. -/
def execGetLdAllocations (p : Fin 8) (s : State) : Answer :=
  onDevice s (fun d => fmAnswer d p.val (fun d => (d, (List.range 16).map (fun m => (d.ld p.val m).share.toNat))))

/-- SET_LD_ALLOCATIONS (R42): the shares of the LDs the port has, and nothing else. -/
def setShares (d : Dev) (p : Nat) (shares : List (BitVec 8)) : Dev :=
  d.each (List.range (d.ldsOf p)) (fun d m => d.updLd p m (fun l => { l with share := shares.getD m 0 }))

/-- SET_LD_ALLOCATIONS. -/
def execSetLdAllocations (p : Fin 8) (shares : List (BitVec 8)) (s : State) : Answer :=
  if decide (shares.length = 16) then
    onDevice s (fun d => fmAnswer d p.val (fun d =>
      let d := setShares d p.val shares
      (d, (List.range 16).map (fun m => (d.ld p.val m).share.toNat))))
  else .fault .illFormed

end Sys2Proof.Machine
end

