-- ==== Sys2Proof/Machine/MemCmds.lean ====
section
/-! DEFINITION. Commands of the tiles, the controllers, the channels, the movers and the tile patrol (05, 08, 13). -/

namespace Sys2Proof.Machine

/-- TILE_ACCESS_RETURN (R144, R148). -/
def execTileAccessReturn (id : Nat) (err : Ecc) (s : State) : Answer := onDevice s (fun d => tileReturn d id err)

/-- TILE_NO_ANSWER (R146). -/
def execTileNoAnswer (t : Fin 8) (s : State) : Answer := onDevice s (fun d => noAnswer d t.val)

/-- TILE_WALK_END (R139, R140). -/
def execTileWalkEnd (t : Fin 8) (s : State) : Answer := onIsland 10 s (fun d => walkEnd d t.val)

/-- BANK_WALK_END (R141). -/
def execBankWalkEnd (t : Fin 8) (bank : BitVec 6) (s : State) : Answer := onIsland 10 s (fun d => bankWalkEnd d t.val bank.toNat)

/-- FILL_RETURN (R129). -/
def execFillReturn (id : Nat) (s : State) : Answer := onIsland 10 s (fun d => fillReturn d id)

/-- MC_READ_ARRIVAL (R223). -/
def execMcReadArrival (id : Nat) (err chk : Ecc) (s : State) : Answer := onDevice s (fun d => readArrival d id err chk)

/-- WRITE_BUFFER_ACCEPT (R222). -/
def execWriteBufferAccept (id : Nat) (s : State) : Answer := onDevice s (fun d => acceptWrite d id)

/-- WRITE_ACCEPTANCE_ACK (R109). -/
def execWriteAcceptanceAck (id : Nat) (s : State) : Answer := onIsland 10 s (fun d => ackWrite d id)

/-- CHANNEL_READ_RETURN (R218). -/
def execChannelReadReturn (id : Nat) (symbols : Nat) (wrongAddr : Bool) (s : State) : Answer :=
  onDevice s (fun d => channelReturn d id symbols wrongAddr)

/-- WB_AGE_EXPIRY (R224). -/
def execWbAgeExpiry (m : Fin 4) (line : Nat) (s : State) : Answer :=
  onIsland (25 + m.val) s (fun d => ageEntry d m.val line)

/-- WB_BATCH_START (R224). -/
def execWbBatchStart (c : Fin 32) (dataUe : List Nat) (addrUe : Option (BitVec 8)) (s : State) : Answer :=
  onIsland (25 + c.val / 8) s (fun d => batchStart d c.val dataUe addrUe)

/-- RMW_MERGE_READ_RETURN (R225). -/
def execRmwMergeReadReturn (m : Fin 4) (line symbols : Nat) (wrongAddr : Bool) (chk : Ecc) (s : State) : Answer :=
  onDevice s (fun d => mergeReturn d m.val line symbols wrongAddr chk)

/-- CHANNEL_WRITE_TAKEN (R517); what the checks of the entry's data and of its DPA field find (R357). -/
def execChannelWriteTaken (m : Fin 4) (line : Nat) (err : Ecc) (addrUe : Bool) (s : State) : Answer :=
  onDevice s (fun d => if addrUe then writeAddrUe d m.val line else writeTaken d m.val line err)

/-- PER_BANK_REFRESH (R227): it blocks its bank pair for at most 280 ns and changes nothing else. -/
def execPerBankRefresh (c : Fin 32) (_bank : BitVec 4) (s : State) : Answer := onDevice s (fun d => blocks d c.val 280)

/-- ZQ_CALIBRATION_LATCH (R227): it blocks the channel for at most 30 ns and changes nothing else. -/
def execZqCalibrationLatch (c : Fin 32) (s : State) : Answer := onIsland (25 + c.val / 8) s (fun d => zqLatch d c.val)

/-- DQS_OSCILLATOR_READ (R227): the drift of the channel's oscillator. -/
def execDqsOscillatorRead (c : Fin 32) (drift : BitVec 7) (s : State) : Answer :=
  onDevice s (fun d => if d.chanRuns c.val then (blocks d c.val 200).updChan c.val (fun x => { x with drift := drift }) else d)

/-- WRITE_DQ_RETRAINING (R227). -/
def execWriteDqRetraining (c : Fin 32) (ok : Bool) (s : State) : Answer := onDevice s (fun d => retrainDq d c.val ok)

/-- MR4_READ (R227). -/
def execMr4Read (c : Fin 32) (code : BitVec 3) (hot : Bool) (s : State) : Answer := onDevice s (fun d => readMr4 d c.val code hot)

/-- READ_TIMEOUT (R229). -/
def execReadTimeout (id : Nat) (s : State) : Answer := onDevice s (fun d => readTimesOut d id)

/-- CHANNEL_FAILED (R229). -/
def execChannelFailed (c : Fin 32) (timeouts : Bool) (s : State) : Answer :=
  onIsland (25 + c.val / 8) s (fun d => failChannel d c.val timeouts)

/-- MEMORY_MOVER_LINE (R358): the next line of a memory mover channel; `staging` is what its staging buffer will show. -/
def execMemoryMoverLine (m : Fin 3) (ch : Fin 24) (staging : Ecc) (s : State) : Answer :=
  onIsland 10 s (fun d => moverRead d (24 * (m.val + 1) + ch.val) staging)

/-- SWEEP_MOVER_READ (R358, R368); `staging` is what the staging buffer will show. -/
def execSweepMoverRead (ch : Fin 24) (staging : Ecc) (s : State) : Answer := onIsland 10 s (fun d => moverRead d ch.val staging)

-- patrol
/-- A tile patrol starts (R371). -/
def patrolStart (d : Dev) : Dev :=
  if d.err.patrol || d.err.patrolHours == 0 || !d.q0Runs || !d.inService then d
  else d.setErr (fun e => { e with patrol := true, patrolRead := 0, patrolCe := 0, patrolUe := 0 })

/-- PATROL_TIMER. -/
def execPatrolTimer (s : State) : Answer := onDevice s patrolStart

/-- What a patrol finds beside the bits flips left wrong: in the tags of a set, the directory entries of a set, a sub-block. -/
def tagErrs (errs : List PatrolErr) (s c : Nat) : List (Fin 16 × Ecc × Ecc) := errs.filterMap (fun e => match e with
  | .tag s' c' w a b => if s'.val = s ∧ c'.toNat = c then some (w, a, b) else none
  | _ => none)
def dirErrs (errs : List PatrolErr) (s k : Nat) : List (Fin 16 × Ecc) := errs.filterMap (fun e => match e with
  | .dir s' k' w x => if s'.val = s ∧ k'.toNat = k then some (w, x) else none
  | _ => none)
def tileErr (errs : List PatrolErr) (s c w j : Nat) : Ecc := (errs.findSome? (fun e => match e with
  | .tile s' c' w' j' x => if s'.val = s ∧ c'.toNat = c ∧ w'.val = w ∧ j'.val = j then some x else none
  | _ => none)).getD .ok

/-- The background read of one valid sub-block (R371, R144). It does not enter its sub-block in the repeat buffer (DESIGN CHOICE,
log entry 124; R148). -/
def patrolRead (d : Dev) (errs : List PatrolErr) (s c w j : Nat) : Dev :=
  let key := dataKey c w j
  let e := d.tag s c w
  let dpa := dpaOfTag s c e.tag.toNat + 64 * j
  let t := tileOfWay w
  let d := d.setErr (fun x => { x with patrolRead := satInc 24 x.patrolRead })
  let clean (d : Dev) : Dev := d.updSlice s (fun y => { y with tileBad := Tab.del y.tileBad key })
  match (if (d.tile t).repeatHit (dpa / 64) then Ecc.ok else eccWith (tileErr errs s c w j) (Tab.get 0 (d.slice s).tileBad key)) with
  | .ok => d
  | .ce b =>
    let d := (clean d).updTile t (fun y => { y with ce := satInc 32 y.ce })
    let d := d.setErr (fun x => { x with patrolCe := satInc 12 x.patrolCe })
    let d := logErr d { kind := 10, src := 192 + 8 * t, loc := t + fld 3 (tilePlace s dpa w), detail := b.toNat }
    raise d (192 + 8 * t) 1 1 (info (tilePlace s dpa w + fld 21 b.toNat))
  | .ue =>
    let d := (clean d).updTile t (fun y => { y with ue := satInc 32 y.ue })
    let d := d.setErr (fun x => { x with patrolUe := satInc 12 x.patrolUe })
    let d := logErr d { kind := 11, src := 192 + 8 * t + 1, loc := t + fld 3 (tilePlace s dpa w), detail := 0x3FF }
    let d := raise d (192 + 8 * t + 1) 2 2 (info (tilePlace s dpa w + fld 21 0x3FF))
    let bit := BitVec.ofNat 8 (2 ^ j)
    putTag d s c w { d.tag s c w with valid := (d.tag s c w).valid &&& ~~~bit, poison := (d.tag s c w).poison &&& ~~~bit }

/-- Sets of a slice whose tags or directory entries an error of the patrol is in. -/
def tagSets (errs : List PatrolErr) (s : Nat) : List Nat := errs.filterMap (fun e => match e with
  | .tag s' c _ _ _ => if s'.val = s then some c.toNat else none
  | _ => none)
def dirSets (errs : List PatrolErr) (s : Nat) : List Nat := errs.filterMap (fun e => match e with
  | .dir s' k _ _ => if s'.val = s then some k.toNat else none
  | _ => none)

/-- One lookup for each error of a set, or one that finds only what flips left wrong. -/
def orNone {α : Type} (l : List α) : List (Option α) := if l.isEmpty then [none] else l.map some

/-- The patrol of one slice: every tag and directory set that holds anything or shows an error, then its valid sub-blocks. -/
def patrolSlice (d : Dev) (errs : List PatrolErr) (s : Nat) : Dev :=
  let d := countWalk d s 8192
  let d := d.each (((d.slice s).tags.map (fun (x : Nat × _) => x.1 / 16)) ++ tagSets errs s).eraseDups
    (fun d c => d.each (orNone (tagErrs errs s c)) (fun d e => checkTags d s c e {}))
  let d := d.each (((d.slice s).dir.map (fun (x : Nat × _) => x.1 / 16)) ++ dirSets errs s).eraseDups
    (fun d k => d.each (orNone (dirErrs errs s k)) (fun d e => checkDir d s k e {}))
  d.each (d.slice s).tags (fun d k =>
    let c := k.1 / 16
    let w := k.1 % 16
    if d.usable s c w then d.each ((List.range 8).filter (fun j => (d.tag s c w).valid.getLsbD j)) (fun d j => patrolRead d errs s c w j) else d)

/-- A patrol pass ends (R371): PATROL_DONE. -/
def patrolEnd (d : Dev) (errs : List PatrolErr) : Dev :=
  if !d.err.patrol || !d.q0Runs || !d.islandRuns 10 then d
  else
    let d := d.each (List.range 16) (fun d s => patrolSlice d errs s)
    let e := d.err
    raise (d.setErr (fun x => { x with patrol := false })) 458 5 0 (info (e.patrolRead + fld 24 e.patrolCe + fld 36 e.patrolUe))

/-- PATROL_PASS_END. -/
def execPatrolPassEnd (errs : List PatrolErr) (s : State) : Answer := onDevice s (fun d => patrolEnd d errs)

end Sys2Proof.Machine
end

