-- ==== Sys2Proof/Machine/Spdm.lean ====
section
/-! DEFINITION. DOE, CDAT and the SPDM responder (R50, R446, R447). Message codes and data object types are DOE's and SPDM's
(log entry 20). -/

namespace Sys2Proof.Machine

-- DOE
/-- The DOE mailbox of a port answers (R26, R50): HELD, SERVICE and RECOVERY. -/
def Dev.doeOpen (d : Dev) (p : Nat) : Bool :=
  d.portUp p && d.glob.resetPhase == .none && (d.glob.dev == .held || d.glob.dev == .service || d.glob.dev == .recovery)

/-- A DOE request completes (R50, R56): the mailbox of the port's one DOE instance answers and MAILBOX is raised with the
data object type. Its LD field is 0, the function that carries DOE, for a CDAT read about another LD too (DESIGN CHOICE, log
entry 20). -/
def doeDone (d : Dev) (p m ty : Nat) (payload : List Nat) : Dev :=
  raise (emit d (.doe p m payload)) (8 * p + 6) 0 0 (info (fld 4 1 + fld 5 ty))

/-- Data objects by discovery index: vendor, type, next index. -/
def doeObject (i : Nat) : List Nat :=
  match i with
  | 0 => [1, 0, 1]
  | 1 => [1, 1, 2]
  | 2 => [0x1E98, 2, 0]
  | _ => [0xFFFF, 0, 0]

/-- DOE_DISCOVERY. -/
def execDoeDiscovery (p : Fin 8) (index : BitVec 8) (s : State) : Answer :=
  onDevice s (fun d => if d.doeOpen p.val then doeDone d p.val 0 0 (doeObject index.toNat) else d)

/-- Bandwidth of a port as it is trained, in GB/s (02_agent_ports.md): payload scales with width and rate in a flit mode. -/
def Dev.portBandwidth (d : Dev) (p : Nat) : Nat :=
  let x := d.port p
  let lanes := 2 * 2 ^ x.width.toNat
  let rate := 8 * 2 ^ x.rate.toNat
  if x.flit256 then 121 * lanes * rate / 1024 else 51 * lanes * rate / 512

/-- The CDAT of an LD (R50): its DSMAS entries as base and length, then read and write latency in ns and bandwidth. -/
def cdat (d : Dev) (p m : Nat) : List Nat :=
  let rs := (List.range 8).filterMap (dcRegion? p m)
  let static := d.staticCapacity p m
  (rs.length + (if static = 0 then 0 else 1)) :: (rs.flatMap (fun r => [r.1, r.2]) ++ [static, 95, 95, d.portBandwidth p])

/-- CDAT_READ. -/
def execCdatRead (b : Mbx) (s : State) : Answer :=
  onDevice s (fun d => if d.doeOpen b.port.val && d.ldPresent b.port.val b.ld.val then
      doeDone d b.port.val b.ld.val 2 (cdat d b.port.val b.ld.val)
    else d)

-- SPDM
/-- The responder is reached (R26, R50): over a DOE mailbox, or over MCTP, with Q0's firmware running. -/
def Dev.spdmWay (d : Dev) (f : SpdmSrc) : Bool :=
  d.glob.fwRunning && d.q0Runs && d.glob.resetPhase == .none && (match f with
    | .doe p => d.doeOpen p.val
    | .mctp => true)

/-- A measurement, sampled now (R447). What the fuse banks' bytes digest to is open. -/
def Dev.measurement (d : Dev) (i : Nat) : List Nat :=
  match i with
  | 1 => [Config.romDigest.toNat]
  | 2 => [d.fwDigest.toNat]
  | 3 => [b2n d.glob.fwSlot, d.fwSvn, d.sec.floor.toNat]
  | 4 => [match d.sec.inForce with
      | some p => p.digest.toNat
      | none => 0]
  | 5 => [d.glob.gen.toNat]
  | 6 => [d.sec.head.toNat]
  | 7 => [Config.wire 0xE7 d.fuseNumber]
  | 8 => [(d.sec.installerKey.getD 0).toNat]
  | 9 => [(d.sec.authorityKey.getD 0).toNat]
  | _ => []

/-- Measurements a request names: 0 their number, 0xFF all, or one. -/
def Dev.measured (d : Dev) (i : Nat) : List Nat :=
  if i = 0 then [9] else if i = 0xFF then ((List.range 9).map (· + 1)).flatMap d.measurement else d.measurement i

/-- Code of an SPDM error response. -/
def spdmError : Nat := 0x7F

/-- The key at the end of a certificate slot's chain (R446): slot 0 the alias key, slot 1 the identity key. -/
def Dev.slotKey (d : Dev) (slot : Nat) : Nat := (if slot = 0 then d.sec.aliasOf else d.sec.identity).getD 0

/-- What is signed, as one number: the request and what its response says. -/
def signedText (q : SpdmReq) (payload : List Nat) : Nat := (q.code :: q.args ++ payload).foldl (fun n x => Nat.pair n x) 0

/-- A signature with the key of a slot (R445, R446). -/
def Dev.signs (d : Dev) (slot : Nat) (q : SpdmReq) (payload : List Nat) : List Nat :=
  [Config.signature (d.slotKey slot) (signedText q payload) d.glob.draws]

/-- Capability flags (R446): certificates, challenges, signed measurements; no bit of sessions or key exchange (PRESUMED from SPDM
1.2, log entry 20). -/
def spdmCapabilities : Nat := fld 1 1 + fld 2 1 + fld 3 2

/-- Algorithms (R446): ECDSA P-521 to sign and SHA-512 to digest, and no other (PRESUMED from SPDM 1.2, log entry 20). -/
def spdmAlgorithms : List Nat := [fld 8 1, fld 2 1]

/-- The response to a request (R446): code and payload. -/
def Dev.spdmAnswer (d : Dev) (q : SpdmReq) : Nat × List Nat :=
  let arg (i : Nat) : Nat := q.args.getD i 0
  let id := d.sec.identity.getD 0
  match q.code with
  | 0x84 => (0x04, [0x12])
  | 0xE1 => (0x61, [spdmCapabilities])
  | 0xE3 => (0x63, spdmAlgorithms)
  | 0x81 => (0x01, [0, 1].map (fun s => Config.certDigest id (d.slotKey s)))
  | 0x82 => if arg 0 < 2 then (0x02, [Config.certChain id (d.slotKey (arg 0))]) else (spdmError, [])
  | 0x83 => if arg 0 < 2 then (0x03, [arg 0, arg 1] ++ d.signs (arg 0) q []) else (spdmError, [])
  | 0xE0 =>
    if (9 < arg 0 ∧ arg 0 ≠ 0xFF) ∨ (arg 2 = 1 ∧ 2 ≤ arg 1) then (spdmError, [])
    else (0x60, d.measured (arg 0) ++ (if arg 2 = 1 then d.signs (arg 1) q (d.measured (arg 0)) else []))
  | _ => (spdmError, [])

/-- A response leaves: over its DOE mailbox, with MAILBOX raised, or over MCTP. -/
def spdmSend (d : Dev) (q : SpdmReq) : Dev :=
  let r := d.spdmAnswer q
  let d := emit d.drawn (.spdm q.src r.1 r.2)
  match q.src with
  | .doe p => raise d (8 * p.val + 6) 0 0 (info (fld 4 1 + fld 5 1))
  | .mctp => d

/-- The responder answers the requests at the front that need no signature (R50). -/
def spdmPump : List SpdmReq → Dev → Dev
  | [], d => d.setSec (fun s => { s with spdm := [] })
  | q :: rest, d => if q.signed then d.setSec (fun s => { s with spdm := q :: rest }) else spdmPump rest (spdmSend d q)

/-- A request arrives (R50): it waits behind the others. -/
def spdmRequest (d : Dev) (q : SpdmReq) : Dev := if d.spdmWay q.src then spdmPump (d.sec.spdm ++ [q]) d else d

/-- A signature is made (R446): the request at the front is answered and the next is taken. -/
def spdmSigned (d : Dev) : Dev :=
  match d.sec.spdm with
  | q :: rest => if q.signed && d.q0Runs then spdmPump rest (spdmSend d q) else d
  | [] => d

/-- GET_VERSION. -/
def execGetVersion (f : SpdmSrc) (s : State) : Answer := onDevice s (fun d => spdmRequest d ⟨f, 0x84, [], false⟩)
/-- GET_CAPABILITIES. -/
def execGetCapabilities (f : SpdmSrc) (s : State) : Answer := onDevice s (fun d => spdmRequest d ⟨f, 0xE1, [], false⟩)
/-- NEGOTIATE_ALGORITHMS. -/
def execNegotiateAlgorithms (f : SpdmSrc) (s : State) : Answer := onDevice s (fun d => spdmRequest d ⟨f, 0xE3, [], false⟩)
/-- GET_DIGESTS. -/
def execGetDigests (f : SpdmSrc) (s : State) : Answer := onDevice s (fun d => spdmRequest d ⟨f, 0x81, [], false⟩)
/-- GET_CERTIFICATE. -/
def execGetCertificate (f : SpdmSrc) (slot : BitVec 4) (s : State) : Answer :=
  onDevice s (fun d => spdmRequest d ⟨f, 0x82, [slot.toNat], false⟩)
/-- CHALLENGE: signed with the key of its certificate slot. -/
def execChallenge (f : SpdmSrc) (slot : BitVec 4) (nonce : BitVec 256) (s : State) : Answer :=
  onDevice s (fun d => spdmRequest d ⟨f, 0x83, [slot.toNat, nonce.toNat], decide (slot.toNat < 2)⟩)
/-- GET_MEASUREMENTS. -/
def execGetMeasurements (f : SpdmSrc) (index : BitVec 8) (signed : Bool) (slot : BitVec 4) (s : State) : Answer :=
  onDevice s (fun d => spdmRequest d ⟨f, 0xE0, [index.toNat, slot.toNat, b2n signed], signed && decide (slot.toNat < 2)⟩)
/-- SPDM_SIGNATURE_DONE. -/
def execSpdmSignatureDone (s : State) : Answer := onDevice s spdmSigned

end Sys2Proof.Machine
end

