-- ==== Sys2Proof/Machine/Signed.lean ====
section
/-! DEFINITION. Nonces, signed requests, durable changes and the mirror of the journal (R428-R437, R396, R143). -/

namespace Sys2Proof.Machine

-- nonces
/-- NONCE_REQUEST (R428): the management client gets the handle and the bytes. -/
def nonceGiven (d : Dev) (value : BitVec 256) : Dev :=
  if d.glob.fwRunning && d.q0Runs && d.glob.resetPhase == .none then
    let r := issueNonce d value
    emit r.1 (.mgmt mgmtNonce [r.2.toNat, value.toNat])
  else d

/-- NONCE_REQUEST. -/
def execNonceRequest (nonce : BitVec 256) (s : State) : Answer := onDevice s (fun d => nonceGiven d nonce)

/-- NONCE_EXPIRY (R428). -/
def execNonceExpiry (handle : BitVec 2) (s : State) : Answer :=
  onDevice s (fun d => d.setSec (fun x => { x with nonces := x.nonces.filter (fun n => n.handle != handle) }))

-- requests
/-- Request code (R430). -/
def SReq.code : SReq → Nat
  | .enrol _ => 0x81
  | .testArm => 0x82
  | .fuseProgram _ _ => 0x83
  | .fuseRepair _ _ => 0x84
  | .floorRaise _ => 0x85
  | .fwauth _ => 0x91
  | .retireClear _ _ _ => 0x92
  | .authorize _ _ _ => 0x93

/-- The maker signs codes 0x81-0x85, the installer the others (R430). -/
def SReq.role (r : SReq) : Nat := if r.code < 0x90 then 1 else 2

/-- The device states that allow a request (R430). -/
def SReq.allowedIn (r : SReq) (s : DevState) : Bool :=
  if r.code = 0x83 ∨ r.code = 0x84 then s == .test else s == .service || s == .held

/-- A signed request reaches Q0 over MCTP and waits its turn (R430). -/
def signedRequest (d : Dev) (r : SReq) (q : Signed) : Dev :=
  if d.glob.fwRunning && d.q0Runs && d.glob.resetPhase == .none then d.setSec (fun s => { s with requests := s.requests ++ [(r, q)] }) else d

/-- INSTALLER_ENROL. -/
def execInstallerEnrol (q : Signed) (key : BitVec 512) (s : State) : Answer := onDevice s (fun d => signedRequest d (.enrol key) q)
/-- TEST_ARM. -/
def execTestArm (q : Signed) (s : State) : Answer := onDevice s (fun d => signedRequest d .testArm q)
/-- FUSE_PROGRAM. -/
def execFuseProgram (q : Signed) (bank : BitVec 4) (image : BitVec 512) (s : State) : Answer :=
  onDevice s (fun d => signedRequest d (.fuseProgram bank image) q)
/-- FUSE_REPAIR. -/
def execFuseRepair (q : Signed) (t : Fin 8) (entries : List BistEntry) (s : State) : Answer :=
  onDevice s (fun d => signedRequest d (.fuseRepair t.val entries) q)
/-- FLOOR_RAISE. -/
def execFloorRaise (q : Signed) (floor : BitVec 7) (s : State) : Answer := onDevice s (fun d => signedRequest d (.floorRaise floor) q)
/-- FWAUTH_SET. -/
def execFwauthSet (q : Signed) (key : Option (BitVec 512)) (s : State) : Answer := onDevice s (fun d => signedRequest d (.fwauth key) q)
/-- RETIRE_CLEAR. -/
def execRetireClear (q : Signed) (t : Fin 8) (bank : BitVec 6) (whole : Bool) (s : State) : Answer :=
  onDevice s (fun d => signedRequest d (.retireClear t.val bank whole) q)

/-- TARGET of RETIRE_CLEAR (R430). -/
def retireTarget (t b : Nat) (whole : Bool) : Nat := t + fld 3 b + fld 9 (b2n whole)

/-- TARGET of a request (R430). -/
def SReq.target : SReq → Nat
  | .enrol _ => 0
  | .testArm => 0
  | .fuseProgram b _ => b.toNat
  | .fuseRepair t _ => t
  | .floorRaise f => f.toNat
  | .fwauth _ => 0
  | .retireClear t b w => retireTarget t b.toNat w
  | .authorize _ p _ => p.generation.toNat

/-- SHA-512 of a request's parameter bytes (R429, R430): a key stands as its digest; an entry of a failing list is 8 bytes (DESIGN
CHOICE, log entry 136). -/
def SReq.params : SReq → BitVec 512
  | .enrol k => k
  | .testArm => sha512 []
  | .fuseProgram _ i => sha512 (leBytes 64 i.toNat)
  | .fuseRepair t es => sha512 (es.flatMap (fun x => leBytes 8 (failValue t (x, false))))
  | .floorRaise _ => sha512 []
  | .fwauth (some k) => k
  | .fwauth none => sha512 []
  | .retireClear _ _ _ => sha512 []
  | .authorize _ p _ => p.digest

/-- The key of a role, where it is present (R430, R432). -/
def Dev.roleKey (d : Dev) (role : Nat) : Option (BitVec 512) := if role = 1 then d.sec.makerKey else d.sec.installerKey

/-- The bytes a request signs (R429). -/
def Dev.requestText (d : Dev) (r : SReq) (q : Signed) : List Byte := d.signText q.nonce r.code r.role r.target r.params

/-- A request's signature verifies under the key of its role (R430). -/
def Dev.verifies (d : Dev) (r : SReq) (q : Signed) : Bool :=
  match d.roleKey r.role with
  | some k => sigVerifies q.sig k (sha512 (d.requestText r q))
  | none => false

/-- Why a request is refused (R430, R448), its nonce having been current or not; 0 where it succeeds. A floor that is no
rise is refused as reason 5. -/
def Dev.refusal (d : Dev) (r : SReq) (current sigOk : Bool) : Nat :=
  if !current then 2
  else if (d.roleKey r.role).isNone then 3
  else if !sigOk then 1
  else if !r.allowedIn d.glob.dev then 4
  else match r with
  | .floorRaise f => if d.sec.floor < f ∧ d.sec.floorFuse < f ∧ f.toNat ≤ 64 then 0 else 5
  | _ => 0

/-- The durable change a request that succeeds makes (R433); the one of PACKAGE_AUTHORIZE comes with the package's commit. -/
def SReq.change : SReq → Option Durable
  | .enrol k => some (.keySet true (some k))
  | .testArm => some .testArm
  | .fuseProgram b i => some (.fuse b i)
  | .fuseRepair t es => some (.fuseRepair t es)
  | .floorRaise f => some (.floor f)
  | .fwauth k => some (.keySet false k)
  | .retireClear t b w => some (.retireClear t b w)
  | .authorize _ _ _ => none

/-- What taking a request does, its nonce used up and `current` or not: a package is checked and written (R440), another request
becomes a durable change or is refused (R430). -/
def requestTaken (d : Dev) (r : SReq) (q : Signed) (current : Bool) : Dev :=
  match r with
  | .authorize b p pkgSigOk => packageVerified d b p q pkgSigOk current
  | r =>
    let ok := d.verifies r q
    let why := d.refusal r current ok
    let who : Signer := if ok then { role := r.role, keyid := keyId (d.roleKey r.role) } else {}
    if why = 0 then d.setSec (fun s => { s with durable := r.change })
    else emit (authFail d r.code why who (originField .mgmt) true (signedDigest q (d.requestText r q))) (.mgmt mgmtRefused [r.code, why])

/-- SIGNATURE_VERIFY_DONE (R430, R431): the request at the front uses up its nonce, and becomes a durable change or is
refused. The next is not taken while a durable change waits for flash, and none while Q0 is halted (R519). -/
def signatureVerified (d : Dev) : Dev :=
  match d.sec.requests, d.sec.durable with
  | (r, q) :: rest, none =>
    if !d.q0Runs then d
    else
      let u := d.sec.useNonce q.handle q.nonce
      requestTaken (d.setSec (fun _ => { u.2 with requests := rest })) r q u.1
  | _, _ => d

/-- SIGNATURE_VERIFY_DONE. -/
def execSignatureVerifyDone (s : State) : Answer := onDevice s signatureVerified

-- durable changes
/-- FUSE_CHANGED (R448). -/
def fuseChanged (d : Dev) (bank : Nat) : Dev := raise d 511 6 1 (info (bank + fld 4 d.sec.floorFuse.toNat))

/-- Fuse repairs a failing list asks for, beside those programmed before, within 4 rows and 1 column group per bank (R396):
effective at the next power-on. -/
def planFuses (d : Dev) (t : Nat) (es : List BistEntry) : Dev :=
  d.each (List.range 64) (fun d b =>
    let mine := es.filter (fun e => e.bank.toNat == b)
    if mine.isEmpty then d
    else
      let rows := Tab.get 0 (d.tile t).fuseNextRows b
      let groups := Tab.get 0 (d.tile t).fuseNextGroups b
      let p := planBank mine (4 - rows) (1 - groups)
      d.updTile t (fun x => { x with
        fuseNextRows := Tab.put x.fuseNextRows b (rows + p.rows.length)
        fuseNextGroups := Tab.put x.fuseNextGroups b (groups + p.groups.length) }))

/-- Digest of a tile's fused repairs as programmed: spare rows and groups of each bank, a byte each (DESIGN CHOICE, log entry 136). -/
def Tile.fuseDigest (t : Tile) : BitVec 256 :=
  (sha512 ((List.range 64).flatMap (fun b => leBytes 1 (Tab.get 0 t.fuseNextRows b) ++ leBytes 1 (Tab.get 0 t.fuseNextGroups b)))).setWidth 256

/-- Digest of the floor's 64-bit thermometer (R442). -/
def floorDigest (f : BitVec 7) : BitVec 256 := regDigest 8 (2 ^ f.toNat - 1)

/-- A retirement is cleared (R139, R143). -/
def clearRetired (d : Dev) (t b : Nat) (whole : Bool) : Dev :=
  d.updTile t (fun x =>
    if whole then { x with tileRetired := false, st := if x.st = .retired then .offline else x.st }
    else { x with retireMap := x.retireMap &&& ~~~BitVec.ofNat 64 (2 ^ b) })

/-- The retire map of a tile with its own retirement, as OLD and NEW digest it. -/
def Tile.retireValue (t : Tile) : Nat := t.retireMap.toNat + fld 64 (b2n t.tileRetired)

/-- The entry of a durable change (R433, R434), and the change itself on the device. Fuses take effect at the next power-on (R384); an
enrolment voids the package's stored check (R432). -/
def durableChange (d : Dev) (x : Durable) : Change × (Dev → Dev) :=
  let maker (c : Change) : Change := { c with role := 1, origin := originField .mgmt, keyid := keyId d.sec.makerKey }
  let inst (c : Change) : Change := { c with role := 2, origin := originField .mgmt, keyid := keyId d.sec.installerKey }
  match x with
  | .keySet true k =>
    (maker { action := 9, target := 1, old := keyDigest d.sec.installer, new := keyDigest k },
      fun d => raise (d.setSec (fun s => { s with installer := k, kPkgDigest := none })) 509 6 1 1)
  | .keySet false k =>
    (inst { action := 9, target := 2, old := keyDigest d.sec.authority, new := keyDigest k },
      fun d => raise (d.setSec (fun s => { s with authority := k, authSigner := s.installerKey })) 509 6 1 (info (2 + fld 2 (b2n k.isNone))))
  | .testArm => (maker { action := 12 }, fun d => d.setSec (fun s => { s with testArmed := true }))
  | .fuse b i =>
    let was := Tab.get 0 d.sec.fuses b.toNat
    (maker { action := 11, target := b.toNat, old := regDigest 64 was.toNat, new := regDigest 64 (was ||| i).toNat },
      fun d => fuseChanged (d.setSec (fun s => { s with fuses := Tab.put s.fuses b.toNat (was ||| i) })) b.toNat)
  | .fuseRepair t es =>
    (maker { action := 11, target := t, old := (d.tile t).fuseDigest, new := ((planFuses d t es).tile t).fuseDigest },
      fun d => fuseChanged (planFuses d t es) 0)
  | .floor f =>
    (maker { action := 11, target := f.toNat, old := floorDigest d.sec.floorFuse, new := floorDigest f },
      fun d => fuseChanged (d.setSec (fun s => { s with floorFuse := f })) 0)
  | .retireClear t b w =>
    (inst { action := 10, target := retireTarget t b.toNat w, old := regDigest 9 (d.tile t).retireValue
            new := regDigest 9 ((clearRetired d t b.toNat w).tile t).retireValue }, fun d => clearRetired d t b.toNat w)

/-- The code of the request that asked for a durable change (R430). -/
def Durable.code : Durable → Nat
  | .keySet true _ => 0x81
  | .keySet false _ => 0x91
  | .testArm => 0x82
  | .fuse _ _ => 0x83
  | .fuseRepair _ _ => 0x84
  | .floor _ => 0x85
  | .retireClear _ _ _ => 0x92

/-- A bank whose retirement is to be cleared is still walked (R142). -/
def Dev.durableHeld (d : Dev) (x : Durable) : Bool :=
  match x with
  | .retireClear t b w => !w && (d.tile t).bankWalks.contains b.toNat
  | _ => false

/-- Enrolling a new installer removes the authority key (R432), which is a KEY_SET of its own. -/
def dropAuthority (d : Dev) : Dev :=
  if d.sec.authority.isSome then
    let d := journalDurable d { role := 1, action := 9, origin := originField .mgmt, target := 2, keyid := keyId d.sec.makerKey
                                old := keyDigest d.sec.authority }
    raise (d.setSec (fun s => { s with authority := none, authSigner := none })) 509 6 1 (info (2 + fld 2 1))
  else d

/-- DURABLE_ENTRY_WRITTEN (R436): the change takes effect once its entry is in PD0 and in flash; one that cannot reach flash
does not, and its request fails. -/
def durableWritten (d : Dev) (ok : Bool) : Dev :=
  match d.sec.durable with
  | none => d
  | some x =>
    if d.durableHeld x || !d.q0Runs then d
    else if ok then
      let r := durableChange d x
      let d := r.2 (journalDurable (d.setSec (fun s => { s with durable := none })) r.1)
      match x with
      | .keySet true _ => dropAuthority d
      | _ => d
    else emit (flashFails (d.setSec (fun s => { s with durable := none }))) (.mgmt mgmtRefused [x.code, 0])

/-- DURABLE_ENTRY_WRITTEN. -/
def execDurableEntryWritten (ok : Bool) (s : State) : Answer := onDevice s (fun d => durableWritten d ok)

/-- JOURNAL_MIRROR (R437): entries reach flash in SEQ order, while Q0 is not halted (R519). -/
def mirror (d : Dev) (count : Nat) (ok : Bool) : Dev :=
  if !d.q0Runs then d else if ok then d.setSec (fun s => s.mirrorNext count) else flashFails d

/-- JOURNAL_MIRROR. -/
def execJournalMirror (count : Nat) (ok : Bool) (s : State) : Answer := onDevice s (fun d => mirror d count ok)

end Sys2Proof.Machine
end

