-- ==== Sys2Proof/Machine/Requests.lean ====
section
/-! DEFINITION. Self-test and training requests of management clients (R390, R397, R400), and the pins of I3C and JTAG
(R511, R513). -/

namespace Sys2Proof.Machine

/-- Answers a management client's test request with a status of R305. -/
def testAnswer (d : Dev) (status : Nat) : Dev := emit d (.mgmt mgmtRefused [status])

/-- Tile tests that run now. -/
def Dev.testsRunning (d : Dev) : Nat := ((List.range 8).filter (fun t => (d.tile t).bist == 1)).length

/-- TILE_TEST_REQUEST (R139, R390, R397, R400): quarter rate in SERVICE, one tile at a time; full rate in TEST, two at most; on
an OFFLINE tile with its domain on. What R400 does not take in SERVICE ends with BUSY_ONLINE; a request elsewhere, or a third in
TEST, ends with BUSY (DESIGN CHOICE, log entry 134). -/
def tileTestAsked (d : Dev) (t : Nat) : Dev :=
  let n := d.testsRunning
  if d.glob.dev == .off || d.glob.resetPhase != .none then d
  else if d.tileSt t != .offline || (d.tile t).bist == 1 || !d.domOn (tileDom t) || d.leaving (tileDom t) then testAnswer d 5
  else if d.glob.dev == .service then if n = 0 then testAnswer (startTest d true t) 0 else testAnswer d 5
  else if d.glob.dev == .test then if n < 2 then testAnswer (startTest d false t) 0 else testAnswer d 10
  else testAnswer d 10

/-- TILE_TEST_REQUEST. -/
def execTileTestRequest (t : Fin 8) (s : State) : Answer := onDevice s (fun d => tileTestAsked d t.val)

/-- HUB_BIST_REQUEST (R389, R400): only in TEST. -/
def hubTestAsked (d : Dev) : Dev :=
  if d.glob.dev == .off || d.glob.resetPhase != .none then d
  else if d.glob.dev == .test then testAnswer (d.setGlob (fun g => { g with hubTested := false })) 0
  else testAnswer d 10

/-- HUB_BIST_REQUEST. -/
def execHubBistRequest (s : State) : Answer := onDevice s hubTestAsked

/-- CHANNEL_RETRAINING_REQUEST (R227, R400): retraining and ZQ calibration run in line in any state but OFF, when the channel next
comes to them; full training is refused. -/
def retrainAsked (d : Dev) (c : Nat) (kind : TrainKind) : Dev :=
  if d.glob.dev == .off then d
  else match kind with
  | .dq => testAnswer (d.updChan c (fun x => { x with retrainDue := true })) 0
  | .zq => testAnswer (d.updChan c (fun x => { x with zqDue := true })) 0
  | .full => if d.glob.resetPhase != .none then d else testAnswer d 10

/-- CHANNEL_RETRAINING_REQUEST. -/
def execChannelRetrainingRequest (c : Fin 32) (kind : TrainKind) (s : State) : Answer :=
  onDevice s (fun d => retrainAsked d c.val kind)

-- I3C
/-- The target answers: its domain is on (R450), and DEV_RST_N is high, since every output but THERM_N is released while it is
low (R508). -/
def Dev.i3cOn (d : Dev) : Bool := d.domOn 1 && d.glob.rstHigh

/-- The static address (R509). -/
def Dev.i3cStatic (d : Dev) : BitVec 7 := 0x50 + (d.glob.straps &&& 3).setWidth 7

/-- A controller assigns the dynamic address (R511). -/
def i3cAssign (d : Dev) (a : BitVec 7) : Dev := { d with mgt := { d.mgt with dynAddr := some a } }

/-- The target answers a read of a fixed value. -/
def i3cAnswer (d : Dev) (v : Nat) : Dev := if d.i3cOn then emit d (.i3c v) else d

/-- ENTDAA: a target without a dynamic address takes part. -/
def execEntdaa (addr : BitVec 7) (s : State) : Answer :=
  onDevice s (fun d => if d.i3cOn && d.mgt.dynAddr.isNone then i3cAssign d addr else d)
/-- SETDASA: addressed by the static address. -/
def execSetdasa (static addr : BitVec 7) (s : State) : Answer :=
  onDevice s (fun d => if d.i3cOn && d.mgt.dynAddr.isNone && static == d.i3cStatic then i3cAssign d addr else d)
/-- RSTDAA: the dynamic address goes. -/
def execRstdaa (s : State) : Answer :=
  onDevice s (fun d => if d.i3cOn then { d with mgt := { d.mgt with dynAddr := none } } else d)
/-- GETPID. -/
def execGetpid (s : State) : Answer := onDevice s (fun d => i3cAnswer d Config.i3cPid.toNat)
/-- GETBCR. -/
def execGetbcr (s : State) : Answer := onDevice s (fun d => i3cAnswer d Config.i3cBcr.toNat)
/-- GETDCR. -/
def execGetdcr (s : State) : Answer := onDevice s (fun d => i3cAnswer d Config.i3cDcr.toNat)
/-- GETMWL. -/
def execGetmwl (s : State) : Answer := onDevice s (fun d => i3cAnswer d Config.i3cMwl.toNat)
/-- GETMRL. -/
def execGetmrl (s : State) : Answer := onDevice s (fun d => i3cAnswer d Config.i3cMrl.toNat)
/-- GETSTATUS. -/
def execGetstatus (s : State) : Answer := onDevice s (fun d => i3cAnswer d Config.i3cStatus.toNat)

-- JTAG
/-- Codes of the instruction in force. -/
def jtagBypass : Nat := 0
def jtagIdcode : Nat := 1
def jtagSample : Nat := 2
def jtagExtest : Nat := 3
def jtagClamp : Nat := 4
def jtagHighz : Nat := 5

/-- IDCODE (R513): version 1, part, manufacturer, 1. -/
def Dev.idcode (d : Dev) : Nat := fld 28 1 + fld 12 (glbRead d 0 % 65536) + fld 1 Config.jedecCode.toNat + 1

/-- An instruction is loaded. -/
def jtagLoad (d : Dev) (n : Nat) : Dev := if d.glob.supplies then { d with mgt := { d.mgt with jtag := n } } else d

/-- The loaded instruction takes the pins: EXTEST, CLAMP and HIGHZ do, only while DEV_RST_N is low; with it high each acts as BYPASS
(R513). -/
def Dev.jtagTakes (d : Dev) : Bool := d.glob.supplies && decide (3 ≤ d.mgt.jtag) && !d.glob.rstHigh

/-- The device pulls an open-drain pin low (R508, R513): 0 FAULT_N, 1 ALERT_N, 2 THERM_N. A cell of 0 pulls. -/
def Dev.pullsLow (d : Dev) (k : Fin 3) : Bool :=
  if d.jtagTakes then d.mgt.jtag != jtagHighz && !d.mgt.cells.getLsbD (Config.cellOf k.val).val
  else d.glob.supplies && (match k.val with
    | 0 => d.glob.faultN && d.glob.rstHigh
    | 1 => d.glob.alertN && d.glob.rstHigh
    | _ => d.glob.thermN)

/-- Levels of pins the device holds: DEV_RST_N, the open-drain pins, PERST_N of the ports. -/
def Dev.pinLevels (d : Dev) : Nat :=
  b2n d.glob.rstHigh + fld 1 (b2n (!d.pullsLow 0)) + fld 2 (b2n (!d.pullsLow 1)) + fld 3 (b2n (!d.pullsLow 2))
    + (List.range 8).foldl (fun n p => n + fld (4 + p) (b2n (!(d.port p).perst))) 0

/-- BYPASS. -/
def execBypass (s : State) : Answer := onDevice s (fun d => jtagLoad d jtagBypass)
/-- IDCODE: the register shifts out. -/
def execIdcode (s : State) : Answer :=
  onDevice s (fun d => if d.glob.supplies then emit (jtagLoad d jtagIdcode) (.jtag d.idcode) else d)
/-- SAMPLE/PRELOAD: the cells capture the pins, which shift out, and take their preloaded values. -/
def samplePreload (d : Dev) (cells : BitVec 64) : Dev :=
  if d.glob.supplies then
    let d := emit (jtagLoad d jtagSample) (.jtag (Config.boundary d.pinLevels d.glob.draws).toNat)
    { d.drawn with mgt := { d.mgt with cells := cells } }
  else d
def execSamplePreload (cells : BitVec 64) (s : State) : Answer := onDevice s (fun d => samplePreload d cells)
/-- EXTEST: the cells drive the pins. -/
def execExtest (s : State) : Answer :=
  onDevice s (fun d =>
    let d := jtagLoad d jtagExtest
    if d.jtagTakes then emit d (.jtag d.mgt.cells.toNat) else d)
/-- CLAMP. -/
def execClamp (s : State) : Answer := onDevice s (fun d => jtagLoad d jtagClamp)
/-- HIGHZ. -/
def execHighz (s : State) : Answer := onDevice s (fun d => jtagLoad d jtagHighz)

end Sys2Proof.Machine
end

