-- ==== Sys2Proof/Machine/Position.lean ====
section
/-! DEFINITION. The Position record: a snapshot as Q0 writes it (R411-R418). -/

namespace Sys2Proof.Machine

/-- A count in one slot, saturating. -/
def slot18 (n : Nat) : Nat := min n 0x3FFFF

/-- A count in two slots. -/
def slots36 (n : Nat) : List Nat := [n % 2 ^ 18, n / 2 ^ 18 % 2 ^ 18]

/-- The header group, slots 1-9. -/
def Dev.headerGroup (d : Dev) : List Nat :=
  [d.glob.dev.code + fld 3 d.stateCause, d.resync.t0 % 2 ^ 18, d.resync.t0 / 2 ^ 18 % 2 ^ 18, d.resync.t0 / 2 ^ 36 % 2 ^ 18
    , d.glob.gen.toNat, d.resync.who.toNat, d.startStatus % 4096, d.sec.nextSeq % 4096, b2n (!d.glob.part1024) + fld 1 (glbRead d 4)]

/-- The journal head digest, slots 16-47. -/
def Dev.digestGroup (d : Dev) : List Nat := (List.range 32).map (fun i => d.sec.head.toNat / 2 ^ (16 * i) % 2 ^ 16)

/-- A port group (R416); zero while its domain is off (R412). -/
def Dev.portGroup (d : Dev) (p : Nat) : List Nat :=
  if d.domOn (portDom p) then
    [d.linkStatus p % 2 ^ 15, d.ldBound p, d.ldMode p, slot18 (d.port p).drops] ++ (List.range 16).flatMap (fun m =>
      [d.ldAgent p m % 2 ^ 18, match Tab.find d.binds (16 * p + m) with
        | some v => v.toNat + fld 12 (d.ldMode p / 2 ^ m % 2) + fld 13 1
        | none => fld 12 (d.ldMode p / 2 ^ m % 2)])
  else List.replicate 36 0

/-- Copies A and B of an index: B is a free value, by number of the draw, while the two differ (R342, log entry 54). -/
def copies (x : BitVec 8) (draw : Option Nat) : Nat :=
  x.toNat + fld 8 (match draw with
    | some n => (Config.freeWord n).toNat % 256
    | none => x.toNat)

/-- A queue-pair group (R417). -/
def Pair_.group (p : Pair_) (draw : Nat) : List Nat :=
  let copy (i : BitVec 2) (x : BitVec 8) : Nat := copies x (if p.differ = some i then some draw else none)
  [copy 0 p.cmdProd, copy 1 p.cmdCons, copy 2 p.cplProd, copy 3 p.cplHead, p.status, p.credits + fld 8 p.poolNow]

/-- An event-queue group (R415). -/
def Evq.group (q : Evq) (draw : Nat) : List Nat :=
  [copies q.tail (if q.differ = some false then some draw else none), copies q.head (if q.differ = some true then some draw else none)]

/-- The groups of blocks in the core's domain read as zero while it is off (R412). -/
def Dev.coreGroup (d : Dev) (g : List Nat) : List Nat := if d.domOn 10 then g else g.map (fun _ => 0)

/-- An engine group (R418); zero while its domain is off. -/
def Dev.engineGroup (d : Dev) (e : Nat) : List Nat :=
  if d.domOn (quadDom (quadOf e)) then
    let y := d.engine e
    [d.engState e + (match y.popped with
      | some (q, _, _) => fld 11 q + fld 17 1
      | none => fld 17 (b2n y.call.isSome)), y.pc.toNat]
  else [0, 0]

/-- Slots 768-799: domains, PARK, sweep, agents, locks, error counters (R415). -/
def Dev.statusGroup (d : Dev) : List Nat :=
  let sum (n : Nat) (f : Nat → Nat) : Nat := (List.range n).foldl (fun t i => t + f i) 0
  [d.pwr.on.toNat % 2 ^ 18, d.pwr.on.toNat / 2 ^ 18, d.park.st.toNat, d.parkDone, d.park.pace.toNat
    , b2n d.glob.sweepActive + fld 1 d.glob.sweepCovered, d.slowestWalk, d.attachedAll, d.resigningAll
    , b2n d.glob.lockTables + fld 1 (b2n d.glob.lockRmap) + fld 2 (b2n d.err.lockFlip), 0, 0, 0, 0, 0, 0
    , d.err.log.length, slot18 d.err.drops] ++ slots36 (sum 4 (fun m => (d.mc m).ce)) ++ slots36 (sum 4 (fun m => (d.mc m).ue))
    ++ slots36 (sum 8 (fun t => (d.tile t).ce)) ++ slots36 (sum 8 (fun t => (d.tile t).ue))
    ++ [slot18 d.glob.dirFlushes, slot18 d.glob.resigns, slot18 d.glob.linesLost, slot18 d.evt.lost, slot18 d.evt.wakeDrops, 0]

/-- Slots 800-815: the last fatal error. -/
def Dev.fatalGroup (d : Dev) : List Nat :=
  ((d.rlogAt 1).toNat % 2 ^ 11 + fld 11 (b2n d.fatalSet)) :: (List.range 7).map (fun i => (d.rlogAt (2 + i)).toNat) ++ List.replicate 8 0

/-- A tile group: the core holds the registers of the tiles (R476). -/
def Dev.tileGroup (d : Dev) (t : Nat) : List Nat :=
  let x := d.tile t
  ((d.tileSt t).code + fld 3 x.cause.toNat + fld 6 (b2n x.mapValid)) :: (List.range 4).map (fun j => x.retireMap.toNat / 2 ^ (16 * j) % 2 ^ 16)

/-- Slot of four event sequences. -/
def Dev.seqSlot (d : Dev) (i : Nat) : Nat :=
  (List.range 4).foldl (fun v k => v + fld (4 * k) (d.source (4 * i + k)).seq.toNat) 0

/-- The record, slots 1-1022 (R415). -/
def Dev.position (d : Dev) : List Nat :=
  d.headerGroup ++ List.replicate 6 0 ++ d.digestGroup ++ (List.range 8).flatMap d.portGroup
    ++ (List.range 64).flatMap (fun n => d.coreGroup ((d.pair n).group (d.glob.draws + n))) ++ (List.range 24).flatMap (fun e => d.coreGroup (d.engineGroup e)) ++ d.statusGroup ++ d.fatalGroup
    ++ (List.range 8).flatMap (fun t => d.coreGroup (d.tileGroup t)) ++ (List.range 128).map d.seqSlot
    ++ (List.range 9).flatMap (fun q => d.coreGroup ((d.evq q).group (d.glob.draws + 64 + q)))
    ++ (List.range 17).map (fun i => (d.rlogAt (16 + i)).toNat) ++ List.replicate 4 0

/-- SEQ after one more snapshot: it wraps from 0x1_FFFF to 1 (R415). -/
def nextSeq17 (s : BitVec 17) : BitVec 17 := if s = BitVec.allOnes 17 then 1 else s + 1

/-- The slots of a record that are not zero. -/
def slotTab (seq : BitVec 17) (ws : List Nat) : Tab Word :=
  let body := (List.range 1022).filterMap (fun i => let w := BitVec.ofNat 18 (ws.getD i 0); if w = 0 then none else some (i + 1, w))
  (0, resyncHeader seq false) :: (body ++ [(1023, resyncHeader seq false)])

/-- RESYNC_SNAPSHOT_DONE (R410-R414): the record stands, and a merged request starts the next snapshot. -/
def snapshotDone (d : Dev) : Dev :=
  if !d.resync.busy || !d.q0Runs || d.glob.resetPhase != .none then d
  else
    let seq := nextSeq17 d.resync.seq
    let slots := slotTab seq d.position
    let d := { d with resync := { d.resync with slots := slots, seq := seq, busy := false }
                      glob := { d.glob with draws := d.glob.draws + 73 } }
    if d.resync.pending then
      resyncStart { d with resync := { d.resync with pending := false } } d.resync.nextWho
    else d

/-- RESYNC_SNAPSHOT_DONE. -/
def execResyncSnapshotDone (s : State) : Answer := onDevice s snapshotDone

end Sys2Proof.Machine
end

