-- ==== Sys2Proof/Machine/Queues.lean ====
section
/-! DEFINITION. Commands of the queue pairs, the event queues and the event fabric (12_queues_and_events.md). -/

namespace Sys2Proof.Machine

/-- QUEUE_OPEN_DONE (R331). -/
def execQueueOpenDone (n : Fin 64) (s : State) : Answer :=
  onIsland 10 s (fun d => if (d.pair n.val).st = 1 then openDone d n.val else d)

/-- Why a slot write is dropped (R333, R337): none where it is taken. With no credit the current cell is a new one: credits go
with a commit, which makes the next cell current, and that one still holds a packet nobody has popped. -/
def Pair_.slotBar (p : Pair_) (o : Origin) (cell : Nat) : Option Nat :=
  if !p.isOpen then some 2
  else if !p.ownedBy o then some 1
  else if p.cmdProd.toNat % 128 ≠ cell then some 3
  else if p.credits = 0 then some 5
  else none

/-- A slot is written, with its parity (R329, R335). -/
def Pair_.putSlot (p : Pair_) (cell slot : Nat) (w : Word) (parityOk : Bool) : Pair_ :=
  { p with
    cmd := Tab.put p.cmd (cell * 64 + slot) w
    parity := if parityOk then p.parity.filter (· ≠ slot) else slot :: p.parity.filter (· ≠ slot) }

/-- Where a slot stands in BAR2 (R329, R477). -/
def slotOff (n cell slot : Nat) : Nat := 0x10000 * n + 0x100 * cell + 4 * slot

/-- A command slot write that reaches the queue block (R333, R335, R336, R481): bits 31:18 of the dword are ignored (R8); one with
part of its bytes enabled is dropped and counts as never written. DESIGN CHOICE (log entry 47): NARROW_WRITE names the offset in
BAR2, and the checks of R333 come first. -/
def slotWriteNow (d : Dev) (o : Origin) (n cell slot : Nat) (v : BitVec 32) (en : BitVec 4) (parityOk : Bool)
    (ptrErr : Option (BitVec 2)) : Dev :=
  match o with
  | .host _ _ =>
    if !d.reaches o then d
    else
      let d := pairDiffers d n ptrErr
      match (d.pair n).slotBar o cell with
      | some r => queueAccess d n r o false
      | none =>
        if en ≠ 15 then narrowWrite d o (slotOff n cell slot)
        else tryCommit (d.updPair n (fun p => p.putSlot cell slot (v.extractLsb' 0 18) parityOk)) n
  | _ => d

/-- A host writes a command slot: with no byte enabled nothing happens (R479, R481); it waits while the queue block's clock has
failed (R15). -/
def slotWrite (d : Dev) (o : Origin) (n cell slot : Nat) (v : BitVec 32) (en : BitVec 4) (parityOk : Bool)
    (ptrErr : Option (BitVec 2)) : Dev :=
  let a := HostAccess.slot n cell slot v en parityOk ptrErr
  if en = 0 then d
  else if d.reaches o && d.mustQueue o a then { d with waits := d.waits ++ [(o, a)] }
  else slotWriteNow d o n cell slot v en parityOk ptrErr

/-- COMMAND_SLOT_WRITE (R335). -/
def execCommandSlotWrite (o : Origin) (n : Fin 64) (cell : BitVec 7) (slot : BitVec 6) (value : BitVec 32) (enables : BitVec 4)
    (parityOk : Bool) (ptrErr : Option (BitVec 2)) (s : State) : Answer :=
  onDevice s (fun d => slotWrite d o n.val cell.toNat slot.toNat value enables parityOk ptrErr)

/-- The timeout of a queue that is not empty (R343). -/
def moderate (d : Dev) (isEvq : Bool) (n : Nat) : Dev :=
  if isEvq then (if (d.evq n).unread = 0 then d else evqInterrupt d n)
  else
    let p := d.pair n
    if p.isOpen && p.cplMsi && p.cplProd != p.cplHead then pairInterrupt d n else d

/-- MODERATION_TIMEOUT (R343): there are nine event queues. -/
def execModerationTimeout (isEvq : Bool) (n : Fin 64) (s : State) : Answer :=
  if !isEvq || decide (n.val < 9) then onIsland 10 s (fun d => moderate d isEvq n.val) else .fault .illFormed

/-- EVENT_FABRIC_TRANSFER (R346). -/
def execEventFabricTransfer (parityOk : Bool) (ptrErr : Option Bool) (s : State) : Answer :=
  onIsland 0 s (fun d => fabricTransfer d parityOk ptrErr)

end Sys2Proof.Machine
end

