-- ==== Sys2Proof/Machine/Recalls.lean ====
section
/-! DEFINITION. Commands of the slices, the directory and the resignation sweep (04, 06, 07). -/

namespace Sys2Proof.Machine

/-- PARK_SLOT_TIMEOUT: a park slot is not ended within the target timeout (R78). -/
def execParkSlotTimeout (p : Fin 8) (slot : Fin 32) (s : State) : Answer := onIsland (2 + p.val) s (fun d => slotTimeout d p.val slot.val)

/-- HOME_QUEUE_ARRIVAL (R98). -/
def execHomeQueueArrival (s : Fin 16) (ids : List Nat) (st : State) : Answer :=
  if (Instr.homeQueueArrival s ids).wf then onIsland 10 st (fun d => arrive d s.val ids) else .fault .illFormed

/-- HOME_QUEUE_ISSUE (R99). -/
def execHomeQueueIssue (s : Fin 16) (err : LookupErr) (st : State) : Answer := onIsland 10 st (fun d => issue d s.val err)

/-- DIR_RETRY (R175). -/
def execDirRetry (s : Fin 16) (id : Nat) (err : Option (Fin 16 × Ecc)) (st : State) : Answer :=
  onIsland 10 st (fun d => retryIssue d s.val id err)

/-- DIR_GUARD_ENGAGE (R175). -/
def execDirGuardEngage (s : Fin 16) (id : Nat) (st : State) : Answer := onIsland 10 st (fun d => guardEngage d s.val id)

/-- BISnps of a port for a frame that wait for its reverse entry. -/
def Dev.unsentFor (d : Dev) (p frame : Nat) : List Snoop :=
  (d.port p).snoops.filter (fun s => !s.sent && decide (s.line / 1024 = frame))

/-- A recall that cannot be addressed (R171): its agent is resigned, and the recall completes at the resignation point
(R197). -/
def unreachable (d : Dev) (s : Snoop) : Dev :=
  let sl := sliceOf (64 * s.line)
  let way := match d.dirEntry sl (64 * s.line) with
    | some e => if e.st == .sc then none else d.dirWay sl (64 * s.line)
    | none => none
  resign (dirNote d sl 3 (dsetOf (64 * s.line)) way s.agent) s.agent 5

/-- A reverse-array read returns to its port (R170, R171). -/
def reverseReturn (d : Dev) (p frame : Nat) : Dev :=
  match d.xacts.find? (fun x => x.2.req.op == .revRead && x.2.req.src == .reverse p && decide (x.2.req.va = frame)) with
  | none => d
  | some (i, x) =>
    match x.phase with
    | .done data poison ok =>
      let d := d.dropXact i
      let pair := data.extractLsb' (8 * (x.req.dpa % 64)) 32
      let snoops := d.unsentFor p frame
      if poison || !ok || decide (revMaps pair = 0) then d.each snoops unreachable
      else (d.updPort p (fun q => q.reverseUse frame pair)).each snoops (fun d s => sendSnoop d p s (revVpn pair))
    | _ => d

/-- REVERSE_ENTRY_RETURN. -/
def execReverseEntryReturn (p : Fin 8) (frame : BitVec 24) (st : State) : Answer :=
  onIsland (2 + p.val) st (fun d => reverseReturn d p.val frame.toNat)

/-- A quad answers an engine recall (R156): the copy goes, and a reservation in the line ends. -/
def engineRecall (d : Dev) (e line : Nat) : Dev :=
  let waits := d.xacts.any (fun x => decide (x.2.recallLine = line) && (match x.2.phase with
    | .recall ts _ => ts.any (fun t => t.agent == engAgent e)
    | _ => false))
  if waits && (d.quadRuns e || !d.domOn (quadDom (quadOf e))) then
    let d := { d with xacts := d.xacts.map (fun (x : Nat × Xact) =>
      if (x.2.req.src = Src.engine e ∨ x.2.req.src = Src.call e) ∧ x.2.line = line ∧ 0 < x.2.ord then (x.1, { x.2 with recalled := true }) else x) }
    answer (d.updEngine e (·.dropMview line)) (engAgent e) line false false false
  else d

/-- ENGINE_RECALL. -/
def execEngineRecall (e : Fin 24) (line : Nat) (st : State) : Answer := onDevice st (fun d => engineRecall d e.val line)

/-- A BISnp is not answered in time (R172): its agent is resigned, and the recall completes at the resignation point (R197). -/
def snoopTimeout (d : Dev) (p : Nat) (a : BitVec 12) (line : Nat) : Dev :=
  if (d.port p).snoops.any (fun s => s.agent == a && decide (s.line = line) && s.sent) then resign d a 2 else d

/-- BISNP_TIMEOUT. -/
def execBisnpTimeout (p : Fin 8) (agent : BitVec 12) (line : Nat) (st : State) : Answer :=
  onIsland (2 + p.val) st (fun d => snoopTimeout d p.val agent line)

/-- A resignation ends (R203, R204): SWEEP_DONE, and the ID is free. -/
def endResignation (d : Dev) (a : BitVec 12) : Dev :=
  match d.agent? a with
  | none => d
  | some x =>
    let d := { d with agents := Tab.del d.agents a.toNat }
    raise d 450 5 0 (info (a.toNat + fld 12 x.epoch.toNat + fld 16 x.lost + fld 40 (b2n x.unknown)))

/-- Decoded writes of an agent that have not reached their order point (R196). -/
def Dev.writesBefore (d : Dev) (a : BitVec 12) : Bool :=
  d.xacts.any (fun x => x.2.req.agent == a && x.2.req.op.isWrite && decide (x.2.ord = 0))

/-- The resignation point (R196, R197): requests not ordered yet end without effect, recalls of the agent complete. -/
def resignationPoint (d : Dev) (a : BitVec 12) : Dev :=
  match d.agent? a with
  | none => d
  | some x =>
    if x.attached || x.pointReached || d.writesBefore a || !d.islandRuns 10 then d
    else
      let d := { d with xacts := d.xacts.filter (fun y => !(y.2.req.agent == a && decide (y.2.ord = 0) && (match y.2.req.src with
        | .host _ _ _ => true
        | _ => false))) }
      if !x.hdmDb then endResignation d a
      else answerAll (d.updAgent a (fun y => { y with pointReached := true })) a

/-- RESIGNATION_POINT. -/
def execResignationPoint (agent : BitVec 12) (st : State) : Answer := onDevice st (fun d => resignationPoint d agent)

/-- Agents a pass that starts now would cover (R203). -/
def Dev.uncovered (d : Dev) : List Nat :=
  (d.agents.filter (fun a => !a.2.attached && a.2.hdmDb && a.2.pointReached && !a.2.covered)).map (·.1)

/-- A background pass starts (R203, R205): each slice's walker enters its home queue with its first set. -/
def passStart (d : Dev) : Dev :=
  let l := d.uncovered
  if d.glob.sweepActive || l.isEmpty || !d.q0Runs || !d.islandRuns 10 then d
  else
    let d := { d with agents := d.agents.map (fun (a : Nat × Agent) => if l.contains a.1 then (a.1, { a.2 with covered := true }) else a) }
    let d := d.setGlob (fun g => { g with sweepActive := true, sweepCovered := l.length })
    d.each (List.range 16) (fun d s => d.updSlice s (fun y => { y with walked := 0, walkOrd := some y.nextOrd, nextOrd := y.nextOrd + 1 }))

/-- SWEEP_PASS_START. -/
def execSweepPassStart (st : State) : Answer := onDevice st passStart

/-- The sets a slice's walker has left when the pass ends: every set that holds an entry (log entry 27). -/
def walkRest (d : Dev) (s : Nat) : Dev :=
  let sets := (((d.slice s).dir.map (fun e => e.1 / 16)).eraseDups).filter (fun k => decide ((d.slice s).walked ≤ k))
  let d := countWalk d s (32768 - (d.slice s).walked)
  (d.each sets (fun d k => walkSet d s k none)).updSlice s (fun y => { y with walked := 0, walkOrd := none })

/-- An entry of the directory still names an agent: the walk skipped it as busy, and no recall under way takes the word away. -/
def Dev.named (d : Dev) (a : Nat × Agent) : Bool :=
  (List.range 16).any (fun s => (d.slice s).dir.any (fun e => e.2.ptrs.any (fun p =>
    decide (p.agent.toNat = a.1) && p.epoch == a.2.epoch && p.ps != .recalling)))

/-- A pass ends in all slices (R203). An agent that an entry the walk skipped as busy still names is left to the next pass
(DESIGN CHOICE, log entry 27). While Q0 is halted no pass goes on or ends; DIR_SWEEP_STATUS keeps showing the pass as it
stood until full reset (DESIGN CHOICE, log entry 117; R205). -/
def passEnd (d : Dev) : Dev :=
  if !d.glob.sweepActive || !d.q0Runs || !d.islandRuns 10 then d
  else
    let d := d.each (List.range 16) walkRest
    let gone := (d.agents.filter (fun a => a.2.covered && !d.named a)).map (·.1)
    let d := d.each gone (fun d a => endResignation d (BitVec.ofNat 12 a))
    let d := { d with agents := d.agents.map (fun (a : Nat × Agent) => (a.1, { a.2 with covered := false })) }
    d.setGlob (fun g => { g with sweepActive := false, sweepCovered := 0 })

/-- SWEEP_PASS_END. -/
def execSweepPassEnd (st : State) : Answer := onDevice st passEnd

/-- The next candidate of a set flush from `t` on, `n` dtags left (R180): inside the usable limit and mapped.
DESIGN CHOICE (log entry 144): the spec does not say what the walk does where the reverse pair of a frame reads as poison; its
MAPS bits decide as they stand. -/
def Dev.flushNext (d : Dev) (s dset : Nat) : Nat → Nat → Option Nat
  | 0, _ => none
  | n + 1, t =>
    let dpa := dpaOfDir s dset t
    if dpa < d.limit ∧ revMaps (d.pairAt (d.rmapDpa (dpa / 65536))).1 ≠ 0 then some t else d.flushNext s dset n (t + 1)

/-- A set flush ends (R180, R182): the 16 entries are written I, and the next queued set starts. -/
def flushEnd (d : Dev) (s dset : Nat) : Dev :=
  (d.each (List.range 16) (fun d w => putDir d s dset w {})).updSlice s (fun x => { x with
    flush := match x.flushQueue with
      | k :: _ => some ⟨k, 0, []⟩
      | [] => none
    flushQueue := x.flushQueue.drop 1 })

/-- A candidate of a set flush is recalled from every attached HDM-DB agent, in a recall register of its own (R180). -/
def flushRecall (d : Dev) (s t : Nat) (f : Flush) (ts : List Target) : Dev :=
  let dpa := dpaOfDir s f.dset t
  let sl := d.slice s
  let r := (d.updSlice s (fun y => { y with nextOrd := y.nextOrd + 1 })).start
    { req := { op := .flushRecall, dpa := dpa, sup := true }, slice := s, ord := sl.nextOrd, phase := .queued, t0 := d.glob.time }
  let d := r.1.updSlice s (fun x => { x with flush := some ⟨f.dset, t + 1, f.xids ++ [r.2]⟩ })
  startRecall d r.2 (dpa / 64) ts none none

/-- The set flush takes its next candidate, up to 8 at a time; once none is left and all are answered it ends (R180). -/
def flushStep (d : Dev) (s : Nat) : Dev :=
  match (d.slice s).flush with
  | none => d
  | some f =>
    match d.dbAgents.map (fun a => (⟨a.1, a.2, false, false⟩ : Target)), d.flushNext s f.dset (0x8000 - f.next) f.next with
    | a :: ts, some t => if 8 ≤ f.xids.length ∨ 16 ≤ d.recallRegs s then d else flushRecall d s t f (a :: ts)
    | _, _ => if f.xids = [] then flushEnd d s f.dset else d

/-- SET_FLUSH_CANDIDATE. -/
def execSetFlushCandidate (s : Fin 16) (st : State) : Answer := onIsland 10 st (fun d => flushStep d s.val)

end Sys2Proof.Machine
end

