-- ==== Sys2Proof/Machine/Waits.lean ====
section
/-! DEFINITION. Blocks that answer again: a domain switched on, a clock that runs again, and the accesses that waited for them
(17_power_and_clocks.md, 19_register_reference.md). -/

namespace Sys2Proof.Machine

/-- A write that waited takes effect (R484, R485). -/
def takeAccess (d : Dev) (x : Origin × HostAccess) : Dev :=
  match x.2 with
  | .reg off v size8 en pe ev => busWriteNow d x.1 off v size8 en pe ev
  | .slot n cell slot v en parityOk ptrErr => slotWriteNow d x.1 n cell slot v en parityOk ptrErr

/-- The writes that waited for blocks which answer now take effect in the order issued. -/
def takeWaits (d : Dev) : Dev :=
  let go := d.waits.filter (fun x : Origin × HostAccess => d.blockRuns x.2)
  let stay := d.waits.filter (fun x : Origin × HostAccess => !d.blockRuns x.2)
  { d with waits := stay }.each go takeAccess

/-- A PLL relocks (R459): a port's needs its REFCLK, and the port may train; what waited at the island goes on. -/
def pllBack (d : Dev) (i : Nat) : Dev :=
  if !d.pwr.unlocked.getLsbD i then d
  else if 2 ≤ i ∧ i ≤ 9 then if (d.port (i - 2)).refclkLost then d else takeWaits (startTrain (pllIn d i) (i - 2))
  else if i = 10 then takeWaits (takeAnswers (pllIn d i))
  else takeWaits (pllIn d i)

/-- PLL_RELOCK. -/
def execPllRelock (island : Fin 29) (s : State) : Answer := onDevice s (fun d => pllBack d island.val)

/-- POWER_ON_DONE (R455). -/
def execPowerOnDone (s : State) : Answer := onDevice s (fun d => takeWaits (onDone d))

end Sys2Proof.Machine
end

