-- ==== Sys2Proof/Machine/Dispatch.lean ====
section
/-! DEFINITION. exec: one arm per command, each a direct call of its meaning. -/

namespace Sys2Proof.Machine

def exec (i : Instr) (s : State) : Host.Outcome State Fault Refusal :=
  match i with
  | .devRstNAssert => Sys2Proof.Machine.execDevRstNAssert s
  | .devRstNRelease straps => Sys2Proof.Machine.execDevRstNRelease straps s
  | .supplyLoss => Sys2Proof.Machine.execSupplyLoss s
  | .glbFullReset o value => Sys2Proof.Machine.execGlbFullReset o value s
  | .managementResetRequest => Sys2Proof.Machine.execManagementResetRequest s
  | .fullResetDrainEnd clean => Sys2Proof.Machine.execFullResetDrainEnd clean s
  | .startBegin => Sys2Proof.Machine.execStartBegin s
  | .fuseLoadDone bad => Sys2Proof.Machine.execFuseLoadDone bad s
  | .fwVerifyDone slot ok => Sys2Proof.Machine.execFwVerifyDone slot ok s
  | .mctpFwImageDeliver img sigOk => Sys2Proof.Machine.execMctpFwImageDeliver img sigOk s
  | .packageCheckDone sigOk => Sys2Proof.Machine.execPackageCheckDone sigOk s
  | .hubSelfTestDone ports quads core mc => Sys2Proof.Machine.execHubSelfTestDone ports quads core mc s
  | .memoryTrainingDone c full rate pop => Sys2Proof.Machine.execMemoryTrainingDone c full rate pop s
  | .tileSelfTestDone t r => Sys2Proof.Machine.execTileSelfTestDone t r s
  | .startFinalSteps => Sys2Proof.Machine.execStartFinalSteps s
  | .perstNAssert p => Sys2Proof.Machine.execPerstNAssert p s
  | .perstNRelease p => Sys2Proof.Machine.execPerstNRelease p s
  | .linkUp p width rate flit256 lopt => Sys2Proof.Machine.execLinkUp p width rate flit256 lopt s
  | .linkDrop p cause => Sys2Proof.Machine.execLinkDrop p cause s
  | .linkReplay p err => Sys2Proof.Machine.execLinkReplay p err s
  | .replayThreshold p count => Sys2Proof.Machine.execReplayThreshold p count s
  | .refclkLoss p => Sys2Proof.Machine.execRefclkLoss p s
  | .refclkRestore p => Sys2Proof.Machine.execRefclkRestore p s
  | .xinLoss => Sys2Proof.Machine.execXinLoss s
  | .pllUnlock island => Sys2Proof.Machine.execPllUnlock island s
  | .pllRelock island => Sys2Proof.Machine.execPllRelock island s
  | .hdmDecoderCommit p ld base size => Sys2Proof.Machine.execHdmDecoderCommit p ld base size s
  | .memEnableSet p ld => Sys2Proof.Machine.execMemEnableSet p ld s
  | .hdmDecoderUncommit p ld => Sys2Proof.Machine.execHdmDecoderUncommit p ld s
  | .memEnableClear p ld => Sys2Proof.Machine.execMemEnableClear p ld s
  | .memRd h m => Sys2Proof.Machine.execMemRd h m s
  | .memRdData h => Sys2Proof.Machine.execMemRdData h s
  | .memInv h m => Sys2Proof.Machine.execMemInv h m s
  | .memInvNt h m => Sys2Proof.Machine.execMemInvNt h m s
  | .memClnEvct h => Sys2Proof.Machine.execMemClnEvct h s
  | .memWr h m data poison => Sys2Proof.Machine.execMemWr h m data poison s
  | .memWrPtl h m data mask poison => Sys2Proof.Machine.execMemWrPtl h m data mask poison s
  | .memSpecRd h => Sys2Proof.Machine.execMemSpecRd h s
  | .biConflict h => Sys2Proof.Machine.execBiConflict h s
  | .birspI p ld hpa => Sys2Proof.Machine.execBirspI p ld hpa s
  | .birspS p ld hpa => Sys2Proof.Machine.execBirspS p ld hpa s
  | .homeQueueArrival n ids => Sys2Proof.Machine.execHomeQueueArrival n ids s
  | .homeQueueIssue n err => Sys2Proof.Machine.execHomeQueueIssue n err s
  | .dirRetry n id err => Sys2Proof.Machine.execDirRetry n id err s
  | .dirGuardEngage n id => Sys2Proof.Machine.execDirGuardEngage n id s
  | .reverseEntryReturn p frame => Sys2Proof.Machine.execReverseEntryReturn p frame s
  | .engineRecall e line => Sys2Proof.Machine.execEngineRecall e line s
  | .bisnpTimeout p agent line => Sys2Proof.Machine.execBisnpTimeout p agent line s
  | .resignationPoint agent => Sys2Proof.Machine.execResignationPoint agent s
  | .sweepPassStart => Sys2Proof.Machine.execSweepPassStart s
  | .sweepPassEnd => Sys2Proof.Machine.execSweepPassEnd s
  | .setFlushCandidate n => Sys2Proof.Machine.execSetFlushCandidate n s
  | .tileAccessReturn id err => Sys2Proof.Machine.execTileAccessReturn id err s
  | .tileNoAnswer t => Sys2Proof.Machine.execTileNoAnswer t s
  | .tileWalkEnd t => Sys2Proof.Machine.execTileWalkEnd t s
  | .bankWalkEnd t bank => Sys2Proof.Machine.execBankWalkEnd t bank s
  | .fillReturn id => Sys2Proof.Machine.execFillReturn id s
  | .mcReadArrival id err chk => Sys2Proof.Machine.execMcReadArrival id err chk s
  | .writeBufferAccept id => Sys2Proof.Machine.execWriteBufferAccept id s
  | .writeAcceptanceAck id => Sys2Proof.Machine.execWriteAcceptanceAck id s
  | .channelReadReturn id symbols wrongAddr => Sys2Proof.Machine.execChannelReadReturn id symbols wrongAddr s
  | .wbAgeExpiry m line => Sys2Proof.Machine.execWbAgeExpiry m line s
  | .wbBatchStart c dataUe addrUe => Sys2Proof.Machine.execWbBatchStart c dataUe addrUe s
  | .rmwMergeReadReturn m line symbols wrongAddr chk => Sys2Proof.Machine.execRmwMergeReadReturn m line symbols wrongAddr chk s
  | .channelWriteTaken m line err addrUe => Sys2Proof.Machine.execChannelWriteTaken m line err addrUe s
  | .perBankRefresh c bank => Sys2Proof.Machine.execPerBankRefresh c bank s
  | .zqCalibrationLatch c => Sys2Proof.Machine.execZqCalibrationLatch c s
  | .dqsOscillatorRead c drift => Sys2Proof.Machine.execDqsOscillatorRead c drift s
  | .writeDqRetraining c ok => Sys2Proof.Machine.execWriteDqRetraining c ok s
  | .mr4Read c code hot => Sys2Proof.Machine.execMr4Read c code hot s
  | .readTimeout id => Sys2Proof.Machine.execReadTimeout id s
  | .channelFailed c timeouts => Sys2Proof.Machine.execChannelFailed c timeouts s
  | .memoryMoverLine m ch staging => Sys2Proof.Machine.execMemoryMoverLine m ch staging s
  | .sweepMoverRead ch staging => Sys2Proof.Machine.execSweepMoverRead ch staging s
  | .patrolTimer => Sys2Proof.Machine.execPatrolTimer s
  | .patrolPassEnd errs => Sys2Proof.Machine.execPatrolPassEnd errs s
  | .parkSlotTimeout p slot => Sys2Proof.Machine.execParkSlotTimeout p slot s
  | .labwAtLab e slot => Sys2Proof.Machine.execLabwAtLab e slot s
  | .labiTakeEffect e id => Sys2Proof.Machine.execLabiTakeEffect e id s
  | .labsyncDone e => Sys2Proof.Machine.execLabsyncDone e s
  | .alu x fn d n => Sys2Proof.Machine.execAlu x fn d n s
  | .alup x fn d n => Sys2Proof.Machine.execAlup x fn d n s
  | .li x d n => Sys2Proof.Machine.execLi x d n s
  | .addi x d n => Sys2Proof.Machine.execAddi x d n s
  | .andi x d n => Sys2Proof.Machine.execAndi x d n s
  | .ori x d n => Sys2Proof.Machine.execOri x d n s
  | .xori x d n => Sys2Proof.Machine.execXori x d n s
  | .cmpi x d n => Sys2Proof.Machine.execCmpi x d n s
  | .shi x d n => Sys2Proof.Machine.execShi x d n s
  | .lip x d n => Sys2Proof.Machine.execLip x d n s
  | .addip x d n => Sys2Proof.Machine.execAddip x d n s
  | .cmpip x d n => Sys2Proof.Machine.execCmpip x d n s
  | .ship x d n => Sys2Proof.Machine.execShip x d n s
  | .ldw x g a o => Sys2Proof.Machine.execLdw x g a o s
  | .ldp x g a o => Sys2Proof.Machine.execLdp x g a o s
  | .stw x g a o => Sys2Proof.Machine.execStw x g a o s
  | .stp x g a o => Sys2Proof.Machine.execStp x g a o s
  | .ldwu x g a o => Sys2Proof.Machine.execLdwu x g a o s
  | .ldpu x g a o => Sys2Proof.Machine.execLdpu x g a o s
  | .stwu x g a o => Sys2Proof.Machine.execStwu x g a o s
  | .stpu x g a o => Sys2Proof.Machine.execStpu x g a o s
  | .stwnt x g a o => Sys2Proof.Machine.execStwnt x g a o s
  | .stpnt x g a o => Sys2Proof.Machine.execStpnt x g a o s
  | .lrp x g a o => Sys2Proof.Machine.execLrp x g a o s
  | .scp x g a o => Sys2Proof.Machine.execScp x g a o s
  | .aput x a g => Sys2Proof.Machine.execAput x a g s
  | .aget x g a => Sys2Proof.Machine.execAget x g a s
  | .amov x a m => Sys2Proof.Machine.execAmov x a m s
  | .aaddw x a g => Sys2Proof.Machine.execAaddw x a g s
  | .aaddp x a g => Sys2Proof.Machine.execAaddp x a g s
  | .acmp x a m => Sys2Proof.Machine.execAcmp x a m s
  | .aspc x a n => Sys2Proof.Machine.execAspc x a n s
  | .afrm x a g => Sys2Proof.Machine.execAfrm x a g s
  | .atbl x a g => Sys2Proof.Machine.execAtbl x a g s
  | .aaddi x a n => Sys2Proof.Machine.execAaddi x a n s
  | .ali x a space n => Sys2Proof.Machine.execAli x a space n s
  | .br x cond off => Sys2Proof.Machine.execBr x cond off s
  | .jc x cond off ext => Sys2Proof.Machine.execJc x cond off ext s
  | .call x ext => Sys2Proof.Machine.execCall x ext s
  | .jr x g => Sys2Proof.Machine.execJr x g s
  | .djnz x g off => Sys2Proof.Machine.execDjnz x g off s
  | .mfs x g n => Sys2Proof.Machine.execMfs x g n s
  | .mts x n g => Sys2Proof.Machine.execMts x n g s
  | .sysNop x arg => Sys2Proof.Machine.execSysNop x arg s
  | .fence x arg => Sys2Proof.Machine.execFence x arg s
  | .sysTrap x arg => Sys2Proof.Machine.execSysTrap x arg s
  | .bkpt x arg => Sys2Proof.Machine.execBkpt x arg s
  | .rtt x arg => Sys2Proof.Machine.execRtt x arg s
  | .halt x => Sys2Proof.Machine.execHalt x s
  | .stop x => Sys2Proof.Machine.execStop x s
  | .labsync x arg => Sys2Proof.Machine.execLabsync x arg s
  | .ewait x arg => Sys2Proof.Machine.execEwait x arg s
  | .signal x arg => Sys2Proof.Machine.execSignal x arg s
  | .labw x a => Sys2Proof.Machine.execLabw x a s
  | .labi x form a => Sys2Proof.Machine.execLabi x form a s
  | .cmo x kind sw a coh unlock g => Sys2Proof.Machine.execCmo x kind sw a coh unlock g s
  | .zero x a => Sys2Proof.Machine.execZero x a s
  | .qpop x nb a g => Sys2Proof.Machine.execQpop x nb a g s
  | .qpush x a g => Sys2Proof.Machine.execQpush x a g s
  | .ifill x a g => Sys2Proof.Machine.execIfill x a g s
  | .storeBufferIssue e parityOk => Sys2Proof.Machine.execStoreBufferIssue e parityOk s
  | .engineStoreComplete e id => Sys2Proof.Machine.execEngineStoreComplete e id s
  | .storeTargetTimeout e id => Sys2Proof.Machine.execStoreTargetTimeout e id s
  | .engineLoadReturn e => Sys2Proof.Machine.execEngineLoadReturn e s
  | .engineLoadTimeout e => Sys2Proof.Machine.execEngineLoadTimeout e s
  | .ntCombineIdleDrain e line => Sys2Proof.Machine.execNtCombineIdleDrain e line s
  | .reservationExpiry e => Sys2Proof.Machine.execReservationExpiry e s
  | .ewaitLimit e => Sys2Proof.Machine.execEwaitLimit e s
  | .wakeRecordArrival e parityOk => Sys2Proof.Machine.execWakeRecordArrival e parityOk s
  | .budgetExhausted e => Sys2Proof.Machine.execBudgetExhausted e s
  | .engineStart e pc => Sys2Proof.Machine.execEngineStart e pc s
  | .queueOpen o n value => Sys2Proof.Machine.execQueueOpen o n value s
  | .queueOpenDone n => Sys2Proof.Machine.execQueueOpenDone n s
  | .queueClose o n value => Sys2Proof.Machine.execQueueClose o n value s
  | .commandSlotWrite o n cell slot value enables parityOk ptrErr => Sys2Proof.Machine.execCommandSlotWrite o n cell slot value enables parityOk ptrErr s
  | .queCplHeadWrite o n value ptrErr => Sys2Proof.Machine.execQueCplHeadWrite o n value ptrErr s
  | .evqHeadWrite o q value ptrErr => Sys2Proof.Machine.execEvqHeadWrite o q value ptrErr s
  | .moderationTimeout isEvq n => Sys2Proof.Machine.execModerationTimeout isEvq n s
  | .eventFabricTransfer parityOk ptrErr => Sys2Proof.Machine.execEventFabricTransfer parityOk ptrErr s
  | .invalAll k => Sys2Proof.Machine.execInvalAll k s
  | .cleanRange k => Sys2Proof.Machine.execCleanRange k s
  | .invalRange k => Sys2Proof.Machine.execInvalRange k s
  | .clinvRange k => Sys2Proof.Machine.execClinvRange k s
  | .maintSetway k => Sys2Proof.Machine.execMaintSetway k s
  | .lockPreload k => Sys2Proof.Machine.execLockPreload k s
  | .sweep k => Sys2Proof.Machine.execSweep k s
  | .viewCreate k => Sys2Proof.Machine.execViewCreate k s
  | .viewDelete k => Sys2Proof.Machine.execViewDelete k s
  | .viewBind k => Sys2Proof.Machine.execViewBind k s
  | .viewMap k => Sys2Proof.Machine.execViewMap k s
  | .viewUnmap k => Sys2Proof.Machine.execViewUnmap k s
  | .viewRemap k => Sys2Proof.Machine.execViewRemap k s
  | .resign k => Sys2Proof.Machine.execResign k s
  | .tileOffline k => Sys2Proof.Machine.execTileOffline k s
  | .tileOnline k => Sys2Proof.Machine.execTileOnline k s
  | .tileRetire k => Sys2Proof.Machine.execTileRetire k s
  | .bankRetire k => Sys2Proof.Machine.execBankRetire k s
  | .park k => Sys2Proof.Machine.execPark k s
  | .glbParkGo o value => Sys2Proof.Machine.execGlbParkGo o value s
  | .parkSetStep n => Sys2Proof.Machine.execParkSetStep n s
  | .progLoad k => Sys2Proof.Machine.execProgLoad k s
  | .progRun k => Sys2Proof.Machine.execProgRun k s
  | .progFree k => Sys2Proof.Machine.execProgFree k s
  | .dcAdd k => Sys2Proof.Machine.execDcAdd k s
  | .dcRelease k => Sys2Proof.Machine.execDcRelease k s
  | .routineUnknown k code => Sys2Proof.Machine.execRoutineUnknown k code s
  | .progSvcExit e => Sys2Proof.Machine.execProgSvcExit e s
  | .progSvcCmo e => Sys2Proof.Machine.execProgSvcCmo e s
  | .progSvcLabi e => Sys2Proof.Machine.execProgSvcLabi e s
  | .progSvcLabsync e => Sys2Proof.Machine.execProgSvcLabsync e s
  | .identifyMemoryDevice b => Sys2Proof.Machine.execIdentifyMemoryDevice b s
  | .getSupportedLogs b => Sys2Proof.Machine.execGetSupportedLogs b s
  | .getLog b vendor => Sys2Proof.Machine.execGetLog b vendor s
  | .getEventRecords b => Sys2Proof.Machine.execGetEventRecords b s
  | .clearEventRecords b count => Sys2Proof.Machine.execClearEventRecords b count s
  | .getEventInterruptPolicy b => Sys2Proof.Machine.execGetEventInterruptPolicy b s
  | .setEventInterruptPolicy b policy => Sys2Proof.Machine.execSetEventInterruptPolicy b policy s
  | .getHealthInfo b => Sys2Proof.Machine.execGetHealthInfo b s
  | .getPoisonList b start len => Sys2Proof.Machine.execGetPoisonList b start len s
  | .injectPoison b va => Sys2Proof.Machine.execInjectPoison b va s
  | .clearPoison b va data => Sys2Proof.Machine.execClearPoison b va data s
  | .getTimestamp b => Sys2Proof.Machine.execGetTimestamp b s
  | .setTimestamp b t => Sys2Proof.Machine.execSetTimestamp b t s
  | .getFwInfo b => Sys2Proof.Machine.execGetFwInfo b s
  | .transferFw b img => Sys2Proof.Machine.execTransferFw b img s
  | .activateFw b online => Sys2Proof.Machine.execActivateFw b online s
  | .fwCommitWriteDone => Sys2Proof.Machine.execFwCommitWriteDone s
  | .getDynamicCapacityConfiguration b => Sys2Proof.Machine.execGetDynamicCapacityConfiguration b s
  | .getDynamicCapacityExtentList b => Sys2Proof.Machine.execGetDynamicCapacityExtentList b s
  | .addDynamicCapacityResponse b accepted => Sys2Proof.Machine.execAddDynamicCapacityResponse b accepted s
  | .releaseDynamicCapacity b x => Sys2Proof.Machine.execReleaseDynamicCapacity b x s
  | .packageDeliver b eid lastPiece pkgSigOk => Sys2Proof.Machine.execPackageDeliver b eid lastPiece pkgSigOk s
  | .packageStatus b nonce => Sys2Proof.Machine.execPackageStatus b nonce s
  | .packageCommit ok => Sys2Proof.Machine.execPackageCommit ok s
  | .mailboxUnsupported b opcode => Sys2Proof.Machine.execMailboxUnsupported b opcode s
  | .getLdInfo p => Sys2Proof.Machine.execGetLdInfo p s
  | .getLdAllocations p => Sys2Proof.Machine.execGetLdAllocations p s
  | .setLdAllocations p shares => Sys2Proof.Machine.execSetLdAllocations p shares s
  | .doeDiscovery p index => Sys2Proof.Machine.execDoeDiscovery p index s
  | .cdatRead b => Sys2Proof.Machine.execCdatRead b s
  | .getVersion f => Sys2Proof.Machine.execGetVersion f s
  | .getCapabilities f => Sys2Proof.Machine.execGetCapabilities f s
  | .negotiateAlgorithms f => Sys2Proof.Machine.execNegotiateAlgorithms f s
  | .getDigests f => Sys2Proof.Machine.execGetDigests f s
  | .getCertificate f slot => Sys2Proof.Machine.execGetCertificate f slot s
  | .challenge f slot nonce => Sys2Proof.Machine.execChallenge f slot nonce s
  | .getMeasurements f index signed slot => Sys2Proof.Machine.execGetMeasurements f index signed slot s
  | .nonceRequest nonce => Sys2Proof.Machine.execNonceRequest nonce s
  | .nonceExpiry handle => Sys2Proof.Machine.execNonceExpiry handle s
  | .installerEnrol q key => Sys2Proof.Machine.execInstallerEnrol q key s
  | .testArm q => Sys2Proof.Machine.execTestArm q s
  | .fuseProgram q bank image => Sys2Proof.Machine.execFuseProgram q bank image s
  | .fuseRepair q t entries => Sys2Proof.Machine.execFuseRepair q t entries s
  | .floorRaise q floor => Sys2Proof.Machine.execFloorRaise q floor s
  | .fwauthSet q key => Sys2Proof.Machine.execFwauthSet q key s
  | .retireClear q t bank whole => Sys2Proof.Machine.execRetireClear q t bank whole s
  | .signatureVerifyDone => Sys2Proof.Machine.execSignatureVerifyDone s
  | .durableEntryWritten ok => Sys2Proof.Machine.execDurableEntryWritten ok s
  | .journalMirror count ok => Sys2Proof.Machine.execJournalMirror count ok s
  | .glbResyncGo o value => Sys2Proof.Machine.execGlbResyncGo o value s
  | .resyncSnapshotDone => Sys2Proof.Machine.execResyncSnapshotDone s
  | .tileTestRequest t => Sys2Proof.Machine.execTileTestRequest t s
  | .slcCtrlWrite o n value => Sys2Proof.Machine.execSlcCtrlWrite o n value s
  | .labHstatusWrite o p value => Sys2Proof.Machine.execLabHstatusWrite o p value s
  | .errLogFree o value => Sys2Proof.Machine.execErrLogFree o value s
  | .errRlogAck o value => Sys2Proof.Machine.execErrRlogAck o value s
  | .errFlipArm o value => Sys2Proof.Machine.execErrFlipArm o value s
  | .lockFieldWrite o err value => Sys2Proof.Machine.execLockFieldWrite o err value s
  | .powerOnRequest o domain => Sys2Proof.Machine.execPowerOnRequest o domain s
  | .powerOffRequest o domain => Sys2Proof.Machine.execPowerOffRequest o domain s
  | .powerRequestCheck => Sys2Proof.Machine.execPowerRequestCheck s
  | .powerOffDone => Sys2Proof.Machine.execPowerOffDone s
  | .powerOnDone => Sys2Proof.Machine.execPowerOnDone s
  | .pmcClear o b value => Sys2Proof.Machine.execPmcClear o b value s
  | .pmcGrunStart o value => Sys2Proof.Machine.execPmcGrunStart o value s
  | .pmcGrunStop o value => Sys2Proof.Machine.execPmcGrunStop o value s
  | .pmcOverflow b => Sys2Proof.Machine.execPmcOverflow b s
  | .thermalSample readings => Sys2Proof.Machine.execThermalSample readings s
  | .registerWrite o off value size8 enables => Sys2Proof.Machine.execRegisterWrite o off value size8 enables s
  | .registerAccessTimeout o off read => Sys2Proof.Machine.execRegisterAccessTimeout o off read s
  | .entdaa addr => Sys2Proof.Machine.execEntdaa addr s
  | .setdasa static addr => Sys2Proof.Machine.execSetdasa static addr s
  | .rstdaa => Sys2Proof.Machine.execRstdaa s
  | .getpid => Sys2Proof.Machine.execGetpid s
  | .getbcr => Sys2Proof.Machine.execGetbcr s
  | .getdcr => Sys2Proof.Machine.execGetdcr s
  | .getmwl => Sys2Proof.Machine.execGetmwl s
  | .getmrl => Sys2Proof.Machine.execGetmrl s
  | .getstatus => Sys2Proof.Machine.execGetstatus s
  | .bypass => Sys2Proof.Machine.execBypass s
  | .idcode => Sys2Proof.Machine.execIdcode s
  | .samplePreload cells => Sys2Proof.Machine.execSamplePreload cells s
  | .extest => Sys2Proof.Machine.execExtest s
  | .clamp => Sys2Proof.Machine.execClamp s
  | .highz => Sys2Proof.Machine.execHighz s
  | .hubBistRequest => Sys2Proof.Machine.execHubBistRequest s
  | .channelRetrainingRequest c kind => Sys2Proof.Machine.execChannelRetrainingRequest c kind s
  | .fwStageVerifyDone ok => Sys2Proof.Machine.execFwStageVerifyDone ok s
  | .spdmSignatureDone => Sys2Proof.Machine.execSpdmSignatureDone s

end Sys2Proof.Machine
end

