-- ==== Sys2Proof/Machine/Tick.lean ====
section
/-! DEFINITION. One tick of the clock: what passes while no command waits (log entry 1). -/

namespace Sys2Proof.Machine

/-- Cycles a counter block's island makes in tick `n` of 5 ns (R465): 1 GHz, 2 GHz, and a data rate over eight. -/
def Dev.blockCycles (d : Dev) (b n : Nat) : Nat :=
  if b < 8 then 5 else if b < 24 then 10
  else
    let r := rateOf (d.mc (b - 24)).rate.toNat
    (n + 1) * r / 1600 - n * r / 1600

/-- A cycle counter moves on (R466, R470, R471). -/
def cycleBump (p : Pmc) (t n : Nat) : Pmc :=
  let v := p.cycle.toNat + n
  let wraps := decide (2 ^ 48 ≤ v)
  let p := { p with cycle := BitVec.ofNat 48 v }
  if wraps then p.overflow t 0x100 p.cycInt else p

/-- Cycles of `n` in which a port withholds link credits (R468): all with every park slot in use or the queues of an LD full (R74,
R104); under throttling a
number the spec does not give (R461, log entry 51). -/
def Dev.stallCycles (d : Dev) (p n : Nat) : Nat :=
  if (List.range 16).any (d.withholds p ·) then n
  else if d.pwr.level ≠ 0 then d.freeUpTo n
  else 0

/-- The cycle events of a block over `n` cycles (R468): park slots in use and credits withheld in a port, all miss registers
bound in a slice. -/
def Dev.cycleEvents (d : Dev) (b n : Nat) : List (Nat × Nat) :=
  if b < 8 then [(0x05, if (d.port b).slots = [] then 0 else n), (0x07, d.stallCycles b n)]
  else if b < 24 then [(0x19, if 64 ≤ d.missRegs (b - 8) then n else 0)]
  else []

/-- The clock island a block's cycles are of (R465, R456). -/
def pmcIsland (b : Nat) : Nat := if b < 8 then 2 + b else if b < 24 then 10 else b + 1

/-- A block's counters over one tick, while its island's clock runs. -/
def tickBlock (d : Dev) (b : Nat) : Dev :=
  if (d.pmc b).run && d.islandRuns (pmcIsland b) then
    let n := d.blockCycles b d.glob.ticks
    let l := d.cycleEvents b n
    let d := if b < 8 ∧ d.pwr.level ≠ 0 then d.drawn else d
    (d.updPmc b (fun p => cycleBump p d.glob.time n)).each l (fun d c => count d b c.1 c.2 {})
  else d

/-- The device over one tick of 5 ns, two always-on cycles. -/
def tickDev (d : Dev) : Dev :=
  let d := d.each (List.range 28) tickBlock
  settle (d.setGlob (fun g => { g with time := g.time + 2, ticks := g.ticks + 1 }))

/-- One tick. -/
def tick (s : State) : State := { s with dev := tickDev s.dev }

end Sys2Proof.Machine
end

