-- ==== Sys2Proof/Safety.lean ====
section
/-! DEFINITION. What the claims call safe, and the terms they are stated in: a run that answers a next state at every step,
the state a command leaves, a device with nothing under way. -/

namespace Sys2Proof

/-- The outcome is a next state. -/
def isNext {σ φ ρ : Type} : Host.Outcome σ φ ρ → Bool
  | .next _ => true
  | _ => false

/-- `k` steps from `s` all answer a next state. -/
def safeFor (s : Machine.State) : Nat → Bool
  | 0 => true
  | k + 1 =>
    match Machine.step s with
    | .next t => safeFor t k
    | _ => false

namespace Machine

/-- The state a command leaves whose own effect makes the device `d`: the queue is as it was, and work under way (calls,
mover channels, host programs) goes on as far as it can. -/
def State.turned (s : State) (d : Dev) : State := { s with dev := settle d }

/-- Nothing is under way that could go on by itself: no mover channel, no work of Q0, no PARK, no recall that is over, no call and no
host program. -/
abbrev Dev.quiet (d : Dev) : Prop :=
  d.movers = [] ∧ d.q0work = [] ∧ d.park.st ≠ 1 ∧ (∀ x ∈ d.xacts, ∀ ev, x.2.phase ≠ .recall [] ev)
    ∧ ∀ e < 24, (d.engine e).call = none ∧ (d.engine e).running = none

/-- The port of a host request takes it in from an attached LD: link up, no full reset, an address the LD decodes, its credits not
withheld, the device not in RECOVERY, and no BISnp of the agent outstanding at the address. -/
abbrev Dev.takesRequest (d : Dev) (h : M2S) : Prop :=
  d.portUp h.port.val = true ∧ d.glob.resetPhase = .none ∧ (d.ld h.port.val h.ld.val).st = .attached
    ∧ (d.ld h.port.val h.ld.val).decodes h.hpa = true ∧ d.withholds h.port.val h.ld.val = false ∧ d.glob.dev ≠ .recovery
    ∧ (d.port h.port.val).snoopAt (d.ld h.port.val h.ld.val).agent (h.va (d.ld h.port.val h.ld.val)) = none

/-- The port's LAB holds entry `e`, good and valid, for the page of a request. -/
abbrev Dev.labHolds (d : Dev) (h : M2S) (e : LabEntry) : Prop :=
  let l := d.ld h.port.val h.ld.val
  ∃ k, labFind (d.lab h.port.val) h.port.val l.view l.gran (h.va l / 2 ^ granShift l.gran.toNat) = some (k, e)
    ∧ eccWith h.lab e.bad = .ok ∧ e.pte.v = true

/-- The port's LAB has no entry for the page of a request. -/
abbrev Dev.labMisses (d : Dev) (h : M2S) : Prop :=
  let l := d.ld h.port.val h.ld.val
  labFind (d.lab h.port.val) h.port.val l.view l.gran (h.va l / 2 ^ granShift l.gran.toNat) = none

/-- The park slot that holds the page of a request. -/
abbrev Dev.slotOf (d : Dev) (h : M2S) : Option Nat :=
  let l := d.ld h.port.val h.ld.val
  (d.port h.port.val).slotFor l.view l.gran (h.va l / 2 ^ granShift l.gran.toNat)

/-- Request `i` is parked in slot `k` of its port. -/
abbrev Dev.parkedRequest (d : Dev) (i : Nat) (op : Op) (k : Nat) : Prop :=
  ∃ x, d.xact? i = some x ∧ x.req.op = op ∧ x.phase = .parked k

/-- A miss has taken park slot `k`: its page and view, the handler of entry `i` of LAB_HANDLERS_n, and a LAB_MISS not yet sent, with
the port's next SEQ. -/
abbrev Dev.newSlot (d d' : Dev) (h : M2S) (k i : Nat) (write : Bool) : Prop :=
  let l := d.ld h.port.val h.ld.val
  ∃ q, Tab.find (d'.port h.port.val).slots k = some q ∧ q.view = l.view ∧ q.va = h.va l ∧ q.write = write ∧ q.sent = false
    ∧ q.entry = i ∧ q.engine = bits (d.port h.port.val).handlers.toNat (8 * i + 4) (8 * i)
    ∧ q.seq = (d.source (416 + h.port.val)).seq ∧ (d'.source (416 + h.port.val)).seq = (d.source (416 + h.port.val)).seq + 1

/-- A command starts one request, under the next number, on its way to the home slice of its line. -/
abbrev Dev.startedRequest (d d' : Dev) (op : Op) (dpa : Nat) (data : Line) (mask : Mask) (poison : Bool) : Prop :=
  d'.nextId = d.nextId + 1 ∧ d'.mem = d.mem ∧ ∃ x, d'.xact? d.nextId = some x ∧ x.req.op = op ∧ x.req.dpa = dpa ∧ x.req.data = data
    ∧ x.req.mask = mask ∧ x.req.poison = poison ∧ x.phase = .ingress ∧ x.slice = sliceOf dpa

/-- An engine runs its next instruction: RUNNING in a quad whose clock runs, nothing to wait for, no trap due, its words good, an
instruction's encoding and within its fetch bound. -/
abbrev Dev.ready (d : Dev) (x : Env) : Prop :=
  let y := d.engine x.e.val
  d.engSt x.e.val = .running ∧ y.wait = .none ∧ y.fault = none ∧ (y.budgetDue = true → y.sup = true)
    ∧ eccWith x.fetch (Tab.get 0 y.imemBad y.pc.toNat) = .ok ∧ (y.sup = true ∨ 16 * y.iubase.toNat ≤ y.pc.toNat)
    ∧ d.quadRuns x.e.val = true ∧ eccWith x.ext (Tab.get 0 y.imemBad (y.pc + 1).toNat) = .ok
    ∧ x.raw.any undefinedWord = false

/-- `n` words of data scratch from `addr` on that the engine may read, their codes good. -/
abbrev Dev.scratchGood (d : Dev) (x : Env) (addr : Info) (n : Nat) : Prop :=
  let y := d.engine x.e.val
  spaceOf addr = 2 ∧ waddr addr + n ≤ 0x8000 ∧ (y.sup = true ∨ y.subase.toNat ≤ waddr addr)
    ∧ ∀ j < n, eccWith (x.checks.getD j .ok) (Tab.get 0 y.scratchBad (waddr addr + j)) = .ok

/-- The words of scratch from `addr` on. -/
def Dev.scratchWords (d : Dev) (e : Nat) (addr : Info) (n : Nat) : List Word :=
  (List.range n).map (fun j => d.scratchWord e (waddr addr + j))

/-- An untranslated access of supervisor code to `n` words of device memory, all of one line. -/
abbrev Dev.plainAt (d : Dev) (e : Nat) (addr : Info) (n : Nat) : Prop :=
  (d.engine e).sup = true ∧ (d.engine e).trans = false ∧ spaceOf addr = 0 ∧ waddr addr < 2 ^ 39 ∧ waddr addr % 32 + n ≤ 32

/-- The engine's memory-view cache holds the line of an untranslated access, its code good, and the device is not in RECOVERY. -/
abbrev Dev.cachedAt (d : Dev) (x : Env) (addr : Info) (n : Nat) (m : MvLine) : Prop :=
  d.plainAt x.e.val addr n ∧ (d.engine x.e.val).cached (waddr addr / 32) = some m ∧ eccWith x.mview m.bad ≠ .ue
    ∧ d.recovering x.e.val = false

/-- A store of one or two words to one line as it enters the store buffer. -/
def plainStore (d : Dev) (addr : Info) (ws : List Word) : SbEntry :=
  entryOf .store addr {} (storeWrites ((List.range ws.length).map (fun j => ⟨2 * (waddr addr + j), {}⟩)) ws)
    ((List.range ws.length).any (fun j => decide (d.limit ≤ 2 * (waddr addr + j)))) true

/-- No access of the origin to the block of a register waits (R484). -/
abbrev Dev.noneAhead (d : Dev) (o : Origin) (off : Nat) : Prop := ∀ x ∈ d.waits, x.1 = o → x.2.block ≠ (off / 0x10000, blockDom off)

/-- The block of a register answers. -/
abbrev Dev.answersAt (d : Dev) (off : Nat) : Prop := perFunction off = true ∨ d.islandRuns (domIsland (blockDom off)) = true

/-- A whole-dword write of a register reaches its block and may change it: the device answers, the origin reaches it, the state lets
it through, the block answers and no access of the origin to it waits, and no lock holds the register. -/
abbrev Dev.takesWrite (d : Dev) (o : Origin) (off : Nat) : Prop :=
  d.glob.dev ≠ .off ∧ d.reaches o = true ∧ d.writeBar o off = none ∧ d.answersAt off ∧ d.noneAhead o off ∧ d.locked off = false

/-- A whole write of a slot of a command cell reaches the queue block: the host reaches it, its clock runs, and no slot write of the
host waits. -/
abbrev Dev.takesSlot (d : Dev) (o : Origin) : Prop :=
  d.reaches o = true ∧ d.islandRuns 10 = true ∧ ∀ x ∈ d.waits, x.1 = o → x.2.block ≠ (0x200, 10)

/-- An engine takes a call of a routine with `n` parameter words: a packet it has popped names it, or a management client asks an
engine of Q0 (`reply` none), the engine is free for it, and the words after the last parameter are zero. -/
abbrev Dev.takesCall (d : Dev) (k : CallCtx) (code n : Nat) (reply : Option (Nat × BitVec 10)) : Prop :=
  d.callFor k.e.val code = some reply ∧ restZero (d.bodyOf k) n = true

/-- An engine runs a call. -/
def Dev.withCall (d : Dev) (k : CallCtx) (c : Call) : Dev := d.updEngine k.e.val (fun y => { y with call := some c })

/-- Every command that waits is one an event can be. -/
abbrev State.sound (s : State) : Prop := ∀ c ∈ s.pending, c.wf = true

end Machine

end Sys2Proof
end

