-- ==== Sys2Proof/Certificates/Slice0/Obligations.lean ====
section
/-! DEFINITION. The statements about the model, for the provers. Each says in its docstring which rules of spec/ it
formalises, and where it rests on a choice of the model. `s.turned d` is the state a command leaves whose own effect makes the
device `d`: that effect is `d` compared with `s.dev`, so each equation also says what the command leaves alone. -/

open Sys2Proof Sys2Proof.Machine

-- the machine as a whole

/-- Model structure (a block with a queue of commands): a step takes the command at the front and runs it with the rest. The empty
queue: the step is one tick of the clock, 5 ns, two always-on cycles (the model's choice, log entry 1). Memory, the device state and
the power domains are as before, and nothing comes to wait. -/
def Obligations.StepRunsFrontCommandOrTicks : Prop :=
  (∀ (s : State) (c : Instr), step { s with pending := c :: s.pending } = exec c s)
  ∧ ∀ (s : State), s.pending = [] →
    ∃ t, step s = .next t ∧ t.pending = [] ∧ t.dev.glob.time = s.dev.glob.time + 2 ∧ t.dev.glob.ticks = s.dev.glob.ticks + 1
      ∧ t.dev.glob.dev = s.dev.glob.dev ∧ t.dev.mem = s.dev.mem ∧ t.dev.pwr.on = s.dev.pwr.on

/-- R26, R27: the device state over every command. RECOVERY is left only for OFF, by a loss of the supplies, and for START, by the end
of the drain of a full reset; TEST only in these two ways and for RECOVERY. SERVICE is entered only from START, by the final steps of
the start-up, and TEST only from START, by the hub self-test that an armed request awaits. -/
def Obligations.OnlyFullResetLeavesRecoveryAndTest : Prop :=
  ∀ (s t : State) (c : Instr), exec c s = .next t →
    ((s.dev.glob.dev = .recovery ∨ s.dev.glob.dev = .test) → t.dev.glob.dev = s.dev.glob.dev ∨ t.dev.glob.dev = .recovery
      ∨ (t.dev.glob.dev = .off ∧ c = .supplyLoss)
      ∨ (t.dev.glob.dev = .start ∧ s.dev.glob.resetPhase = .draining ∧ ∃ b, c = .fullResetDrainEnd b))
    ∧ (t.dev.glob.dev = .service → s.dev.glob.dev = .service ∨ (s.dev.glob.dev = .start ∧ c = .startFinalSteps))
    ∧ (t.dev.glob.dev = .test → s.dev.glob.dev = .test ∨ (s.dev.glob.dev = .start ∧ ∃ p q a b, c = .hubSelfTestDone p q a b))

/-- Every command an event can be answers a next state and leaves the queue's rest as it was, which stays sound: a block fed
sound commands never stops. The same over any number of steps. Which commands an event can be, and that an event that can have no
effect where the device stands changes nothing, are the model's choices (log entries 106 and 2). -/
def Obligations.SoundQueueNeverStops : Prop :=
  (∀ (s : State), s.sound → ∃ t, step s = .next t ∧ t.sound ∧ t.pending = s.pending.tail)
  ∧ (∀ (s : State) (k : Nat), s.sound → safeFor s k = true)

/-- Every command an event can be answers a next state, in every state; a command whose operands no event can have stops with the
one fault, and only such a command does (the model's choice, log entry 106: the rows' own limits). -/
def Obligations.OnlyIllFormedCommandsStop : Prop :=
  ∀ (s : State) (c : Instr), (c.wf = true → ∃ t, exec c s = .next t ∧ t.pending = s.pending) ∧ (exec c s = .fault .illFormed ↔ c.wf = false)

/-- Main memory keeps its canonical form (addresses and line numbers strictly rising) over every step, ticks included. -/
def Obligations.EveryStepKeepsMemoryForm : Prop :=
  ∀ (s t : State), s.dev.mem.wf = true → step s = .next t → t.dev.mem.wf = true

/-- The invariants above hold at reset. -/
def Obligations.ResetMeetsInvariants : Prop :=
  State.reset.dev.mem.wf = true ∧ State.reset.sound

/-- What goes on by itself after a command (calls, recalls that are over, mover channels, host programs) never changes memory, the
registers of the device state and start-up, the agents and their epochs, the controllers and channels, the event queues, the
Position record, the management ports, the domains that are on, or the firmware floor; the counts of lines lost alone, of the device
and of its agents, can move where a CMO that ends finds a line lost (R203). Of PARK it changes only the count of lines recalled and,
where PARK is under way (state 1), that it is over (state 2). A device with nothing under way is not changed by what goes on by itself. -/
def Obligations.WorkUnderWay : Prop :=
  (∀ (d : Dev), { (settle d).glob with linesLost := d.glob.linesLost } = d.glob ∧ (settle d).mem = d.mem
      ∧ (∀ a, ((settle d).agent? a).map (fun x => { x with lost := 0 }) = (d.agent? a).map (fun x => { x with lost := 0 }))
      ∧ (settle d).epochs = d.epochs ∧ (settle d).mcs = d.mcs ∧ (settle d).chans = d.chans ∧ (settle d).evqs = d.evqs
      ∧ (settle d).resync = d.resync ∧ (settle d).mgt = d.mgt ∧ (settle d).pwr.on = d.pwr.on ∧ (settle d).sec.floor = d.sec.floor
      ∧ (settle d).park.pace = d.park.pace ∧ (settle d).park.resigned = d.park.resigned
      ∧ (d.park.st ≠ 1 → (settle d).park.st = d.park.st) ∧ (d.park.st = 1 → (settle d).park.st = 1 ∨ (settle d).park.st = 2))
  ∧ (∀ (d : Dev), d.quiet → settle d = d)

/-- R346: a record raised where its source's two-record buffer has room waits there with the source's count as SEQ and the always-on
count as its time; where the buffer is full the record is lost and EVT_LOST counts it. The source's count advances in both cases; no
other source changes. LAB_MISS (sources 416 to 423) is not raised so: it waits in its park slot and is never lost, and no record
raised changes what is ready there. -/
def Obligations.RaisedRecords : Prop :=
  ∀ (d : Dev) (src cls sev : Nat) (i : Info),
    ((d.source src).buf.length < 2 → (raise d src cls sev i).source src = { d.source src with
        seq := (d.source src).seq + 1
        buf := (d.source src).buf ++ [⟨src, cls, sev, (d.source src).seq.toNat, i, d.glob.time, (d.source src).route⟩] }
      ∧ (raise d src cls sev i).evt = d.evt)
    ∧ (2 ≤ (d.source src).buf.length → (raise d src cls sev i).source src = { d.source src with seq := (d.source src).seq + 1 }
      ∧ (raise d src cls sev i).evt.lost = satInc 32 d.evt.lost)
    ∧ (∀ n, n ≠ src → (raise d src cls sev i).source n = d.source n)
    ∧ (∀ p, (raise d src cls sev i).missReady p = d.missReady p)

-- start-up (14_startup_bist_reset.md)

/-- R384, R385, R401, R420, R444, R445, R509: fuses, the boot ROM and the firmware it accepts. A fuse bank that fails its check is
fatal with cause 1. Otherwise the crypto unit takes its seed, PD1 comes on and the boot ROM runs in E0 from PC 0 at step 3, waiting
for an image at once with STRAP[3]; START begins again so 10 µs after a reset with DEV_RST_N high in a device that no heat holds or
that has cooled below the limit that held it. A slot the boot ROM accepts runs and is recorded valid; the first that fails is recorded invalid and left for the other,
and after the second the boot ROM waits for an image; an image that arrives over MCTP meanwhile, signed and not below the floor,
whose key is held and whose header is good, goes into the inactive slot, is journalled and announced, committed and runs. -/
def Obligations.StartUpFusesAndFirmware : Prop :=
  (∀ (s : State) (b : BitVec 4), s.dev.glob.dev = .start → s.dev.glob.step = 1 → s.dev.glob.resetPhase = .none →
      exec (.fuseLoadDone (some b)) s = .next (s.turned (enterRecovery s.dev 1 (info b.toNat))))
  ∧ (∀ (s : State) (d : Dev), s.dev.glob.dev = .start → s.dev.glob.step = 1 → s.dev.glob.resetPhase = .none → d = fuseLoaded s.dev none →
      exec (.fuseLoadDone none) s = .next (s.turned d) ∧ d.glob.step = 3 ∧ d.glob.fusesOk = true ∧ d.sec.seed.isSome = true ∧ d.domOn 1 = true
        ∧ d.glob.waitMctp = (s.dev.glob.waitMctp || s.dev.glob.straps.getLsbD 3)
        ∧ ((s.dev.engine 0).st = .stopped → (d.engine 0).st = .running ∧ (d.engine 0).pc = 0 ∧ (d.engine 0).sup = true))
  ∧ (∀ (s : State) (d : Dev), s.dev.glob.resetPhase = .held → s.dev.glob.rstHigh = true → s.dev.glob.resetT + 4000 ≤ s.dev.glob.time →
      s.dev.glob.dev = .start → (∀ n, s.dev.glob.thermHold = some n → s.dev.tooHot n = false) → d = bootRom (startBegin s.dev) →
      exec .startBegin s = .next (s.turned d) ∧ d.glob.step = 3 ∧ d.glob.resetPhase = .none ∧ d.glob.thermHold = none ∧ d.domOn 1 = true)
  ∧ (∀ (s : State) (ok : Bool), s.dev.glob.dev = .start → s.dev.glob.step = 3 → s.dev.glob.waitMctp = false →
      s.dev.glob.resetPhase = .none → s.dev.accepts s.dev.bootSlot ok = true →
      exec (.fwVerifyDone s.dev.bootSlot ok) s = .next (s.turned (runFirmware s.dev s.dev.bootSlot)))
  ∧ (∀ (s : State) (ok : Bool) (d : Dev), s.dev.glob.dev = .start → s.dev.glob.step = 3 → s.dev.glob.waitMctp = false →
      s.dev.glob.resetPhase = .none → s.dev.accepts s.dev.bootSlot ok = false → d = fwVerified s.dev s.dev.bootSlot ok →
      exec (.fwVerifyDone s.dev.bootSlot ok) s = .next (s.turned d) ∧ (d.sec.slot s.dev.bootSlot).valid = false
        ∧ (s.dev.glob.fwFailed = none → d.glob.fwFailed = some s.dev.bootSlot) ∧ (s.dev.glob.fwFailed ≠ none → d.glob.waitMctp = true))
  ∧ (∀ (s : State) (img : FwImage) (b : Bool), s.dev.glob.dev = .start → s.dev.glob.waitMctp = true → s.dev.glob.resetPhase = .none →
      s.dev.q0Runs = true → s.dev.sec.floor ≤ img.svn → headerOk img = true → s.dev.sec.signerHeld img = true → b = !s.dev.sec.namedSlot →
      exec (.mctpFwImageDeliver img true) s = .next (s.turned (runFirmware ((fwStaged (s.dev.setSec (fun x =>
        x.setSlot b { img := some img, valid := true })) (originField .mgmt) b (s.dev.sec.slot b).digest img).setSec (fun x =>
          x.eraseSpare.writeCommit b)) b)))
  ∧ (∀ (d : Dev) (b : Bool), (runFirmware d b).glob.fwRunning = true ∧ (runFirmware d b).glob.fwSlot = b
      ∧ ((runFirmware d b).sec.slot b).valid = true ∧ ((runFirmware d b).sec.slot b).img = (d.sec.slot b).img
      ∧ (runFirmware d b).glob.fwImg = (d.sec.slot b).img ∧ (runFirmware d b).sec.kFwDigest = (d.sec.slot b).img.map (·.digest)
      ∧ (runFirmware d b).glob.waitMctp = false ∧ (runFirmware d b).mem = d.mem)

/-- R386, R387, R389, R399, R431: the package checks record the lowest cause that fails, zero when all pass, the package is usable
only then, and the device goes on to the hub self-test at step 7; a hub self-test that fails in the core or in a memory controller
is fatal with cause 2, and one that fails in a port or a quad is reported with those blocks' results in GLB_LBIST_RESULT and
leaves them off, whatever else failed. The final steps: with the package consistent the device enters SERVICE with the package's generation and table
registers in force and locked; a package that fails check 4 leaves it in HELD with cause 4. -/
def Obligations.PackageHubAndFinalSteps : Prop :=
  ((∀ (s : State) (ok : Bool) (d : Dev), s.dev.glob.dev = .start → s.dev.glob.fwRunning = true → s.dev.glob.pkgChecked = false →
        s.dev.glob.resetPhase = .none → s.dev.glob.quick = false → d = pkgCheck s.dev ok →
        exec (.packageCheckDone ok) s = .next (s.turned d) ∧ d.glob.pkgChecked = true ∧ (d.glob.pkgUsable = true ↔ s.dev.pkgCause ok = 0)
          ∧ d.glob.heldCause = BitVec.ofNat 3 (s.dev.pkgCause ok) ∧ d.glob.step = 7)
    ∧ (∀ (s : State) (ports : BitVec 8) (quads : BitVec 5) (core mc : Bool), s.dev.glob.dev = .start → s.dev.glob.pkgChecked = true →
        s.dev.glob.hubTested = false → s.dev.glob.resetPhase = .none → (core || mc) = true →
        ∀ d, d = leaveOff (s.dev.setGlob (fun g => { g with
          hubTested := true, lbist := BitVec.ofNat 15 (lbistBits ports quads core mc)
          hubMapValid := lbistBits ports quads core mc == 0 })) ports quads →
        exec (.hubSelfTestDone ports quads core mc) s = .next (s.turned (enterRecovery (if ports = 0 ∧ quads = 0 then d
          else raise d 462 2 2 (info (lbistBits ports quads core mc))) 2 (info (lbistBits ports quads core mc)))))
    ∧ (∀ (s : State) (ports : BitVec 8) (quads : BitVec 5), s.dev.glob.dev = .test → s.dev.glob.hubTested = false →
        s.dev.glob.resetPhase = .none → ¬ (ports = 0 ∧ quads = 0) →
        exec (.hubSelfTestDone ports quads false false) s = .next (s.turned (raise (leaveOff (s.dev.setGlob (fun g => { g with
          hubTested := true, lbist := BitVec.ofNat 15 (lbistBits ports quads false false)
          hubMapValid := lbistBits ports quads false false == 0 })) ports quads) 462 2 2 (info (lbistBits ports quads false false)))))
    ∧ (∀ (d : Dev) (ports : BitVec 8) (quads : BitVec 5) (p : Nat), p < 8 → ports.getLsbD p = true →
        (leaveOff d ports quads).domOn (portDom p) = false ∧ ((leaveOff d ports quads).port p).failed = true))
  ∧ (∀ (s : State) (p : Package) (d : Dev), s.dev.sec.pkg = some p → s.dev.glob.dev = .start → s.dev.glob.pkgUsable = true →
      s.dev.glob.resetPhase = .none → s.dev.memReady = true → s.dev.glob.step = (if s.dev.glob.quick then 7 else 12) → d = finalSteps s.dev →
      exec .startFinalSteps s = .next (s.turned d)
        ∧ (s.dev.consistent p = true → d.glob.dev = .service ∧ d.glob.gen = p.generation ∧ d.glob.heldCause = 0
            ∧ d.glob.tableBase = p.tableBase ∧ d.glob.tableSize = p.tableSize ∧ d.glob.rmapBase = p.rmapBase
            ∧ d.glob.lockTables = true ∧ d.glob.lockRmap = true ∧ d.sec.inForce = some p)
        ∧ (s.dev.consistent p = false → d.glob.dev = .held ∧ d.glob.heldCause = 4))

/-- R213, R390, R392, R394, R397, R398, R400, R406: a channel that trains at no rate has failed and is fatal with cause 3, and one that trains at the
package's rate is ready; a march test that finds nothing leaves the tile's map valid and no soft repair, and reports BIST_DONE with
result 1, and the words stored in its cells are gone (R390); one that was cut short is recorded incomplete and changes no repair. Requests: in SERVICE
an OFFLINE tile is tested at quarter rate while no other is, and any other test there is BUSY_ONLINE (5); in TEST two at full rate; the
hub only in TEST; a retraining or a ZQ calibration is noted for its channel, and full channel training is refused in SERVICE, HELD
and RECOVERY (the codes of the answers and what is not answered are the model's, log entries 101 and 134). -/
def Obligations.TrainingAndTileTests : Prop :=
  (∀ (s : State) (c : Fin 32) (full : Bool) (pop : Population) (p : Package), s.dev.sec.pkg = some p → s.dev.glob.dev = .start →
      (s.dev.chan c.val).st = 1 → full ≠ s.dev.glob.trainSaved →
      exec (.memoryTrainingDone c full none pop) s = .next (s.turned (enterRecovery (chanEvent (s.dev.updChan c.val (fun x => { x with st := 5 }))
        c.val 7 3 3 0 0) 3 (info c.val))))
  ∧ (∀ (s : State) (c : Fin 32) (full : Bool) (pop : Population) (p : Package) (d : Dev), s.dev.sec.pkg = some p → p.rate.toNat ≤ 4 →
      s.dev.glob.dev = .start → (s.dev.chan c.val).st = 1 → full ≠ s.dev.glob.trainSaved → d = trained s.dev c.val full (some p.rate) pop →
      exec (.memoryTrainingDone c full (some p.rate) pop) s = .next (s.turned d) ∧ (d.chan c.val).st = 2 ∧ (d.chan c.val).trained = true
        ∧ d.mem = s.dev.mem)
  ∧ (∀ (s : State) (t : Fin 8) (sig : BitVec 64), s.dev.glob.dev = .test → (s.dev.tile t.val).bist = 1 →
      ∀ d, d = (loseCells s.dev t.val).updTile t.val (fun x => { x with
        bist := 2, sigMatch := true, overflow := false, signature := sig, tested := true, failedOutright := false, mapValid := true, unrepaired := 0, fails := [], softRows := [], softGroups := [] }) →
      exec (.tileSelfTestDone t ⟨true, false, true, sig, []⟩) s = .next (s.turned (bistDone d t.val 1))
        ∧ (d.tile t.val).mapValid = true ∧ (d.tile t.val).softRows = [] ∧ (d.tile t.val).softGroups = []
        ∧ (d.tile t.val).unrepaired = 0 ∧ (d.tile t.val).signature = sig ∧ (d.tile t.val).bist = 2
        ∧ ∀ c ∈ d.rawCells, c.1 / 2 ^ 28 ≠ t.val)
  ∧ (∀ (s : State) (t : Fin 8) (sig : BitVec 64), s.dev.glob.dev = .test → (s.dev.tile t.val).bist = 1 →
      ∀ d, d = tileTested s.dev t.val ⟨false, false, false, sig, []⟩ → exec (.tileSelfTestDone t ⟨false, false, false, sig, []⟩) s = .next (s.turned d)
        ∧ (d.tile t.val).bist = 3 ∧ (d.tile t.val).incomplete = true
        ∧ (d.tile t.val).softRows = (s.dev.tile t.val).softRows ∧ (d.tile t.val).softGroups = (s.dev.tile t.val).softGroups)
  ∧ ((∀ (s : State) (t : Fin 8), s.dev.glob.resetPhase = .none → s.dev.tileSt t.val = .offline → (s.dev.tile t.val).bist ≠ 1 →
        s.dev.domOn (tileDom t.val) = true → s.dev.leaving (tileDom t.val) = false → s.dev.glob.dev = .service → s.dev.testsRunning = 0 →
        ∀ d, d = startTest s.dev true t.val → exec (.tileTestRequest t) s = .next (s.turned (emit d (.mgmt mgmtRefused [0]))) ∧ (d.tile t.val).bist = 1 ∧ (d.tile t.val).quarter = true
          ∧ (d.tile t.val).mapValid = false ∧ d.mem = s.dev.mem ∧ ∀ k, k ≠ t.val → d.tile k = s.dev.tile k)
    ∧ (∀ (s : State) (t : Fin 8), s.dev.glob.resetPhase = .none → s.dev.tileSt t.val = .offline → (s.dev.tile t.val).bist ≠ 1 →
        s.dev.domOn (tileDom t.val) = true → s.dev.leaving (tileDom t.val) = false → s.dev.glob.dev = .test → s.dev.testsRunning < 2 →
        exec (.tileTestRequest t) s = .next (s.turned (emit (startTest s.dev false t.val) (.mgmt mgmtRefused [0]))))
    ∧ (∀ (s : State) (t : Fin 8), s.dev.glob.resetPhase = .none → s.dev.glob.dev = .service →
        (s.dev.tileSt t.val ≠ .offline ∨ s.dev.testsRunning ≠ 0) →
        exec (.tileTestRequest t) s = .next (s.turned (emit s.dev (.mgmt mgmtRefused [5]))))
    ∧ (∀ (s : State), s.dev.glob.dev = .test → s.dev.glob.resetPhase = .none →
        exec .hubBistRequest s = .next (s.turned (emit (s.dev.setGlob (fun g => { g with hubTested := false })) (.mgmt mgmtRefused [0]))))
    ∧ (∀ (s : State), s.dev.glob.dev = .service ∨ s.dev.glob.dev = .held ∨ s.dev.glob.dev = .recovery → s.dev.glob.resetPhase = .none →
        exec .hubBistRequest s = .next (s.turned (emit s.dev (.mgmt mgmtRefused [10]))))
    ∧ (∀ (s : State) (c : Fin 32), s.dev.glob.dev ≠ .off →
        exec (.channelRetrainingRequest c .dq) s = .next (s.turned (emit (s.dev.updChan c.val (fun x => { x with retrainDue := true })) (.mgmt mgmtRefused [0])))
        ∧ exec (.channelRetrainingRequest c .zq) s = .next (s.turned (emit (s.dev.updChan c.val (fun x => { x with zqDue := true })) (.mgmt mgmtRefused [0]))))
    ∧ (∀ (s : State) (c : Fin 32), s.dev.glob.dev = .service ∨ s.dev.glob.dev = .held ∨ s.dev.glob.dev = .recovery →
        s.dev.glob.resetPhase = .none →
        exec (.channelRetrainingRequest c .full) s = .next (s.turned (emit s.dev (.mgmt mgmtRefused [10])))))

-- ports and links (02_agent_ports.md), clocks (17_power_and_clocks.md)

/-- R31, R33, R34, R54, R55, R56: PERST_N, training and link drops. A disabled port ignores its PERST_N but for the pin's level;
any other port's link goes down with cause 4. On release a port that can train trains, and one that cannot stays as it is. A link
that reaches L0 within the port's limits opens at the width, rate and flit mode it trained to, degraded when below a limit; what
the limits do not allow changes nothing. A drop of a link that is up takes the port down with the drop's cause, and of one that is
not up does nothing; replay changes nothing unless the error that made it is a CXL protocol error, which is raised; the replay
counter above its threshold is reported. -/
def Obligations.LinkCommands : Prop :=
  (∀ (s : State) (p : Fin 8), (s.dev.port p.val).cfg.disabled = true →
      exec (.perstNAssert p) s = .next (s.turned (s.dev.updPort p.val (fun x => { x with perst := true }))))
  ∧ (∀ (s : State) (p : Fin 8) (d : Dev), (s.dev.port p.val).cfg.disabled = false →
      d = linkDown (s.dev.updPort p.val (fun x => { x with perst := true })) p.val 4 →
      exec (.perstNAssert p) s = .next (s.turned d) ∧ (d.port p.val).perst = true ∧ (d.port p.val).link = .down)
  ∧ (∀ (s : State) (p : Fin 8) (d : Dev), d = startTrain (s.dev.updPort p.val (fun x => { x with
        perst := false, perstT := s.dev.glob.time })) p.val →
      exec (.perstNRelease p) s = .next (s.turned d) ∧ (d.port p.val).perst = false ∧ d.mem = s.dev.mem ∧ d.agents = s.dev.agents
        ∧ ((s.dev.port p.val).link = .down → s.dev.domOn (portDom p.val) = true → s.dev.leaving (portDom p.val) = false →
            (s.dev.port p.val).refclkLost = false → s.dev.pwr.unlocked.getLsbD (p.val + 2) = false →
            (s.dev.port p.val).cfg.disabled = false → (s.dev.port p.val).failed = false → (s.dev.port p.val).released = true →
            (d.port p.val).link = .training)
        ∧ (((s.dev.port p.val).link ≠ .down ∨ s.dev.domOn (portDom p.val) = false ∨ s.dev.leaving (portDom p.val) = true
            ∨ (s.dev.port p.val).refclkLost = true ∨ s.dev.pwr.unlocked.getLsbD (p.val + 2) = true ∨ (s.dev.port p.val).cfg.disabled = true ∨ (s.dev.port p.val).failed = true ∨ (s.dev.port p.val).released = false) →
            (d.port p.val).link = (s.dev.port p.val).link))
  ∧ (∀ (s : State) (p : Fin 8) (width rate : BitVec 2) (flit256 lopt : Bool) (d : Dev), width ≠ 0 → rate ≠ 0 →
      d = reachL0 s.dev p.val width rate flit256 lopt →
      exec (.linkUp p width rate flit256 lopt) s = .next (s.turned d)
        ∧ (s.dev.canTrain p.val = true → (s.dev.port p.val).link ≠ .up → width ≤ (s.dev.port p.val).cfg.maxWidth →
            rate ≤ (s.dev.port p.val).cfg.maxRate → (flit256 = true ∨ (rate ≠ 3 ∧ lopt = false)) →
            (d.port p.val).link = .up ∧ (d.port p.val).width = width ∧ (d.port p.val).rate = rate
            ∧ (d.port p.val).flit256 = flit256 ∧ (d.port p.val).lopt = lopt
            ∧ (d.port p.val).degraded = (decide (width < (s.dev.port p.val).cfg.maxWidth) || decide (rate < (s.dev.port p.val).cfg.maxRate)))
        ∧ (((s.dev.port p.val).link = .up ∨ s.dev.canTrain p.val = false ∨ (s.dev.port p.val).cfg.maxWidth < width
            ∨ (s.dev.port p.val).cfg.maxRate < rate ∨ (flit256 = false ∧ (rate = 3 ∨ lopt = true))) → d = s.dev))
  ∧ (∀ (s : State) (p : Fin 8) (cause : DropCause) (d : Dev), (s.dev.port p.val).link = .up → d = linkDown s.dev p.val (dropCode cause) →
      exec (.linkDrop p cause) s = .next (s.turned d) ∧ (d.port p.val).link = .down
        ∧ (s.dev.glob.resetPhase = .none → (d.port p.val).drops = satInc 32 (s.dev.port p.val).drops ∧ (d.port p.val).width = 0))
  ∧ (∀ (s : State) (p : Fin 8) (cause : DropCause), (s.dev.port p.val).link ≠ .up → exec (.linkDrop p cause) s = .next (s.turned s.dev))
  ∧ (∀ (s : State) (p : Fin 8), exec (.linkReplay p none) s = .next (s.turned s.dev))
  ∧ (∀ (s : State) (p : Fin 8) (e : ProtoErr), (s.dev.port p.val).link = .up →
      exec (.linkReplay p (some e)) s = .next (s.turned (protocol s.dev p.val (e.ld.map (·.val)) e.bit.toNat e.correctable none)))
  ∧ (∀ (s : State) (p : Fin 8) (e : ProtoErr), (s.dev.port p.val).link ≠ .up → exec (.linkReplay p (some e)) s = .next (s.turned s.dev))
  ∧ (∀ (s : State) (p : Fin 8) (count : BitVec 16), (s.dev.port p.val).link = .up → (s.dev.port p.val).replayThresh < count →
      exec (.replayThreshold p count) s = .next (s.turned (raise s.dev (8 * p.val + 3) 0 1 (info count.toNat))))

/-- R458, R459: lost and restored clocks. A port that loses its REFCLK is marked, reported with state 1, and dropped with cause
6; when the clock returns that is reported and the port may train. Losing XIN marks the loss and raises one event. A PLL that loses
lock is reported, and a port's takes its link down with cause 6; a PLL that locks again is reported, a port may train then, and the
answers and writes that waited for its island go on. That a port's PLL loses its lock with its REFCLK and has it again with the
clock, and cannot lock without it, is the model's reading (log entry 30). R460, R461, R462: a sample takes the 24 readings; with no valid sensor nothing moves; the throttle
level and THERM_N follow their thresholds. -/
def Obligations.ClocksAndTemperature : Prop :=
  ((∀ (s : State) (p : Fin 8), (s.dev.port p.val).refclkLost = false →
        exec (.refclkLoss p) s = .next (s.turned (linkDown (pllOut (raise (s.dev.updPort p.val (fun x => { x with refclkLost := true })) 488 0 1
          (info (p.val + fld 3 1))) (p.val + 2)) p.val 6)))
    ∧ (∀ (s : State) (p : Fin 8), (s.dev.port p.val).refclkLost = true →
        exec (.refclkRestore p) s = .next (s.turned (startTrain (pllIn (raise (s.dev.updPort p.val (fun x => { x with refclkLost := false }))
          488 0 1 (info p.val)) (p.val + 2)) p.val)))
    ∧ (∀ (d : Dev) (i : Nat), d.domOn (islandDom i) = true → d.pwr.unlocked.getLsbD i = false →
        pllOut d i = raise (d.setPwr (fun q => { q with unlocked := q.unlocked ||| BitVec.ofNat 29 (2 ^ i) })) 486 2 2 (info i))
    ∧ (∀ (d : Dev) (i : Nat), d.pwr.unlocked.getLsbD i = true →
        pllIn d i = raise (d.setPwr (fun q => { q with unlocked := q.unlocked &&& ~~~(BitVec.ofNat 29 (2 ^ i)) })) 486 2 2 (info (i + fld 5 1)))
    ∧ (∀ (s : State), s.dev.pwr.xinLost = false →
        exec .xinLoss s = .next (s.turned (raise (s.dev.setPwr (fun q => { q with xinLost := true })) 485 2 2 0)))
    ∧ (∀ (s : State) (i : Fin 29) (d : Dev), s.dev.domOn (islandDom i.val) = true → s.dev.pwr.unlocked.getLsbD i.val = false →
        d = raise (s.dev.setPwr (fun q => { q with unlocked := q.unlocked ||| BitVec.ofNat 29 (2 ^ i.val) })) 486 2 2 (info i.val) →
        exec (.pllUnlock i) s = .next (s.turned (if 2 ≤ i.val ∧ i.val ≤ 9 then linkDown d (i.val - 2) 6 else d)))
    ∧ (∀ (s : State) (i : Fin 29), s.dev.pwr.unlocked.getLsbD i.val = true → (i.val < 2 ∨ 10 < i.val) →
        exec (.pllRelock i) s = .next (s.turned (takeWaits (pllIn s.dev i.val))))
    ∧ (∀ (s : State), s.dev.pwr.unlocked.getLsbD 10 = true →
        exec (.pllRelock 10) s = .next (s.turned (takeWaits (takeAnswers (pllIn s.dev 10)))))
    ∧ (∀ (s : State) (i : Fin 29), s.dev.pwr.unlocked.getLsbD i.val = true → 2 ≤ i.val → i.val ≤ 9 →
        ((s.dev.port (i.val - 2)).refclkLost = false →
          exec (.pllRelock i) s = .next (s.turned (takeWaits (startTrain (pllIn s.dev i.val) (i.val - 2)))))
        ∧ ((s.dev.port (i.val - 2)).refclkLost = true → exec (.pllRelock i) s = .next (s.turned s.dev)))
    ∧ (∀ (s : State) (i : Fin 29), s.dev.pwr.unlocked.getLsbD i.val = false → exec (.pllRelock i) s = .next (s.turned s.dev))
    ∧ (∀ (d : Dev), (d.waits = [] → takeWaits d = d) ∧ (d.answers = [] → takeAnswers d = d)))
  ∧ ((∀ (s : State) (r : List (Option Int)), r.length = 24 → s.dev.glob.dev ≠ .off →
        exec (.thermalSample r) s = .next (s.turned (sample s.dev r)))
    ∧ (∀ (d : Dev) (r : List (Option Int)),
        (d.each (List.range 24) (fun d i => takeReading d i (r.getD i none))).hottest = none →
        (sample d r).glob = d.glob ∧ (sample d r).pwr.level = d.pwr.level)
    ∧ (∀ (p : Pwr) (tj : Nat), p.thmCtrl.getLsbD 14 = true → p.throttleAt + 3 ≤ tj → p.nextLevel tj = 2)
    ∧ (∀ (p : Pwr) (tj : Nat), p.thmCtrl.getLsbD 14 = true → p.throttleAt ≤ tj → tj < p.throttleAt + 3 → p.level = 0 → p.nextLevel tj = 1)
    ∧ (∀ (p : Pwr) (tj : Nat), p.thmCtrl.getLsbD 14 = true → tj + 5 ≤ p.throttleAt → p.nextLevel tj = 0)
    ∧ (∀ (p : Pwr) (tj : Nat), p.thmCtrl.getLsbD 14 = false → p.nextLevel tj = 0)
    ∧ (∀ (d : Dev) (i tj : Nat), (throttle d i tj).pwr.level = BitVec.ofNat 2 (d.pwr.nextLevel tj))
    ∧ (∀ (d : Dev) (i tj : Nat), (thermPin d i tj).glob.thermN
        = (d.pwr.shut || decide (d.pwr.thermAt ≤ tj) || (d.glob.thermN && decide (d.pwr.thermAt < tj + 3)))))

-- agents (07_agent_lifecycle.md)

/-- R36, R187, R192: the HDM decoder and Mem_Enable of an LD function present on its port. A commit the checks of R187 refuse
sets Error Not Committed and raises the reason of the lowest check that fails (the lowest of several is the model's choice, log
entry 60); a commit that passes them all takes the base and
size, and its agent attaches where Mem_Enable is set. Mem_Enable set on a committed decoder without an agent attaches in SERVICE,
and sets the bit alone otherwise; before the function is ready (R382) its configuration space takes neither write. Clearing Commit or Mem_Enable resigns the attached agent with cause 3; with no agent bound it
ends at the bit. R187, R189: an agent that attaches takes the next free agent ID above the one allocated last and the ID's next
epoch; its record says its port, LD, view and HDM-H or HDM-DB, and the LD's registers name it. -/
def Obligations.DecodersAndAgents : Prop :=
  ((∀ (s : State) (p : Fin 8) (ld : Fin 16) (base size r : Nat), base < 2 ^ 52 → s.dev.ldPresent p.val ld.val = true →
        (s.dev.ld p.val ld.val).committed = false → s.dev.attachCheck p.val ld.val size = some r →
        exec (.hdmDecoderCommit p ld base size) s = .next (s.turned (raise (s.dev.updLd p.val ld.val
          (fun l => { l with errNotCommitted := true })) 451 0 1 (info (ld.val + fld 4 p.val + fld 7 r)))))
    ∧ (∀ (s : State) (p : Fin 8) (ld : Fin 16) (base size : Nat) (d : Dev), base < 2 ^ 52 → s.dev.ldPresent p.val ld.val = true →
        (s.dev.ld p.val ld.val).committed = false → s.dev.attachCheck p.val ld.val size = none →
        d = commit s.dev p.val ld.val base size →
        exec (.hdmDecoderCommit p ld base size) s = .next (s.turned d) ∧ (d.ld p.val ld.val).committed = true
          ∧ (d.ld p.val ld.val).base = base ∧ (d.ld p.val ld.val).size = size ∧ (d.ld p.val ld.val).errNotCommitted = false
          ∧ ((s.dev.ld p.val ld.val).memEnable = false → d.agents = s.dev.agents)
          ∧ ((s.dev.ld p.val ld.val).memEnable = true →
              (d.ld p.val ld.val).st = .attached ∧ (d.ld p.val ld.val).agent = BitVec.ofNat 12 s.dev.nextAgent))
    ∧ (∀ (s : State) (p : Fin 8) (ld : Fin 16) (d : Dev), s.dev.configTakes p.val ld.val = true → d = memOn s.dev p.val ld.val →
        exec (.memEnableSet p ld) s = .next (s.turned d) ∧ (d.ld p.val ld.val).memEnable = true
          ∧ ((s.dev.ld p.val ld.val).place = true → s.dev.inService = true →
              (d.ld p.val ld.val).st = .attached ∧ (d.ld p.val ld.val).agent = BitVec.ofNat 12 s.dev.nextAgent)
          ∧ ((s.dev.ld p.val ld.val).place = false ∨ s.dev.inService = false →
              d.agents = s.dev.agents ∧ (d.ld p.val ld.val).st = (s.dev.ld p.val ld.val).st))
    ∧ (∀ (s : State) (p : Fin 8) (ld : Fin 16) (d : Dev), s.dev.ldPresent p.val ld.val = true → d = uncommit s.dev p.val ld.val →
        exec (.hdmDecoderUncommit p ld) s = .next (s.turned d) ∧ (d.ld p.val ld.val).committed = false
          ∧ (d.ld p.val ld.val).errNotCommitted = false
          ∧ ((s.dev.ld p.val ld.val).st = .unbound → d.agents = s.dev.agents)
          ∧ ((s.dev.ld p.val ld.val).st = .attached → ∀ x, s.dev.agent? (s.dev.ld p.val ld.val).agent = some x → x.attached = true →
              x.hdmDb = false →
              d.agent? (s.dev.ld p.val ld.val).agent = some { x with attached := false, cause := 3 }))
    ∧ (∀ (s : State) (p : Fin 8) (ld : Fin 16), s.dev.configTakes p.val ld.val = true → (s.dev.ld p.val ld.val).st = .unbound →
        exec (.memEnableClear p ld) s = .next (s.turned (s.dev.updLd p.val ld.val (fun l => { l with memEnable := false }))))
    ∧ (∀ (s : State) (p : Fin 8) (ld : Fin 16), s.dev.configTakes p.val ld.val = true → (s.dev.ld p.val ld.val).st = .attached →
        exec (.memEnableClear p ld) s = .next (s.turned (resign (s.dev.updLd p.val ld.val (fun l => { l with memEnable := false }))
          (s.dev.ld p.val ld.val).agent 3)))
    ∧ (∀ (s : State) (p : Fin 8) (ld : Fin 16), s.dev.fnReady p.val = false →
        exec (.memEnableSet p ld) s = .next (s.turned s.dev) ∧ exec (.memEnableClear p ld) s = .next (s.turned s.dev)))
  ∧ (∀ (d : Dev) (p m : Nat), p < 8 → m < 16 →
      (attach d p m).agents = Tab.put d.agents d.nextAgent { port := p, ld := m, epoch := Tab.get 0 d.epochs d.nextAgent + 1
                                                             hdmDb := (d.port p).flit256 && (d.ld p m).biEnable
                                                             view := Tab.get 0 d.binds (16 * p + m) }
      ∧ Tab.get 0 (attach d p m).epochs d.nextAgent = Tab.get 0 d.epochs d.nextAgent + 1
      ∧ (attach d p m).glob.lastId = d.nextAgent
      ∧ ((attach d p m).ld p m).st = .attached ∧ ((attach d p m).ld p m).agent = BitVec.ofNat 12 d.nextAgent)

-- full reset (14_startup_bist_reset.md)

/-- R20, R27, R231, R366, R401, R402: full reset. DEV_RST_N going low, and a management client's request, begin a reset in a
device that has supplies and no drain of a reset under way: requests no controller has accepted, calls, movers, LABI in flight and power
requests are gone, the source is named in the retained log, FAULT_N is released, and the drain is on; a low pin that was low
already does nothing. At the end of the drain the device is in START, held in reset, with the power of the always-on domain alone,
no agents and no engine state, memory, with the repairs still waiting written (R218), kept only after a clean drain. Loss of the supplies leaves OFF with memory undefined and no
domain on, the fuses as they were burned; DEV_RST_N rising out of OFF samples the straps and gives START at step 1 with PD0 alone on and a
power-on in the retained log, and any other rising edge samples the straps and changes neither the device state nor memory; where the pin is high already there is no
edge and nothing changes. -/
def Obligations.FullReset : Prop :=
  (∀ (s : State), s.dev.glob.rstHigh = true → exec .devRstNAssert s = .next (s.turned (pinLow s.dev))
      ∧ (s.dev.glob.dev ≠ .off → s.dev.glob.resetPhase ≠ .draining →
          (pinLow s.dev).glob.resetPhase = .draining ∧ (pinLow s.dev).glob.rstHigh = false ∧ (pinLow s.dev).glob.faultN = false
          ∧ (pinLow s.dev).xacts = [] ∧ (pinLow s.dev).movers = [] ∧ (pinLow s.dev).q0work = [] ∧ (pinLow s.dev).labis = []
          ∧ (pinLow s.dev).pwr.waiting = [] ∧ (pinLow s.dev).pwr.busy = none
          ∧ (∀ e, ((pinLow s.dev).engine e).call = none ∧ ((pinLow s.dev).engine e).sb = [])
          ∧ Tab.get 0 (pinLow s.dev).err.rlog 0 = resetSlot0 (s.dev.rlogAt 0) .pin))
  ∧ (∀ (s : State), s.dev.glob.rstHigh = false → exec .devRstNAssert s = .next (s.turned s.dev))
  ∧ (∀ (s : State) (r o : Nat), r = originRole .mgmt → o = originField .mgmt → exec .managementResetRequest s = .next (s.turned (beginReset s.dev .mgmt r o))
      ∧ (s.dev.glob.dev ≠ .off → s.dev.glob.resetPhase ≠ .draining →
          (beginReset s.dev .mgmt r o).glob.resetPhase = .draining ∧ (beginReset s.dev .mgmt r o).glob.faultN = false
          ∧ (beginReset s.dev .mgmt r o).xacts = [] ∧ (beginReset s.dev .mgmt r o).movers = [] ∧ (beginReset s.dev .mgmt r o).q0work = []
          ∧ (beginReset s.dev .mgmt r o).labis = [] ∧ (beginReset s.dev .mgmt r o).pwr.waiting = []
          ∧ (beginReset s.dev .mgmt r o).pwr.busy = none ∧ (∀ e, ((beginReset s.dev .mgmt r o).engine e).call = none)
          ∧ Tab.get 0 (beginReset s.dev .mgmt r o).err.rlog 0 = resetSlot0 (s.dev.rlogAt 0) .mgmt))
  ∧ (∀ (s : State) (clean : Bool), s.dev.glob.resetPhase = .draining →
      exec (.fullResetDrainEnd clean) s = .next (s.turned (drainEnd s.dev clean)) ∧ (drainEnd s.dev clean).glob.dev = .start
        ∧ (drainEnd s.dev clean).glob.resetPhase = .held ∧ (drainEnd s.dev clean).pwr.on = 1
        ∧ (drainEnd s.dev clean).mem = (if clean && s.dev.glob.cleanStep5 then (s.dev.each [0, 1, 2, 3] finishRepairs).mem else Memory.undefined) ∧ (drainEnd s.dev clean).agents = []
        ∧ (drainEnd s.dev clean).engines = [] ∧ (drainEnd s.dev clean).sec.floor = s.dev.sec.floor
        ∧ (drainEnd s.dev clean).sec.installer = s.dev.sec.installer)
  ∧ (∀ (s : State), s.dev.glob.dev ≠ .off →
      exec .supplyLoss s = .next (s.turned (supplyLost (cutTests s.dev))) ∧ (supplyLost (cutTests s.dev)).glob.dev = .off
        ∧ (supplyLost (cutTests s.dev)).pwr.on = 0 ∧ (supplyLost (cutTests s.dev)).mem = Memory.undefined
        ∧ (supplyLost (cutTests s.dev)).sec.floorFuse = s.dev.sec.floorFuse ∧ (supplyLost (cutTests s.dev)).sec.fuses = s.dev.sec.fuses)
  ∧ (∀ (s : State) (straps : BitVec 4), s.dev.glob.rstHigh = true → s.dev.glob.dev ≠ .off →
      exec (.devRstNRelease straps) s = .next (s.turned s.dev))
  ∧ (∀ (s : State) (straps : BitVec 4), s.dev.glob.rstHigh = false ∨ s.dev.glob.dev = .off →
      exec (.devRstNRelease straps) s = .next (s.turned (pinHigh s.dev straps))
      ∧ (pinHigh s.dev straps).glob.rstHigh = true ∧ (pinHigh s.dev straps).glob.straps = straps ∧ (pinHigh s.dev straps).mem = s.dev.mem
      ∧ (pinHigh s.dev straps).glob.riseT = s.dev.glob.time ∧ (pinHigh s.dev straps).pwr.xinLost = false
      ∧ (s.dev.glob.dev ≠ .off → (pinHigh s.dev straps).glob.dev = s.dev.glob.dev)
      ∧ (s.dev.glob.dev = .off → (pinHigh s.dev straps).glob.dev = .start ∧ (pinHigh s.dev straps).glob.step = 1
          ∧ (pinHigh s.dev straps).pwr.on = 1 ∧ (pinHigh s.dev straps).glob.supplies = true
          ∧ Tab.get 0 (pinHigh s.dev straps).err.rlog 0 = 0x41))

-- power and temperature (17_power_and_clocks.md)

/-- R451, R452, R454, R455, R463: power requests. A request joins the queue of at most eight and a ninth is answered busy with
result 8. The request at the head is refused by a row of R452, the first that applies (the model's reading, log entry 62), or begun. When a switch opens, which it does
once what is on its way to the domain has been delivered, the domain reads off and PWR_DONE is raised; when it closes the domain
reads on, PWR_DONE is raised, and the writes that waited for its blocks go on (R484). -/
def Obligations.PowerRequests : Prop :=
  (∀ (s : State) (o : Origin) (dom : BitVec 5), s.dev.glob.dev ≠ .off → s.dev.pwr.waiting.length < 8 →
      exec (.powerOnRequest o dom) s = .next (s.turned (s.dev.setPwr (fun p => { p with waiting := p.waiting ++ [⟨dom.toNat, true, o, none⟩] }))))
  ∧ (∀ (s : State) (o : Origin) (dom : BitVec 5), s.dev.glob.dev ≠ .off → s.dev.pwr.waiting.length < 8 →
      exec (.powerOffRequest o dom) s = .next (s.turned (s.dev.setPwr (fun p => { p with waiting := p.waiting ++ [⟨dom.toNat, false, o, none⟩] }))))
  ∧ (∀ (s : State) (o : Origin) (dom : BitVec 5), s.dev.glob.dev ≠ .off → 8 ≤ s.dev.pwr.waiting.length →
      exec (.powerOnRequest o dom) s = .next (s.turned (powerBusy s.dev dom.toNat true 8))
      ∧ exec (.powerOffRequest o dom) s = .next (s.turned (powerBusy s.dev dom.toNat false 8)))
  ∧ (∀ (s : State) (r : PwrReq) (rest : List PwrReq) (n : Nat), s.dev.pwr.busy = none → s.dev.pwr.waiting = r :: rest →
      (s.dev.setPwr (fun p => { p with waiting := rest })).powerReason r.domain r.on = some n →
      exec .powerRequestCheck s = .next (s.turned (powerBusy (s.dev.setPwr (fun p => { p with waiting := rest })) r.domain r.on n)))
  ∧ (∀ (s : State) (r : PwrReq) (rest : List PwrReq) (d : Dev), s.dev.pwr.busy = none → s.dev.pwr.waiting = r :: rest →
      (s.dev.setPwr (fun p => { p with waiting := rest })).powerReason r.domain r.on = none →
      d = (s.dev.setPwr (fun p => { p with waiting := rest })).setPwr (fun p => { p with
        busy := some r, lastDomain := BitVec.ofNat 5 r.domain, lastOn := r.on, lastResult := 0 }) →
      exec .powerRequestCheck s = .next (s.turned (if r.on then d else offPrepare d r.domain)))
  ∧ (∀ (s : State) (r : PwrReq) (d : Dev), s.dev.pwr.busy = some r → r.on = false → s.dev.crossing r.domain = false →
      d = powerDone (setDomain (loseDomain s.dev r.domain) r.domain false) r.domain false →
      exec .powerOffDone s = .next (s.turned d) ∧ (r.domain < 28 → d.domOn r.domain = false) ∧ d.pwr.busy = none)
  ∧ (∀ (s : State) (r : PwrReq) (d : Dev), s.dev.pwr.busy = some r → r.on = true →
      d = powerDone (onStart (setDomain s.dev r.domain true) r.domain) r.domain true →
      exec .powerOnDone s = .next (s.turned (takeWaits d)) ∧ (r.domain < 28 → (setDomain s.dev r.domain true).domOn r.domain = true)
        ∧ d.pwr.busy = none)

-- requests of hosts (02_agent_ports.md, 04_slices_and_request_path.md, 06_directory_coherence.md)

/-- R163, R164: what each CXL.mem request asks of the home slice, where its port takes it and its LAB holds its page: each is one
request on its way under the next number, and memory is as it was. A read
with Shared or Any of an HDM-DB agent asks for a shared or an owned copy and any other read for a current value; MemRdData lets
the device choose for an HDM-DB agent; MemInv and MemInvNT with Any ask for ownership without data and otherwise invalidate;
MemClnEvct gives up a clean copy; MemWr writes all 64 bytes and MemWrPtl those its mask names, poison with them, where the page
may be written. That the No-Op forms of MemInv and MemWr ask for nothing is the model's reading (log entry 72). R73 to R78, R80: a
write to a page whose entry has no W starts no request, is completed and raises WRITE_PROT. A request whose page the LAB does not
hold parks in the slot of its page, or in a free one with a usable handler, whose LAB_MISS names the page, the view, the slot and
whether it is a write; with no usable handler a read is answered with poison at once and NO_HANDLER and WALK_FAULT are raised. -/
def Obligations.HostRequestsReachTheirSlice : Prop :=
  (∀ (s : State) (h : M2S) (m : MetaReq) (e : LabEntry) (d : Dev), h.wf = true → s.dev.takesRequest h → s.dev.labHolds h e →
      d = hostRequest s.dev h (readOp · m) 0 0 false →
      exec (.memRd h m) s = .next (s.turned d) ∧ s.dev.startedRequest d (readOp (s.dev.ld h.port.val h.ld.val).hdmDb m)
        (e.dpa (h.va (s.dev.ld h.port.val h.ld.val)) / 64 * 64) 0 0 false)
  ∧ (∀ (s : State) (h : M2S) (e : LabEntry) (d : Dev), h.wf = true → s.dev.takesRequest h → s.dev.labHolds h e →
      d = hostRequest s.dev h (fun db => if db then .readData else .readUntracked) 0 0 false →
      exec (.memRdData h) s = .next (s.turned d)
        ∧ s.dev.startedRequest d (if (s.dev.ld h.port.val h.ld.val).hdmDb then .readData else .readUntracked)
        (e.dpa (h.va (s.dev.ld h.port.val h.ld.val)) / 64 * 64) 0 0 false)
  ∧ (∀ (s : State) (h : M2S) (m : MetaReq) (e : LabEntry) (d : Dev), h.wf = true → s.dev.takesRequest h → s.dev.labHolds h e →
      d = hostRequest s.dev h (invOp · m) 0 0 false →
      exec (.memInv h m) s = .next (s.turned d) ∧ s.dev.startedRequest d (invOp (s.dev.ld h.port.val h.ld.val).hdmDb m)
        (e.dpa (h.va (s.dev.ld h.port.val h.ld.val)) / 64 * 64) 0 0 false)
  ∧ (∀ (s : State) (h : M2S) (m : MetaReq) (e : LabEntry) (d : Dev), h.wf = true → s.dev.takesRequest h → s.dev.labHolds h e →
      d = hostRequest s.dev h (invOp · m) 0 0 false →
      exec (.memInvNt h m) s = .next (s.turned d) ∧ s.dev.startedRequest d (invOp (s.dev.ld h.port.val h.ld.val).hdmDb m)
        (e.dpa (h.va (s.dev.ld h.port.val h.ld.val)) / 64 * 64) 0 0 false)
  ∧ (∀ (s : State) (h : M2S) (e : LabEntry) (d : Dev), h.wf = true → s.dev.takesRequest h → s.dev.labHolds h e →
      d = hostRequest s.dev h (fun _ => .cleanEvict) 0 0 false →
      exec (.memClnEvct h) s = .next (s.turned d) ∧ s.dev.startedRequest d .cleanEvict
        (e.dpa (h.va (s.dev.ld h.port.val h.ld.val)) / 64 * 64) 0 0 false)
  ∧ (∀ (s : State) (h : M2S) (m : MetaReq) (data : Line) (poison : Bool) (e : LabEntry) (d : Dev), h.wf = true → s.dev.takesRequest h →
      s.dev.labHolds h e → e.pte.w = true →
      d = hostRequest s.dev h (fun db => .write (keepOf db m)) data (BitVec.allOnes 64) poison →
      exec (.memWr h m data poison) s = .next (s.turned d)
        ∧ s.dev.startedRequest d (.write (keepOf (s.dev.ld h.port.val h.ld.val).hdmDb m))
        (e.dpa (h.va (s.dev.ld h.port.val h.ld.val)) / 64 * 64) data (BitVec.allOnes 64) poison)
  ∧ (∀ (s : State) (h : M2S) (m : MetaReq) (data : Line) (mask : Mask) (poison : Bool) (e : LabEntry) (d : Dev), h.wf = true →
      s.dev.takesRequest h → s.dev.labHolds h e → e.pte.w = true →
      d = hostRequest s.dev h (fun db => .write (keepOf db m)) data mask poison →
      exec (.memWrPtl h m data mask poison) s = .next (s.turned d)
        ∧ s.dev.startedRequest d (.write (keepOf (s.dev.ld h.port.val h.ld.val).hdmDb m))
        (e.dpa (h.va (s.dev.ld h.port.val h.ld.val)) / 64 * 64) data mask poison)
  ∧ (∀ (s : State) (h : M2S) (m : MetaReq) (data : Line) (poison : Bool) (e : LabEntry) (d : Dev), h.wf = true → s.dev.takesRequest h →
      s.dev.labHolds h e → e.pte.w = false →
      d = hostRequest s.dev h (fun db => .write (keepOf db m)) data (BitVec.allOnes 64) poison →
      exec (.memWr h m data poison) s = .next (s.turned d) ∧ d.xacts = s.dev.xacts ∧ d.nextId = s.dev.nextId ∧ d.mem = s.dev.mem
        ∧ Msg.cmp h.port.val h.ld.val h.tag ∈ d.out ∧ (d.source 426).seq = (s.dev.source 426).seq + 1)
  ∧ (∀ (s : State) (h : M2S) (m : MetaReq) (data : Line) (mask : Mask) (poison : Bool) (e : LabEntry) (d : Dev), h.wf = true →
      s.dev.takesRequest h → s.dev.labHolds h e → e.pte.w = false →
      d = hostRequest s.dev h (fun db => .write (keepOf db m)) data mask poison →
      exec (.memWrPtl h m data mask poison) s = .next (s.turned d) ∧ d.xacts = s.dev.xacts ∧ d.nextId = s.dev.nextId
        ∧ d.mem = s.dev.mem ∧ Msg.cmp h.port.val h.ld.val h.tag ∈ d.out ∧ (d.source 426).seq = (s.dev.source 426).seq + 1)
  ∧ (∀ (s : State) (h : M2S) (m : MetaReq) (k : Nat) (d : Dev), h.wf = true → s.dev.takesRequest h → s.dev.labMisses h →
      s.dev.slotOf h = some k → d = hostRequest s.dev h (readOp · m) 0 0 false →
      exec (.memRd h m) s = .next (s.turned d) ∧ d.parkedRequest s.dev.nextId (readOp (s.dev.ld h.port.val h.ld.val).hdmDb m) k
        ∧ d.mem = s.dev.mem ∧ (d.port h.port.val).slots = (s.dev.port h.port.val).slots)
  ∧ (∀ (s : State) (h : M2S) (m : MetaReq) (k i : Nat) (d : Dev), h.wf = true → s.dev.takesRequest h → s.dev.labMisses h →
      s.dev.slotOf h = none → (s.dev.port h.port.val).handler = some i → (s.dev.port h.port.val).freeSlot = some k →
      d = hostRequest s.dev h (readOp · m) 0 0 false →
      exec (.memRd h m) s = .next (s.turned d) ∧ d.parkedRequest (s.dev.nextId + 1) (readOp (s.dev.ld h.port.val h.ld.val).hdmDb m) k
        ∧ d.mem = s.dev.mem ∧ s.dev.newSlot d h k i false)
  ∧ (∀ (s : State) (h : M2S) (m : MetaReq) (data : Line) (poison : Bool) (k i : Nat) (d : Dev), h.wf = true → s.dev.takesRequest h →
      s.dev.labMisses h → s.dev.slotOf h = none → (s.dev.port h.port.val).handler = some i →
      (s.dev.port h.port.val).freeSlot = some k →
      d = hostRequest s.dev h (fun db => .write (keepOf db m)) data (BitVec.allOnes 64) poison →
      exec (.memWr h m data poison) s = .next (s.turned d)
        ∧ d.parkedRequest (s.dev.nextId + 1) (.write (keepOf (s.dev.ld h.port.val h.ld.val).hdmDb m)) k
        ∧ d.mem = s.dev.mem ∧ s.dev.newSlot d h k i true)
  ∧ (∀ (s : State) (h : M2S) (m : MetaReq) (d : Dev), h.wf = true → s.dev.takesRequest h → s.dev.labMisses h →
      s.dev.slotOf h = none → (s.dev.port h.port.val).handler = none → d = hostRequest s.dev h (readOp · m) 0 0 false →
      exec (.memRd h m) s = .next (s.turned d) ∧ d.xacts = s.dev.xacts ∧ d.nextId = s.dev.nextId ∧ d.mem = s.dev.mem
        ∧ (∃ o, Msg.memData h.port.val h.ld.val h.tag 0 true o ∈ d.out)
        ∧ (d.source 429).seq = (s.dev.source 429).seq + 1 ∧ (d.source 424).seq = (s.dev.source 424).seq + 1)
  ∧ (∀ (p k : Nat) (q : ParkSlot), k < 32 → (missRecord p k q).src = 416 + p ∧ bits (missRecord p k q).info.toNat 26 0 = bits q.va 42 16
      ∧ bits (missRecord p k q).info.toNat 38 27 = q.view.toNat ∧ bits (missRecord p k q).info.toNat 43 39 = k
      ∧ bits (missRecord p k q).info.toNat 44 44 = b2n q.write ∧ bits (missRecord p k q).info.toNat 53 45 = 0)

/-- R163: MemSpecRd is ignored and has no response; R166, R178, R193: a BIConflict of an HDM-DB agent
with no BISnp outstanding at its address, or of a resigned LD, is acknowledged at once (log entry 50: the manual gives no delay
there); with one outstanding it is noted with the BISnp. A BIRsp that answers an outstanding BISnp removes it from its port, sends
the acknowledgement a BIConflict waits for and answers the recall it was sent for, and a BISnpInv that waits for it is sent then;
a BIRsp that keeps a copy a BISnp did not allow
to be kept is a protocol error and its recall is answered as kept by none; one that answers none is a protocol error. R77, R78: a
park slot not ended in time marks its handler failed, raises HANDLER_TIMEOUT, and every request parked in it ends as a walk
fault. A BIRsp is one request of class snoop for the port's counters (R469). -/
def Obligations.SnoopsAndParkSlots : Prop :=
  ((∀ (s : State) (h : M2S), h.wf = true → exec (.memSpecRd h) s = .next (s.turned s.dev))
    ∧ (∀ (s : State) (h : M2S), h.wf = true → s.dev.portUp h.port.val = true →
        ((s.dev.ld h.port.val h.ld.val).st = .resigned ∨ ((s.dev.ld h.port.val h.ld.val).st = .attached
          ∧ (s.dev.ld h.port.val h.ld.val).hdmDb = true
          ∧ (s.dev.port h.port.val).snoopAt (s.dev.ld h.port.val h.ld.val).agent (h.va (s.dev.ld h.port.val h.ld.val)) = none)) →
        exec (.biConflict h) s = .next (s.turned (emit s.dev (.biConflictAck h.port.val h.ld.val h.tag))))
    ∧ (∀ (s : State) (h : M2S) (n : Snoop), h.wf = true → s.dev.portUp h.port.val = true →
        (s.dev.ld h.port.val h.ld.val).st = .attached → (s.dev.ld h.port.val h.ld.val).hdmDb = true →
        (s.dev.port h.port.val).snoopAt (s.dev.ld h.port.val h.ld.val).agent (h.va (s.dev.ld h.port.val h.ld.val)) = some n →
        exec (.biConflict h) s = .next (s.turned (ackConflicts (s.dev.updPort h.port.val (fun q => { q with
          snoops := q.snoops.map (fun t => if t.agent = n.agent ∧ t.line = n.line then { t with conflict := some h.tag } else t) }))
          h.port.val)))
    ∧ (∀ (s : State) (p : Fin 8) (ld : Fin 16) (hpa : Nat) (n : Snoop) (d : Dev), hpa < 2 ^ 52 → s.dev.portUp p.val = true →
        (s.dev.ld p.val ld.val).st = .attached →
        (s.dev.port p.val).snoops.find? (fun x => x.agent == (s.dev.ld p.val ld.val).agent && x.sent
          && decide ((s.dev.ld p.val ld.val).base + x.va = hpa / 64 * 64)) = some n →
        d = (birspCounted s.dev p.val (s.dev.ld p.val ld.val) (some n.line)).updPort p.val (fun q => { q with
          snoops := q.snoops.filter (fun t => !(t.agent == n.agent && decide (t.line = n.line))) }) →
        ∀ a, a = answer (match n.conflict with
          | some tag => emit d (.biConflictAck p.val ld.val tag)
          | none => d) n.agent n.line false false n.inv →
        exec (.birspI p ld hpa) s = .next (s.turned (if n.inv then portRecall a p.val n.agent n.line false else a)))
    ∧ (∀ (s : State) (p : Fin 8) (ld : Fin 16) (hpa : Nat) (n : Snoop) (d : Dev), hpa < 2 ^ 52 → s.dev.portUp p.val = true →
        (s.dev.ld p.val ld.val).st = .attached →
        (s.dev.port p.val).snoops.find? (fun x => x.agent == (s.dev.ld p.val ld.val).agent && x.sent
          && decide ((s.dev.ld p.val ld.val).base + x.va = hpa / 64 * 64)) = some n →
        d = (if n.data then (fun d : Dev => d) else (fun d => protocolError d p.val ld.val (s.dev.ld p.val ld.val).agent))
          ((birspCounted s.dev p.val (s.dev.ld p.val ld.val) (some n.line)).updPort p.val (fun q => { q with
            snoops := q.snoops.filter (fun t => !(t.agent == n.agent && decide (t.line = n.line))) })) →
        ∀ a, a = answer (match n.conflict with
          | some tag => emit d (.biConflictAck p.val ld.val tag)
          | none => d) n.agent n.line n.data false n.inv →
        exec (.birspS p ld hpa) s = .next (s.turned (if n.inv then portRecall a p.val n.agent n.line false else a)))
    ∧ (∀ (s : State) (p : Fin 8) (ld : Fin 16) (hpa : Nat), hpa < 2 ^ 52 → s.dev.portUp p.val = true →
        (s.dev.ld p.val ld.val).st = .attached →
        (s.dev.port p.val).snoops.find? (fun x => x.agent == (s.dev.ld p.val ld.val).agent && x.sent
          && decide ((s.dev.ld p.val ld.val).base + x.va = hpa / 64 * 64)) = none →
        exec (.birspI p ld hpa) s = .next (s.turned (protocolError (birspCounted s.dev p.val (s.dev.ld p.val ld.val) none) p.val ld.val
          (s.dev.ld p.val ld.val).agent))
        ∧ exec (.birspS p ld hpa) s = .next (s.turned (protocolError (birspCounted s.dev p.val (s.dev.ld p.val ld.val) none) p.val ld.val
          (s.dev.ld p.val ld.val).agent))))
  ∧ (∀ (s : State) (p : Fin 8) (k : Fin 32) (x : ParkSlot), s.dev.pwr.unlocked.getLsbD (2 + p.val) = false →
      Tab.find (s.dev.port p.val).slots k.val = some x →
      exec (.parkSlotTimeout p k) s = .next (s.turned (failSlot (raise (s.dev.updPort p.val
        (fun q => { q with hstatus := q.hstatus ||| BitVec.ofNat 4 (2 ^ x.entry) })) 428 2 2 (transInfo x.view.toNat x.va p.val)) p.val k.val)))

-- home queues, directory and sweep (04, 06, 07)

/-- R97, R98, R99, R202, R355: requests take their order points one after the other and issue by class and age. A request that can
arrive takes the slice's next order number and waits in the home queue, one that cannot stays out, and in RECOVERY a host's write
is dropped where it would have been taken (R421, log entry 135); of the entries that can
issue the slice looks up the one it picks, or the background pass's walker issues where it is its turn; ordering state that cannot
be corrected is fatal; with nothing to issue nothing changes. R175, R180, R182: directory evictions. A request that found no
candidate allocates again, the retry counted; after its 64th retry it guards its set, which is counted; the flush of a set ends
when no candidate is left and none is being recalled, and the next queued set starts. All this while the core's clock runs. -/
def Obligations.HomeQueueAndDirectory : Prop :=
  ((∀ (s : State) (sl : Fin 16) (ids : List Nat), s.dev.pwr.unlocked.getLsbD 10 = false → (Instr.homeQueueArrival sl ids).wf = true →
        exec (.homeQueueArrival sl ids) s = .next (s.turned (arrive s.dev sl.val ids)))
    ∧ (∀ (s : State) (sl : Fin 16) (i : Nat) (x : Xact) (d : Dev), s.dev.pwr.unlocked.getLsbD 10 = false → s.dev.xact? i = some x →
        d = arrive s.dev sl.val [i] →
        exec (.homeQueueArrival sl [i]) s = .next (s.turned d)
          ∧ (s.dev.canArrive sl.val i x = true → s.dev.portDrops x = false → (d.slice sl.val).nextOrd = (s.dev.slice sl.val).nextOrd + 1 ∧ d.mem = s.dev.mem
            ∧ ∃ y, d.xact? i = some y ∧ y.ord = (s.dev.slice sl.val).nextOrd ∧ y.phase = .queued ∧ y.req = x.req)
          ∧ (s.dev.canArrive sl.val i x = true → s.dev.portDrops x = true → d = failRequest (s.dev.dropXact i) x.req x.t0 17)
          ∧ (s.dev.canArrive sl.val i x = false → d = s.dev))
    ∧ (∀ (s : State) (sl : Fin 16) (err : LookupErr) (i : Nat) (x : Xact), s.dev.pwr.unlocked.getLsbD 10 = false →
        err.order = none → s.dev.walkTurn sl.val = false → s.dev.pick sl.val = some (i, x) → x.phase = .queued →
        exec (.homeQueueIssue sl err) s = .next (s.turned (lookup (checkSide (passOver s.dev sl.val (some i)) sl.val x err.side) i err)))
    ∧ (∀ (s : State) (sl : Fin 16) (err : LookupErr), s.dev.pwr.unlocked.getLsbD 10 = false →
        err.order = none → s.dev.walkTurn sl.val = true →
        exec (.homeQueueIssue sl err) s = .next (s.turned (walkIssue s.dev sl.val err.dir)))
    ∧ (∀ (s : State) (sl : Fin 16) (err : LookupErr) (k : OrderStore) (n : BitVec 8), s.dev.pwr.unlocked.getLsbD 10 = false →
        err.order = some (k, n) → ((s.dev.pick sl.val).isSome || s.dev.walkTurn sl.val) = true →
        exec (.homeQueueIssue sl err) s = .next (s.turned (enterRecovery s.dev 5
          (info (orderCode k + fld 3 (if k = .resignationTable then 0 else sl.val) + fld 7 n.toNat)))))
    ∧ (∀ (s : State) (sl : Fin 16) (err : LookupErr), s.dev.pick sl.val = none → s.dev.walkTurn sl.val = false →
        exec (.homeQueueIssue sl err) s = .next (s.turned s.dev)))
  ∧ ((∀ (s : State) (sl : Fin 16) (i : Nat) (err : Option (Fin 16 × Ecc)) (x : Xact), s.dev.pwr.unlocked.getLsbD 10 = false →
        s.dev.xact? i = some x → x.phase = .retry → x.slice = sl.val →
        exec (.dirRetry sl i err) s = .next (s.turned (allocStage
          (checkDir (count (s.dev.putXact i { x with phase := .queued, retries := x.retries + 1 }) (8 + sl.val) 0x10 1 x.req.counted)
            sl.val (dsetOf x.req.dpa) err (whoOf x.req)) i)))
    ∧ (∀ (s : State) (sl : Fin 16) (i : Nat) (x : Xact) (d : Dev), s.dev.pwr.unlocked.getLsbD 10 = false →
        s.dev.xact? i = some x → x.phase = .retry → x.slice = sl.val → 64 ≤ x.retries →
        (s.dev.atSlice sl.val).all (fun y => !(y.2.phase == .retry && decide (64 ≤ y.2.retries)
          && decide (dsetOf y.2.req.dpa = dsetOf x.req.dpa)) || decide (x.ord ≤ y.2.ord)) = true →
        (s.dev.slice sl.val).guards.any (fun g => decide (g.1 = dsetOf x.req.dpa)) = false → d = guardEngage s.dev sl.val i →
        exec (.dirGuardEngage sl i) s = .next (s.turned d)
          ∧ (d.slice sl.val).guards = (s.dev.slice sl.val).guards ++ [(dsetOf x.req.dpa, i)]
          ∧ d.glob.dirGuards = satInc 32 s.dev.glob.dirGuards ∧ d.mem = s.dev.mem)
    ∧ (∀ (s : State) (sl : Fin 16) (f : Flush), s.dev.pwr.unlocked.getLsbD 10 = false →
        (s.dev.slice sl.val).flush = some f → f.xids = [] →
        s.dev.flushNext sl.val f.dset (0x8000 - f.next) f.next = none →
        exec (.setFlushCandidate sl) s = .next (s.turned (flushEnd s.dev sl.val f.dset))
          ∧ ((flushEnd s.dev sl.val f.dset).slice sl.val).flushQueue = (s.dev.slice sl.val).flushQueue.drop 1)
    ∧ (∀ (s : State) (sl : Fin 16) (f : Flush) (a : Target) (ts : List Target) (t : Nat), s.dev.pwr.unlocked.getLsbD 10 = false →
        (s.dev.slice sl.val).flush = some f → f.xids.length < 8 → s.dev.recallRegs sl.val < 16 →
        s.dev.dbAgents.map (fun a => (⟨a.1, a.2, false, false⟩ : Target)) = a :: ts →
        s.dev.flushNext sl.val f.dset (0x8000 - f.next) f.next = some t →
        exec (.setFlushCandidate sl) s = .next (s.turned (flushRecall s.dev sl.val t f (a :: ts)))))

/-- R156, R171, R172, R196, R203: recalls and the end of an agent. A quad that is recalled drops its copy and answers, and its
requests of the line under way are marked as recalled; a BISnp whose timer runs out resigns its agent with cause 2; at the
resignation point an agent that holds no copies (HDM-H) gives its ID back, and one of HDM-DB has reached its point; a pass covers
every agent at its resignation point and each slice's walker enters with set 0, and its end leaves no pass under way. A reverse
entry that maps its frame is kept and the BISnps that waited for it are sent; one that does not resigns their agents. -/
def Obligations.RecallAndSweepCommands : Prop :=
  (∀ (s : State) (e : Fin 24) (line i : Nat) (x : Xact) (ts : List Target) (ev : Option Nat), (i, x) ∈ s.dev.xacts →
      x.recallLine = line → x.phase = .recall ts ev → (ts.any (fun t => t.agent == engAgent e.val)) = true →
      (s.dev.quadRuns e.val = true ∨ s.dev.domOn (quadDom (quadOf e.val)) = false) →
      exec (.engineRecall e line) s = .next (s.turned (answer (({ s.dev with xacts := s.dev.xacts.map (fun (x : Nat × Xact) =>
        if (x.2.req.src = Src.engine e.val ∨ x.2.req.src = Src.call e.val) ∧ x.2.line = line ∧ 0 < x.2.ord then (x.1, { x.2 with recalled := true }) else x) } : Dev).updEngine
          e.val (·.dropMview line)) (engAgent e.val) line false false false)))
  ∧ (∀ (s : State) (p : Fin 8) (a : BitVec 12) (line : Nat), s.dev.pwr.unlocked.getLsbD (2 + p.val) = false →
      (s.dev.port p.val).snoops.any (fun n => n.agent == a
        && decide (n.line = line) && n.sent) = true →
      exec (.bisnpTimeout p a line) s = .next (s.turned (resign s.dev a 2)))
  ∧ (∀ (s : State) (a : BitVec 12) (x : Agent) (d : Dev), s.dev.agent? a = some x → x.attached = false → x.pointReached = false →
      s.dev.writesBefore a = false → s.dev.islandRuns 10 = true → Tab.wf s.dev.agents = true → d = resignationPoint s.dev a →
      exec (.resignationPoint a) s = .next (s.turned d) ∧ d.mem = s.dev.mem
        ∧ (x.hdmDb = false → d.agent? a = none) ∧ (x.hdmDb = true → ∃ y, d.agent? a = some y ∧ y.pointReached = true))
  ∧ (∀ (s : State) (d : Dev), s.dev.glob.sweepActive = false → s.dev.uncovered ≠ [] → s.dev.q0Runs = true →
      s.dev.islandRuns 10 = true → d = passStart s.dev →
      exec .sweepPassStart s = .next (s.turned d) ∧ d.glob.sweepActive = true ∧ d.glob.sweepCovered = s.dev.uncovered.length
        ∧ d.mem = s.dev.mem ∧ ∀ k < 16, (d.slice k).walked = 0 ∧ (d.slice k).walkOrd = some (s.dev.slice k).nextOrd)
  ∧ (∀ (s : State) (d : Dev), s.dev.glob.sweepActive = true → s.dev.q0Runs = true → s.dev.islandRuns 10 = true → d = passEnd s.dev →
      exec .sweepPassEnd s = .next (s.turned d) ∧ d.glob.sweepActive = false ∧ d.glob.sweepCovered = 0 ∧ d.mem = s.dev.mem)
  ∧ (∀ (s : State) (p : Fin 8) (frame : BitVec 24) (i : Nat) (x : Xact) (data : Line) (poison ok : Bool),
      s.dev.pwr.unlocked.getLsbD (2 + p.val) = false → s.dev.xacts.find? (fun x => x.2.req.op == .revRead && x.2.req.src == .reverse p.val && decide (x.2.req.va = frame.toNat)) = some (i, x) →
      x.phase = .done data poison ok →
      exec (.reverseEntryReturn p frame) s = .next (s.turned (
        if poison || !ok || decide (revMaps (data.extractLsb' (8 * (x.req.dpa % 64)) 32) = 0) then
          (s.dev.dropXact i).each ((s.dev.dropXact i).unsentFor p.val frame.toNat) unreachable
        else ((s.dev.dropXact i).updPort p.val
          (fun q => q.reverseUse frame.toNat (data.extractLsb' (8 * (x.req.dpa % 64)) 32))).each ((s.dev.dropXact i).unsentFor p.val frame.toNat)
            (fun d n => sendSnoop d p.val n (revVpn (data.extractLsb' (8 * (x.req.dpa % 64)) 32))))))

-- tiles (05_sector_cache.md)

/-- R139–R141, R144, R146: tiles and banks. A correct read of a tile whose clock runs answers its requester with the stored data
and poison; a draining tile with no read under way ends its walk OFFLINE, or RETIRED when it is retiring; a bank's walk ends with
its mask bit, set when the bank's retirement began, still set, and reported; an online tile that does not answer starts to drain with
cause 3, and the reads that waited on it are sent as misses, as are those of a tile that was leaving already (that the event can come
with no read on the tile is the model's choice, log entry 119). -/
def Obligations.TileCommands : Prop :=
  (∀ (s : State) (i c w : Nat) (x : Xact) (data : Line) (poison : Bool), s.dev.xact? i = some x → x.phase = .tile c w data poison 0 →
      s.dev.pwr.unlocked.getLsbD (17 + tileOfWay w) = false → s.dev.tileStopped (17 + tileOfWay w) = false →
      exec (.tileAccessReturn i .ok) s = .next (s.turned (finish (s.dev.updTile (tileOfWay w) (fun y => y.repeatAdd x.line)) i data poison true)))
  ∧ (∀ (s : State) (t : Fin 8) (d : Dev), s.dev.pwr.unlocked.getLsbD 10 = false → s.dev.tileSt t.val = .draining →
      s.dev.xacts.any (fun x => x.2.onTile t.val) = false → d = walkEnd s.dev t.val →
      exec (.tileWalkEnd t) s = .next (s.turned d)
        ∧ (d.tile t.val).st = (if (s.dev.tile t.val).retiring then .retired else .offline)
        ∧ (d.tile t.val).tileRetired = ((s.dev.tile t.val).tileRetired || (s.dev.tile t.val).retiring)
        ∧ (d.tile t.val).retireMap = (s.dev.tile t.val).retireMap ∧ d.mem = s.dev.mem)
  ∧ (∀ (s : State) (t : Fin 8) (b : BitVec 6) (d : Dev), s.dev.pwr.unlocked.getLsbD 10 = false →
      (s.dev.tile t.val).bankWalks.contains b.toNat = true →
      s.dev.xacts.any (fun x => x.2.onTile t.val && decide (bankOf x.2.slice (csetOf x.2.req.dpa) = b.toNat)) = false →
      d = clearTags (countWalk (s.dev.updTile t.val (fun x => { x with bankWalks := x.bankWalks.filter (· ≠ b.toNat) })) (b.toNat / 4) 2048) (b.toNat / 4)
        (fun c w => decide (tileOfWay w = t.val) && decide (bankOf (b.toNat / 4) c = b.toNat)) →
      exec (.bankWalkEnd t b) s = .next (s.turned (raise d (192 + 8 * t.val + 4) 5 0 (info b.toNat)))
        ∧ (d.tile t.val).bankWalks = (s.dev.tile t.val).bankWalks.filter (· ≠ b.toNat)
        ∧ (d.tile t.val).retireMap = (s.dev.tile t.val).retireMap
        ∧ ((s.dev.tile t.val).retireMap.getLsbD b.toNat = true → (d.tile t.val).retireMap.getLsbD b.toNat = true))
  ∧ (∀ (d : Dev) (t b : Nat), b < 64 → ((retireBank d t b).tile t).retireMap.getLsbD b = true
      ∧ b ∈ ((retireBank d t b).tile t).bankWalks ∧ (retireBank d t b).mem = d.mem)
  ∧ (∀ (s : State) (t : Fin 8),
      exec (.tileNoAnswer t) s = .next (s.turned ((if s.dev.tileSt t.val = .online then startDrain s.dev t.val 3 false else s.dev).each
        ((s.dev.xacts.filter (fun x => x.2.onTile t.val)).map (·.1)) readStage)))
  ∧ (∀ (d : Dev) (t : Nat), t < 8 → ((startDrain d t 3 false).tile t).st = .draining ∧ ((startDrain d t 3 false).tile t).cause = 3)

-- memory path (08_memory_path.md)

/-- R107, R215, R218, R222, R223, R229: reads and writes at a controller whose domain is on and clock runs, taken in the order they
were sent. A read above the usable limit comes back poisoned with no effect on memory; a read with no buffered write of its line
goes to its channel; one whose line a full entry holds takes the entry's data. The channel's data comes back with what the line's
code says of it (that a line read from a wrong address always counts as uncorrectable is the model's choice, log entry 58). A read that has no data in time comes back poisoned, a mover's as failed; a mover's write not accepted in time ends as failed. An accepted write's acknowledgement
completes it. -/
def Obligations.ControllerReadsAndWrites : Prop :=
  (∀ (s : State) (i : Nat) (err chk : Ecc) (x : Xact) (d : Dev), s.dev.xact? i = some x → x.mem = .toMc → s.dev.mcTakes x = true →
      s.dev.limit ≤ x.req.dpa → d = readArrival s.dev i err chk →
      exec (.mcReadArrival i err chk) s = .next (s.turned d)
        ∧ d.xact? i = some { x with mem := .back 0 true false, sent := s.dev.nextId } ∧ d.mem = s.dev.mem)
  ∧ (∀ (s : State) (i : Nat) (err chk : Ecc) (x : Xact) (d : Dev), s.dev.xact? i = some x → x.mem = .toMc → s.dev.mcTakes x = true →
      x.req.dpa < s.dev.limit → s.dev.wbOf x.line = [] → d = readArrival s.dev i err chk →
      exec (.mcReadArrival i err chk) s = .next (s.turned d) ∧ d.xact? i = some { x with mem := .channel }
        ∧ ((s.dev.chan (chanOf x.req.dpa)).repair = [] → d.mem = s.dev.mem))
  ∧ (∀ (s : State) (i : Nat) (chk : Ecc) (x : Xact) (w : WbEntry) (d : Dev), s.dev.xact? i = some x → x.mem = .toMc →
      s.dev.mcTakes x = true → x.req.dpa < s.dev.limit →
      s.dev.wbOf x.line = [w] → w.full = true → w.bad = 0 → w.ue = false → x.req.op ≠ .sweepRead → d = readArrival s.dev i .ok chk →
      exec (.mcReadArrival i .ok chk) s = .next (s.turned d)
        ∧ d.xact? i = some { x with mem := .back w.data w.poison false, sent := s.dev.nextId } ∧ d.mem = s.dev.mem)
  ∧ (∀ (s : State) (i n code : Nat) (wrongAddr : Bool) (x : Xact) (d : Dev) (data : Line) (poison : Bool), s.dev.xact? i = some x →
      x.mem = .channel → s.dev.mcRuns (mcOf x.req.dpa) = true →
      readLine (runRepairs s.dev (chanOf x.req.dpa)) x.line n wrongAddr (whoOf x.req) = (d, data, poison, code) →
      d.wbOf x.line = [] → x.req.op ≠ .sweepRead →
      exec (.channelReadReturn i n wrongAddr) s = .next (s.turned (d.putSent i { x with mem := .back data poison false })))
  ∧ (∀ (d : Dev) (line n : Nat) (wrongAddr : Bool) (who : Who),
      (d.readAs line n wrongAddr = .good → readLine d line n wrongAddr who = (d, d.memLine line, false, 0))
      ∧ (d.readAs line n wrongAddr = .poisoned → (readLine d line n wrongAddr who).2.2.1 = true)
      ∧ (∀ k, d.readAs line n wrongAddr = .corrected k → (readLine d line n wrongAddr who).2 = (d.memLine line, false, 1)
        ∧ ((readLine d line n wrongAddr who).1.mc (chanOf (64 * line) / 8)).ce = satInc 32 (d.mc (chanOf (64 * line) / 8)).ce)
      ∧ (d.readAs line n wrongAddr = .ue → (readLine d line n wrongAddr who).2 = (d.memLine line, true, 2)
        ∧ ((readLine d line n wrongAddr who).1.mc (chanOf (64 * line) / 8)).ue = satInc 32 (d.mc (chanOf (64 * line) / 8)).ue)
      ∧ d.readAs line n true = .ue)
  ∧ (∀ (s : State) (i : Nat) (x : Xact) (d : Dev), s.dev.xact? i = some x → (x.mem = .toMc ∨ x.mem = .waitMerge ∨ x.mem = .channel) →
      x.req.op ≠ .moverWrite → s.dev.pwr.unlocked.getLsbD (25 + mcOf x.req.dpa) = false → d = readTimesOut s.dev i →
      exec (.readTimeout i) s = .next (s.turned d) ∧ d.mem = s.dev.mem
        ∧ ((∀ m ch, x.req.src ≠ .mover m ch) → d.xact? i = some { x with mem := .back 0 true false, sent := s.dev.nextId })
        ∧ ((∃ m ch, x.req.src = .mover m ch) → d.xact? i = some { x with mem := .back 0 false true, sent := s.dev.nextId }))
  ∧ (∀ (s : State) (i : Nat) (x : Xact), s.dev.pwr.unlocked.getLsbD 10 = false → s.dev.xact? i = some x → x.req.op = .moverWrite →
      (x.phase = .queued ∨ x.phase = .needCredit ∨ x.phase = .toBuffer) →
      exec (.readTimeout i) s = .next (s.turned (finish s.dev i 0 false false)))
  ∧ (∀ (s : State) (i : Nat) (x : Xact) (c : Bool), s.dev.pwr.unlocked.getLsbD 10 = false → s.dev.xact? i = some x →
      x.phase = .accepted c → s.dev.nextAcross x Xact.comesBack = true →
      exec (.writeAcceptanceAck i) s = .next (s.turned (resolveLine (retryRecalls (finish (s.dev.putXact i { x with due := none }) i
        ((x.pre.map (·.1)).getD 0) false true) (x.due.getD x.line)) x.slice x.req.dpa)))

/-- R218, R219, R224, R225, R231, R357, R517: the write buffer. An OPEN entry of a line ages; a batch that is due makes every entry of its
channel drain. What the channel takes is the line's oldest entry, when it is draining and full: its line is written exactly, with
the poison code where the entry is poisoned or its data uncorrectable, or its poison code alone, and with no repair waiting every byte of other lines reads
as before; an uncorrectable DPA field is fatal (R357). The merge read of the oldest entry, draining and partial, fills it from memory, which stays as it is. -/
def Obligations.WriteBufferDrains : Prop :=
  (∀ (s : State) (m : Fin 4) (line : Nat), s.dev.pwr.unlocked.getLsbD (25 + m.val) = false → exec (.wbAgeExpiry m line) s = .next (s.turned (s.dev.updMc m.val (fun y => { y with
      wb := y.wb.map (fun e => if e.line = line ∧ e.draining = false then { e with aged := true } else e) }))))
  ∧ (∀ (s : State) (c : Fin 32) (ue : List Nat), s.dev.pwr.unlocked.getLsbD (25 + c.val / 8) = false → s.dev.batchDue c.val = true →
      exec (.wbBatchStart c ue none) s = .next (s.turned ((s.dev.each (s.dev.chanEntries c.val)
        (fun d e => drainEntry d (c.val / 8) ue e)).updChan c.val (fun x => { x with burst := [] }))))
  ∧ (∀ (s : State) (m : Fin 4) (line : Nat) (err : Ecc) (e : WbEntry) (rest : List WbEntry) (d : Dev), s.dev.wbOf line = e :: rest →
      e.draining = true → e.full = true → mcOf (64 * line) = m.val → s.dev.mcRuns m.val = true → d = writeTaken s.dev m.val line err →
      exec (.channelWriteTaken m line err false) s = .next (s.turned d)
        ∧ (e.codeOnly = false → (∀ i < 64, d.mem.readByte (64 * line + i) = some (lineByte e.data i))
          ∧ d.mem.code line = some (if e.poison || e.ecc err == .ue then .poisoned else .good))
        ∧ (e.codeOnly = true → d.mem.code line = some .poisoned)
        ∧ ((s.dev.chan (chanOf (64 * line))).repair = [] → ∀ a, a / 64 ≠ line → d.mem.readByte a = s.dev.mem.readByte a))
  ∧ (∀ (s : State) (m : Fin 4) (line : Nat) (err : Ecc) (e : WbEntry) (rest : List WbEntry), s.dev.wbOf line = e :: rest →
      e.draining = true → mcOf (64 * line) = m.val → s.dev.mcRuns m.val = true →
      exec (.channelWriteTaken m line err true) s = .next (s.turned (wbAddrUe s.dev m.val
        ((s.dev.mc m.val).wb.findIdx (fun f => decide (f.num = e.num))) e)))
  ∧ (∀ (s : State) (m : Fin 4) (line n : Nat) (chk : Ecc) (e : WbEntry) (rest : List WbEntry) (d : Dev), s.dev.wbOf line = e :: rest →
      e.draining = true → e.full = false → mcOf (64 * line) = m.val → s.dev.mcRuns m.val = true →
      (s.dev.chan (chanOf (64 * line))).repair = [] → (∀ f ∈ e :: rest, f.bad = 0 ∧ f.ue = false) →
      (checkRead s.dev line { dpa := some (64 * line) } chk).decodeLine line n = .good → d = mergeReturn s.dev m.val line n false chk →
      exec (.rmwMergeReadReturn m line n false chk) s = .next (s.turned d) ∧ d.mem = s.dev.mem
        ∧ (d.mc m.val).wb = (s.dev.mc m.val).wb.map (fun f => if f.num = e.num then { f with
            data := mergeLine (s.dev.memLine line) e.data e.mask, mask := BitVec.allOnes 64, poison := e.poison } else f))

/-- R227, R229: what channels do by themselves. Refresh and ZQ calibration block the channel for at most 280 ns and 30 ns, and no
calibration is due after one; the oscillator's drift is kept; due write DQ retraining counts, ends the drift when it succeeds and a
failure in the row when not; an MR4 read keeps the code and the refresh rate, and reports a rate that changed; a channel with three
timeouts or three failed retrainings in a row fails, fatal with cause 3. Blocking leaves memory, channels, controllers, requests and
the registers of the device state (the count of draws aside) as they are. That it changes no state the manual gives is the model's
choice (log entry 78), as is what it counts in REFRESH_CYC (log entry 51). -/
def Obligations.ChannelUpkeep : Prop :=
  (∀ (s : State) (c : Fin 32) (b : BitVec 4), exec (.perBankRefresh c b) s = .next (s.turned (blocks s.dev c.val 280)))
  ∧ (∀ (s : State) (c : Fin 32), s.dev.pwr.unlocked.getLsbD (25 + c.val / 8) = false → exec (.zqCalibrationLatch c) s = .next (s.turned
      ((blocks s.dev c.val 30).updChan c.val (fun x => { x with zqDue := false }))))
  ∧ (∀ (s : State) (c : Fin 32) (v : BitVec 7), s.dev.chanRuns c.val = true →
      exec (.dqsOscillatorRead c v) s = .next (s.turned ((blocks s.dev c.val 200).updChan c.val (fun x => { x with drift := v }))))
  ∧ (∀ (s : State) (c : Fin 32) (ok : Bool), s.dev.chanRuns c.val = true →
      ((s.dev.chan c.val).retrainDue = true ∨ (s.dev.mc (c.val / 8)).driftLimit.toNat ≤ (s.dev.chan c.val).drift.toNat) →
      exec (.writeDqRetraining c ok) s = .next (s.turned (chanEvent ((blocks s.dev c.val 1500).updChan c.val (fun x => { x with
        retrains := satInc 8 x.retrains, retrainDue := false, drift := if ok then 0 else x.drift
        failsInRow := if ok then 0 else x.failsInRow + 1 })) c.val 4 0 0 0 0)))
  ∧ (∀ (s : State) (c : Fin 32) (code : BitVec 3) (hot : Bool) (d : Dev), s.dev.chanRuns c.val = true →
      d = (blocks s.dev c.val 100).updChan c.val (fun x => { x with mr4 := code, refreshX2 := hot }) →
      exec (.mr4Read c code hot) s = .next (s.turned (if (s.dev.chan c.val).refreshX2 = hot then d else chanEvent d c.val 6 0 0 0 0)))
  ∧ (∀ (s : State) (c : Fin 32) (t : Bool), s.dev.pwr.unlocked.getLsbD (25 + c.val / 8) = false → (if t then 3 ≤ (s.dev.chan c.val).timeouts else 3 ≤ (s.dev.chan c.val).failsInRow) →
      exec (.channelFailed c t) s = .next (s.turned (enterRecovery (chanEvent (s.dev.updChan c.val (fun y => { y with st := 5 }))
        c.val 7 3 3 0 0) 3 (info (c.val + fld 5 (b2n t))))))
  ∧ (∀ (d : Dev) (c ns : Nat), (blocks d c ns).mem = d.mem ∧ (blocks d c ns).chans = d.chans ∧ (blocks d c ns).mcs = d.mcs
      ∧ (blocks d c ns).xacts = d.xacts ∧ (blocks d c ns).glob = { d.glob with draws := (blocks d c ns).glob.draws })

-- engine instructions on registers (09_fuvos_engines.md)

/-- R251: results and flags of ALU and ALUP at any width, F and E never touched. ALU of a ready engine works on words, ALUP on even
pairs; the shift amount is Gs[5:0], of the low word for a pair; each changes its destination, FLAGS and, on completing, the PC.
That ROL counts as a shift for C is the model's reading (log entry 15). -/
def Obligations.ArithmeticResultsAndFlags : Prop :=
  (∀ (w : Nat) (f : BitVec 6) (d s : BitVec w) (n : Nat), 0 < w →
      aluFn 0 f d s n = (some s, f)
      ∧ ((aluFn 1 f d s n).1 = some (d + s) ∧ (aluFn 1 f d s n).2.getLsbD 2 = decide (2 ^ w ≤ d.toNat + s.toNat)
        ∧ (aluFn 1 f d s n).2.getLsbD 3 = decide ((d + s).toInt ≠ d.toInt + s.toInt))
      ∧ ((aluFn 2 f d s n).1 = some (d - s) ∧ (aluFn 2 f d s n).2.getLsbD 2 = decide (s.toNat ≤ d.toNat)
        ∧ (aluFn 2 f d s n).2.getLsbD 3 = decide ((d - s).toInt ≠ d.toInt - s.toInt))
      ∧ ((aluFn 3 f d s n).1 = some (d + s + BitVec.ofNat w (f.getLsbD 2).toNat)
        ∧ (aluFn 3 f d s n).2.getLsbD 2 = decide (2 ^ w ≤ d.toNat + s.toNat + (f.getLsbD 2).toNat)
        ∧ (aluFn 3 f d s n).2.getLsbD 3 = decide ((d + s + BitVec.ofNat w (f.getLsbD 2).toNat).toInt ≠ d.toInt + s.toInt + (f.getLsbD 2).toNat))
      ∧ ((aluFn 4 f d s n).1 = some (d - s - BitVec.ofNat w (!f.getLsbD 2).toNat)
        ∧ (aluFn 4 f d s n).2.getLsbD 2 = decide (s.toNat + (!f.getLsbD 2).toNat ≤ d.toNat)
        ∧ (aluFn 4 f d s n).2.getLsbD 3 = decide ((d - s - BitVec.ofNat w (!f.getLsbD 2).toNat).toInt ≠ d.toInt - s.toInt - (!f.getLsbD 2).toNat))
      ∧ (aluFn 5 f d s n).1 = some (d &&& s) ∧ (aluFn 6 f d s n).1 = some (d ||| s) ∧ (aluFn 7 f d s n).1 = some (d ^^^ s)
      ∧ ((aluFn 8 f d s n).1 = some (d <<< n) ∧ (aluFn 9 f d s n).1 = some (d >>> n)
        ∧ (aluFn 10 f d s n).1 = some (d.sshiftRight n) ∧ (aluFn 11 f d s n).1 = some (d.rotateLeft (n % w)))
      ∧ (∀ k ∈ [8, 9, 10, 11], (aluFn k f d s 0).2.getLsbD 2 = false)
      ∧ (0 < n → n ≤ w → (aluFn 8 f d s n).2.getLsbD 2 = d.getLsbD (w - n) ∧ (aluFn 9 f d s n).2.getLsbD 2 = d.getLsbD (n - 1)
        ∧ (aluFn 10 f d s n).2.getLsbD 2 = d.getLsbD (n - 1) ∧ (aluFn 11 f d s n).2.getLsbD 2 = d.getLsbD (w - n))
      ∧ (w < n → (aluFn 8 f d s n).2.getLsbD 2 = false ∧ (aluFn 9 f d s n).2.getLsbD 2 = false
        ∧ (aluFn 10 f d s n).2.getLsbD 2 = d.msb ∧ (aluFn 11 f d s n).2.getLsbD 2 = (d.rotateLeft (n % w)).getLsbD 0)
      ∧ aluFn 12 f d s n = (none, (aluFn 2 f d s n).2) ∧ aluFn 13 f d s n = (none, (aluFn 5 f d s n).2)
      ∧ (aluFn 14 f d s n).1 = some (d * s)
      ∧ (aluFn 15 f d s n).1 = some (((d.setWidth (2 * w) * s.setWidth (2 * w)) >>> w).setWidth w)
      ∧ (∀ k < 16, k ≠ 0 → ∀ r, (aluFn k f d s n).1 = some r →
          (aluFn k f d s n).2.getLsbD 0 = decide (r = 0) ∧ (aluFn k f d s n).2.getLsbD 1 = r.msb)
      ∧ (∀ k < 16, (aluFn k f d s n).2.getLsbD 4 = f.getLsbD 4 ∧ (aluFn k f d s n).2.getLsbD 5 = f.getLsbD 5)
      ∧ (∀ k ∈ [5, 6, 7, 13, 14, 15], (aluFn k f d s n).2.getLsbD 2 = f.getLsbD 2)
      ∧ ∀ k ∈ [5, 6, 7, 8, 9, 10, 11, 13, 14, 15], (aluFn k f d s n).2.getLsbD 3 = f.getLsbD 3)
  ∧ (∀ (s : State) (x : Env) (fn d r : Fin 16), s.dev.ready x →
      exec (.alu x fn d r) s = .next (s.turned (advance (s.dev.updEngine x.e.val (fun y =>
        let t := aluFn fn.val y.flags (y.rg d.val) (y.rg r.val) ((y.rg r.val).toNat % 64)
        { (match t.1 with | some v => y.setG d.val v | none => y) with flags := t.2 })) x.e.val 1)))
  ∧ (∀ (s : State) (x : Env) (fn d r : Fin 16), s.dev.ready x → d.val % 2 = 0 → r.val % 2 = 0 →
      exec (.alup x fn d r) s = .next (s.turned (advance (s.dev.updEngine x.e.val (fun y =>
        let t := aluFn fn.val y.flags (y.rp d.val) (y.rp r.val) ((y.rg r.val).toNat % 64)
        { (match t.1 with | some v => y.setP d.val v | none => y) with flags := t.2 })) x.e.val 1)))

/-- R252: the immediate instructions of a ready engine complete in place. Each changes its destination (a word, or an even
pair, low half first), the flags of its operation, and what completing an instruction changes: the PC moves by the instruction's
words. Immediates are sign-extended; a shift takes its type and amount from the immediate, and SHI by 18 or more is ILLEGAL. -/
def Obligations.ArithmeticInstructions : Prop :=
  (∀ (s : State) (x : Env) (d : Fin 16) (i : ImmI), s.dev.ready x → i.ok = true →
      exec (.li x d i) s = .next (s.turned (advance (s.dev.updEngine x.e.val (fun y => y.setG d.val (BitVec.ofInt 18 i.val))) x.e.val i.len))
      ∧ exec (.addi x d i) s = .next (s.turned (advance (s.dev.updEngine x.e.val (fun y => y.takeWord d.val
          (y.rg d.val + BitVec.ofInt 18 i.val, (aluFn 1 y.flags (y.rg d.val) (BitVec.ofInt 18 i.val) 0).2))) x.e.val i.len))
      ∧ exec (.andi x d i) s = .next (s.turned (advance (s.dev.updEngine x.e.val (fun y => y.takeWord d.val
          (y.rg d.val &&& BitVec.ofInt 18 i.val, (aluFn 5 y.flags (y.rg d.val) (BitVec.ofInt 18 i.val) 0).2))) x.e.val i.len))
      ∧ exec (.ori x d i) s = .next (s.turned (advance (s.dev.updEngine x.e.val (fun y => y.takeWord d.val
          (y.rg d.val ||| BitVec.ofInt 18 i.val, (aluFn 6 y.flags (y.rg d.val) (BitVec.ofInt 18 i.val) 0).2))) x.e.val i.len))
      ∧ exec (.xori x d i) s = .next (s.turned (advance (s.dev.updEngine x.e.val (fun y => y.takeWord d.val
          (y.rg d.val ^^^ BitVec.ofInt 18 i.val, (aluFn 7 y.flags (y.rg d.val) (BitVec.ofInt 18 i.val) 0).2))) x.e.val i.len))
      ∧ exec (.cmpi x d i) s = .next (s.turned (advance (s.dev.updEngine x.e.val (fun y =>
          { y with flags := (aluFn 12 y.flags (y.rg d.val) (BitVec.ofInt 18 i.val) 0).2 })) x.e.val i.len)))
  ∧ (∀ (s : State) (x : Env) (d : Fin 16) (i : ImmI), s.dev.ready x → i.ok = true → d.val % 2 = 0 →
      exec (.lip x d i) s = .next (s.turned (advance (s.dev.updEngine x.e.val (fun y => y.setP d.val (BitVec.ofInt 36 i.val))) x.e.val i.len))
      ∧ exec (.addip x d i) s = .next (s.turned (advance (s.dev.updEngine x.e.val (fun y => y.takePair d.val
          (y.rp d.val + BitVec.ofInt 36 i.val, (aluFn 1 y.flags (y.rp d.val) (BitVec.ofInt 36 i.val) 0).2))) x.e.val i.len))
      ∧ exec (.cmpip x d i) s = .next (s.turned (advance (s.dev.updEngine x.e.val (fun y =>
          { y with flags := (aluFn 12 y.flags (y.rp d.val) (BitVec.ofInt 36 i.val) 0).2 })) x.e.val i.len)))
  ∧ (∀ (s : State) (x : Env) (d : Fin 16) (i : ImmI), s.dev.ready x → i.ext = none → i.imm7.toNat % 32 < 18 →
      exec (.shi x d i) s = .next (s.turned (advance (s.dev.updEngine x.e.val (fun y =>
        let t := aluFn (8 + i.imm7.toNat / 32) y.flags (y.rg d.val) (y.rg d.val) (i.imm7.toNat % 32)
        { (match t.1 with | some v => y.setG d.val v | none => y) with flags := t.2 })) x.e.val 1)))
  ∧ (∀ (s : State) (x : Env) (d : Fin 16) (i : ImmI), s.dev.ready x → i.ext = none → 18 ≤ i.imm7.toNat % 32 →
      exec (.shi x d i) s = .next (s.turned (trapHere s.dev x.e.val 1 ((wordI 0x08 d.val i).setWidth 54))))
  ∧ (∀ (s : State) (x : Env) (d : Fin 16) (i : ImmI), s.dev.ready x → i.ext = none → d.val % 2 = 0 →
      exec (.ship x d i) s = .next (s.turned (advance (s.dev.updEngine x.e.val (fun y =>
        let t := aluFn (8 + i.imm7.toNat / 32) y.flags (y.rp d.val) (y.rp d.val) (i.imm7.toNat % 32)
        { (match t.1 with | some v => y.setP d.val v | none => y) with flags := t.2 })) x.e.val 1)))
  ∧ (∀ (m : BitVec 7) (w : Word), (⟨m, none⟩ : ImmI).val = m.toInt ∧ (⟨0, some w⟩ : ImmI).val = w.toInt)

/-- R255: the address register instructions of a ready engine. Only APUT, AMOV, ASPC and ALI write the space code; ACMP writes
the flags of a difference and the others none. R242: "Address arithmetic wraps modulo 2⁵² and never changes the space code." -/
def Obligations.AddressRegisterInstructions : Prop :=
  (∀ (s : State) (x : Env), s.dev.ready x →
      (∀ (a : Fin 8) (g : Fin 16), g.val ≤ 13 → exec (.aput x a g) s = .next (s.turned (advance (s.dev.updEngine x.e.val (fun y =>
          y.setA a.val (y.rg (g.val + 2) ++ y.rg (g.val + 1) ++ y.rg g.val))) x.e.val 1)))
      ∧ (∀ (a : Fin 8) (g : Fin 16), g.val ≤ 13 → exec (.aget x g a) s = .next (s.turned (advance (s.dev.updEngine x.e.val (fun y =>
          ((y.setG g.val ((y.ra a.val).extractLsb' 0 18)).setG (g.val + 1) ((y.ra a.val).extractLsb' 18 18)).setG (g.val + 2)
            ((y.ra a.val).extractLsb' 36 18))) x.e.val 1)))
      ∧ (∀ (a m : Fin 8), exec (.amov x a m) s = .next (s.turned (advance (s.dev.updEngine x.e.val (fun y =>
          y.setA a.val (y.ra m.val))) x.e.val 1)))
      ∧ (∀ (a : Fin 8) (g : Fin 16), exec (.aaddw x a g) s = .next (s.turned (advance (s.dev.updEngine x.e.val (fun y =>
          y.setA a.val (moveAddr (y.ra a.val) (y.rg g.val).toInt))) x.e.val 1)))
      ∧ (∀ (a : Fin 8) (g : Fin 16), g.val % 2 = 0 → exec (.aaddp x a g) s = .next (s.turned (advance (s.dev.updEngine x.e.val (fun y =>
          y.setA a.val (moveAddr (y.ra a.val) (y.rp g.val).toInt))) x.e.val 1)))
      ∧ (∀ (a m : Fin 8), exec (.acmp x a m) s = .next (s.turned (advance (s.dev.updEngine x.e.val (fun y =>
          { y with flags := (aluFn 12 y.flags (y.ra a.val) (y.ra m.val) 0).2 })) x.e.val 1)))
      ∧ (∀ (a : Fin 8) (n : BitVec 2), exec (.aspc x a n) s = .next (s.turned (advance (s.dev.updEngine x.e.val (fun y =>
          y.setA a.val (n ++ (y.ra a.val).extractLsb' 0 52))) x.e.val 1)))
      ∧ (∀ (a : Fin 8) (g : Fin 16), g.val % 2 = 0 → exec (.afrm x a g) s = .next (s.turned (advance (s.dev.updEngine x.e.val (fun y =>
          y.setA a.val ((y.ra a.val).extractLsb' 52 2 ++ BitVec.ofNat 52
            (((y.rg (g.val + 1)).toNat % 2 ^ 8 * 2 ^ 16 + (y.rg g.val).toNat % 2 ^ 16) * 32768)))) x.e.val 1)))
      ∧ (∀ (a : Fin 8) (g : Fin 16), g.val % 2 = 0 → exec (.atbl x a g) s = .next (s.turned (advance (s.dev.updEngine x.e.val (fun y =>
          y.setA a.val (moveAddr (y.ra a.val)
            (((y.rg (g.val + 1)).toNat % 2 ^ 8 * 2 ^ 16 + (y.rg g.val).toNat % 2 ^ 16) * 1024 : Nat)))) x.e.val 1)))
      ∧ (∀ (a : Fin 8) (i : ImmA), i.ok = true → exec (.aaddi x a i) s = .next (s.turned (advance (s.dev.updEngine x.e.val (fun y =>
          y.setA a.val (moveAddr (y.ra a.val) i.val))) x.e.val i.len)))
      ∧ (∀ (a : Fin 8) (sp : BitVec 2) (i : ImmL), i.ok = true → exec (.ali x a sp i) s = .next (s.turned (advance
          (s.dev.updEngine x.e.val (fun y => y.setA a.val (sp ++ BitVec.ofNat 52 i.val))) x.e.val i.len))))
  ∧ (∀ (v : Info) (k : Int), spaceOf (moveAddr v k) = spaceOf v ∧ (waddr (moveAddr v k) : Int) = ((waddr v : Int) + k) % 2 ^ 52)

/-- R240, R256, R257: control transfer and status registers of a ready engine. BR and DJNZ count from their own address, CALL
links through G15, JC and CALL take their target from the extension word; a branch whose condition (of the sixteen, on Z, N, C,
V and F) does not hold goes on. MFS and MTS copy a status
register, the hidden ones and writes but of FLAGS in supervisor mode only. R240: a status register that supervisor code may
write reads back as written in its field, and the others of the engine read as before: CVIEW, TPC, TVAL, IUBASE (its low bits
zero), BUDGET, and of MODE only TRANS and GUARD; registers, memories and buffers of the engine are as before. That a write of a
status register which is read-only is ignored is the model's reading (log entry 43). -/
def Obligations.ControlAndStatusInstructions : Prop :=
  (∀ (s : State) (x : Env), s.dev.ready x →
      let y := s.dev.engine x.e.val
      (∀ (c : Fin 16) (off : BitVec 8), exec (.br x c off) s = .next (s.turned
          (if condHolds y.flags c.val then jumpTo s.dev x.e.val (y.pc + off.signExtend 14) else advance s.dev x.e.val 1)))
      ∧ (∀ (c : Fin 16) (t : Word), t.toNat < 2 ^ 14 → exec (.jc x c 0 t) s = .next (s.turned
          (if condHolds y.flags c.val then jumpTo s.dev x.e.val (t.setWidth 14) else advance s.dev x.e.val 2)))
      ∧ (∀ (t : Word), t.toNat < 2 ^ 14 → exec (.call x t) s = .next (s.turned (jumpTo (s.dev.updEngine x.e.val (fun z =>
          z.setG 15 ((y.pc + 2).setWidth 18))) x.e.val (t.setWidth 14))))
      ∧ (∀ (g : Fin 16), exec (.jr x g) s = .next (s.turned (jumpTo s.dev x.e.val ((y.rg g.val).setWidth 14))))
      ∧ (∀ (g : Fin 16) (off : BitVec 8), exec (.djnz x g off) s = .next (s.turned
          (if y.rg g.val = 1 then advance (s.dev.updEngine x.e.val (fun z => z.setG g.val 0)) x.e.val 1
           else jumpTo (s.dev.updEngine x.e.val (fun z => z.setG g.val (y.rg g.val - 1))) x.e.val (y.pc + off.signExtend 14))))
      ∧ (∀ (g : Fin 16) (n : BitVec 8), y.sup = true ∨ statusHidden n.toNat = false → exec (.mfs x g n) s = .next (s.turned
          (advance (s.dev.updEngine x.e.val (fun z => z.setG g.val (statusRead s.dev x.e.val n.toNat))) x.e.val 1)))
      ∧ (∀ (g : Fin 16) (n : BitVec 8), y.sup = true ∨ n = 0 → exec (.mts x n g) s = .next (s.turned
          (advance (s.dev.updEngine x.e.val (fun z => statusWrite z n.toNat (z.rg g.val))) x.e.val 1))))
  ∧ (∀ f : BitVec 6, (List.range 16).map (condHolds f) =
      let z := f.getLsbD 0
      let n := f.getLsbD 1
      let c := f.getLsbD 2
      let v := f.getLsbD 3
      [true, z, !z, c, !c, n, !n, v, !v, c && !z, !c || z, n == v, n != v, !z && n == v, z || n != v, f.getLsbD 4])
  ∧ (∀ (y : Engine) (w : Word),
      (statusWrite y 0 w).flags = w.setWidth 6
      ∧ ((statusWrite y 1 w).trans = w.getLsbD 1 ∧ (statusWrite y 1 w).guard = w.getLsbD 2 ∧ (statusWrite y 1 w).sup = y.sup
        ∧ (statusWrite y 1 w).intrap = y.intrap)
      ∧ (∀ (d : Dev) (e : Nat), (∀ n ∈ [0, 2, 3, 4, 5, 6, 7, 8, 0x0D, 0x0E, 0x0F], ∀ z : Engine, z = statusWrite y n w →
          statusRead (d.updEngine e (fun _ => z)) e n = w &&& (BitVec.ofNat 18 (2 ^ (if n = 0 then 6 else if n = 2 then 12 else if n = 3 then 6
            else if n = 4 then 14 else if n = 5 then 3 else if n = 0x0D then 15 else 18) - 1)))
        ∧ statusRead (d.updEngine e (fun _ => statusWrite y 9 w)) e 9 = w &&& 0x3FC0
        ∧ statusRead (d.updEngine e (fun _ => statusWrite y 0x0C w)) e 0x0C = w &&& 0x3FF0)
      ∧ (∀ n ∈ [0x0A, 0x0B, 0x10, 0x11, 0x12, 0x13, 0x14], statusWrite y n w = y)
      ∧ (∀ (d : Dev) (e n m : Nat), n ≠ m →
          statusRead (d.updEngine e (fun _ => statusWrite y n w)) e m = statusRead (d.updEngine e (fun _ => y)) e m)
      ∧ ∀ n, (statusWrite y n w).g = y.g ∧ (statusWrite y n w).a = y.a ∧ (statusWrite y n w).pc = y.pc ∧ (statusWrite y n w).imem = y.imem
          ∧ (statusWrite y n w).scratch = y.scratch ∧ (statusWrite y n w).sb = y.sb ∧ (statusWrite y n w).nt = y.nt
          ∧ (statusWrite y n w).mview = y.mview ∧ (statusWrite y n w).rsv = y.rsv ∧ (statusWrite y n w).wake = y.wake
          ∧ (statusWrite y n w).st = y.st)

/-- R248: an instruction that completes in user mode takes one from a budget that is not zero, and at zero the BUDGET trap is
due, which the engine takes before its next instruction; in supervisor mode, or with no budget, nothing counts; zero written to
both BUDGET registers disarms it and withdraws a trap that is due. Completing also moves the PC and leaves registers, flags and buffers as the instruction made
them. -/
def Obligations.UserInstructionsSpendBudget : Prop :=
  (∀ (d : Dev) (e : Nat) (pc : BitVec 14) (after : Dev), (after = jumpTo d e pc ∨ ∃ len, pc = (d.engine e).pc + BitVec.ofNat 14 len ∧ after = advance d e len) →
    let y := d.engine e
    let z := after.engine e
    z.pc = pc ∧ z.g = y.g ∧ z.a = y.a ∧ z.flags = y.flags ∧ z.sup = y.sup ∧ z.sb = y.sb ∧ z.st = .running
    ∧ (y.sup = true ∨ y.budget = 0 → z.budget = y.budget ∧ z.budgetDue = y.budgetDue)
    ∧ (y.sup = false → y.budget ≠ 0 → z.budget = y.budget - 1 ∧ (z.budget = 0 → z.budgetDue = true))
    ∧ ∀ k, k ≠ e → after.engine k = d.engine k)
  ∧ (∀ (s : State) (x : Env) (fn d r : Fin 16), s.dev.engSt x.e.val = .running → (s.dev.engine x.e.val).wait = .none →
      (s.dev.engine x.e.val).fault = none → (s.dev.engine x.e.val).budgetDue = true → (s.dev.engine x.e.val).sup = false →
      s.dev.quadRuns x.e.val = true →
      exec (.alu x fn d r) s = .next (s.turned (trap (s.dev.updEngine x.e.val (fun y => { y with budgetDue := false })) x.e.val 17
        (s.dev.engine x.e.val).pc 0)))
  ∧ (∀ y : Engine, (statusWrite (statusWrite y 0x0E 0) 0x0F 0).budget = 0
      ∧ (statusWrite (statusWrite y 0x0E 0) 0x0F 0).budgetDue = false)

/-- R267, R269, R271: what trap entry saves, sets and clears, and where it goes; what earlier instructions left in the store
buffer stays there, and the combining buffer drains behind it; a trap inside a trap halts the engine instead, with DOUBLE and the
cause recorded. No other engine and no byte of memory changes. -/
def Obligations.TrapEntrySavesState : Prop :=
  ∀ (d : Dev) (e cause : Nat) (tpc : BitVec 14) (tval : Info) (imp : Bool), cause < 19 →
    let y := d.engine e
    let t := trap d e cause tpc tval imp
    let z := t.engine e
    (y.intrap = false → z.tstat.getLsbD 0 = y.sup ∧ z.tstat.getLsbD 1 = y.trans ∧ z.tstat.getLsbD 2 = y.guard
      ∧ z.sup = true ∧ z.trans = false ∧ z.guard = false ∧ z.intrap = true ∧ z.tpc = tpc ∧ z.tval = tval
      ∧ z.tcause.toNat = cause + (if imp then 32 else 0) ∧ z.rsv = none ∧ z.nt = [] ∧ y.sb <+: z.sb ∧ z.st = .running
      ∧ z.pc = BitVec.ofNat 14 (64 * y.tvec.toNat + 2 * cause) ∧ z.g = y.g ∧ z.a = y.a ∧ z.flags = y.flags ∧ t.sources = d.sources)
    ∧ (y.intrap = true → z.st = .halted ∧ z.double = true ∧ z.lastCause.toNat = cause ∧ z.pc = y.pc ∧ z.g = y.g)
    ∧ (∀ k, k ≠ e → t.engine k = d.engine k) ∧ t.mem = d.mem

/-- R247, R249, R267, R268: before an instruction runs. Outside its fetch bound user code traps with SPACE; an illegal word
traps with ILLEGAL, a privileged one in user mode with PRIV, each with the word in TVAL and the instruction's own address in
TPC. Shown on an odd pair, on a word that is no encoding of R249 to R258, and on a write of a status register. -/
def Obligations.IllegalAndPrivilegedWords : Prop :=
  (∀ (s : State) (x : Env) (fn d r : Fin 16), s.dev.ready x → (d.val % 2 = 1 ∨ r.val % 2 = 1) →
      exec (.alup x fn d r) s = .next (s.turned (trapHere s.dev x.e.val 1 ((wordR 1 d.val r.val fn.val).setWidth 54))))
  ∧ (∀ (s : State) (x : Env) (fn d r : Fin 16) (w : Word), s.dev.ready { x with raw := none } → x.raw = some w → undefinedWord w = true →
      exec (.alu x fn d r) s = .next (s.turned (trapHere s.dev x.e.val 1 (w.setWidth 54))))
  ∧ (∀ (s : State) (x : Env) (g : Fin 16) (n : BitVec 8), s.dev.ready x → (s.dev.engine x.e.val).sup = false → n ≠ 0 →
      exec (.mts x n g) s = .next (s.turned (trapHere s.dev x.e.val 2 ((wordB 0x31 g.val n.toNat).setWidth 54))))
  ∧ (∀ (s : State) (x : Env) (fn d r : Fin 16) (y : Engine), y = s.dev.engine x.e.val → s.dev.engSt x.e.val = .running → y.wait = .none →
      y.fault = none → y.budgetDue = false → eccWith x.fetch (Tab.get 0 y.imemBad y.pc.toNat) = .ok → y.sup = false →
      y.pc.toNat < 16 * y.iubase.toNat → s.dev.quadRuns x.e.val = true → x.raw.any undefinedWord = false →
      exec (.alu x fn d r) s = .next (s.turned (trapHere s.dev x.e.val 6 (y.pc.setWidth 54))))

-- engine instructions that access memory (09_fuvos_engines.md, 10_engine_memory_model.md)

/-- R241, R244, R253: loads of a ready engine. From data scratch they take all 18 bits; from a line its memory-view cache holds
they take the two data bytes with both marks set exactly when the line is poisoned, and the cache notes the use. The update
forms then move the address register by the offset, in words or pairs. R265: IFILL of an untranslated line the cache holds
without poison fills 16 instruction words, bits 17:0 of each pair of the line; from a poisoned line nothing is written and the
engine traps with LOAD_FAULT; a source or destination out of step traps with ALIGN. -/
def Obligations.LoadsAndInstructionFill : Prop :=
  (∀ (s : State) (x : Env) (g : Fin 16) (a : Fin 8) (o : OffM), s.dev.ready x → o.ok = true →
      let e := x.e.val
      let y := s.dev.engine e
      let a0 := y.ra a.val
      let a1 := moveAddr a0 o.val
      let a2 := moveAddr a0 (o.val * 2)
      (s.dev.scratchGood x a1 1 → exec (.ldw x g a o) s = .next (s.turned (advance (s.dev.updEngine e (fun z =>
          z.setG g.val (s.dev.scratchWord e (waddr a1)))) e o.len)))
      ∧ (s.dev.scratchGood x a2 2 → g.val % 2 = 0 → exec (.ldp x g a o) s = .next (s.turned (advance (s.dev.updEngine e (fun z =>
          (z.setG g.val (s.dev.scratchWord e (waddr a2))).setG (g.val + 1) (s.dev.scratchWord e (waddr a2 + 1)))) e o.len)))
      ∧ (s.dev.scratchGood x a0 1 → exec (.ldwu x g a o) s = .next (s.turned (advance (s.dev.updEngine e (fun z =>
          (z.setG g.val (s.dev.scratchWord e (waddr a0))).setA a.val a1)) e o.len)))
      ∧ (s.dev.scratchGood x a0 2 → g.val % 2 = 0 → exec (.ldpu x g a o) s = .next (s.turned (advance (s.dev.updEngine e (fun z =>
          ((z.setG g.val (s.dev.scratchWord e (waddr a0))).setG (g.val + 1) (s.dev.scratchWord e (waddr a0 + 1))).setA a.val a2)) e o.len)))
      ∧ (∀ m, s.dev.cachedAt x a1 1 m → exec (.ldw x g a o) s = .next (s.turned (advance ((mvCheck s.dev e (waddr a1 / 32) x.mview).updEngine e
          (fun z => z.setG g.val (loadedWord m.data m.poison (waddr a1 % 32)))) e o.len)))
      ∧ (∀ m, s.dev.cachedAt x a2 2 m → g.val % 2 = 0 → exec (.ldp x g a o) s = .next (s.turned (advance
          ((mvCheck s.dev e (waddr a2 / 32) x.mview).updEngine e (fun z => (z.setG g.val (loadedWord m.data m.poison (waddr a2 % 32))).setG
            (g.val + 1) (loadedWord m.data m.poison (waddr a2 % 32 + 1)))) e o.len)))
      ∧ ∀ (data : Line) (poison : Bool) (k : Nat), k < 32 → (loadedWord data poison k).setWidth 16 = lineWord data k
          ∧ (loadedWord data poison k).extractLsb' 16 2 = if poison then 3 else 0)
  ∧ (∀ (s : State) (x : Env) (a : Fin 8) (g : Fin 16), s.dev.ready x →
      let e := x.e.val
      let y := s.dev.engine e
      let a0 := y.ra a.val
      let dest := (y.rg g.val).toNat % 2 ^ 14
      (∀ m, s.dev.cachedAt x a0 1 m → waddr a0 % 32 = 0 → dest % 16 = 0 → m.poison = false →
        ∀ d, d = runIfill s.dev x a.val g.val → exec (.ifill x a g) s = .next (s.turned d) ∧ d.mem = s.dev.mem ∧ (d.engine e).pc = y.pc + 1 ∧ (d.engine e).g = y.g
          ∧ (∀ j < 16, d.imemWord e (dest + j) = (lineWord m.data (2 * j + 1)).setWidth 2 ++ lineWord m.data (2 * j))
          ∧ ∀ i, (i < dest ∨ dest + 16 ≤ i) → Tab.find (d.engine e).imem i = Tab.find y.imem i)
      ∧ (∀ m, s.dev.cachedAt x a0 1 m → waddr a0 % 32 = 0 → dest % 16 = 0 → m.poison = true →
        exec (.ifill x a g) s = .next (s.turned (trapHere (mvCheck s.dev e (waddr a0 / 32) x.mview) e 15 a0)))
      ∧ ((waddr a0 % 32 ≠ 0 ∨ dest % 16 ≠ 0) → exec (.ifill x a g) s = .next (s.turned (trapHere s.dev e 5 a0))))

/-- R254, R278, R291: a load of a line the engine has not cached sends one read for a shared copy to the line's home slice and
waits; LRP of a cached line loads the pair and reserves it; SCP without the reservation of its pair fails with Z = 0 and F = 1,
stores nothing and ends the reservation, and with it sends its pair to the slice, which settles it. -/
def Obligations.RemoteLoadsAndAtomics : Prop :=
  ∀ (s : State) (x : Env) (g : Fin 16) (a : Fin 8) (o : OffM), s.dev.ready x → o.ok = true →
    let e := x.e.val
    let y := s.dev.engine e
    let a1 := moveAddr (y.ra a.val) o.val
    let a2 := moveAddr (y.ra a.val) (o.val * 2)
    (s.dev.plainAt e a1 1 → y.cached (waddr a1 / 32) = none → y.lineWaits (waddr a1 / 32) = false → s.dev.recovering e = false →
      ∀ d, d = runLoad s.dev x .plain g.val a.val o 1 false → exec (.ldw x g a o) s = .next (s.turned d) ∧ d.mem = s.dev.mem ∧ (d.engine e).pc = y.pc ∧ (d.engine e).g = y.g
        ∧ (d.engine e).wait = .load .plain g.val a.val none a1 (waddr a1 / 32) [.from_ s.dev.nextId (waddr a1 % 32)] [s.dev.nextId] o.len
        ∧ ∃ q, d.xact? s.dev.nextId = some q ∧ q.req.op = .readShared ∧ q.req.dpa = 64 * (waddr a1 / 32) ∧ q.phase = .ingress)
    ∧ (∀ m, s.dev.cachedAt x a2 2 m → g.val % 2 = 0 → waddr a2 % 2 = 0 → exec (.lrp x g a o) s = .next (s.turned (advance
        ((mvCheck s.dev e (waddr a2 / 32) x.mview).updEngine e (fun z => { ((z.setG g.val (loadedWord m.data m.poison (waddr a2 % 32))).setG
          (g.val + 1) (loadedWord m.data m.poison (waddr a2 % 32 + 1))) with rsv := some (2 * waddr a2) })) e o.len)))
    ∧ (s.dev.plainAt e a2 2 → g.val % 2 = 0 → waddr a2 % 2 = 0 → y.rsv ≠ some (2 * waddr a2) → exec (.scp x g a o) s = .next (s.turned
        (advance (s.dev.updEngine e (fun z => { z with
          flags := setFlag (setFlag z.flags 0 false) 4 true, rsv := none, scpFails := z.scpFails + 1 })) e o.len)))
    ∧ (s.dev.plainAt e a2 2 → g.val % 2 = 0 → waddr a2 % 2 = 0 → y.rsv = some (2 * waddr a2) → s.dev.recovering e = false →
        y.lineWaits (waddr a2 / 32) = false →
        ∀ d, d = runScp s.dev x g.val a.val o → exec (.scp x g a o) s = .next (s.turned d) ∧ d.mem = s.dev.mem ∧ (d.engine e).pc = y.pc
          ∧ (d.engine e).wait = .scp s.dev.nextId o.len
          ∧ ∃ q, d.xact? s.dev.nextId = some q ∧ q.req.op = .scp ∧ q.req.dpa = 64 * (waddr a2 / 32) ∧ q.phase = .ingress
            ∧ q.req.mask = wordMask (waddr a2 % 32) ||| wordMask (waddr a2 % 32 + 1)
            ∧ lineWord q.req.data (waddr a2 % 32) = (y.rg g.val).setWidth 16
            ∧ lineWord q.req.data (waddr a2 % 32 + 1) = (y.rg (g.val + 1)).setWidth 16)

/-- R241, R253, R262: stores of a ready engine with room in its store buffer. An untranslated store to device memory enters the
buffer as one write of its line, with the two bytes of each word and poison where a mark is set; a non-temporal one goes to the
combining buffer and takes its line from the memory-view cache; a store to scratch is done at once; ZERO enters as a full line
of zeros without poison. No byte of main memory changes yet. -/
def Obligations.StoresEnterBuffers : Prop :=
  ∀ (s : State) (x : Env) (g : Fin 16) (a : Fin 8) (o : OffM), s.dev.ready x → o.ok = true →
    (s.dev.engine x.e.val).sbFull = false →
    let e := x.e.val
    let y := s.dev.engine e
    let a0 := y.ra a.val
    let a1 := moveAddr a0 o.val
    let a2 := moveAddr a0 (o.val * 2)
    let w := y.rg g.val
    let v := y.rg (g.val + 1)
    (s.dev.plainAt e a1 1 → exec (.stw x g a o) s = .next (s.turned (advance (s.dev.updEngine e (fun z =>
        z.bufferStore (plainStore s.dev a1 [w]))) e o.len)))
    ∧ (s.dev.plainAt e a2 2 → g.val % 2 = 0 → exec (.stp x g a o) s = .next (s.turned (advance (s.dev.updEngine e (fun z =>
        z.bufferStore (plainStore s.dev a2 [w, v]))) e o.len)))
    ∧ (s.dev.plainAt e a0 1 → exec (.stwu x g a o) s = .next (s.turned (advance (s.dev.updEngine e (fun z =>
        (z.bufferStore (plainStore s.dev a0 [w])).setA a.val a1)) e o.len)))
    ∧ (s.dev.plainAt e a0 2 → g.val % 2 = 0 → exec (.stpu x g a o) s = .next (s.turned (advance (s.dev.updEngine e (fun z =>
        (z.bufferStore (plainStore s.dev a0 [w, v])).setA a.val a2)) e o.len)))
    ∧ (s.dev.plainAt e a1 1 → exec (.stwnt x g a o) s = .next (s.turned (advance (s.dev.updEngine e (fun z =>
        z.combine a1 ⟨2 * waddr a1, {}⟩ w)) e o.len)))
    ∧ (s.dev.plainAt e a2 2 → g.val % 2 = 0 → exec (.stpnt x g a o) s = .next (s.turned (advance (s.dev.updEngine e (fun z =>
        (z.combine a2 ⟨2 * waddr a2, {}⟩ w).combine (moveAddr a2 1) ⟨2 * (waddr a2 + 1), {}⟩ v)) e o.len)))
    ∧ (s.dev.scratchGood x a1 1 → ∀ d, d = runStore s.dev x false g.val a.val o 1 false → exec (.stw x g a o) s = .next (s.turned d) ∧ d.scratchWord e (waddr a1) = w ∧ d.mem = s.dev.mem
        ∧ (d.engine e).pc = y.pc + BitVec.ofNat 14 o.len ∧ ∀ i, i ≠ waddr a1 → Tab.find (d.engine e).scratch i = Tab.find y.scratch i)
    ∧ (s.dev.plainAt e a0 1 → exec (.zero x a) s = .next (s.turned (advance (s.dev.updEngine e (fun z => z.bufferStore
        (entryOf .zero a0 {} [{ line := waddr a0 / 32, data := 0, mask := BitVec.allOnes 64, poison := false }] (decide (s.dev.limit ≤ 2 * waddr a0)) true))) e 1)))
    ∧ ∀ (l : Loc) (t : Word), (wordWrite l t).line = l.line ∧ lineWord (wordWrite l t).data l.word = t.setWidth 16
        ∧ (wordWrite l t).poison = decide (t.extractLsb' 16 2 ≠ 0) ∧ ∀ i < 64, (wordWrite l t).mask.getLsbD i = decide (i / 2 = l.word)

/-- R259, R260, R261: maintenance of a ready engine in supervisor mode. A CMO by address or by set and way and a LABI of each
form enter the store buffer, a combining line of the CMO's line first, and the engine goes on; a LABW has sent its six-word descriptor and waits for the LAB. -/
def Obligations.MaintenanceInstructions : Prop :=
  ∀ (s : State) (x : Env) (a : Fin 8), s.dev.ready x → (s.dev.engine x.e.val).sup = true →
    let e := x.e.val
    let y := s.dev.engine e
    let a0 := y.ra a.val
    (∀ (kind : BitVec 2) (coh unlock : Bool), y.sbFull = false → kind ≠ 3 → (unlock = true → kind ≠ 0) → s.dev.plainAt e a0 1 →
      exec (.cmo x kind false a coh unlock 0) s = .next (s.turned (advance (s.dev.updEngine e (fun z => z.enterDrained
        (entryOf (.cmo kind.toNat coh unlock) a0 {} [{ line := waddr a0 / 32, data := 0, mask := 0, poison := false }] (decide (s.dev.limit ≤ 2 * waddr a0)) true))) e 1)))
    ∧ (∀ (kind : BitVec 2) (unlock : Bool) (g : Fin 16), y.sbFull = false → kind ≠ 3 → (unlock = true → kind ≠ 0) → g.val % 2 = 0 →
      exec (.cmo x kind true a false unlock g) s = .next (s.turned (advance (s.dev.updEngine e (fun z => z.enterDrained
        (entryOf (.cmoSw kind.toNat unlock ((y.rp g.val).toNat % 16) ((y.rp g.val).toNat / 16 % 2 ^ 13) ((y.rp g.val).toNat / 2 ^ 17 % 16))
          a0 {} [] false true))) e 1)))
    ∧ (y.sbFull = false → exec (.labi x 2 a) s = .next (s.turned (advance (s.dev.updEngine e (fun z => z.enterDrained
        (entryOf (.labi 2 0 0 0) a0 {} [] false true))) e 1)))
    ∧ (y.sbFull = false → s.dev.scratchGood x a0 1 → exec (.labi x 1 a) s = .next (s.turned (advance (s.dev.updEngine e (fun z => z.enterDrained
        (entryOf (.labi 1 ((s.dev.scratchWord e (waddr a0)).extractLsb' 0 12) ((s.dev.scratchWord e (waddr a0)).extractLsb' 12 2) 0)
          a0 {} [] false true))) e 1)))
    ∧ (y.sbFull = false → s.dev.scratchGood x a0 3 → exec (.labi x 0 a) s = .next (s.turned (advance (s.dev.updEngine e (fun z => z.enterDrained
        (entryOf (.labi 0 ((s.dev.scratchWord e (waddr a0)).extractLsb' 0 12) ((s.dev.scratchWord e (waddr a0)).extractLsb' 12 2)
          ((s.dev.scratchWord e (waddr a0 + 1)).toNat + 2 ^ 18 * (s.dev.scratchWord e (waddr a0 + 2)).toNat)) a0 {} [] false true))) e 1)))
    ∧ (s.dev.scratchGood x a0 6 → exec (.labw x a) s = .next (s.turned (s.dev.updEngine e (fun z => { z with
        wait := .labw (s.dev.scratchWords e a0 6) }))))

/-- R263, R338, R341, R342: QPOP of a ready supervisor engine with 64 words of scratch at A[a] takes the queue's oldest packet where
the engine serves the queue and nobody that serves it waits before; it answers 0 with F = 1 where the queue is not open and 0 with
F = 0 where there is nothing for it and NB is set, and else waits, behind the engines that came to wait before it; QPUSH pushes
its words where the engine has a credit, sets F and pushes nothing where the length is out of range or the queue is not open,
and waits where there is no credit. R263, R334, R338: the packet a pop takes leaves its cell and arrives in scratch, its length
(the LEN1 of W0 plus one) in G[g] with F = 0; where the copies of an index differ the pop or push finds it. That F is cleared on
success and that a queue the engine does not serve is as an empty one are the model's readings (log entry 55), as is when a QPUSH
waits for older stores (log entry 42). -/
def Obligations.QueueInstructions : Prop :=
  (∀ (s : State) (x : Env) (a : Fin 8) (g : Fin 16), s.dev.ready x → (s.dev.engine x.e.val).sup = true →
      let e := x.e.val
      let y := s.dev.engine e
      let a0 := y.ra a.val
      let n := (y.rg g.val).toNat % 64
      let len := (y.rg g.val).toNat / 64 % 128
      let p := s.dev.pair n
      spaceOf a0 = 2 →
      (∀ nb : Bool, waddr a0 + 64 ≤ 0x8000 → p.isOpen = false → exec (.qpop x nb a g) s = .next (s.turned (advance (s.dev.updEngine e (fun z =>
          { z.setG g.val 0 with flags := setFlag z.flags 4 true, rsv := none })) e 1)))
      ∧ (∀ nb : Bool, waddr a0 + 64 ≤ 0x8000 → p.isOpen = true → p.unpopped ≠ 0 → p.waiters.any p.serves = false → p.serves e = true →
          exec (.qpop x nb a g) s = .next (s.turned (popPacket s.dev n e a0 g.val)))
      ∧ (waddr a0 + 64 ≤ 0x8000 → p.isOpen = true → (p.unpopped = 0 ∨ p.waiters.any p.serves = true ∨ p.serves e = false) → exec (.qpop x true a g) s = .next (s.turned (advance
          (s.dev.updEngine e (fun z => { z.setG g.val 0 with flags := setFlag z.flags 4 false, rsv := none })) e 1))
        ∧ exec (.qpop x false a g) s = .next (s.turned ((s.dev.updEngine e (fun z => { z with
            wait := .qpop n a0 g.val, st := .waiting, rsv := none, waitT := s.dev.glob.time })).updPair n (fun q => { q with
              waiters := s.dev.joinWaiters p.waiters e }))))
      ∧ (y.sb = [] → y.nt = [] →
          ((len = 0 ∨ 64 < len) → exec (.qpush x a g) s = .next (s.turned (advance (s.dev.updEngine e (fun z =>
            { z with flags := setFlag z.flags 4 true })) e 1)))
          ∧ (0 < len → len ≤ 64 → s.dev.scratchGood x a0 len →
            (p.isOpen = false → exec (.qpush x a g) s = .next (s.turned (advance (s.dev.updEngine e (fun z =>
              { z with flags := setFlag z.flags 4 true })) e 1)))
            ∧ (p.isOpen = true → p.poppedBy.contains e = true → p.pool ≠ 0 → exec (.qpush x a g) s = .next (s.turned (advance
                ((pushPacket (endPopped s.dev e n (s.dev.scratchWords e a0 len)) n (s.dev.scratchWords e a0 len)).updEngine e (fun z => { z with flags := setFlag z.flags 4 false })) e 1)))
            ∧ (p.isOpen = true → p.poppedBy.contains e = true → p.pool = 0 → exec (.qpush x a g) s = .next (s.turned (s.dev.updEngine e (fun z =>
                { z with wait := .qpush n (s.dev.scratchWords e a0 len), st := .waiting })))))))
  ∧ (∀ (d : Dev) (n e : Nat) (a : Info) (g : Nat), n < 64 →
      let p := d.pair n
      let c := p.cmdCons.toNat % 128
      let len := ((p.slot? c 0).getD 0).toNat % 64 + 1
      let t := popTo d n e a g
      (t.engine e).rg g = BitVec.ofNat 18 len ∧ (t.engine e).flags.getLsbD 4 = false ∧ (t.engine e).rsv = none
        ∧ (t.pair n).cmdCons = p.cmdCons + 1 ∧ (t.pair n).cmdProd = p.cmdProd ∧ t.mem = d.mem
        ∧ (∀ j < len, t.scratchWord e (waddr a + j) = (p.slot? c j).getD 0)
        ∧ (∀ i, (i < waddr a ∨ waddr a + len ≤ i) → Tab.find (t.engine e).scratch i = Tab.find (d.engine e).scratch i)
        ∧ ∀ k, k ≠ n → t.pair k = d.pair k)
  ∧ (∀ (d : Dev) (n e : Nat) (a : Info) (g : Nat) (ws : List Word), (popPacket d n e a g = pairUpdated (popTo d n e a g) n)
      ∧ (pushPacket d n ws = pairUpdated (pushRecord d n ws) n) ∧ ((d.pair n).differ = none → pairUpdated d n = d)
      ∧ ∀ i, (d.pair n).differ = some i → pairUpdated d n = pairMismatch d n i.toNat)

/-- R258, R267, R270, R272, R273, R277: the SYS instructions of a ready engine. -/
def Obligations.SystemInstructions : Prop :=
  ∀ (s : State) (x : Env), s.dev.ready x →
    let e := x.e.val
    let y := s.dev.engine e
    exec (.sysNop x 0) s = .next (s.turned (advance s.dev e 1))
    ∧ (∀ arg : BitVec 6, arg ≠ 0 → arg.toNat < 8 → y.sb = [] → y.nt = [] →
        ∀ d, d = runFence s.dev e arg → exec (.fence x arg) s = .next (s.turned d) ∧ d.mem = s.dev.mem ∧ (d.engine e).pc = y.pc + 1 ∧ (d.engine e).flags = y.flags
          ∧ (d.engine e).wait = .none ∧ (d.engine e).g = y.g)
    ∧ (∀ arg : BitVec 6, exec (.sysTrap x arg) s = .next (s.turned (trap (s.dev.updEngine e Engine.spend) e 3 (y.pc + 1) (arg.setWidth 54))))
    ∧ exec (.bkpt x 0) s = .next (s.turned (trap s.dev e 4 y.pc 0))
    ∧ (y.sup = true →
        exec (.rtt x 0) s = .next (s.turned (s.dev.updEngine e (fun z => { z with
          sup := z.tstat.getLsbD 0, trans := z.tstat.getLsbD 1, guard := z.tstat.getLsbD 2, intrap := false, pc := z.tpc })))
        ∧ (∀ d, d = haltEngine s.dev e 0 false → exec (.halt x) s = .next (s.turned d) ∧ (d.engine e).st = .halted ∧ (d.engine e).pc = y.pc ∧ (d.engine e).g = y.g
          ∧ (d.engine e).nt = [] ∧ (d.engine e).rsv = none ∧ (d.engine e).double = false ∧ d.mem = s.dev.mem)
        ∧ (y.sb = [] → y.nt = [] → ∀ d, d = runStop s.dev e → exec (.stop x) s = .next (s.turned d) ∧ (d.engine e).st = .stopped ∧ (d.engine e).rsv = none
          ∧ (d.engine e).g = y.g ∧ d.mem = s.dev.mem)
        ∧ (s.dev.labsyncOver e = true → exec (.labsync x 0) s = .next (s.turned (advance (clearEffects s.dev e) e 1)))
        ∧ (s.dev.labsyncOver e = false → exec (.labsync x 0) s = .next (s.turned (s.dev.updEngine e (fun z => { z with wait := .labsync }))))
        ∧ (∀ g : Fin 16, y.wake = [] → exec (.ewait x (BitVec.ofNat 6 g.val)) s = .next (s.turned ((s.dev.updEngine e (fun z =>
            { z with rsv := none })).updEngine e (fun z => { z with wait := .ewait g.val, st := .waiting }))))
        ∧ (∀ (g : Fin 16) (r : Rec) (rest : List Rec), y.wake = r :: rest →
            ∀ d, d = runEwait s.dev e g.val → exec (.ewait x (BitVec.ofNat 6 g.val)) s = .next (s.turned d) ∧ (d.engine e).rg 12 = r.w0
              ∧ (d.engine e).rg 13 = r.info.extractLsb' 0 18 ∧ (d.engine e).rg 14 = r.info.extractLsb' 18 18
              ∧ (d.engine e).rg 15 = r.info.extractLsb' 36 18 ∧ (d.engine e).wake = rest ∧ (d.engine e).flags.getLsbD 0 = false
              ∧ (d.engine e).pc = y.pc + 1 ∧ (d.engine e).rsv = none ∧ ∀ k < 12, (d.engine e).rg k = y.rg k)
        ∧ exec (.signal x 0) s = .next (s.turned (advance (raise s.dev (288 + 4 * e + 3) 4 0 (y.rg 14 ++ y.rg 13 ++ y.rg 12)) e 1)))

-- fills, buffers and movers (04, 05, 08, 13)

/-- R129, R134, R215, R221, R222: a fill that a read without a miss register waits for answers it; one of a prefetch no read
joined goes to the side buffer in place of an older copy of its line, whose oldest entry leaves when 64 are there. A write that
reaches its controller below the usable limit with no OPEN entry of its line takes a new entry with its data, mask and poison, and
is accepted, a repair of its line no longer waiting (written first where the write is partial and the repair is poison, R377,
else dropped), and memory else as it was; a controller whose domain is being switched off starts to drain it at once (R517); above the limit it ends with an error and nothing is written. Both
crossings deliver in the order they were sent (R114), a fill while the core's clock runs. -/
def Obligations.FillsAndAcceptedWrites : Prop :=
  (∀ (s : State) (i : Nat) (x : Xact) (data : Line) (poison err : Bool), s.dev.pwr.unlocked.getLsbD 10 = false →
      s.dev.xact? i = some x → s.dev.nextAcross x Xact.comesBack = true → x.mem = .back data poison err → x.phase = .direct →
      exec (.fillReturn i) s = .next (s.turned
        (resolveLine (finish (s.dev.putXact i { x with mem := .idle }) i data poison (!err)) x.slice x.req.dpa)))
  ∧ (∀ (s : State) (i : Nat) (x : Xact) (data : Line) (poison : Bool) (w : Option Nat) (d : Dev) (old : List SideEntry),
      s.dev.pwr.unlocked.getLsbD 10 = false → Tab.wf s.dev.xacts = true →
      s.dev.xact? i = some x → s.dev.nextAcross x Xact.comesBack = true →
      x.mem = .back data poison false → x.phase = .miss w false → x.isPf = true → x.demanded = false → d = fillReturn s.dev i →
      old = (s.dev.slice x.slice).side.filter (fun e => !decide (e.line = x.line)) →
      exec (.fillReturn i) s = .next (s.turned d) ∧ d.xact? i = none ∧ d.mem = s.dev.mem
        ∧ (d.slice x.slice).side = (if old.length < 64 then old else old.drop 1) ++ [⟨x.line, data, poison⟩])
  ∧ (∀ (s : State) (i : Nat) (x : Xact) (d : Dev), s.dev.xact? i = some x → x.phase = .toBuffer → s.dev.mcTakes x = true →
      x.req.dpa < s.dev.limit → x.req.op ≠ .poison → s.dev.leaving (mcDom (mcOf x.req.dpa)) = false →
      (s.dev.wbOf x.line).find? (fun e => !e.draining) = none → d = acceptWrite s.dev i →
      exec (.writeBufferAccept i) s = .next (s.turned d)
        ∧ (x.req.mask = BitVec.allOnes 64 ∨ (∀ r ∈ (s.dev.chan (chanOf x.req.dpa)).repair, r.1 ≠ x.line) → d.mem = s.dev.mem)
        ∧ d.xact? i = some { x with phase := .accepted false, sent := s.dev.nextId }
        ∧ (∀ r ∈ (d.chan (chanOf x.req.dpa)).repair, r.1 ≠ x.line)
        ∧ ∃ bad, (d.mc (mcOf x.req.dpa)).wb = (s.dev.mc (mcOf x.req.dpa)).wb ++ [{
            line := x.line, data := x.req.data, mask := x.req.mask,
            poison := x.req.poison, draining := false, aged := false, slice := x.slice, codeOnly := false, bad := bad,
            num := (s.dev.mc (mcOf x.req.dpa)).nextNum }])
  ∧ (∀ (s : State) (i : Nat) (x : Xact) (d : Dev), s.dev.xact? i = some x → x.phase = .toBuffer → s.dev.mcTakes x = true →
      x.req.dpa < s.dev.limit → s.dev.leaving (mcDom (mcOf x.req.dpa)) = true → d = acceptWrite s.dev i →
      exec (.writeBufferAccept i) s = .next (s.turned d) ∧ ∀ e ∈ (d.mc (mcOf x.req.dpa)).wb, e.draining = true)
  ∧ (∀ (s : State) (i : Nat) (x : Xact) (d : Dev), s.dev.xact? i = some x → x.phase = .toBuffer → s.dev.mcTakes x = true →
      s.dev.limit ≤ x.req.dpa →
      d = resolveLine (retryRecalls (finish ((overLimit s.dev x.req).putXact i { x with due := none }) i 0 false false) (x.due.getD x.line))
        x.slice x.req.dpa →
      exec (.writeBufferAccept i) s = .next (s.turned d) ∧ d.mem = s.dev.mem ∧ d.mcs = s.dev.mcs)

/-- R357, R358, R368, R371: a mover channel with lines left and nothing under way reads its next source line below the limit,
with no copy taken for itself, and a line above the limit halts it with reason 3; a channel without an operation does nothing. A tile patrol starts in SERVICE when the register
asks for one, its counts at zero, and at its end PATROL_DONE reports them. -/
def Obligations.MoversAndPatrol : Prop :=
  (∀ (s : State) (m : Fin 3) (ch : Fin 24) (st : Ecc) (op : MoverOp), s.dev.pwr.unlocked.getLsbD 10 = false →
      Tab.find s.dev.movers (24 * (m.val + 1) + ch.val) = some op →
      op.xid = none → op.wid = none → op.left ≠ 0 → 64 * op.src < s.dev.limit →
      ∀ d, d = moverRead s.dev (24 * (m.val + 1) + ch.val) st → exec (.memoryMoverLine m ch st) s = .next (s.turned d) ∧ d.mem = s.dev.mem
        ∧ Tab.find d.movers (24 * (m.val + 1) + ch.val) = some { op with xid := some s.dev.nextId, staging := st }
        ∧ ∃ x, d.xact? s.dev.nextId = some x ∧ x.req.op = .moverRead ∧ x.req.dpa = 64 * op.src ∧ x.slice = sliceOf (64 * op.src))
  ∧ (∀ (s : State) (ch : Fin 24) (st : Ecc) (op : MoverOp), s.dev.pwr.unlocked.getLsbD 10 = false →
      Tab.find s.dev.movers ch.val = some op → op.xid = none → op.wid = none → op.left ≠ 0 → 64 * op.src < s.dev.limit →
      ∀ d, d = moverRead s.dev ch.val st → exec (.sweepMoverRead ch st) s = .next (s.turned d) ∧ d.mem = s.dev.mem
        ∧ Tab.find d.movers ch.val = some { op with xid := some s.dev.nextId, staging := st }
        ∧ ∃ x, d.xact? s.dev.nextId = some x ∧ x.req.op = .sweepRead ∧ x.req.dpa = 64 * op.src ∧ x.slice = sliceOf (64 * op.src))
  ∧ (∀ (s : State) (m : Fin 3) (ch : Fin 24) (st : Ecc) (op : MoverOp), s.dev.pwr.unlocked.getLsbD 10 = false →
      Tab.find s.dev.movers (24 * (m.val + 1) + ch.val) = some op → op.xid = none → op.wid = none → op.left ≠ 0 → s.dev.limit ≤ 64 * op.src →
      exec (.memoryMoverLine m ch st) s = .next (s.turned (haltMover s.dev (24 * (m.val + 1) + ch.val) 3 op)))
  ∧ (∀ (s : State) (ch : Fin 24) (st : Ecc), Tab.find s.dev.movers ch.val = none → exec (.sweepMoverRead ch st) s = .next (s.turned s.dev))
  ∧ (∀ (s : State), s.dev.err.patrol = false → s.dev.err.patrolHours ≠ 0 → s.dev.q0Runs = true → s.dev.inService = true →
      exec .patrolTimer s = .next (s.turned (s.dev.setErr (fun e => { e with
        patrol := true, patrolRead := 0, patrolCe := 0, patrolUe := 0 }))))
  ∧ (∀ (s : State) (errs : List PatrolErr) (d : Dev), s.dev.err.patrol = true → s.dev.q0Runs = true → s.dev.islandRuns 10 = true →
      d = s.dev.each (List.range 16) (fun d k => patrolSlice d errs k) →
      exec (.patrolPassEnd errs) s = .next (s.turned (raise (d.setErr (fun e => { e with patrol := false })) 458 5 0
        (info (d.err.patrolRead + 2 ^ 24 * d.err.patrolCe + 2 ^ 36 * d.err.patrolUe)))) ∧ d.mem = s.dev.mem)

-- LABs and buffers of the engines (03_views_and_translation.md, 10_engine_memory_model.md)

/-- R71, R79, R85, R87, R259, R355: a LABW with a valid descriptor that names no slot installs its entry in a LAB whose island runs and
ends with LABRES 0 and F = 0; an invalid one installs nothing and ends with LABRES 4 and F = 1. An engine that
waits in no LABW walks the oldest record it holds (the model's choice, log entry 110); a park slot that cannot be read is fatal with
cause 5. A LABI that takes effect removes
every entry it names from all 14 LABs and no other, and its record is gone. A LABSYNC ends once nothing is left to wait for. -/
def Obligations.LabMaintenanceTakesEffect : Prop :=
  (∀ (s : State) (e : Fin 24) (slot : Ecc) (ws : List Word), (s.dev.engine e.val).wait = .labw ws →
      labwInvalid (ws.getD 0 0).toNat (ws.getD 5 0).toNat = true →
      exec (.labwAtLab e slot) s = .next (s.turned (advance (s.dev.updEngine e.val (fun y => { y with
        labres := 4, flags := setFlag y.flags 4 true })) e.val 1)))
  ∧ (∀ (s : State) (e : Fin 24) (slot : Ecc) (ws : List Word) (l : Nat) (d : Dev), (s.dev.engine e.val).wait = .labw ws →
      labwInvalid (ws.getD 0 0).toNat (ws.getD 5 0).toNat = false → l = labwTarget e.val (ws.getD 5 0).toNat → s.dev.islandRuns (labIsland l) = true →
      (ws.getD 5 0).getLsbD 0 = false → (ws.getD 5 0).getLsbD 6 = false → d = labwArrives s.dev e.val ws →
      exec (.labwAtLab e slot) s = .next (s.turned d) ∧ (d.engine e.val).labres = 0 ∧ (d.engine e.val).flags.getLsbD 4 = false
        ∧ (d.engine e.val).pc = (s.dev.engine e.val).pc + 1 ∧ (d.engine e.val).wait = .none ∧ d.mem = s.dev.mem
        ∧ ∃ k t, labFind (d.lab l) l ((ws.getD 0 0).extractLsb' 0 12) ((ws.getD 0 0).extractLsb' 12 2) (descVpn ws) = some (k, t)
        ∧ t.pte = pteOf (labwPte ws) (pteFrame (labwPte ws)) ∧ t.lock = false)
  ∧ (∀ (s : State) (e : Fin 24) (slot : Ecc), (∀ ws, (s.dev.engine e.val).wait ≠ .labw ws) → (s.dev.labwNames e.val = none ∨ slot ≠ .ue) →
      exec (.labwAtLab e slot) s = .next (s.turned (handlerTurn s.dev e.val)))
  ∧ (∀ (s : State) (e : Fin 24) (p k : Nat), s.dev.labwNames e.val = some (p, k) →
      exec (.labwAtLab e .ue) s = .next (s.turned (enterRecovery s.dev 5 (info (4 + fld 3 p + fld 7 k)))))
  ∧ (∀ (s : State) (e : Fin 24) (id form vpn : Nat) (view : BitVec 12) (gran : BitVec 2),
      s.dev.labis.find? (fun x => decide (x.1 = id) && decide (x.2.1 = e.val)) = some (id, e.val, form, view, gran, vpn) →
      ∀ d, d = labiEffect s.dev e.val id → exec (.labiTakeEffect e id) s = .next (s.turned d) ∧ d.mem = s.dev.mem ∧ d.labis = s.dev.labis.filter (fun x => !decide (x.1 = id))
        ∧ ∀ l < 14, d.lab l = (s.dev.lab l).filter (fun x => !labiHits form view gran vpn x.2.view x.2.gran x.2.vpn))
  ∧ (∀ (s : State) (e : Fin 24), s.dev.pwr.unlocked.getLsbD (11 + quadOf e.val) = false → s.dev.labsyncOver e.val = true → (s.dev.engine e.val).wait = .labsync →
      ∀ d, d = labsyncEnds s.dev e.val → exec (.labsyncDone e) s = .next (s.turned d)
        ∧ (d.engine e.val).pc = (s.dev.engine e.val).pc + 1 ∧ (d.engine e.val).wait = .none
        ∧ (d.engine e.val).g = (s.dev.engine e.val).g ∧ d.mem = s.dev.mem)
  ∧ (∀ (s : State) (e : Fin 24), s.dev.labsyncOver e.val = false → exec (.labsyncDone e) s = .next (s.turned s.dev))

/-- R278, R279, R280, R291, R294, R484: the store buffer. The oldest entry that may issue sends its writes to their home slices, and one whose parity fails completes with an error and writes nothing (R355);
an entry whose requests all succeeded leaves; an SCP that its slice accepted completes with Z = 1, F = 0 and no reservation; an
entry whose target does not answer leaves and its error is due as a STORE_FAULT with its address; a read of a register whose block
does not answer gets all ones, and a write that waits for such a block ends with REG_DROPPED. -/
def Obligations.StoreBufferCommands : Prop :=
  (∀ (s : State) (e : Fin 24) (b : SbEntry) (w : LineWrite), s.dev.engSt e.val ≠ .off → s.dev.quadRuns e.val = true → s.dev.recovering e.val = false →
      s.dev.nextIssue [] (s.dev.engine e.val).sb = some b → b.kind = .store → b.writes = [w] →
      ∀ d, d = bufferIssue s.dev e.val true → exec (.storeBufferIssue e true) s = .next (s.turned d) ∧ d.mem = s.dev.mem
        ∧ (d.engine e.val).sb = (s.dev.engine e.val).sb.map (fun c => if c.id = b.id then { c with issued := true, xids := [s.dev.nextId] } else c)
        ∧ ∃ x, d.xact? s.dev.nextId = some x ∧ x.req.op = .write .i ∧ x.req.dpa = 64 * w.line ∧ x.req.data = w.data ∧ x.req.mask = w.mask
          ∧ x.req.poison = w.poison ∧ x.slice = sliceOf (64 * w.line))
  ∧ (∀ (s : State) (e : Fin 24) (b : SbEntry), s.dev.engSt e.val ≠ .off → s.dev.quadRuns e.val = true →
      s.dev.nextIssue [] (s.dev.engine e.val).sb = some b →
      exec (.storeBufferIssue e false) s = .next (s.turned (endEntry s.dev e.val b false)))
  ∧ (∀ (s : State) (e : Fin 24) (parityOk : Bool), s.dev.nextIssue [] (s.dev.engine e.val).sb = none → exec (.storeBufferIssue e parityOk) s = .next (s.turned s.dev))
  ∧ (∀ (s : State) (e : Fin 24) (id len : Nat), s.dev.pwr.unlocked.getLsbD (11 + quadOf e.val) = false → (s.dev.engine e.val).wait = .scp id len → s.dev.result id = some true →
      ∀ d, d = storeComplete s.dev e.val id → exec (.engineStoreComplete e id) s = .next (s.turned d) ∧ (d.engine e.val).flags = setFlag (setFlag (s.dev.engine e.val).flags 0 true) 4 false
        ∧ (d.engine e.val).rsv = none ∧ (d.engine e.val).pc = (s.dev.engine e.val).pc + BitVec.ofNat 14 len ∧ (d.engine e.val).wait = .none
        ∧ d.mem = s.dev.mem)
  ∧ (∀ (s : State) (e : Fin 24) (b : SbEntry), s.dev.pwr.unlocked.getLsbD (11 + quadOf e.val) = false → (s.dev.engine e.val).wait = .none → b.kind = .store →
      (s.dev.engine e.val).sb.find? (fun c => decide (c.id = b.id)) = some b → b.issued = true → (∀ i ∈ b.xids, s.dev.result i = some true) →
      ∀ d, d = storeComplete s.dev e.val b.id → exec (.engineStoreComplete e b.id) s = .next (s.turned d) ∧ d.mem = s.dev.mem ∧ (d.engine e.val).fault = (s.dev.engine e.val).fault
        ∧ (d.engine e.val).sb = (s.dev.engine e.val).sb.filter (fun c => !decide (c.id = b.id)))
  ∧ (∀ (s : State) (e : Fin 24) (b : SbEntry), s.dev.pwr.unlocked.getLsbD (11 + quadOf e.val) = false → (s.dev.engine e.val).wait = .none → (s.dev.engine e.val).st = .running → b.kind = .store →
      (s.dev.engine e.val).sb.find? (fun c => decide (c.id = b.id)) = some b → b.issued = true → (s.dev.engine e.val).fault = none →
      ∀ d, d = storeTimeout s.dev e.val b.id → exec (.storeTargetTimeout e b.id) s = .next (s.turned d) ∧ d.mem = s.dev.mem ∧ (d.engine e.val).fault = some (b.id, b.addr)
        ∧ (d.engine e.val).sb = (s.dev.engine e.val).sb.filter (fun c => !decide (c.id = b.id)))
  ∧ (∀ (s : State) (o : Origin) (off : BitVec 25), (∀ e, o ≠ .engine e) → ¬ s.dev.answersAt (off.toNat / 4 * 4) → s.dev.reaches o = true →
      exec (.registerAccessTimeout o off true) s = .next (s.turned (emit (regDropped s.dev o (off.toNat / 4 * 4) 2 true)
        (.regDone o (off.toNat / 4 * 4) (BitVec.allOnes 64)))))
  ∧ (∀ (s : State) (o : Origin) (off : BitVec 25) (w : Origin × HostAccess), (∀ e, o ≠ .engine e) →
      ¬ s.dev.answersAt (off.toNat / 4 * 4) → s.dev.waits.find? (waitsAt o (off.toNat / 4 * 4)) = some w →
      exec (.registerAccessTimeout o off false) s = .next (s.turned (regDropped { s.dev with waits := s.dev.waits.erase w } o
        (off.toNat / 4 * 4) 2 false)))
  ∧ (∀ (s : State) (o : Origin) (off : BitVec 25) (read : Bool), s.dev.answersAt (off.toNat / 4 * 4) →
      exec (.registerAccessTimeout o off read) s = .next (s.turned s.dev))

/-- R243, R253, R254, R264, R292: loads that return or time out, lines that drain, reservations and waits that end. A word that
a load waited for arrives with its marks and the load completes; without data in time the load traps with LOAD_FAULT and its
address. The limit of an EWAIT completes it with Z = 1 and the registers unchanged. A record for an engine that arrives with a
parity error is dropped and counted, but a LAB_MISS, and those of its port on their way to the engine behind it, wait at their port
again (R346, R347, R350). Each in a quad whose clock runs. -/
def Obligations.EngineWaitsEnd : Prop :=
  (∀ (s : State) (e : Fin 24) (g a i k line len : Nat) (upd : Option Info) (addr : Info) (x : Xact) (data : Line) (poison : Bool),
      s.dev.pwr.unlocked.getLsbD (11 + quadOf e.val) = false → (s.dev.engine e.val).wait = .load .plain g a upd addr line [.from_ i k] [i] len → s.dev.xact? i = some x → x.phase = .done data poison true →
      ∀ d, d = loadReturn s.dev e.val → exec (.engineLoadReturn e) s = .next (s.turned d) ∧ (d.engine e.val).rg g = loadedWord data poison k ∧ (d.engine e.val).wait = .none
        ∧ (d.engine e.val).pc = (s.dev.engine e.val).pc + BitVec.ofNat 14 len ∧ d.xact? i = none ∧ d.mem = s.dev.mem
        ∧ (∀ j, j ≠ g → (d.engine e.val).rg j = (s.dev.engine e.val).rg j) ∧ ∀ v, upd = some v → (d.engine e.val).ra a = v)
  ∧ (∀ (s : State) (e : Fin 24) (k : LoadKind) (g a line len : Nat) (upd : Option Info) (addr : Info) (ws : List WordSrc) (ids : List Nat),
      s.dev.pwr.unlocked.getLsbD (11 + quadOf e.val) = false → (s.dev.engine e.val).wait = .load k g a upd addr line ws ids len →
      exec (.engineLoadTimeout e) s = .next (s.turned (trapHere (s.dev.each ids orphan) e.val 15 addr)))
  ∧ (∀ (s : State) (e : Fin 24) (line : Nat), s.dev.pwr.unlocked.getLsbD (11 + quadOf e.val) = false → exec (.ntCombineIdleDrain e line) s = .next (s.turned (s.dev.updEngine e.val (fun y =>
      match y.nt.find? (fun l => decide (l.line = line)) with
      | some l => { y with
          nt := y.nt.filter (fun l => !decide (l.line = line)), sb := y.sb ++ ntEntries l (ntWrites l) y.nextSb,
          nextSb := y.nextSb + (ntWrites l).length }
      | none => y))))
  ∧ (∀ (s : State) (e : Fin 24), s.dev.pwr.unlocked.getLsbD (11 + quadOf e.val) = false → (∀ i n, (s.dev.engine e.val).wait ≠ .scp i n) →
      (∀ c, (s.dev.engine e.val).call = some c → c.rmw = none) →
      exec (.reservationExpiry e) s = .next (s.turned (s.dev.updEngine e.val (fun y => { y with rsv := none }))))
  ∧ (∀ (s : State) (e : Fin 24) (g : Nat), s.dev.pwr.unlocked.getLsbD (11 + quadOf e.val) = false → (s.dev.engine e.val).wait = .ewait g → (s.dev.engine e.val).rg g ≠ 0 →
      exec (.ewaitLimit e) s = .next (s.turned (advance (s.dev.updEngine e.val (fun y => { y with flags := setFlag y.flags 0 true })) e.val 1)))
  ∧ (∀ (s : State) (e : Fin 24) (r : Rec) (rest : List Rec), s.dev.pwr.unlocked.getLsbD (11 + quadOf e.val) = false → (s.dev.engine e.val).wakeIn = r :: rest → s.dev.wakes e.val = true →
      (s.dev.engine e.val).wake.length < 16 → (∀ g, (s.dev.engine e.val).wait ≠ .ewait g) →
      ∀ d, d = wakeArrival s.dev e.val true → exec (.wakeRecordArrival e true) s = .next (s.turned d) ∧ (d.engine e.val).wake = (s.dev.engine e.val).wake ++ [r]
        ∧ (d.engine e.val).wakeIn = rest ∧ d.evt = s.dev.evt)
  ∧ (∀ (s : State) (e : Fin 24) (r : Rec) (rest : List Rec), s.dev.pwr.unlocked.getLsbD (11 + quadOf e.val) = false → (s.dev.engine e.val).wakeIn = r :: rest →
      ∀ d, d = wakeArrival s.dev e.val false → exec (.wakeRecordArrival e false) s = .next (s.turned d) ∧ (d.engine e.val).wake = (s.dev.engine e.val).wake
        ∧ (r.src < 416 ∨ 424 ≤ r.src → (d.engine e.val).wakeIn = rest ∧ d.evt.wakeDrops = satInc 32 s.dev.evt.wakeDrops)
        ∧ (416 ≤ r.src → r.src < 424 → (d.engine e.val).wakeIn = rest.filter (fun x => decide (x.src ≠ r.src)) ∧ d.evt = s.dev.evt
            ∧ ∀ k q, (k, q) ∈ (d.port (r.src - 416)).slots → ∀ x ∈ r :: rest, x.src = r.src → k = bits x.info.toNat 43 39 →
              q.seq.toNat = x.seq → q.sent = false))

/-- R248, R272, R275: a budget that has run out traps its engine in user mode with cause BUDGET before the next instruction.
START runs a STOPPED engine from its START_PC in supervisor mode with registers, flags and status registers cleared, its
memories kept; in any other state, or where its quad is being switched off, only the START_PC register takes the value. -/
def Obligations.EngineStartAndBudget : Prop :=
  (∀ (s : State) (e : Fin 24), s.dev.pwr.unlocked.getLsbD (11 + quadOf e.val) = false → s.dev.engSt e.val = .running → (s.dev.engine e.val).wait = .none → (s.dev.engine e.val).fault = none →
      (s.dev.engine e.val).budgetDue = true → (s.dev.engine e.val).sup = false →
      exec (.budgetExhausted e) s = .next (s.turned (trap (s.dev.updEngine e.val (fun y => { y with budgetDue := false })) e.val 17
        (s.dev.engine e.val).pc 0)))
  ∧ (∀ (s : State) (e : Fin 24) (pc : BitVec 14), s.dev.engSt e.val = .stopped → s.dev.leaving (quadDom (quadOf e.val)) = false →
      ∀ d, d = startEngine (s.dev.updEngine e.val (fun y => { y with startPc := pc })) e.val pc → exec (.engineStart e pc) s = .next (s.turned d) ∧ d.mem = s.dev.mem
        ∧ (let y := d.engine e.val
           y.st = .running ∧ y.pc = pc ∧ y.startPc = pc ∧ y.g = [] ∧ y.a = [] ∧ y.flags = 0 ∧ y.sup = true ∧ y.trans = false ∧ y.guard = false
            ∧ y.intrap = false ∧ y.cview = 0 ∧ y.tcause = 0 ∧ y.tpc = 0 ∧ y.tstat = 0 ∧ y.tval = 0 ∧ y.tvec = 0 ∧ y.labres = 0 ∧ y.iubase = 0
            ∧ y.subase = 0 ∧ y.budget = 0 ∧ y.rsv = none)
        ∧ (d.engine e.val).imem = (s.dev.engine e.val).imem ∧ (d.engine e.val).scratch = (s.dev.engine e.val).scratch
        ∧ ∀ k, k ≠ e.val → d.engine k = s.dev.engine k)
  ∧ (∀ (s : State) (e : Fin 24) (pc : BitVec 14), s.dev.engSt e.val ≠ .stopped ∨ s.dev.leaving (quadDom (quadOf e.val)) = true →
      exec (.engineStart e pc) s = .next (s.turned (s.dev.updEngine e.val (fun y => { y with startPc := pc }))))

-- queues and events (12_queues_and_events.md)

/-- R329, R331, R332, R333, R335, R336: command queues. A write of OPEN to a closed pair gives it to the writing LD and opens
it; once open its queues are empty with 128 credits and one more opening counted; its owner closes it, the vector of that write stored. A slot write that may not
go there is dropped with QUEUE_ACCESS; one that may is kept, and once W0 and the last slot it names are there a good cell
commits as one packet and a bad one is emptied, counted and reported with BAD_PACKET. A write that enables part of a slot is dropped with NARROW_WRITE
(R479), and one for which the queue block does not answer waits for it (R484); with no byte enabled nothing happens. -/
def Obligations.CommandQueueCommands : Prop :=
  (∀ (s : State) (q : Fin 8) (m : Fin 16) (n : Fin 64) (v : BitVec 32), s.dev.takesWrite (.host q m) (0x80000 + 0x20 * n.val) →
      (s.dev.pair n.val).st = 0 → v.getLsbD 0 = true →
      exec (.queueOpen (.host q m) n v) s = .next (s.turned (s.dev.updPair n.val (fun p => { p with
        st := 1, port := BitVec.ofNat 3 q.val, ld := BitVec.ofNat 4 m.val, cplVec := v.extractLsb' 1 6, cplMsi := v.getLsbD 7 }))))
  ∧ (∀ (s : State) (n : Fin 64), s.dev.pwr.unlocked.getLsbD 10 = false → (s.dev.pair n.val).st = 1 →
      ∀ d, d = openDone s.dev n.val → exec (.queueOpenDone n) s = .next (s.turned d) ∧ (d.pair n.val).isOpen = true ∧ (d.pair n.val).credits = 128 ∧ (d.pair n.val).pool = 128
        ∧ (d.pair n.val).unpopped = 0 ∧ (d.pair n.val).openings = (s.dev.pair n.val).openings + 1 ∧ (d.pair n.val).port = (s.dev.pair n.val).port
        ∧ (d.pair n.val).ld = (s.dev.pair n.val).ld ∧ d.mem = s.dev.mem)
  ∧ (∀ (s : State) (q : Fin 8) (m : Fin 16) (n : Fin 64) (v : BitVec 32), s.dev.takesWrite (.host q m) (0x80000 + 0x20 * n.val) →
      (s.dev.pair n.val).st ≠ 0 → (s.dev.pair n.val).ownedBy (.host q m) = true → v.getLsbD 0 = false →
      ∀ d, d = (closePair s.dev n.val 1).updPair n.val (fun p => { p with cplVec := v.extractLsb' 1 6, cplMsi := v.getLsbD 7 }) →
        exec (.queueClose (.host q m) n v) s = .next (s.turned d) ∧ (d.pair n.val).st = 0 ∧ (d.pair n.val).lastClose = 1
        ∧ (d.pair n.val).cmd = [] ∧ (d.pair n.val).cmdProd = (s.dev.pair n.val).cmdProd ∧ (d.pair n.val).cmdCons = (s.dev.pair n.val).cmdCons
        ∧ (d.pair n.val).cplProd = (s.dev.pair n.val).cplProd ∧ d.mem = s.dev.mem)
  ∧ (∀ (s : State) (q : Fin 8) (m : Fin 16) (n : Fin 64) (c : BitVec 7) (k : BitVec 6) (v : BitVec 32) (par : Bool) (pe : Option (BitVec 2)) (r : Nat),
      s.dev.takesSlot (.host q m) → (s.dev.pair n.val).slotBar (.host q m) c.toNat = some r →
      exec (.commandSlotWrite (.host q m) n c k v 15 par pe) s = .next (s.turned (raise (pairDiffers s.dev n.val pe) 385 0 1
        (info (n.val + 2 ^ 6 * r + 2 ^ 9 * q.val + 2 ^ 12 * m.val)))))
  ∧ (∀ (s : State) (q : Fin 8) (m : Fin 16) (n : Fin 64) (c : BitVec 7) (k : BitVec 6) (v : BitVec 32) (par : Bool) (pe : Option (BitVec 2)) (p : Pair_),
      s.dev.takesSlot (.host q m) → (s.dev.pair n.val).slotBar (.host q m) c.toNat = none →
      p = (s.dev.pair n.val).putSlot c.toNat k.toNat (v.extractLsb' 0 18) par → p.slot? c.toNat 0 = none →
      exec (.commandSlotWrite (.host q m) n c k v 15 par pe) s = .next (s.turned ((pairDiffers s.dev n.val pe).updPair n.val (fun x => { p with differ := x.differ }))))
  ∧ (∀ (s : State) (q : Fin 8) (m : Fin 16) (n : Fin 64) (c : BitVec 7) (k : BitVec 6) (v : BitVec 32) (par : Bool) (p : Pair_) (w0 w : Word),
      s.dev.takesSlot (.host q m) → (s.dev.pair n.val).slotBar (.host q m) c.toNat = none →
      p = (s.dev.pair n.val).putSlot c.toNat k.toNat (v.extractLsb' 0 18) par → p.slot? c.toNat 0 = some w0 →
      p.slot? c.toNat (w0.toNat % 64) = some w → p.badReason c.toNat (w0.toNat % 64) = 0 → p.waiters = [] → p.differ = none →
      exec (.commandSlotWrite (.host q m) n c k v 15 par none) s = .next (s.turned (s.dev.updPair n.val (fun _ => { p with
        cmdProd := p.cmdProd + 1, commits := p.commits ++ [s.dev.glob.time] }))))
  ∧ (∀ (s : State) (q : Fin 8) (m : Fin 16) (n : Fin 64) (c : BitVec 7) (k : BitVec 6) (v : BitVec 32) (par : Bool) (p : Pair_) (w0 w : Word),
      s.dev.takesSlot (.host q m) → (s.dev.pair n.val).slotBar (.host q m) c.toNat = none →
      p = (s.dev.pair n.val).putSlot c.toNat k.toNat (v.extractLsb' 0 18) par → p.slot? c.toNat 0 = some w0 →
      p.slot? c.toNat (w0.toNat % 64) = some w → p.badReason c.toNat (w0.toNat % 64) ≠ 0 →
      exec (.commandSlotWrite (.host q m) n c k v 15 par none) s = .next (s.turned (raise (s.dev.updPair n.val (fun _ => {
        p.clearCell c.toNat with bad := satInc 32 p.bad })) 384 2 2
        (info (n.val + 2 ^ 6 * c.toNat + 2 ^ 13 * p.badReason c.toNat (w0.toNat % 64) + 2 ^ 15 * (w0.toNat % 64))))))
  ∧ (∀ (s : State) (q : Fin 8) (m : Fin 16) (n : Fin 64) (c : BitVec 7) (k : BitVec 6) (v : BitVec 32) (en : BitVec 4) (par : Bool) (pe : Option (BitVec 2)),
      s.dev.takesSlot (.host q m) → (s.dev.pair n.val).slotBar (.host q m) c.toNat = none → en ≠ 0 → en ≠ 15 →
      exec (.commandSlotWrite (.host q m) n c k v en par pe) s = .next (s.turned (narrowWrite (pairDiffers s.dev n.val pe) (.host q m)
        (0x10000 * n.val + 0x100 * c.toNat + 4 * k.toNat))))
  ∧ (∀ (s : State) (o : Origin) (n : Fin 64) (c : BitVec 7) (k : BitVec 6) (v : BitVec 32) (par : Bool) (pe : Option (BitVec 2)),
      exec (.commandSlotWrite o n c k v 0 par pe) s = .next (s.turned s.dev))
  ∧ (∀ (s : State) (o : Origin) (n : Fin 64) (c : BitVec 7) (k : BitVec 6) (v : BitVec 32) (en : BitVec 4) (par : Bool) (pe : Option (BitVec 2)),
      s.dev.reaches o = true → s.dev.islandRuns 10 = false → en ≠ 0 →
      exec (.commandSlotWrite o n c k v en par pe) s = .next (s.turned { s.dev with
        waits := s.dev.waits ++ [(o, .slot n.val c.toNat k.toNat v en par pe)] }))

/-- R341, R343, R346, R349, R350, R351: completion heads, event heads, interrupts and the fabric. A legal move of a head frees
the cells it passes and starts the moderation count again; an illegal one is refused with QUEUE_ACCESS, reason 4 (R333). The timeout
of a queue that is not empty interrupts. The fabric takes the oldest record of the next source that holds one and delivers it as its
route says: to an event queue with room, to the vector of its event LD, to an engine's wake queue; a LAB_MISS goes to the handler of
its slot (R75); one with a parity error is lost and counted. That POOL of a pair stops at 128 is the model's reading (log entry 54),
and when a source's buffer may be taken while its island or the queues' clock has failed is the model's choice (log entry 140). -/
def Obligations.CompletionAndEventCommands : Prop :=
  (∀ (s : State) (q : Fin 8) (m : Fin 16) (n : Fin 64) (v : BitVec 32) (p : Pair_), p = s.dev.pair n.val →
      s.dev.takesWrite (.host q m) (0x80014 + 0x20 * n.val) → p.isOpen = true → p.ownedBy (.host q m) = true →
      (v.setWidth 8 - p.cplHead).toNat ≤ (p.cplProd - p.cplHead).toNat → (∀ e < 24, ∀ ws, (s.dev.engine e).wait ≠ .qpush n.val ws) → p.differ = none →
      exec (.queCplHeadWrite (.host q m) n v none) s = .next (s.turned (s.dev.updPair n.val (fun p => { p with
        cplHead := v.setWidth 8, pool := min 128 (p.pool + (v.setWidth 8 - p.cplHead).toNat), modCount := 0 }))))
  ∧ (∀ (s : State) (q : Fin 8) (m : Fin 16) (n : Fin 64) (v : BitVec 32) (p : Pair_), p = s.dev.pair n.val →
      s.dev.takesWrite (.host q m) (0x80014 + 0x20 * n.val) → p.isOpen = true → p.ownedBy (.host q m) = true →
      (p.cplProd - p.cplHead).toNat < (v.setWidth 8 - p.cplHead).toNat → p.differ = none →
      exec (.queCplHeadWrite (.host q m) n v none) s = .next (s.turned (queueAccess s.dev n.val 4 (.host q m) false)))
  ∧ (∀ (s : State) (o : Origin) (q : Fin 9) (v : BitVec 32), s.dev.takesWrite o (0x90808 + 0x10 * q.val) →
      (v.setWidth 8 - (s.dev.evq q.val).head).toNat ≤ (s.dev.evq q.val).unread → v.setWidth 8 ≠ (s.dev.evq q.val).head →
      (s.dev.evq q.val).run = 0 → (s.dev.evq q.val).differ = none → (q.val = 8 → v.setWidth 8 ≠ (s.dev.evq q.val).tail) →
      exec (.evqHeadWrite o q v none) s = .next (s.turned (s.dev.updEvq q.val (fun x => { x with head := v.setWidth 8, modCount := 0, run := 0 }))))
  ∧ (∀ (s : State) (o : Origin) (q : Fin 9) (v : BitVec 32), s.dev.takesWrite o (0x90808 + 0x10 * q.val) →
      (s.dev.evq q.val).unread < (v.setWidth 8 - (s.dev.evq q.val).head).toNat →
      exec (.evqHeadWrite o q v none) s = .next (s.turned (queueAccess s.dev q.val 4 o true)))
  ∧ (∀ (s : State) (n : Fin 64), s.dev.pwr.unlocked.getLsbD 10 = false → n.val < 9 → (s.dev.evq n.val).unread ≠ 0 →
      exec (.moderationTimeout true n) s = .next (s.turned (evqInterrupt s.dev n.val)))
  ∧ (∀ (s : State) (n : Fin 64) (p : Pair_), s.dev.pwr.unlocked.getLsbD 10 = false → p = s.dev.pair n.val → p.isOpen = true → p.cplMsi = true → p.cplProd ≠ p.cplHead →
      exec (.moderationTimeout false n) s = .next (s.turned (sendMsix (s.dev.updPair n.val (fun p => { p with modCount := 0 }))
        p.port.toNat p.ld.toNat p.cplVec.toNat)))
  ∧ (∀ (s : State) (k : Nat) (r : Rec) (rest : List Rec), s.dev.pwr.unlocked.getLsbD 0 = false → s.dev.nextSource = some k → (s.dev.source k).buf = r :: rest →
      r.route.toNat % 16 = 8 → r.route.getLsbD 4 = false → r.route.getLsbD 14 = false → (s.dev.evq 8).unread < 128 →
      (s.dev.evq 8).differ = none → ∀ d, d = fabricTransfer s.dev true none → exec (.eventFabricTransfer true none) s = .next (s.turned d) ∧ (d.source k).buf = rest ∧ d.evt.rotate = (k + 1) % 512
        ∧ (d.evq 8).tail = (s.dev.evq 8).tail + 1 ∧ Tab.find (d.evq 8).ring ((s.dev.evq 8).tail.toNat % 128) = some (r, !(s.dev.evq 8).tail.msb)
        ∧ d.evt.lost = s.dev.evt.lost)
  ∧ (∀ (s : State) (k : Nat) (r : Rec) (rest : List Rec) (d : Dev) (pe : Option Bool), s.dev.pwr.unlocked.getLsbD 0 = false →
      s.dev.nextSource = some k → (s.dev.source k).buf = r :: rest →
      d = ({ s.dev with evt := { s.dev.evt with rotate := (k + 1) % 512 } } : Dev).updSource k (fun x => { x with buf := rest }) →
      exec (.eventFabricTransfer true pe) s = .next (s.turned (deliver d r pe))
        ∧ (9 ≤ r.route.toNat % 16 → r.route.getLsbD 4 = false → r.route.getLsbD 14 = false → deliver d r pe = d)
        ∧ (9 ≤ r.route.toNat % 16 → r.route.getLsbD 4 = true → r.route.getLsbD 14 = false → deliver d r pe
            = sendMsix d (r.route.toNat / 32 % 8) (d.eventLd (r.route.toNat / 32 % 8)) (r.route.toNat / 256 % 64))
        ∧ (9 ≤ r.route.toNat % 16 → r.route.getLsbD 4 = false → r.route.getLsbD 14 = true → r.route.toNat / 2 ^ 15 % 32 < 24 →
            deliver d r pe = d.updEngine (r.route.toNat / 2 ^ 15 % 32) (fun x => { x with wakeIn := x.wakeIn ++ [r] }))
        ∧ (∀ q, q = r.route.toNat % 16 → q < 9 → r.route.getLsbD 4 = false → r.route.getLsbD 14 = false →
            (s.dev.evq q).unread < 128 → (s.dev.evq q).differ = none → pe = none →
            ((deliver d r pe).evq q).tail = (s.dev.evq q).tail + 1
              ∧ Tab.find ((deliver d r pe).evq q).ring ((s.dev.evq q).tail.toNat % 128) = some (r, !(s.dev.evq q).tail.msb)
              ∧ ∀ n, n ≠ q → (deliver d r pe).evq n = s.dev.evq n))
  ∧ (∀ (s : State) (p k : Nat) (q : ParkSlot) (b : Bool) (pe : Option Bool), s.dev.pwr.unlocked.getLsbD 0 = false →
      s.dev.nextSource = some (416 + p) → (s.dev.source (416 + p)).buf = [] → firstMiss (s.dev.missReady p) = some (k, q) →
      ∀ d, d = fabricTransfer s.dev b pe → exec (.eventFabricTransfer b pe) s = .next (s.turned d)
        ∧ (d.engine q.engine).wakeIn = (s.dev.engine q.engine).wakeIn ++ [missRecord p k q] ∧ d.evqs = s.dev.evqs
        ∧ ∀ x, Tab.find (d.port p).slots k = some x → x.sent = true)
  ∧ (∀ (s : State) (k : Nat) (r : Rec) (rest : List Rec) (pe : Option Bool), s.dev.pwr.unlocked.getLsbD 0 = false →
      s.dev.nextSource = some k → (s.dev.source k).buf = r :: rest →
      ∀ d, d = fabricTransfer s.dev false pe → exec (.eventFabricTransfer false pe) s = .next (s.turned d) ∧ (d.source k).buf = rest ∧ d.evqs = s.dev.evqs
        ∧ d.evt.lost = satInc 32 s.dev.evt.lost)
  ∧ (∀ (s : State) (pe : Option Bool) (b : Bool), s.dev.nextSource = none → exec (.eventFabricTransfer b pe) s = .next (s.turned s.dev))

-- registers (19_register_reference.md)

/-- R10, R11, R478, R479, R480, R483, R484: a register write. With no byte enabled nothing happens; one the state does not allow
is dropped with REG_DROPPED; one that enables part of its dword is dropped with NARROW_WRITE; one to a block that does not answer
waits for it, a later one of the same sender to the same block waits behind it, and it takes effect when the block answers; one to a
locked register changes nothing but the record of it; a value out of range stores the nearer limit, which then reads back. A read
with no byte enabled is zero, one of part of a dword is the whole dword, and one of 8 bytes is two dwords. A write of bytes no access
has is no command: it stops with illFormed (the model's choice, log entry 106). That the state's bar goes before the narrow write is
log entry 47, and where a write waits and what a host reads of a block that does not answer is log entry 142. -/
def Obligations.RegisterWriteRules : Prop :=
  (∀ (s : State) (o : Origin) (off : BitVec 25) (v : BitVec 64), exec (.registerWrite o off v false 0) s = .next (s.turned s.dev))
  ∧ (∀ (s : State) (q : Fin 8) (m : Fin 16) (off : BitVec 25) (v : BitVec 64) (en : BitVec 8), 0 < en.toNat → en.toNat < 16 → s.dev.glob.dev ≠ .off →
      s.dev.reaches (.host q m) = true → s.dev.inService = false → acceptedAnywhere (off.toNat / 4 * 4) = false →
      exec (.registerWrite (.host q m) off v false en) s = .next (s.turned (regDropped s.dev (.host q m) (off.toNat / 4 * 4) 1 false)))
  ∧ (∀ (s : State) (o : Origin) (off : BitVec 25) (v : BitVec 64) (en : BitVec 8), 0 < en.toNat → en.toNat < 15 → s.dev.glob.dev ≠ .off →
      s.dev.reaches o = true → s.dev.writeBar o (off.toNat / 4 * 4) = none → s.dev.answersAt (off.toNat / 4 * 4) →
      s.dev.noneAhead o (off.toNat / 4 * 4) →
      exec (.registerWrite o off v false en) s = .next (s.turned (narrowWrite s.dev o (off.toNat / 4 * 4))))
  ∧ (∀ (s : State) (o : Origin) (off : BitVec 25) (v : BitVec 64), s.dev.glob.dev ≠ .off → s.dev.reaches o = true →
      s.dev.writeBar o (off.toNat / 4 * 4) = none → ¬ s.dev.answersAt (off.toNat / 4 * 4) ∨ ¬ s.dev.noneAhead o (off.toNat / 4 * 4) →
      exec (.registerWrite o off v false 15) s = .next (s.turned { s.dev with
        waits := s.dev.waits ++ [(o, .reg (off.toNat / 4 * 4) v.toNat false 15 none none)] }))
  ∧ (∀ (d : Dev) (o : Origin) (a : HostAccess), d.waits = [(o, a)] →
      (d.blockRuns a = true → takeWaits d = takeAccess { d with waits := [] } (o, a)) ∧ (d.blockRuns a = false → takeWaits d = d))
  ∧ (∀ (d : Dev) (p : Fin 8) (m : Fin 16) (off : BitVec 25) (en : BitVec 4) (k : Nat), k = off.toNat / 4 * 4 →
      hostRead d p m off.toNat false 0 = 0 ∧ (en ≠ 0 → hostRead d p m off.toNat false en.toNat = d.dwordRead p m k)
        ∧ hostRead d p m off.toNat true 255 = d.dwordRead p m k + 2 ^ 32 * d.dwordRead p m (k + 4)
        ∧ (d.glob.dev = .service → perFunction k = false → d.answersAt k → d.noneAhead (.host p m) k → d.dwordRead p m k = regRead d k)
        ∧ (d.glob.dev = .service → perFunction k = false → ¬ d.answersAt k → d.dwordRead p m k = 2 ^ 32 - 1))
  ∧ (∀ (s : State) (o : Origin) (v : BitVec 64), s.dev.takesWrite o 0x20 →
      ∀ d, d = busWrite s.dev o 0x20 v.toNat false 15 none none → exec (.registerWrite o 0x20 v false 15) s = .next (s.turned d) ∧ d.mem = s.dev.mem
        ∧ glbRead d 0x20 = max 100 (min 100000 (v.toNat % 2 ^ 17)))
  ∧ (∀ (s : State) (o : Origin) (v : BitVec 64), s.dev.takesWrite o 0x4C →
      ∀ d, d = busWrite s.dev o 0x4C v.toNat false 15 none none → exec (.registerWrite o 0x4C v false 15) s = .next (s.turned d) ∧ glbRead d 0x4C = v.toNat % 4 ∧ d.mem = s.dev.mem)
  ∧ (∀ (s : State) (o : Origin) (v : BitVec 64), s.dev.glob.dev ≠ .off → s.dev.reaches o = true → s.dev.writeBar o 0x20300 = none →
      s.dev.answersAt 0x20300 → s.dev.noneAhead o 0x20300 → s.dev.glob.lockTables = true →
      ∀ d, d = busWrite s.dev o 0x20300 v.toNat false 15 none none → exec (.registerWrite o 0x20300 v false 15) s = .next (s.turned d) ∧ d.glob.tableBase = s.dev.glob.tableBase)
  ∧ ∀ (s : State) (o : Origin) (off : BitVec 25) (v : BitVec 64) (en : BitVec 8), 16 ≤ en.toNat →
      exec (.registerWrite o off v false en) s = .fault .illFormed

/-- R131, R323, R367, R374, R408, R411, R489: registers with a row of their own that start something. FULL_RESET starts a full
reset with 0x5E75 and else does nothing; PARK's GO parks from set 0 at the pace it gives; RESYNC's GO starts a snapshot, or has
the next one start after it; ERR_FLIP arms a flip on paths 1-11; a lock once set stays set. R323, R325, R327: PARK set by set.
While the recalls of a slice's set are out its walker waits; then it takes the next set, recalling every line of it that a host
or an engine holds; when every slice has walked all 32,768 sets PARK is done and PARK_DONE tells what was recalled. -/
def Obligations.StartingRegisters : Prop :=
  ((∀ (s : State) (o : Origin) (v : BitVec 32), s.dev.takesWrite o 0x48 → v.toNat % 2 ^ 16 = 0x5E75 →
        exec (.glbFullReset o v) s = .next (s.turned (beginReset s.dev .doorbell (originRole o) (originField o))))
    ∧ (∀ (s : State) (o : Origin) (v : BitVec 32), s.dev.takesWrite o 0x48 → v.toNat % 2 ^ 16 ≠ 0x5E75 →
        exec (.glbFullReset o v) s = .next (s.turned s.dev))
    ∧ (∀ (s : State) (o : Origin) (v : BitVec 32), s.dev.takesWrite o 0x40 → v.getLsbD 0 = true → s.dev.canPark = true →
        ∀ d, d = writeReg s.dev o 0x40 v → exec (.glbParkGo o v) s = .next (s.turned d) ∧ d.park.st = 1 ∧ d.park.pace = v.extractLsb' 1 8 ∧ d.park.recalled = 0
          ∧ (∀ sl < 16, (d.slice sl).parkNext = 0) ∧ d.mem = s.dev.mem)
    ∧ (∀ (s : State) (o : Origin) (v : BitVec 32), s.dev.takesWrite o 0x58 → v.getLsbD 0 = true → s.dev.q0Runs = true → s.dev.resync.busy = false →
        ∀ d, d = writeReg s.dev o 0x58 v → exec (.glbResyncGo o v) s = .next (s.turned d) ∧ d.resync.busy = true ∧ d.resync.seq = s.dev.resync.seq ∧ d.resync.who = requesterWord o
          ∧ d.resync.t0 = s.dev.glob.time ∧ d.mem = s.dev.mem)
    ∧ (∀ (s : State) (o : Origin) (v : BitVec 32), s.dev.takesWrite o 0x58 → v.getLsbD 0 = true → s.dev.q0Runs = true → s.dev.resync.busy = true →
        s.dev.resync.pending = false → exec (.glbResyncGo o v) s = .next (s.turned { s.dev with
          resync := { s.dev.resync with pending := true, nextWho := requesterWord o } }))
    ∧ (∀ (s : State) (o : Origin) (v : BitVec 32), s.dev.takesWrite o 0xA0020 → v.getLsbD 0 = true → 1 ≤ v.toNat / 4 % 16 → v.toNat / 4 % 16 ≤ 11 →
        ∀ d, d = writeReg s.dev o 0xA0020 v → exec (.errFlipArm o v) s = .next (s.turned d) ∧ d.err.flipArm = true ∧ d.err.flipPath.toNat = v.toNat / 4 % 16
          ∧ d.err.flipFired = false ∧ d.mem = s.dev.mem)
    ∧ (∀ (s : State) (o : Origin) (v : BitVec 32), s.dev.takesWrite o 0x24 →
        ∀ d, d = writeReg s.dev o 0x24 v → exec (.lockFieldWrite o false v) s = .next (s.turned d) ∧ d.glob.lockTables = (s.dev.glob.lockTables || v.getLsbD 0)
          ∧ d.glob.lockRmap = (s.dev.glob.lockRmap || v.getLsbD 1) ∧ d.err.lockFlip = s.dev.err.lockFlip)
    ∧ (∀ (s : State) (o : Origin) (v : BitVec 32), s.dev.takesWrite o 0xA0038 →
        ∀ d, d = writeReg s.dev o 0xA0038 v → exec (.lockFieldWrite o true v) s = .next (s.turned d) ∧ d.err.lockFlip = (s.dev.err.lockFlip || v.getLsbD 0)
          ∧ d.glob.lockTables = s.dev.glob.lockTables))
  ∧ ((∀ (s : State) (sl : Fin 16), s.dev.pwr.unlocked.getLsbD 10 = false → s.dev.park.st ≠ 1 ∨ s.dev.parkBusy sl.val = true ∨ s.dev.paceMet sl.val = false →
        exec (.parkSetStep sl) s = .next (s.turned s.dev))
    ∧ (∀ (s : State) (sl : Fin 16) (d : Dev), s.dev.pwr.unlocked.getLsbD 10 = false → s.dev.park.st = 1 → s.dev.parkBusy sl.val = false →
        s.dev.glob.resetPhase = .none → (s.dev.slice sl.val).parkNext < 32768 → s.dev.paceMet sl.val = true → s.dev.q0Runs = true →
        d = parkStep s.dev sl.val →
        exec (.parkSetStep sl) s = .next (s.turned d) ∧ (d.slice sl.val).parkNext = (s.dev.slice sl.val).parkNext + 1
          ∧ (d.slice sl.val).parkT = s.dev.glob.time
          ∧ (d.slice sl.val).parkWait.length = (s.dev.parkLines sl.val (s.dev.slice sl.val).parkNext).length ∧ d.park = s.dev.park ∧ d.mem = s.dev.mem)
    ∧ (∀ d : Dev, d.park.st = 1 → (∀ k < 16, d.parked k = 32768) →
        parkFinish d = raise { d with park := { d.park with st := 2 } } 452 5 0 (info (d.park.recalled + 2 ^ 24 * b2n d.park.resigned)))
    ∧ (∀ d : Dev, d.park.st = 1 → (∃ k < 16, d.parked k ≠ 32768) → parkFinish d = d))

/-- R93, R123, R131, R364, R367, R466, R467, R471: further registers with a row of their own. A slice is enabled only with its
tags clean, and disabling it drops its side buffer; HSTATUS clears by ones; a freed log entry is gone; the retained log is
acknowledged whole; counters clear, start and stop as asked, STOP winning; the overflows of one cycle make one record (R471), each
reported once, which of several cycles first being the model's reading (log entry 143). -/
def Obligations.ServiceRegisters : Prop :=
  (∀ (s : State) (o : Origin) (sl : Fin 16) (v : BitVec 32), s.dev.takesWrite o (0x30000 + 0x1000 * sl.val) →
      (s.dev.slice sl.val).ctrl.getLsbD 0 = false → (s.dev.slice sl.val).tagsClean = true → v.getLsbD 0 = true →
      exec (.slcCtrlWrite o sl v) s = .next (s.turned (s.dev.updSlice sl.val (fun y => { y with ctrl := v &&& 0x1F }))))
  ∧ (∀ (s : State) (o : Origin) (sl : Fin 16) (v : BitVec 32), s.dev.takesWrite o (0x30000 + 0x1000 * sl.val) →
      (s.dev.slice sl.val).ctrl.getLsbD 0 = false → (s.dev.slice sl.val).tagsClean = false → v.getLsbD 0 = true →
      exec (.slcCtrlWrite o sl v) s = .next (s.turned (raise (s.dev.updSlice sl.val (fun y => { y with ctrl := v &&& 0x1E })) (64 + 8 * sl.val) 0 1 0)))
  ∧ (∀ (s : State) (o : Origin) (sl : Fin 16) (v : BitVec 32), s.dev.takesWrite o (0x30000 + 0x1000 * sl.val) →
      (s.dev.slice sl.val).ctrl.getLsbD 0 = true → v.getLsbD 0 = false →
      ∀ d, d = writeReg s.dev o (0x30000 + 0x1000 * sl.val) v → exec (.slcCtrlWrite o sl v) s = .next (s.turned d) ∧ (d.slice sl.val).ctrl = v &&& 0x1E ∧ (d.slice sl.val).tagsClean = false
        ∧ (d.slice sl.val).side = [] ∧ (d.slice sl.val).tags = (s.dev.slice sl.val).tags ∧ d.mem = s.dev.mem)
  ∧ (∀ (s : State) (o : Origin) (p : Fin 8) (v : BitVec 32), s.dev.takesWrite o (0x2000C + 0x40 * p.val) →
      exec (.labHstatusWrite o p v) s = .next (s.turned (s.dev.updPort p.val (fun x => { x with hstatus := x.hstatus &&& ~~~(v.setWidth 4) }))))
  ∧ (∀ (s : State) (o : Origin) (v : BitVec 32), s.dev.takesWrite o 0xA0008 → v.getLsbD 31 = true →
      exec (.errLogFree o v) s = .next (s.turned (s.dev.setErr (fun e => { e with log := [], fullRaised := false }))))
  ∧ (∀ (s : State) (o : Origin) (v : BitVec 32) (x : LogEntry), s.dev.takesWrite o 0xA0008 → v.getLsbD 31 = false →
      Tab.find s.dev.err.log (v.toNat % 2 ^ 9) = some x →
      exec (.errLogFree o v) s = .next (s.turned (s.dev.setErr (fun e => { e with log := Tab.del e.log (v.toNat % 2 ^ 9), fullRaised := false }))))
  ∧ (∀ (s : State) (o : Origin) (v : BitVec 32), s.dev.takesWrite o 0xA0044 → v.getLsbD 0 = true →
      exec (.errRlogAck o v) s = .next (s.turned (s.dev.setErr (fun e => { e with rlog := [] }))))
  ∧ (∀ (s : State) (o : Origin) (b : Fin 28) (v : BitVec 32), s.dev.takesWrite o (0xC0000 + 0x100 * b.val) → v.getLsbD 1 = true →
      exec (.pmcClear o b v) s = .next (s.turned (s.dev.updPmc b.val (fun p => { p with
        run := v.getLsbD 0, cycInt := v.getLsbD 2, cycle := 0, cnt := [], ovf := 0 }))))
  ∧ (∀ (s : State) (o : Origin) (v : BitVec 32), s.dev.takesWrite o 0xC2004 → v.getLsbD 0 = true → v.getLsbD 1 = false →
      ∀ d, d = writeReg s.dev o 0xC2004 v → exec (.pmcGrunStart o v) s = .next (s.turned d) ∧ (∀ b < 28, (d.pmc b).run = true ∧ (d.pmc b).cnt = (s.dev.pmc b).cnt) ∧ d.mem = s.dev.mem)
  ∧ (∀ (s : State) (o : Origin) (v : BitVec 32), s.dev.takesWrite o 0xC2004 → v.getLsbD 1 = true →
      ∀ d, d = writeReg s.dev o 0xC2004 v → exec (.pmcGrunStop o v) s = .next (s.turned d) ∧ (∀ b < 28, (d.pmc b).run = false ∧ (d.pmc b).cnt = (s.dev.pmc b).cnt) ∧ d.mem = s.dev.mem)
  ∧ (∀ (s : State) (b : Fin 28), (s.dev.pmc b.val).fresh = [] → exec (.pmcOverflow b) s = .next (s.turned s.dev))
  ∧ (∀ (s : State) (b : Fin 28) (t : Nat) (v : BitVec 9) (rest : List (Nat × BitVec 9)), (s.dev.pmc b.val).fresh = (t, v) :: rest →
      exec (.pmcOverflow b) s = .next (s.turned (raise (s.dev.updPmc b.val (fun p => { p with fresh := rest })) 464 0 0
        (info (b.val + 32 * v.toNat)))))

-- routines (11_routines_and_maintenance.md)

/-- R124, R300, R302, R303, R304, R310, R312: the range and maintenance routines as their engine takes them, their parameters read
from the body words of the call. A call whose parameters R303 allows starts with its counts at zero and works through its lines (a
physical range) or its pages (a view's); one with other parameters ends with BAD_PARAM (2), as does any with words after its last
parameter that are not zero; a code the catalogue does not have ends with UNKNOWN (13); an engine with no such call does nothing.
INVAL_ALL makes the tags of the disabled slices it names invalid, and does nothing where one of them is enabled (6). Which result
words count what, and how many there are, is the model's reading (log entry 61). -/
def Obligations.RangeRoutines : Prop :=
  ∀ (s : State) (k : CallCtx) (r : Range) (ws : List Word) (q : Option (Nat × BitVec 10)), ws = s.dev.bodyOf k → r = rangeOf ws →
    let lines (c : Nat) : List CallStep := [if r.phys then .cmos c r.coh false (r.base / 64) (r.len / 64) else .range r.base (r.base + r.len), .finish]
    (∀ named : List Nat, named = (List.range 16).filter (fun i => (b1 ws 0).testBit i) →
      (s.dev.takesCall k 1 1 q → (∀ i ∈ named, (s.dev.slice i).ctrl.getLsbD 0 = false) →
        exec (.invalAll k) s = .next (s.turned ((s.dev.each named tagsInvalid).withCall k {
          code := 1, reply := q, body := ws, counts := [named.length], steps := [.finish] })))
      ∧ (s.dev.takesCall k 1 1 q → (∃ i ∈ named, (s.dev.slice i).ctrl.getLsbD 0 = true) →
        exec (.invalAll k) s = .next (s.turned (s.dev.withCall k { code := 1, reply := q, body := ws, status := 6, steps := [.finish] }))))
    ∧ (s.dev.takesCall k 2 7 q → s.dev.rangeOk r = true → exec (.cleanRange k) s = .next (s.turned (s.dev.withCall k {
          code := 2, reply := q, body := ws, view := r.view, coh := r.coh, counts := [0, 0, 0], steps := lines 0 })))
    ∧ (s.dev.takesCall k 3 7 q → s.dev.rangeOk r = true → exec (.invalRange k) s = .next (s.turned (s.dev.withCall k {
          code := 3, reply := q, body := ws, view := r.view, coh := r.coh, counts := [0, 0, 0, 0], steps := lines 1 })))
    ∧ (s.dev.takesCall k 4 7 q → s.dev.rangeOk r = true → exec (.clinvRange k) s = .next (s.turned (s.dev.withCall k {
          code := 4, reply := q, body := ws, view := r.view, coh := r.coh, counts := [0, 0, 0, 0], steps := lines 2 })))
    ∧ (s.dev.takesCall k 2 7 q → s.dev.rangeOk r = false → exec (.cleanRange k) s = .next (s.turned (s.dev.withCall k {
          code := 2, reply := q, body := ws, status := 2, steps := [.finish] })))
    ∧ (s.dev.callFor k.e.val 2 = some q → restZero ws 7 = false → exec (.cleanRange k) s = .next (s.turned (s.dev.withCall k {
          code := 2, reply := q, body := ws, status := 2, steps := [.finish] })))
    ∧ (s.dev.callFor k.e.val 2 = none → exec (.cleanRange k) s = .next (s.turned s.dev))
    ∧ (s.dev.takesCall k 5 5 q → b1 ws 0 % 4 ≠ 3 → b1 ws 2 < 2 ^ 13 → b1 ws 3 < 2 ^ 13 →
        exec (.maintSetway k) s = .next (s.turned (s.dev.withCall k {
          code := 5, reply := q, body := ws, mode := b1 ws 0 % 4, slices := (ws.getD 1 0).extractLsb' 0 16, base := b1 ws 2, last := b1 ws 3,
          ways := (ws.getD 4 0).extractLsb' 0 16, counts := [0, 0], steps := [.setways 0 (b1 ws 2) 0, .finish] })))
    ∧ (s.dev.takesCall k 6 8 q → s.dev.rangeOk r = true → r.coh = false → bitAt (b1 ws 7) 4 = false →
        exec (.lockPreload k) s = .next (s.turned (s.dev.withCall k {
          code := 6, reply := q, body := ws, view := r.view, mode := b1 ws 7 % 16, counts := [0, 0, 0],
          steps := [if r.phys then .preloads (BitVec.ofNat 4 (b1 ws 7 % 16)) false false (r.base / 512) ((r.base + r.len + 511) / 512 - r.base / 512)
            else .range r.base (r.base + r.len), .finish] })))
    ∧ (s.dev.takesCall k 6 8 q → bitAt (b1 ws 7) 4 = true → (ws.take 7).all (· == 0) = true →
        exec (.lockPreload k) s = .next (s.turned (s.dev.withCall k {
          code := 6, reply := q, body := ws, mode := b1 ws 7 % 16, counts := [0, 0, 0], steps := [.release 0, .finish] })))
    ∧ (s.dev.takesCall k 7 7 q → s.dev.rangeOk r = true → r.coh = false →
        exec (.sweep k) s = .next (s.turned (s.dev.withCall k {
          code := 7, reply := q, body := ws, view := r.view, counts := [0, 0, 0],
          steps := [if r.phys then .sweepLines none (r.base / 64) (r.len / 64) else .range r.base (r.base + r.len), .finish] })))
    ∧ (∀ c : BitVec 8, c.toNat = 0 ∨ 0x18 < c.toNat → s.dev.callFor k.e.val c.toNat = some q →
        exec (.routineUnknown k c) s = .next (s.turned (s.dev.withCall k {
          code := c.toNat, reply := q, body := ws, status := 13, steps := [.finish] })))
    ∧ (r.view = (ws.getD 0 0).extractLsb' 0 12 ∧ r.phys = (ws.getD 0 0).getLsbD 12 ∧ r.coh = (ws.getD 0 0).getLsbD 13
        ∧ r.base = (ws.getD 1 0).toNat + 2 ^ 18 * (ws.getD 2 0).toNat + 2 ^ 36 * (ws.getD 3 0).toNat
        ∧ r.len = (ws.getD 4 0).toNat + 2 ^ 18 * (ws.getD 5 0).toNat + 2 ^ 36 * (ws.getD 6 0).toNat
        ∧ (s.dev.rangeOk r = true ↔ (ws.getD 0 0).toNat < 2 ^ 14 ∧ r.base % 64 = 0 ∧ r.len % 64 = 0 ∧ r.len ≠ 0
            ∧ r.base + r.len ≤ (if r.phys then s.dev.limit else 2 ^ 43)))

/-- R45, R47, R89, R90, R302, R304, R314, R315, R316, R317, R520: the view routines and the Dynamic Capacity routines as their
engine takes them, their parameters read from the body words of the call. Each that works on a view takes its lock first and then
runs with the parameters given; a granule or a level that does not exist, too many views, an LD without a binding and an extent that
is not there end with BAD_PARAM (a spare frame beyond the usable limit too, by the model's choice, log entry 111). R317: what the
routines that bind and create views do once they hold the lock. VIEW_BIND writes or removes the LD's binding and answers the one
before, with no other binding touched, or VIEW_BOUND (7) while the LD's agent or decoder holds it; VIEW_CREATE of a view that exists
is CONFLICT (8). -/
def Obligations.ViewRoutines : Prop :=
  (∀ (s : State) (k : CallCtx) (ws : List Word) (q : Option (Nat × BitVec 10)), ws = s.dev.bodyOf k →
      let v : BitVec 12 := (ws.getD 0 0).extractLsb' 0 12
      let go : List CallStep := [.lockViews [v], .viewGo]
      let p := b1 ws 0 % 8
      let m := b1 ws 0 / 8 % 16
      let g := b1 ws 0 / 128 % 8
      (s.dev.takesCall k 8 2 q → (b1 ws 1 % 4 = 1 ∨ b1 ws 1 % 4 = 2) → b1 ws 1 / 4 % 4 ≠ 3 →
          exec (.viewCreate k) s = .next (s.turned (s.dev.withCall k {
            code := 8, reply := q, body := ws, view := v, mode := b1 ws 1 % 4 + 4 * (b1 ws 1 / 4 % 4), steps := go })))
      ∧ (s.dev.takesCall k 8 2 q → (b1 ws 1 % 4 = 0 ∨ b1 ws 1 % 4 = 3 ∨ b1 ws 1 / 4 % 4 = 3) →
          exec (.viewCreate k) s = .next (s.turned (s.dev.withCall k { code := 8, reply := q, body := ws, status := 2, steps := [.finish] })))
      ∧ (s.dev.takesCall k 9 1 q → exec (.viewDelete k) s = .next (s.turned (s.dev.withCall k {
            code := 9, reply := q, body := ws, view := v, steps := go })))
      ∧ (∀ w : BitVec 12, s.dev.takesCall k 0xA 2 q → w = (ws.getD 1 0).extractLsb' 0 12 →
          exec (.viewBind k) s = .next (s.turned (s.dev.withCall k {
            code := 0xA, reply := q, body := ws, view := w, port := p, ld := m, keep := bitAt (b1 ws 0) 7, steps := [.lockViews [w], .viewGo] })))
      ∧ (s.dev.takesCall k 0xB 10 q → exec (.viewMap k) s = .next (s.turned (s.dev.withCall k {
            code := 0xB, reply := q, body := ws, view := v, base := b3 ws 1, pages := b2 ws 4, attr := (ws.getD 6 0).extractLsb' 0 8,
            keep := bitAt (b1 ws 6) 8, large := bitAt (b1 ws 6) 9, list := bitAt (b1 ws 6) 10, first := b3 ws 7, steps := go })))
      ∧ (s.dev.takesCall k 0xC 6 q → exec (.viewUnmap k) s = .next (s.turned (s.dev.withCall k {
            code := 0xC, reply := q, body := ws, view := v, base := b3 ws 1, pages := b2 ws 4, steps := go })))
      ∧ (∀ (n : Nat) (vs : List (BitVec 12)), n = b1 ws 4 % 16 → vs = (List.range n).map (fun i => (ws.getD (5 + i) 0).extractLsb' 0 12) →
          s.dev.takesCall k 0xD (5 + n) q →
          (0 < n → n ≤ 8 → 65536 * b2 ws 2 < s.dev.limit → exec (.viewRemap k) s = .next (s.turned (s.dev.withCall k {
            code := 0xD, reply := q, body := ws, view := vs.headD 0, old := b2 ws 0, spare := b2 ws 2, counts := [0, 0],
            steps := [.lockViews (sortViews vs), .remapFind vs, .remapGo, .finish] })))
          ∧ (n = 0 ∨ 8 < n ∨ s.dev.limit ≤ 65536 * b2 ws 2 → exec (.viewRemap k) s = .next (s.turned (s.dev.withCall k {
            code := 0xD, reply := q, body := ws, status := 2, steps := [.finish] }))))
      ∧ (∀ b : BitVec 12, s.dev.takesCall k 0x17 18 q → b1 ws 0 / 1024 = 0 → Tab.find s.dev.binds (16 * p + m) = some b →
          exec (.dcAdd k) s = .next (s.turned (s.dev.withCall k {
            code := 0x17, reply := q, body := ws, view := b, port := p, ld := m, region := g, base := b3 ws 1, pages := b2 ws 4,
            attr := (ws.getD 6 0).extractLsb' 0 8, keep := bitAt (b1 ws 6) 8, large := bitAt (b1 ws 6) 9, list := bitAt (b1 ws 6) 10,
            first := b3 ws 7, tag := dcTag ws, steps := [.lockViews [b], .viewGo] })))
      ∧ (s.dev.takesCall k 0x17 18 q → Tab.find s.dev.binds (16 * p + m) = none →
          exec (.dcAdd k) s = .next (s.turned (s.dev.withCall k { code := 0x17, reply := q, body := ws, status := 2, steps := [.finish] })))
      ∧ (∀ x : DcExtent, s.dev.takesCall k 0x18 4 q → b1 ws 0 / 1024 = 0 →
          (s.dev.ld p m).extents.find? (fun x => x.accepted && decide (x.region = g) && decide (x.base = b3 ws 1)) = some x →
          exec (.dcRelease k) s = .next (s.turned ((emit s.dev (.dcRelease p m g (b3 ws 1) x.pages)).withCall k {
            code := 0x18, reply := q, body := ws, view := s.dev.boundView p m x.view, steps := [.finish] })))
      ∧ (s.dev.takesCall k 0x18 4 q →
          (s.dev.ld p m).extents.find? (fun x => x.accepted && decide (x.region = g) && decide (x.base = b3 ws 1)) = none →
          exec (.dcRelease k) s = .next (s.turned (s.dev.withCall k { code := 0x18, reply := q, body := ws, status := 2, steps := [.finish] }))))
  ∧ ((∀ (d : Dev) (c : Call) (x : BitVec 32), d.bindHeld c.port c.ld = false → c.keep = false → d.desc? c.view = some x →
        Tab.find (viewBindGo d c).1.binds (16 * c.port + c.ld) = some c.view
        ∧ (∀ i, i ≠ 16 * c.port + c.ld → Tab.find (viewBindGo d c).1.binds i = Tab.find d.binds i)
        ∧ (viewBindGo d c).2.status = c.status ∧ (viewBindGo d c).1.mem = d.mem)
    ∧ (∀ (d : Dev) (c : Call), d.bindHeld c.port c.ld = false → c.keep = true → Tab.wf d.binds = true →
        Tab.find (viewBindGo d c).1.binds (16 * c.port + c.ld) = none
        ∧ ∀ i, i ≠ 16 * c.port + c.ld → Tab.find (viewBindGo d c).1.binds i = Tab.find d.binds i)
    ∧ (∀ (d : Dev) (c : Call), d.bindHeld c.port c.ld = true → (viewBindGo d c).1 = d ∧ (viewBindGo d c).2.status = 7)
    ∧ (∀ (d : Dev) (c : Call), descLevels (d.pairAt (d.descDpa c.view)).1 ≠ 0 → (viewCreateGo d c).status = 8))

/-- R139, R141, R143, R195, R300, R304, R319, R320, R323: the routines on agents, tiles, PARK and host programs, their parameters
read from the body words of the call. RESIGN of an attached pair starts its resignation and waits for the point, and of another
pair ends with NOT_ATTACHED (4); a tile routine runs once no other runs on its tile, and then starts a drain or ends with the tile's
state; PARK starts in SERVICE and waits for its end; the program routines work on the one engine that serves their queue, with a
handle that names the program it holds. PROG_FREE of an engine without a program ends with BAD_PARAM (2), the model's reading (log
entry 91). -/
def Obligations.TileAndProgramRoutines : Prop :=
  (∀ (s : State) (k : CallCtx) (ws : List Word) (q : Option (Nat × BitVec 10)), ws = s.dev.bodyOf k →
    let y := s.dev.engine k.e.val
    (∀ (a : BitVec 12) (ep : BitVec 4), s.dev.takesCall k 0xE 2 q → a = (ws.getD 0 0).extractLsb' 0 12 → ep = (ws.getD 1 0).extractLsb' 0 4 →
        (∀ x : Agent, s.dev.agent? a = some x → x.attached = true → x.epoch = ep →
          exec (.resign k) s = .next (s.turned ((Machine.resign s.dev a 4).withCall k {
            code := 0xE, reply := q, body := ws, first := a.toNat, steps := [.awaitAgent a ep, .finish] })))
        ∧ ((∀ x : Agent, s.dev.agent? a = some x → x.attached = false ∨ x.epoch ≠ ep) →
          exec (.resign k) s = .next (s.turned (s.dev.withCall k { code := 0xE, reply := q, body := ws, status := 4, steps := [.finish] }))))
    ∧ (∀ c : Call, c = { mode := b1 ws 0 % 8, base := b1 ws 1 % 64, steps := [.tileGo], reply := q, body := ws } →
        (s.dev.takesCall k 0xF 1 q → exec (.tileOffline k) s = .next (s.turned (s.dev.withCall k { c with code := 0xF })))
        ∧ (s.dev.takesCall k 0x10 1 q → exec (.tileOnline k) s = .next (s.turned (s.dev.withCall k { c with code := 0x10 })))
        ∧ (s.dev.takesCall k 0x11 1 q → exec (.tileRetire k) s = .next (s.turned (s.dev.withCall k { c with code := 0x11 })))
        ∧ (s.dev.takesCall k 0x12 2 q → exec (.bankRetire k) s = .next (s.turned (s.dev.withCall k { c with code := 0x12 }))))
    ∧ (s.dev.takesCall k 0x13 1 q → s.dev.canPark = true →
        exec (.park k) s = .next (s.turned ((parkStart s.dev ((ws.getD 0 0).extractLsb' 0 8)).withCall k {
          code := 0x13, reply := q, body := ws, steps := [.awaitPark, .finish] })))
    ∧ (s.dev.takesCall k 0x13 1 q → s.dev.canPark = false →
        exec (.park k) s = .next (s.turned (s.dev.withCall k { code := 0x13, reply := q, body := ws, status := 10, steps := [.finish] })))
    ∧ (∀ r : Range, s.dev.takesCall k 0x14 7 q → r = rangeOf ws → s.dev.oneEngine { code := 0x14, reply := q } = true →
        s.dev.rangeOk r = true → r.coh = false → y.prog = none →
        exec (.progLoad k) s = .next (s.turned (s.dev.withCall k {
          code := 0x14, reply := q, body := ws, view := r.view, keep := r.phys, base := r.base, last := r.len,
          steps := [if r.phys then .loads false (r.base / 64) (r.len / 64) else .range r.base (r.base + r.len), .progGo] })))
    ∧ (∀ (v : BitVec 12) (b : Pair) (p : Prog), s.dev.takesCall k 0x15 12 q → v = (ws.getD 1 0).extractLsb' 0 12 →
        b = BitVec.ofNat 36 (b2 ws 2) → s.dev.oneEngine { code := 0x15, reply := q } = true → y.prog = some p →
        (ws.getD 0 0).toNat = k.e.val + 32 * p.count.toNat → b ≠ 0 →
        exec (.progRun k) s = .next (s.turned ((s.dev.updEngine k.e.val (fun y => { y with
          running := some v, sup := false, trans := false, guard := false, intrap := false, iubase := 0x200, subase := 0x4000,
          pc := BitVec.ofNat 14 (0x2000 + p.entry.toNat), cview := v, budget := b, budgetDue := false, flags := 0, fault := none,
          g := (List.range 8).map (fun i => (i, ((ws.drop 4).take 8).getD i 0)), a := [(0, info (2 * 2 ^ 52 + 0x4000))] })).withCall k {
          code := 0x15, reply := q, body := ws, view := v, steps := [.awaitRun] })))
    ∧ (∀ p : Prog, s.dev.takesCall k 0x16 1 q → y.prog = some p → (ws.getD 0 0).toNat = k.e.val + 32 * p.count.toNat →
        exec (.progFree k) s = .next (s.turned ((s.dev.updEngine k.e.val (fun y => { y with prog := none })).withCall k {
          code := 0x16, reply := q, body := ws, steps := [.finish] })))
    ∧ (s.dev.takesCall k 0x16 1 q → y.prog = none →
        exec (.progFree k) s = .next (s.turned (s.dev.withCall k { code := 0x16, reply := q, body := ws, status := 2, steps := [.finish] }))))
  ∧ (∀ (d : Dev) (c : Call), d.tileMoving c.mode = false →
      (c.code = 0xF → d.tileSt c.mode = .online → (tileGo d c).1 = startDrain d c.mode 1 false ∧ (tileGo d c).2.status = c.status)
      ∧ (c.code = 0x10 → d.tileSt c.mode = .offline → (tileGo d c).1 = d ∧ (tileGo d c).2.status = c.status)
      ∧ (c.code = 0x11 → d.tileSt c.mode = .online → (tileGo d c).1 = startDrain d c.mode 2 true ∧ (tileGo d c).2.status = c.status)
      ∧ (c.code = 0x12 → d.tileSt c.mode = .online → (d.tile c.mode).bankWalks.contains c.base = false →
          (tileGo d c).1 = retireBank d c.mode c.base ∧ (tileGo d c).2.status = c.status))

/-- R321, R518: the services of a host program that waits in one, the clock of its engine's quad running (R15) and no LAB_MISS record
left for its engine's handler. EXIT ends the run with G0 to G7 as its result words; the CMO service
enters its operation at the line its address names and the program waits for it, or answers 1 where R261 calls it ILLEGAL or no
line answers, and is made again while the walk has to wait (R79); LABI enters its operation and
answers 0; LABSYNC answers 0 once it is over. -/
def Obligations.ProgramServices : Prop :=
  (∀ (s : State) (e : Fin 24) (c : Call), (s.dev.engine e.val).inService 0 = true → s.dev.quadRuns e.val = true → s.dev.missWaits e.val = false → (s.dev.engine e.val).call = some c →
      ∀ d, d = svcExit s.dev e.val → exec (.progSvcExit e) s = .next (s.turned d) ∧ (d.engine e.val).running = none ∧ (d.engine e.val).sup = true
        ∧ (d.engine e.val).call = some { c with
            status := 0, steps := [.finish],
            words := (List.range 8).map (fun i => (s.dev.engine e.val).rg i) })
  ∧ (∀ (s : State) (e : Fin 24), (s.dev.engine e.val).inService 1 = true → s.dev.quadRuns e.val = true → s.dev.missWaits e.val = false →
      cmoIllegal (((s.dev.engine e.val).rg 0).extractLsb' 0 2) (((s.dev.engine e.val).rg 0).getLsbD 2) (((s.dev.engine e.val).rg 0).getLsbD 3)
        (((s.dev.engine e.val).rg 0).getLsbD 4) 0 = true →
      exec (.progSvcCmo e) s = .next (s.turned (backToUser (s.dev.updEngine e.val (fun y => y.setG 0 1)) e.val)))
  ∧ (∀ (s : State) (e : Fin 24) (d : Dev) (l : Loc), (s.dev.engine e.val).inService 1 = true → s.dev.quadRuns e.val = true → s.dev.missWaits e.val = false → (s.dev.engine e.val).sbFull = false →
      cmoIllegal (((s.dev.engine e.val).rg 0).extractLsb' 0 2) false (((s.dev.engine e.val).rg 0).getLsbD 3)
        (((s.dev.engine e.val).rg 0).getLsbD 4) 0 = false → ((s.dev.engine e.val).rg 0).getLsbD 2 = false → svcLine s.dev e.val = (d, .here l) →
      exec (.progSvcCmo e) s = .next (s.turned (d.updEngine e.val (fun y => { y.enterDrained (entryOf
        (.cmo ((y.rg 0).toNat % 4) ((y.rg 0).getLsbD 3) ((y.rg 0).getLsbD 4)) (y.ra 7) l.page [{ line := l.line, data := 0, mask := 0, poison := false, page := l.page }]
        (decide (d.limit ≤ l.dpa)) true) with
        wait := .svcCmo ((y.enterDrained (entryOf (.cmo ((y.rg 0).toNat % 4) ((y.rg 0).getLsbD 3) ((y.rg 0).getLsbD 4)) (y.ra 7) l.page
          [{ line := l.line, data := 0, mask := 0, poison := false, page := l.page }] (decide (d.limit ≤ l.dpa)) true)).nextSb - 1) }))))
  ∧ (∀ (s : State) (e : Fin 24) (d : Dev), (s.dev.engine e.val).inService 1 = true → s.dev.quadRuns e.val = true → s.dev.missWaits e.val = false → (s.dev.engine e.val).sbFull = false →
      cmoIllegal (((s.dev.engine e.val).rg 0).extractLsb' 0 2) false (((s.dev.engine e.val).rg 0).getLsbD 3)
        (((s.dev.engine e.val).rg 0).getLsbD 4) 0 = false → ((s.dev.engine e.val).rg 0).getLsbD 2 = false →
      (svcLine s.dev e.val = (d, .fails) →
        exec (.progSvcCmo e) s = .next (s.turned (backToUser (d.updEngine e.val (fun y => y.setG 0 1)) e.val)))
      ∧ (svcLine s.dev e.val = (d, .held) → exec (.progSvcCmo e) s = .next (s.turned d)))
  ∧ (∀ (s : State) (e : Fin 24), (s.dev.engine e.val).inService 2 = true → s.dev.quadRuns e.val = true → s.dev.missWaits e.val = false → (s.dev.engine e.val).sbFull = false →
      ((s.dev.engine e.val).rg 0).getLsbD 0 = true →
      ∀ vpn, vpn = 2 * waddr ((s.dev.engine e.val).ra 7) / 2 ^ granShift (s.dev.granOf (s.dev.engine e.val).cview).toNat → exec (.progSvcLabi e) s = .next (s.turned (backToUser ((s.dev.updEngine e.val (fun y => y.enter (entryOf
        (.labi 1 y.cview (s.dev.granOf y.cview) vpn) (y.ra 7) {} [] false true))).updEngine e.val (fun y => y.setG 0 0)) e.val)))
  ∧ (∀ (s : State) (e : Fin 24), (s.dev.engine e.val).inService 3 = true → s.dev.quadRuns e.val = true → s.dev.missWaits e.val = false → s.dev.labsyncOver e.val = true →
      exec (.progSvcLabsync e) s = .next (s.turned (backToUser ((clearEffects s.dev e.val).updEngine e.val (fun y => y.setG 0 0)) e.val)))

-- mailboxes, FM-owned LD, DOE and SPDM (02_agent_ports.md, 16_roles_and_security.md)

/-- R42, R45, R51, R351: the commands of an open mailbox that only report. Each answers with return code 0 and its payload, and
raises MAILBOX. Opcodes and the values no rule gives are CXL's and free values (log entry 20); that a mailbox is open where its LD is
reached in SERVICE or HELD and answers at once is log entry 93, and what Identify gives as capacity and Get Health Info as totals is
log entry 94. An opcode of no row is unsupported (code 3), and a closed mailbox answers nothing. -/
def Obligations.MailboxReports : Prop :=
  ∀ (s : State) (b : Mbx), s.dev.mailboxOpen b = true →
    let p := b.port.val
    let m := b.ld.val
    let l := s.dev.ld p m
    exec (.identifyMemoryDevice b) s = .next (s.turned (mailboxDone s.dev p m 0x4000 0 [s.dev.staticCapacity p m, 0]))
    ∧ exec (.getSupportedLogs b) s = .next (s.turned (mailboxDone s.dev p m 0x400 0 [2, Config.wire 0x400 0, Config.wire 0x400 1]))
    ∧ exec (.getLog b true) s = .next (s.turned (mailboxDone s.dev p m 0x401 0 (l.records.flatMap recWords)))
    ∧ exec (.getLog b false) s = .next (s.turned (mailboxDone s.dev p m 0x401 0 (mailboxOps.flatMap (fun op => [op, Config.wire 0x401 op]))))
    ∧ exec (.getEventRecords b) s = .next (s.turned (mailboxDone s.dev p m 0x100 0
        (b2n l.recOverflow :: l.records.length :: l.records.flatMap recWords)))
    ∧ exec (.getEventInterruptPolicy b) s = .next (s.turned (mailboxDone s.dev p m 0x102 0 [l.policy.toNat]))
    ∧ exec (.getHealthInfo b) s = .next (s.turned (mailboxDone s.dev p m 0x4200 0
        [s.dev.pwr.tjMax.toNat, s.dev.errorTotals.1, s.dev.errorTotals.2, s.dev.glob.dev.code]))
    ∧ (∀ a len : Nat, exec (.getPoisonList b a len) s = .next (s.turned (mailboxDone s.dev p m 0x4300 0
        (b2n (decide (256 < (s.dev.poisonList p m a len).length)) :: (s.dev.poisonList p m a len).take 256))))
    ∧ exec (.getTimestamp b) s = .next (s.turned (mailboxDone s.dev p m 0x300 0 [s.dev.stamp.toNat]))
    ∧ exec (.getFwInfo b) s = .next (s.turned (mailboxDone s.dev p m 0x200 0 [2, 1 + b2n s.dev.glob.fwSlot,
        if s.dev.sec.namedSlot = s.dev.glob.fwSlot then 0 else 1 + b2n s.dev.sec.namedSlot, 0, s.dev.sec.slotA.version, s.dev.sec.slotB.version]))
    ∧ exec (.getDynamicCapacityConfiguration b) s = .next (s.turned (mailboxDone s.dev p m 0x4800 0 (dcConfig p m)))
    ∧ exec (.getDynamicCapacityExtentList b) s = .next (s.turned (mailboxDone s.dev p m 0x4801 0
        ((l.extents.filter (·.accepted)).flatMap (fun x => [x.base, 65536 * x.pages, x.tag.toNat]))))
    ∧ (∀ op : BitVec 16, mailboxOps.contains op.toNat = false →
        exec (.mailboxUnsupported b op) s = .next (s.turned (mailboxDone s.dev p m op.toNat 3 [])))
    ∧ ∀ (t : State), t.dev.mailboxOpen b = false → exec (.getTimestamp b) t = .next (t.turned t.dev)

/-- R44, R46, R51, R351, R365, R434: the commands of an open mailbox that change something. Cleared records go oldest first with
the overflow mark; a policy and the time are kept; poison of a mapped line is written by Q0 and answered when the write is done;
accepted offers become the LD's extents and the others are withdrawn; an extent given back is unmapped by Q0, and an extent or
an address that is not there answers code 15. The opcodes are log entry 20's and the codes 14 and 15 log entry 95's: both are the
model's choice. -/
def Obligations.MailboxChanges : Prop :=
  ∀ (s : State) (b : Mbx), s.dev.mailboxOpen b = true →
    let p := b.port.val
    let m := b.ld.val
    let l := s.dev.ld p m
    (∀ n : Nat, n ≤ l.records.length → exec (.clearEventRecords b n) s = .next (s.turned (mailboxDone
        (s.dev.updLd p m (fun l => { l with records := l.records.drop n, recOverflow := false })) p m 0x101 0 [])))
    ∧ (∀ n : Nat, l.records.length < n → exec (.clearEventRecords b n) s = .next (s.turned (mailboxDone s.dev p m 0x101 14 [])))
    ∧ (∀ v : BitVec 64, exec (.setEventInterruptPolicy b v) s = .next (s.turned (mailboxDone
        (s.dev.updLd p m (fun l => { l with policy := v })) p m 0x103 0 [])))
    ∧ (∀ v : BitVec 64, ∀ d, d = setStamp s.dev v → exec (.setTimestamp b v) s = .next (s.turned (mailboxDone d p m 0x301 0 [])) ∧ d.stamp = v ∧ d.mem = s.dev.mem)
    ∧ (s.dev.glob.fwRunning = true → s.dev.q0Runs = true →
        (∀ (va dpa : Nat), s.dev.inService = true → s.dev.ldDpa p m va = some dpa →
          (exec (.injectPoison b va) s = .next (s.turned { s.dev with q0work := s.dev.q0work ++ [{
            steps := [.line dpa 0 true, .answer 0x4301, .finish], port := p, ld := m, base := dpa / 64 * 64 }] }))
          ∧ ∀ data : Line, exec (.clearPoison b va data) s = .next (s.turned { s.dev with q0work := s.dev.q0work ++ [{
            steps := [.line dpa data false, .answer 0x4302, .finish], port := p, ld := m, base := dpa / 64 * 64 }] }))
        ∧ (∀ va : Nat, s.dev.ldDpa p m va = none → exec (.injectPoison b va) s = .next (s.turned (mailboxDone s.dev p m 0x4301 15 [])))
        ∧ (∀ (x : Extent) (y : DcExtent),
            l.extents.find? (fun y => y.accepted && decide (y.base = x.base) && decide (y.pages = x.pages)) = some y →
            exec (.releaseDynamicCapacity b x) s = .next (s.turned { s.dev with q0work := s.dev.q0work ++ [{
              port := p, ld := m, region := y.region, base := y.base, pages := y.pages, view := s.dev.boundView p m y.view,
              steps := [.unmapAll, .dcReleased, .finish] }] }))
        ∧ (∀ x : Extent, l.extents.find? (fun y => y.accepted && decide (y.base = x.base) && decide (y.pages = x.pages)) = none →
            exec (.releaseDynamicCapacity b x) s = .next (s.turned (mailboxDone s.dev p m 0x4803 15 []))))
    ∧ (∀ xs : List Extent, ∀ d, d = dcResponse s.dev p m xs → exec (.addDynamicCapacityResponse b xs) s = .next (s.turned (mailboxDone d p m 0x4802 0 [])) ∧ d.mem = s.dev.mem
        ∧ (d.ld p m).extents = (l.extents.filter (fun x => x.accepted || namedIn xs x)).map (fun x => { x with accepted := true }))

/-- R425, R442, R443, R444, R448: firmware over the mailbox. An image with a good header and an SVN at or above the floor goes to the
slot no record names, whose old contents are gone, and is checked; one below the floor is refused and journalled, and one whose header
is not good is an invalid input (the code is the model's, log entry 20); an image that verifies and whose signer's key is held stands
there, valid, and any other stands there invalid; activation erases the sector of the older record and writes one for that slot, with
the image's digest, and completes when the record is whole, effective at the next full reset; online activation is not supported (3)
and another change under way makes both busy (6): an image staged or checked, a commit record being written or not booted yet (what
counts as such a change, and when an activation completes, is the model's reading, log entry 96). -/
def Obligations.FirmwareCommands : Prop :=
  (∀ (s : State) (b : Mbx) (img : FwImage), s.dev.mailboxOpen b = true → s.dev.glob.fwRunning = true → s.dev.q0Runs = true →
      s.dev.sec.committedNotBooted = false → s.dev.sec.staging = none → s.dev.sec.committing = none →
      (headerOk img = true → s.dev.sec.floor ≤ img.svn →
        ∀ d, d = s.dev.setSec (fun x => { x.setSlot (!x.namedSlot) {} with staging := some {
          slot := !x.namedSlot, img := img, old := (x.slot (!x.namedSlot)).digest, origin := BitVec.ofNat 16 (originField (.host b.port b.ld)) } }) →
        exec (.transferFw b img) s = .next (s.turned (mailboxDone d b.port.val b.ld.val 0x201 0 [])) ∧ d.sec.slot (!s.dev.sec.namedSlot) = {}
          ∧ d.sec.slot s.dev.sec.namedSlot = s.dev.sec.slot s.dev.sec.namedSlot ∧ d.mem = s.dev.mem)
      ∧ (headerOk img = true → img.svn < s.dev.sec.floor →
        ∀ d, d = authFail s.dev 0 5 {} (originField (.host b.port b.ld)) false img.digest →
        exec (.transferFw b img) s = .next (s.turned (mailboxDone d b.port.val b.ld.val 0x201 0xA [])) ∧ d.sec.staging = none
          ∧ d.sec.slotA = s.dev.sec.slotA ∧ d.sec.slotB = s.dev.sec.slotB)
      ∧ (headerOk img = false → exec (.transferFw b img) s = .next (s.turned (mailboxDone s.dev b.port.val b.ld.val 0x201 2 []))))
  ∧ (∀ (s : State) (b : Mbx) (img : FwImage), s.dev.mailboxOpen b = true → s.dev.glob.fwRunning = true → s.dev.q0Runs = true →
      s.dev.sec.committedNotBooted = true ∨ s.dev.sec.staging.isSome = true ∨ s.dev.sec.committing.isSome = true →
      exec (.transferFw b img) s = .next (s.turned (mailboxDone s.dev b.port.val b.ld.val 0x201 6 []))
      ∧ exec (.activateFw b false) s = .next (s.turned (mailboxDone s.dev b.port.val b.ld.val 0x202 6 [])))
  ∧ (∀ (s : State) (t : Staging), s.dev.sec.staging = some t → s.dev.sec.signerHeld t.img = true → s.dev.q0Runs = true →
      ∀ d, d = stageVerified s.dev true → exec (.fwStageVerifyDone true) s = .next (s.turned d) ∧ d.sec.staging = none ∧ d.sec.slot t.slot = { img := some t.img, valid := true }
        ∧ d.sec.slot (!t.slot) = s.dev.sec.slot (!t.slot) ∧ s.dev.sec.nextSeq < d.sec.nextSeq)
  ∧ (∀ (s : State) (t : Staging) (ok : Bool), s.dev.sec.staging = some t → (ok && s.dev.sec.signerHeld t.img) = false → s.dev.q0Runs = true →
      exec (.fwStageVerifyDone ok) s = .next (s.turned (s.dev.setSec (fun x =>
        { x.setSlot t.slot { img := some t.img, valid := false } with staging := none }))))
  ∧ (∀ (s : State) (b : Mbx), s.dev.mailboxOpen b = true → s.dev.glob.fwRunning = true → s.dev.q0Runs = true →
      s.dev.sec.committedNotBooted = false → s.dev.sec.staging = none → s.dev.sec.committing = none → (s.dev.sec.slot (!s.dev.sec.namedSlot)).valid = true →
      exec (.activateFw b false) s = .next (s.turned (s.dev.setSec (fun x => { x.eraseSpare with
        committing := some (!s.dev.sec.namedSlot, BitVec.ofNat 16 (originField (.host b.port b.ld))) })))
      ∧ exec (.activateFw b true) s = .next (s.turned (mailboxDone s.dev b.port.val b.ld.val 0x202 3 [])))
  ∧ (∀ (s : State) (w : Bool) (o : BitVec 16), s.dev.sec.committing = some (w, o) → s.dev.q0Runs = true →
      ∀ d, d = fwCommitEntry (s.dev.setSec (fun x => { x.writeCommit w with committing := none, committedNotBooted := true })) 3 o.toNat →
      exec .fwCommitWriteDone s = .next (s.turned (mailboxDone d (o.toNat % 8) (o.toNat / 8 % 16) 0x202 0 [])) ∧ d.sec.committing = none
        ∧ d.sec.committedNotBooted = true ∧ (∃ c : CommitRec, (d.sec.commit0 = some c ∨ d.sec.commit1 = some c)
            ∧ c.counter = (s.dev.sec.counter + 1) % 2 ^ 32 ∧ c.slot = w ∧ c.digest = (s.dev.sec.slot w).whole ∧ c.sealed = c)
        ∧ s.dev.sec.nextSeq < d.sec.nextSeq)

/-- R388, R428, R430, R436, R440: installation packages. A first piece reserves the delivery for its sender, and a piece of another
sender is busy (6), as is any while one is checked; the last one waits its turn among the signed requests, then uses up its nonce, and
a package that passes the checks, signed and authorised over its own bytes, is written, the old one no longer in force for the next
start; one without a current nonce ends the delivery; the commit of the record makes it the committed package, ends the delivery and
journals it, and a commit whose record does not reach the flash changes no package: the sender is answered with either (its code is
the model's, log entries 97 and 139). STATUS gives a nonce and the result of the last check. -/
def Obligations.PackageCommands : Prop :=
  (∀ (s : State) (b : Mbx) (e : BitVec 8) (sig : Bool), s.dev.packageWay (some b) = true → s.dev.sec.delivery = .idle →
      exec (.packageDeliver (some b) e none sig) s = .next (s.turned (mailboxDone (s.dev.setSec (fun x => { x with
        delivery := .receiving (some b) e })) b.port.val b.ld.val 0xC000 0 [])))
  ∧ (∀ (s : State) (e : BitVec 8) (sig : Bool), s.dev.packageWay none = true → s.dev.sec.delivery = .idle →
      exec (.packageDeliver none e none sig) s = .next (s.turned (emit (s.dev.setSec (fun x => { x with
        delivery := .receiving none e })) (.mgmt mgmtDelivery [0xC000, 0]))))
  ∧ (∀ (s : State) (b : Mbx) (e k : BitVec 8) (sig : Bool) (who : Option Mbx), s.dev.packageWay (some b) = true →
      s.dev.sec.delivery = .receiving who k → who ≠ some b →
      exec (.packageDeliver (some b) e none sig) s = .next (s.turned (mailboxDone s.dev b.port.val b.ld.val 0xC000 6 [])))
  ∧ (∀ (s : State) (e k : BitVec 8) (sig : Bool), s.dev.packageWay none = true → s.dev.sec.delivery = .receiving none k → k ≠ e →
      exec (.packageDeliver none e none sig) s = .next (s.turned (emit s.dev (.mgmt mgmtDelivery [0xC000, 6]))))
  ∧ (∀ (s : State) (b : Mbx) (e : BitVec 8) (sig : Bool), s.dev.packageWay (some b) = true → s.dev.sec.delivery = .checking →
      exec (.packageDeliver (some b) e none sig) s = .next (s.turned (mailboxDone s.dev b.port.val b.ld.val 0xC000 6 [])))
  ∧ (∀ (s : State) (p : Package) (q : Signed) (b : Mbx) (e k : BitVec 8) (sig : Bool), s.dev.packageWay (some b) = true →
      (Instr.packageDeliver (some b) e (some (p, q)) sig).wf = true → s.dev.sec.delivery = .receiving (some b) k →
      exec (.packageDeliver (some b) e (some (p, q)) sig) s = .next (s.turned (s.dev.setSec (fun x => { x with
        delivery := .checking, requests := x.requests ++ [(.authorize (some b) p sig, q)] }))))
  ∧ (∀ (s : State) (p : Package) (q : Signed) (b : Option Mbx) (rest : List (SReq × Signed)),
      s.dev.sec.requests = (.authorize b p true, q) :: rest → s.dev.sec.durable = none → s.dev.q0Runs = true →
      (s.dev.glob.dev = .service ∨ s.dev.glob.dev = .held) → s.dev.sec.installerKey ≠ none → s.dev.authVerifies p q = true →
      packageChecked p = true → s.dev.sec.lastGen < p.generation →
      s.dev.sec.nonces.any (fun n => n.handle == q.handle && n.value == q.nonce) = true →
      exec .signatureVerifyDone s = .next (s.turned (s.dev.setSec (fun x => { x with
        nonces := x.nonces.filter (fun n => n.handle != q.handle), requests := rest, lastCheck := 0
        delivery := .writing p (BitVec.ofNat 16 (mbxOrigin b)), pkg := some p, pkgPart := true, pkgCommitted := false
        pkgKey := x.installerKey }))))
  ∧ (∀ (s : State) (p : Package) (q : Signed) (b : Mbx) (sig : Bool) (rest : List (SReq × Signed)),
      s.dev.sec.requests = (.authorize (some b) p sig, q) :: rest → s.dev.sec.durable = none → s.dev.q0Runs = true →
      (s.dev.glob.dev = .service ∨ s.dev.glob.dev = .held) → s.dev.sec.delivery = .checking →
      s.dev.sec.nonces.any (fun n => n.handle == q.handle && n.value == q.nonce) = false →
      ∀ d, d = signatureVerified s.dev → exec .signatureVerifyDone s = .next (s.turned d) ∧ d.sec.delivery = .idle ∧ d.sec.lastCheck = 2
        ∧ d.sec.pkg = s.dev.sec.pkg ∧ d.sec.pkgCommitted = s.dev.sec.pkgCommitted ∧ d.sec.requests = rest
        ∧ d.out = s.dev.out ++ [.mailbox b.port.val b.ld.val 0xC000 2 []] ∧ d.mem = s.dev.mem)
  ∧ (∀ (s : State) (p : Package) (o : BitVec 16), s.dev.sec.delivery = .writing p o → s.dev.glob.dev ≠ .held → s.dev.q0Runs = true →
      ∀ d, d = packageCommitted s.dev true → exec (.packageCommit true) s = .next (s.turned d) ∧ d.sec.delivery = .idle ∧ d.sec.pkg = some p ∧ d.sec.pkgCommitted = true
        ∧ d.sec.lastGen = p.generation ∧ d.glob = s.dev.glob ∧ d.mem = s.dev.mem ∧ s.dev.sec.nextSeq < d.sec.nextSeq
        ∧ d.sec.kPkgDigest = (if s.dev.sec.pkgKey = s.dev.sec.installerKey then some p.digest else none)
        ∧ ∀ b, originMbx o = some b → d.out = s.dev.out ++ [.mailbox b.port.val b.ld.val 0xC000 0 []])
  ∧ (∀ (s : State) (p : Package) (o : BitVec 16), s.dev.sec.delivery = .writing p o → s.dev.q0Runs = true →
      ∀ d, d = commitFails s.dev o → exec (.packageCommit false) s = .next (s.turned d) ∧ d.sec.delivery = .idle ∧ d.sec.pkg = s.dev.sec.pkg
        ∧ d.sec.pkgCommitted = s.dev.sec.pkgCommitted ∧ d.sec.mirrorFault = true ∧ d.sec.journal = s.dev.sec.journal ∧ d.sec.lastCheck = 5
        ∧ ∀ b, originMbx o = some b → d.out = s.dev.out ++ [.mailbox b.port.val b.ld.val 0xC000 4 []])
  ∧ (∀ (s : State) (b : Mbx) (n : BitVec 256), s.dev.packageWay (some b) = true →
      ∀ r, r = issueNonce s.dev n → exec (.packageStatus (some b) n) s = .next (s.turned (mailboxDone r.1 b.port.val b.ld.val 0xC001 0
          [s.dev.sec.lastCheck.toNat, r.2.toNat, n.toNat]))
        ∧ r.1.sec.nonces.any (fun x => x.value == n && x.handle == r.2) = true)

/-- R42, R50, R446, R447: the FM-owned LD, DOE and the SPDM responder. A port's FM-owned LD reports its memory and shares while
the link is up, and setting shares changes nothing else of the device; DOE and CDAT answer over an open DOE mailbox and raise
MAILBOX; the responder answers requests in order, one that needs a signature when it is made. Codes are DOE's and SPDM's (log entry
20); the states in which DOE answers, the one queue of the responder and the entries of CDAT are the model's reading (log entry 100). -/
def Obligations.FmDoeAndSpdmCommands : Prop :=
  (∀ (s : State) (p : Fin 8), s.dev.portUp p.val = true → s.dev.glob.resetPhase = .none →
      exec (.getLdInfo p) s = .next (s.turned (emit s.dev (.fm p.val [s.dev.limit, s.dev.ldsOf p.val])))
      ∧ exec (.getLdAllocations p) s = .next (s.turned (emit s.dev (.fm p.val ((List.range 16).map (fun m => (s.dev.ld p.val m).share.toNat)))))
      ∧ ∀ sh : List (BitVec 8), sh.length = 16 → ∀ d, d = setShares s.dev p.val sh →
          exec (.setLdAllocations p sh) s = .next (s.turned (emit d (.fm p.val ((List.range 16).map (fun m => (d.ld p.val m).share.toNat)))))
          ∧ (∀ m < s.dev.ldsOf p.val, d.ld p.val m = { s.dev.ld p.val m with share := sh.getD m 0 })
          ∧ (∀ m, s.dev.ldsOf p.val ≤ m → d.ld p.val m = s.dev.ld p.val m)
          ∧ { d.port p.val with lds := (s.dev.port p.val).lds } = s.dev.port p.val ∧ (∀ n, n ≠ p.val → d.port n = s.dev.port n)
          ∧ { d with ports := s.dev.ports } = s.dev)
  ∧ (∀ (s : State) (p : Fin 8) (i : BitVec 8), s.dev.doeOpen p.val = true →
      exec (.doeDiscovery p i) s = .next (s.turned (raise (emit s.dev (.doe p.val 0 (doeObject i.toNat))) (8 * p.val + 6) 0 0 (info 16))))
  ∧ (∀ (s : State) (b : Mbx), s.dev.doeOpen b.port.val = true → s.dev.ldPresent b.port.val b.ld.val = true →
      exec (.cdatRead b) s = .next (s.turned (raise (emit s.dev (.doe b.port.val b.ld.val (cdat s.dev b.port.val b.ld.val))) (8 * b.port.val + 6) 0 0
        (info 80))))
  ∧ (∀ (s : State), s.dev.spdmWay .mctp = true → s.dev.sec.spdm = [] →
      ∀ d1 d2 d3 d4, d1 = spdmRequest s.dev ⟨.mctp, 0x84, [], false⟩ → d2 = spdmRequest s.dev ⟨.mctp, 0xE1, [], false⟩ →
        d3 = spdmRequest s.dev ⟨.mctp, 0xE3, [], false⟩ → d4 = spdmRequest s.dev ⟨.mctp, 0x81, [], false⟩ →
        exec (.getVersion .mctp) s = .next (s.turned d1) ∧ d1.out = s.dev.out ++ [.spdm .mctp 0x04 [0x12]] ∧ d1.sec.spdm = []
        ∧ exec (.getCapabilities .mctp) s = .next (s.turned d2) ∧ d2.out = s.dev.out ++ [.spdm .mctp 0x61 [spdmCapabilities]] ∧ d2.sec.spdm = []
        ∧ exec (.negotiateAlgorithms .mctp) s = .next (s.turned d3)
        ∧ d3.out = s.dev.out ++ [.spdm .mctp 0x63 spdmAlgorithms] ∧ d3.sec.spdm = []
        ∧ exec (.getDigests .mctp) s = .next (s.turned d4)
        ∧ d4.out = s.dev.out ++ [.spdm .mctp 0x01 [Config.certDigest (s.dev.sec.identity.getD 0) (s.dev.slotKey 0),
          Config.certDigest (s.dev.sec.identity.getD 0) (s.dev.slotKey 1)]] ∧ d4.sec.spdm = [])
  ∧ (∀ (s : State) (slot : BitVec 4), s.dev.spdmWay .mctp = true → s.dev.sec.spdm = [] →
      ∀ d, d = spdmRequest s.dev ⟨.mctp, 0x82, [slot.toNat], false⟩ → exec (.getCertificate .mctp slot) s = .next (s.turned d) ∧ d.sec.spdm = []
        ∧ d.out = s.dev.out ++ [if slot.toNat < 2 then .spdm .mctp 0x02
          [Config.certChain (s.dev.sec.identity.getD 0) (s.dev.slotKey slot.toNat)] else .spdm .mctp spdmError []])
  ∧ (∀ (s : State) (f : SpdmSrc) (slot : BitVec 4) (n : BitVec 256), s.dev.spdmWay f = true → s.dev.sec.spdm = [] → slot.toNat < 2 →
      exec (.challenge f slot n) s = .next (s.turned (s.dev.setSec (fun x => { x with spdm := [⟨f, 0x83, [slot.toNat, n.toNat], true⟩] }))))
  ∧ (∀ (s : State) (i : BitVec 8) (slot : BitVec 4), s.dev.spdmWay .mctp = true → s.dev.sec.spdm = [] → i.toNat ≤ 9 →
      ∀ d, d = spdmRequest s.dev ⟨.mctp, 0xE0, [i.toNat, slot.toNat, 0], false⟩ →
      exec (.getMeasurements .mctp i false slot) s = .next (s.turned d) ∧ d.out = s.dev.out ++ [.spdm .mctp 0x60 (s.dev.measured i.toNat)]
        ∧ d.sec.spdm = [])
  ∧ (∀ (s : State) (c : Nat) (args : List Nat), s.dev.q0Runs = true → s.dev.sec.spdm = [⟨.mctp, c, args, true⟩] →
      ∀ d, d = spdmSigned s.dev → exec .spdmSignatureDone s = .next (s.turned d) ∧ d.sec.spdm = [] ∧ d.mem = s.dev.mem
        ∧ d.out = s.dev.out ++ [.spdm .mctp (s.dev.spdmAnswer ⟨.mctp, c, args, true⟩).1 (s.dev.spdmAnswer ⟨.mctp, c, args, true⟩).2])

-- signed requests, journal, Position record (15, 16)

/-- R428, R430: nonces and signed requests. A nonce is held under its handle until it is used or expires; a request waits its
turn; taking it uses up its nonce; a request with a current nonce, a present key, a good signature, in a state that allows it,
becomes a durable change, and any other is refused, changes nothing and is journalled, with the role and key of its signer only where
its signature verifies. The reasons are R430's; which of several that apply is given, and the handle of a nonce, are the model's
reading (log entry 98). -/
def Obligations.SignedRequestCommands : Prop :=
  (∀ (s : State) (n : BitVec 256), s.dev.glob.fwRunning = true → s.dev.q0Runs = true → s.dev.glob.resetPhase = .none →
      ∀ r, r = issueNonce s.dev n → exec (.nonceRequest n) s = .next (s.turned (emit r.1 (.mgmt mgmtNonce [r.2.toNat, n.toNat]))) ∧ r.1.mem = s.dev.mem
        ∧ r.1.sec.nonces.any (fun x => x.value == n && x.handle == r.2) = true ∧ r.1.sec.nonces.length ≤ max 4 s.dev.sec.nonces.length)
  ∧ (∀ (s : State) (h : BitVec 2), exec (.nonceExpiry h) s = .next (s.turned (s.dev.setSec (fun x => { x with
      nonces := x.nonces.filter (fun n => n.handle != h) }))))
  ∧ (∀ (s : State) (q : Signed) (key : BitVec 512) (bank : BitVec 4) (t : Fin 8) (es : List BistEntry) (f : BitVec 7) (ok : Option (BitVec 512))
      (b : BitVec 6) (w : Bool), s.dev.glob.fwRunning = true → s.dev.q0Runs = true → s.dev.glob.resetPhase = .none →
      let queued (r : SReq) : State := s.turned (s.dev.setSec (fun x => { x with requests := x.requests ++ [(r, q)] }))
      exec (.installerEnrol q key) s = .next (queued (.enrol key))
      ∧ exec (.testArm q) s = .next (queued .testArm)
      ∧ exec (.fuseProgram q bank key) s = .next (queued (.fuseProgram bank key))
      ∧ exec (.fuseRepair q t es) s = .next (queued (.fuseRepair t.val es))
      ∧ exec (.floorRaise q f) s = .next (queued (.floorRaise f))
      ∧ exec (.fwauthSet q ok) s = .next (queued (.fwauth ok))
      ∧ exec (.retireClear q t b w) s = .next (queued (.retireClear t.val b w)))
  ∧ (∀ (s : State) (r : SReq) (y : Durable) (q : Signed) (rest : List (SReq × Signed)), r.change = some y → s.dev.sec.requests = (r, q) :: rest → s.dev.sec.durable = none →
      s.dev.q0Runs = true → s.dev.sec.nonces.any (fun n => n.handle == q.handle && n.value == q.nonce) = true → s.dev.verifies r q = true →
      r.allowedIn s.dev.glob.dev = true → (∀ f, r = .floorRaise f → s.dev.sec.floor < f ∧ s.dev.sec.floorFuse < f ∧ f.toNat ≤ 64) →
      exec .signatureVerifyDone s = .next (s.turned (s.dev.setSec (fun x => { x with
        nonces := x.nonces.filter (fun n => n.handle != q.handle), requests := rest, durable := some y }))))
  ∧ (∀ (s : State) (r : SReq) (q : Signed) (rest : List (SReq × Signed)) (current ok : Bool) (who : Signer), r.change ≠ none → s.dev.sec.requests = (r, q) :: rest →
      s.dev.sec.durable = none → s.dev.q0Runs = true →
      current = s.dev.sec.nonces.any (fun n => n.handle == q.handle && n.value == q.nonce) → ok = s.dev.verifies r q →
      s.dev.refusal r current ok ≠ 0 → who = (if ok then { role := r.role, keyid := keyId (s.dev.roleKey r.role) } else {}) →
      ∀ d, d = authFail (s.dev.setSec (fun x => { x with nonces := x.nonces.filter (fun n => n.handle != q.handle), requests := rest }))
        r.code (s.dev.refusal r current ok) who (originField .mgmt) true (signedDigest q (s.dev.requestText r q)) →
      exec .signatureVerifyDone s = .next (s.turned (emit d (.mgmt mgmtRefused [r.code, s.dev.refusal r current ok]))) ∧ d.sec.durable = none
        ∧ d.sec.requests = rest ∧ d.sec.nonces = s.dev.sec.nonces.filter (fun n => n.handle != q.handle) ∧ d.sec.installer = s.dev.sec.installer
        ∧ d.sec.authority = s.dev.sec.authority ∧ d.sec.floor = s.dev.sec.floor ∧ d.sec.fuses = s.dev.sec.fuses ∧ s.dev.sec.nextSeq < d.sec.nextSeq)
  ∧ (∀ (d : Dev) (r : SReq) (sig : Bool), d.refusal r false sig = 2 ∧ (d.roleKey r.role = none → d.refusal r true sig = 3)
      ∧ (d.roleKey r.role ≠ none → d.refusal r true false = 1)
      ∧ (d.roleKey r.role ≠ none → r.allowedIn d.glob.dev = false → d.refusal r true true = 4))

/-- R384, R412, R414, R415, R432, R433, R436, R437: a durable change takes effect only when its entry is in flash, and not at all where
the flash write fails, which MIRROR_FAULT reports; a raised floor is burned and in force only once the fuses are loaded again; a new
installer drops the authority and the package digest the old one's boot left; mirrored entries never pass the newest; the running
snapshot ends as the Position record with the next SEQ in both its ends, and a request merged meanwhile starts the next one. That the
entry of a durable change is appended when it is in flash, everything up to it then mirrored, and that an enrolment journals the end
of the authority as a second entry are the model's reading (log entry 99). -/
def Obligations.DurableAndMirroredState : Prop :=
  (∀ (s : State) (f : BitVec 7), s.dev.sec.durable = some (.floor f) → s.dev.q0Runs = true → s.dev.sec.mirrored ≤ s.dev.sec.nextSeq →
      ∀ d, d = durableWritten s.dev true → exec (.durableEntryWritten true) s = .next (s.turned d) ∧ d.sec.floorFuse = f ∧ d.sec.floor = s.dev.sec.floor
        ∧ d.sec.durable = none ∧ d.sec.mirrored = d.sec.nextSeq ∧ s.dev.sec.nextSeq < d.sec.nextSeq ∧ d.mem = s.dev.mem)
  ∧ (∀ (s : State) (k : BitVec 512), s.dev.sec.durable = some (.keySet true (some k)) → s.dev.q0Runs = true → s.dev.sec.mirrored ≤ s.dev.sec.nextSeq →
      ∀ d, d = durableWritten s.dev true → exec (.durableEntryWritten true) s = .next (s.turned d) ∧ d.sec.installer = some k ∧ d.sec.authority = none
        ∧ d.sec.kPkgDigest = none ∧ d.sec.durable = none ∧ d.sec.mirrored = d.sec.nextSeq)
  ∧ (∀ (s : State) (x : Durable), s.dev.sec.durable = some x → s.dev.durableHeld x = false → s.dev.q0Runs = true →
      ∀ d, d = durableWritten s.dev false → exec (.durableEntryWritten false) s = .next (s.turned d) ∧ d.sec.durable = none ∧ d.sec.mirrorFault = true
        ∧ d.sec.floorFuse = s.dev.sec.floorFuse ∧ d.sec.installer = s.dev.sec.installer ∧ d.sec.authority = s.dev.sec.authority
        ∧ d.sec.fuses = s.dev.sec.fuses ∧ d.sec.journal = s.dev.sec.journal ∧ d.sec.nextSeq = s.dev.sec.nextSeq)
  ∧ (∀ (s : State) (n : Nat), s.dev.q0Runs = true →
      ∀ d, d = s.dev.setSec (fun x => x.mirrorNext n) → exec (.journalMirror n true) s = .next (s.turned d) ∧ d.sec.journal = s.dev.sec.journal
        ∧ d.sec.nextSeq = s.dev.sec.nextSeq ∧ (n = 0 → d.sec.mirrored = s.dev.sec.mirrored)
        ∧ (s.dev.sec.mirrored ≤ s.dev.sec.nextSeq → (∀ i e, Tab.find s.dev.sec.journal i = some e → e.seq ≤ s.dev.sec.nextSeq) →
            s.dev.sec.mirrored ≤ d.sec.mirrored ∧ d.sec.mirrored ≤ d.sec.nextSeq))
  ∧ (∀ (s : State) (n : Nat), s.dev.q0Runs = true →
      exec (.journalMirror n false) s = .next (s.turned (flashFails s.dev)) ∧ (flashFails s.dev).sec.mirrorFault = true)
  ∧ (∀ (s : State), s.dev.resync.busy = true → s.dev.q0Runs = true → s.dev.glob.resetPhase = .none → s.dev.resync.pending = false →
      ∀ d, d = snapshotDone s.dev → exec .resyncSnapshotDone s = .next (s.turned d) ∧ d.resync.busy = false ∧ d.resync.seq ≠ 0
        ∧ (s.dev.resync.seq ≠ BitVec.allOnes 17 → d.resync.seq = s.dev.resync.seq + 1) ∧ d.glob = { s.dev.glob with draws := d.glob.draws } ∧ d.mem = s.dev.mem
        ∧ Tab.find d.resync.slots 0 = some (resyncHeader d.resync.seq false)
        ∧ Tab.find d.resync.slots 1023 = some (resyncHeader d.resync.seq false))
  ∧ (∀ (s : State), s.dev.resync.busy = true → s.dev.q0Runs = true → s.dev.glob.resetPhase = .none → s.dev.resync.pending = true →
      ∀ d, d = snapshotDone s.dev → exec .resyncSnapshotDone s = .next (s.turned d) ∧ d.resync.busy = true ∧ d.resync.pending = false ∧ d.resync.who = s.dev.resync.nextWho)

-- test and management requests (14, 17, 20)

/-- R508, R509, R511, R513: the I3C target and the JTAG port. A powered target without a dynamic address takes the one ENTDAA
assigns, or SETDASA at its static address only, and gives it up on RSTDAA; the fixed characteristics answer as read (their values are
free, log entry 20 names those no rule gives); while DEV_RST_N is low it takes and answers nothing. With supplies an instruction is
loaded at any time: IDCODE shifts out version, part and maker; SAMPLE/PRELOAD shifts out the pins and keeps its cells; EXTEST, CLAMP
and HIGHZ take the pins while DEV_RST_N is low, HIGHZ driving none of them, and act as BYPASS while it is high. Which cell is which
pin is a free value, and what EXTEST shifts out is the model's choice (log entry 102). -/
def Obligations.TestAndManagementPorts : Prop :=
  (∀ (s : State), s.dev.domOn 1 = true → s.dev.glob.rstHigh = true →
      (∀ a : BitVec 7, s.dev.mgt.dynAddr = none → exec (.entdaa a) s = .next (s.turned { s.dev with mgt := { s.dev.mgt with dynAddr := some a } })
        ∧ exec (.setdasa s.dev.i3cStatic a) s = .next (s.turned { s.dev with mgt := { s.dev.mgt with dynAddr := some a } })
        ∧ ∀ x, x ≠ s.dev.i3cStatic → exec (.setdasa x a) s = .next (s.turned s.dev))
      ∧ (∀ a : BitVec 7, s.dev.mgt.dynAddr ≠ none → exec (.entdaa a) s = .next (s.turned s.dev) ∧ ∀ x, exec (.setdasa x a) s = .next (s.turned s.dev))
      ∧ exec .rstdaa s = .next (s.turned { s.dev with mgt := { s.dev.mgt with dynAddr := none } })
      ∧ exec .getpid s = .next (s.turned (emit s.dev (.i3c Config.i3cPid.toNat)))
      ∧ exec .getbcr s = .next (s.turned (emit s.dev (.i3c Config.i3cBcr.toNat)))
      ∧ exec .getdcr s = .next (s.turned (emit s.dev (.i3c Config.i3cDcr.toNat)))
      ∧ exec .getmwl s = .next (s.turned (emit s.dev (.i3c Config.i3cMwl.toNat)))
      ∧ exec .getmrl s = .next (s.turned (emit s.dev (.i3c Config.i3cMrl.toNat)))
      ∧ exec .getstatus s = .next (s.turned (emit s.dev (.i3c Config.i3cStatus.toNat))))
  ∧ (∀ (s : State) (a : BitVec 7), s.dev.glob.rstHigh = false → exec (.entdaa a) s = .next (s.turned s.dev)
      ∧ exec .rstdaa s = .next (s.turned s.dev) ∧ exec .getpid s = .next (s.turned s.dev) ∧ exec .getstatus s = .next (s.turned s.dev))
  ∧ (∀ (s : State), s.dev.glob.supplies = true →
      let loaded (n : Nat) : Dev := { s.dev with mgt := { s.dev.mgt with jtag := n } }
      exec .bypass s = .next (s.turned (loaded 0))
      ∧ exec .idcode s = .next (s.turned (emit (loaded 1) (.jtag
          (2 ^ 28 + 2 ^ 12 * (if s.dev.glob.part1024 then 0x1024 else 0x0512) + 2 * Config.jedecCode.toNat + 1))))
      ∧ (∀ (c : BitVec 64) (d : Dev), d = samplePreload s.dev c → exec (.samplePreload c) s = .next (s.turned d)
          ∧ d.mgt = { s.dev.mgt with jtag := 2, cells := c } ∧ d.mem = s.dev.mem
          ∧ d.out = s.dev.out ++ [.jtag (Config.boundary s.dev.pinLevels s.dev.glob.draws).toNat])
      ∧ (s.dev.glob.rstHigh = false → exec .extest s = .next (s.turned (emit (loaded 3) (.jtag s.dev.mgt.cells.toNat))))
      ∧ (s.dev.glob.rstHigh = true → exec .extest s = .next (s.turned (loaded 3)))
      ∧ exec .clamp s = .next (s.turned (loaded 4))
      ∧ exec .highz s = .next (s.turned (loaded 5)))
  ∧ (∀ (d : Dev) (k : Fin 3), d.glob.supplies = true →
      (d.glob.rstHigh = false → 3 ≤ d.mgt.jtag → (d.pullsLow k = true ↔ d.mgt.jtag ≠ 5 ∧ d.mgt.cells.getLsbD (Config.cellOf k.val).val = false))
      ∧ (d.glob.rstHigh = true → (d.pullsLow 0 = d.glob.faultN ∧ d.pullsLow 1 = d.glob.alertN ∧ d.pullsLow 2 = d.glob.thermN))
      ∧ (d.glob.rstHigh = false → d.mgt.jtag < 3 → d.pullsLow 0 = false ∧ d.pullsLow 1 = false ∧ d.pullsLow 2 = d.glob.thermN))
end

