-- ==== Sys2Proof/Laws/Tab.lean ====
section
/-! SUPPORT. Laws of sparse tables: reading after writing, and that every operation keeps keys strictly rising. -/

namespace Sys2Proof.Machine

variable {α : Type}

/-- Every key of a table is above a bound. -/
def Tab.above (n : Nat) (t : Tab α) : Prop := ∀ p ∈ t, n < p.1

theorem Tab.wf_cons (k : Nat) (v : α) (t : Tab α) : Tab.wf ((k, v) :: t) = true ↔ Tab.above k t ∧ Tab.wf t = true := by
  induction t generalizing k v with
  | nil => simp [Tab.wf, Tab.above]
  | cons p t ih =>
    obtain ⟨k', v'⟩ := p
    constructor
    · intro h
      simp only [Tab.wf, Bool.and_eq_true, decide_eq_true_eq] at h
      refine ⟨?_, h.2⟩
      intro q hq
      rcases List.mem_cons.mp hq with rfl | hq
      · exact h.1
      · exact lt_trans h.1 (((ih k' v').mp h.2).1 q hq)
    · intro h
      simp only [Tab.wf, Bool.and_eq_true, decide_eq_true_eq]
      exact ⟨h.1 (k', v') (by simp), h.2⟩

@[simp] theorem Tab.wf_nil : Tab.wf ([] : Tab α) = true := rfl

@[simp] theorem Tab.find_nil (n : Nat) : Tab.find ([] : Tab α) n = none := rfl

theorem Tab.find_above {n : Nat} {t : Tab α} (h : Tab.above n t) : Tab.find t n = none := by
  induction t with
  | nil => rfl
  | cons p t ih =>
    obtain ⟨k, v⟩ := p
    have hk : n < k := h (k, v) (by simp)
    simp only [Tab.find]
    rw [if_neg (by omega)]
    exact ih (fun q hq => h q (by simp [hq]))

@[simp] theorem Tab.find_put_same (t : Tab α) (n : Nat) (v : α) : Tab.find (Tab.put t n v) n = some v := by
  induction t with
  | nil => simp [Tab.put, Tab.find]
  | cons p t ih =>
    obtain ⟨k, w⟩ := p
    simp only [Tab.put]
    split
    · simp [Tab.find]
    · split
      · simp [Tab.find]
      · rename_i h1 h2
        simp [Tab.find, h2, ih]

theorem Tab.find_put_other (t : Tab α) {n m : Nat} (v : α) (h : m ≠ n) : Tab.find (Tab.put t n v) m = Tab.find t m := by
  induction t with
  | nil => simp [Tab.put, Tab.find, h]
  | cons p t ih =>
    obtain ⟨k, w⟩ := p
    simp only [Tab.put]
    split
    · simp [Tab.find, h]
    · split
      · rename_i h1 h2
        subst h2
        simp [Tab.find, h]
      · simp [Tab.find, ih]

@[simp] theorem Tab.get_put_same (d : α) (t : Tab α) (n : Nat) (v : α) : Tab.get d (Tab.put t n v) n = v := by
  simp [Tab.get]

theorem Tab.get_put_other (d : α) (t : Tab α) {n m : Nat} (v : α) (h : m ≠ n) :
    Tab.get d (Tab.put t n v) m = Tab.get d t m := by
  simp [Tab.get, Tab.find_put_other t v h]

@[simp] theorem Tab.get_upd_same (d : α) (t : Tab α) (n : Nat) (f : α → α) : Tab.get d (Tab.upd d t n f) n = f (Tab.get d t n) := by
  simp [Tab.upd]

theorem Tab.get_upd_other (d : α) (t : Tab α) {n m : Nat} (f : α → α) (h : m ≠ n) :
    Tab.get d (Tab.upd d t n f) m = Tab.get d t m :=
  Tab.get_put_other d t _ h

theorem Tab.find_del_other (t : Tab α) {n m : Nat} (h : m ≠ n) : Tab.find (Tab.del t n) m = Tab.find t m := by
  induction t with
  | nil => rfl
  | cons p t ih =>
    obtain ⟨k, w⟩ := p
    simp only [Tab.del]
    split
    · rename_i h2
      subst h2
      simp [Tab.find, h]
    · simp [Tab.find, ih]

theorem Tab.find_del_same {t : Tab α} (hw : Tab.wf t = true) (n : Nat) : Tab.find (Tab.del t n) n = none := by
  induction t with
  | nil => rfl
  | cons p t ih =>
    obtain ⟨k, w⟩ := p
    obtain ⟨ha, ht⟩ := (Tab.wf_cons k w t).mp hw
    simp only [Tab.del]
    split
    · rename_i h2
      subst h2
      exact Tab.find_above ha
    · rename_i h2
      simp [Tab.find, h2, ih ht]

theorem Tab.above_put {b n : Nat} {t : Tab α} (v : α) (h : Tab.above b t) (hn : b < n) : Tab.above b (Tab.put t n v) := by
  induction t with
  | nil => simp [Tab.put, Tab.above, hn]
  | cons p t ih =>
    obtain ⟨k, w⟩ := p
    have ht : Tab.above b t := fun q hq => h q (by simp [hq])
    have hk : b < k := h (k, w) (by simp)
    simp only [Tab.put]
    split
    · intro q hq
      simp only [List.mem_cons] at hq
      rcases hq with rfl | rfl | hq
      · exact hn
      · exact hk
      · exact ht q hq
    · split
      · intro q hq
        rcases List.mem_cons.mp hq with rfl | hq
        · exact hn
        · exact ht q hq
      · intro q hq
        rcases List.mem_cons.mp hq with rfl | hq
        · exact hk
        · exact ih ht q hq

theorem Tab.wf_put {t : Tab α} (h : Tab.wf t = true) (n : Nat) (v : α) : Tab.wf (Tab.put t n v) = true := by
  induction t with
  | nil => rfl
  | cons p t ih =>
    obtain ⟨k, w⟩ := p
    obtain ⟨ha, ht⟩ := (Tab.wf_cons k w t).mp h
    simp only [Tab.put]
    split
    · rename_i h1
      refine (Tab.wf_cons _ _ _).mpr ⟨?_, h⟩
      intro q hq
      rcases List.mem_cons.mp hq with rfl | hq
      · exact h1
      · exact lt_trans h1 (ha q hq)
    · split
      · rename_i h1 h2
        subst h2
        exact (Tab.wf_cons _ _ _).mpr ⟨ha, ht⟩
      · exact (Tab.wf_cons _ _ _).mpr ⟨Tab.above_put v ha (by omega), ih ht⟩

theorem Tab.above_del {b : Nat} {t : Tab α} (n : Nat) (h : Tab.above b t) : Tab.above b (Tab.del t n) := by
  induction t with
  | nil => simpa [Tab.del] using h
  | cons p t ih =>
    obtain ⟨k, w⟩ := p
    have ht : Tab.above b t := fun q hq => h q (by simp [hq])
    simp only [Tab.del]
    split
    · exact ht
    · intro q hq
      rcases List.mem_cons.mp hq with rfl | hq
      · exact h _ (by simp)
      · exact ih ht q hq

theorem Tab.wf_del {t : Tab α} (h : Tab.wf t = true) (n : Nat) : Tab.wf (Tab.del t n) = true := by
  induction t with
  | nil => rfl
  | cons p t ih =>
    obtain ⟨k, w⟩ := p
    obtain ⟨ha, ht⟩ := (Tab.wf_cons k w t).mp h
    simp only [Tab.del]
    split
    · exact ht
    · exact (Tab.wf_cons _ _ _).mpr ⟨Tab.above_del n ha, ih ht⟩

theorem Tab.wf_iff (t : Tab α) : Tab.wf t = true ↔ t.Pairwise (fun p q => p.1 < q.1) := by
  induction t with
  | nil => simp
  | cons p t ih =>
    obtain ⟨k, v⟩ := p
    rw [Tab.wf_cons, List.pairwise_cons, ih]
    rfl

theorem Tab.wf_filter {t : Tab α} (f : Nat × α → Bool) (h : Tab.wf t = true) : Tab.wf (t.filter f) = true := by
  rw [Tab.wf_iff] at *
  exact h.filter f

end Sys2Proof.Machine
end

