-- ==== Sys2Proof/Laws/Memory.lean ====
section
/-! SUPPORT. Laws of main memory: every operation keeps the canonical form, and reading a byte after a write. -/

namespace Sys2Proof.Machine

theorem Memory.wf_iff (m : Memory) : m.wf = true ↔ Tab.wf m.cells = true ∧ Tab.wf m.codes = true := by
  simp [Memory.wf]

@[simp] theorem Memory.undefined_wf : Memory.undefined.wf = true := rfl

theorem Memory.writeByte_wf {m : Memory} (h : m.wf = true) (a : Nat) (b : Byte) : (m.writeByte a b).wf = true := by
  rw [Memory.wf_iff] at *
  exact ⟨Tab.wf_put h.1 a b, h.2⟩

theorem Memory.writeBytes_wf {m : Memory} (h : m.wf = true) (a : Nat) (l : Line) (mask : Mask) (n : Nat) :
    (m.writeBytes a l mask n).wf = true := by
  induction n with
  | zero => exact h
  | succ n ih =>
    simp only [Memory.writeBytes]
    split
    · exact Memory.writeByte_wf ih _ _
    · exact ih

theorem Memory.writeLine_wf {m : Memory} (h : m.wf = true) (line : Nat) (l : Line) (p : Bool) :
    (m.writeLine line l p).wf = true := by
  have hb := Memory.writeBytes_wf h (64 * line) l (BitVec.allOnes 64) 64
  simp only [Memory.writeLine]
  generalize m.writeBytes (64 * line) l (BitVec.allOnes 64) 64 = m' at hb
  rw [Memory.wf_iff] at *
  exact ⟨hb.1, Tab.wf_put hb.2 _ _⟩

theorem Memory.poisonLine_wf {m : Memory} (h : m.wf = true) (line : Nat) : (m.poisonLine line).wf = true := by
  rw [Memory.wf_iff] at *
  exact ⟨h.1, Tab.wf_put h.2 _ _⟩

/-- Replacing the keys `a .. a+n-1` of a table by listed values keeps the form. -/
theorem Tab.wf_splice {α : Type} {t : Tab α} (h : Tab.wf t = true) (a n : Nat) (f : Nat → α) :
    Tab.wf (t.filter (fun c => decide (c.1 < a)) ++ (List.range n).map (fun i => (a + i, f i))
      ++ t.filter (fun c => decide (a + n ≤ c.1))) = true := by
  rw [Tab.wf_iff] at *
  rw [List.pairwise_append, List.pairwise_append]
  refine ⟨⟨h.filter _, ?_, ?_⟩, h.filter _, ?_⟩
  · rw [List.pairwise_map]
    exact List.pairwise_lt_range.imp (by intro x y hxy; simpa using hxy)
  · intro x hx y hy
    simp only [List.mem_filter, decide_eq_true_eq, List.mem_map] at hx hy
    obtain ⟨i, -, rfl⟩ := hy
    exact lt_of_lt_of_le hx.2 (Nat.le_add_right a i)
  · intro x hx y hy
    simp only [List.mem_filter, decide_eq_true_eq, List.mem_append, List.mem_map, List.mem_range] at hx hy
    rcases hx with hx | ⟨i, hi, rfl⟩
    · omega
    · simp only
      omega

theorem Memory.zeroLines_wf {m : Memory} (h : m.wf = true) (line n : Nat) : (m.zeroLines line n).wf = true := by
  rw [Memory.wf_iff] at *
  refine ⟨?_, Tab.wf_splice h.2 line n _⟩
  have := Tab.wf_splice h.1 (64 * line) (64 * n) (fun _ => 0#8)
  rw [← Nat.mul_add] at this
  exact this

@[simp] theorem Memory.readByte_writeByte (m : Memory) (a : Nat) (b : Byte) : (m.writeByte a b).readByte a = some b := by
  simp [Memory.readByte, Memory.writeByte]

theorem Memory.readByte_writeByte_other (m : Memory) {a c : Nat} (b : Byte) (h : c ≠ a) :
    (m.writeByte a b).readByte c = m.readByte c := by
  simp [Memory.readByte, Memory.writeByte, Tab.find_put_other m.cells b h]

theorem Memory.readByte_writeBytes_out (m : Memory) (a : Nat) (l : Line) (mask : Mask) (n c : Nat) (h : c < a ∨ a + n ≤ c) :
    (m.writeBytes a l mask n).readByte c = m.readByte c := by
  induction n with
  | zero => rfl
  | succ n ih =>
    have ih := ih (by omega)
    simp only [Memory.writeBytes]
    split
    · rw [Memory.readByte_writeByte_other _ _ (by omega), ih]
    · exact ih

theorem Memory.readByte_writeBytes_in (m : Memory) (a : Nat) (l : Line) (mask : Mask) (n i : Nat) (h : i < n) :
    (m.writeBytes a l mask n).readByte (a + i) = if mask.getLsbD i then some (lineByte l i) else m.readByte (a + i) := by
  induction n with
  | zero => omega
  | succ n ih =>
    simp only [Memory.writeBytes]
    by_cases hi : i = n
    · subst hi
      split
      · simp
      · exact Memory.readByte_writeBytes_out m a l mask i (a + i) (by omega)
    · split
      · rw [Memory.readByte_writeByte_other _ _ (by omega)]
        exact ih (by omega)
      · exact ih (by omega)

theorem Memory.readByte_writeLine_out (m : Memory) (line : Nat) (l : Line) (p : Bool) (c : Nat) (h : c / 64 ≠ line) :
    (m.writeLine line l p).readByte c = m.readByte c := by
  have hb := Memory.readByte_writeBytes_out m (64 * line) l (BitVec.allOnes 64) 64 c (by omega)
  simp only [Memory.writeLine]
  generalize m.writeBytes (64 * line) l (BitVec.allOnes 64) 64 = m' at hb
  simpa [Memory.readByte] using hb

theorem Memory.readByte_writeLine_in (m : Memory) (line : Nat) (l : Line) (p : Bool) (i : Nat) (h : i < 64) :
    (m.writeLine line l p).readByte (64 * line + i) = some (lineByte l i) := by
  have hb := Memory.readByte_writeBytes_in m (64 * line) l (BitVec.allOnes 64) 64 i h
  rw [BitVec.getLsbD_allOnes] at hb
  simp only [Memory.writeLine]
  generalize m.writeBytes (64 * line) l (BitVec.allOnes 64) 64 = m' at hb
  simpa [Memory.readByte, h] using hb

@[simp] theorem Memory.code_writeLine (m : Memory) (line : Nat) (l : Line) (p : Bool) :
    (m.writeLine line l p).code line = some (if p then .poisoned else .good) := by
  simp [Memory.writeLine, Memory.code]

@[simp] theorem Memory.code_poisonLine (m : Memory) (line : Nat) : (m.poisonLine line).code line = some .poisoned := by
  simp [Memory.poisonLine, Memory.code]

end Sys2Proof.Machine
end

