-- ==== Sys2Proof/Laws/State.lean ====
section
/-! SUPPORT. Laws of the state: what each named update of the device writes and what it leaves alone. -/

namespace Sys2Proof.Machine

/-- What `Dev.updPort` leaves alone. -/
@[simp] theorem Dev.updPort_frame (d : Dev) (n : Nat) (f : Port → Port) :
    (d.updPort n f).glob = d.glob ∧ (d.updPort n f).mem = d.mem ∧ (d.updPort n f).binds = d.binds
    ∧ (d.updPort n f).agents = d.agents ∧ (d.updPort n f).epochs = d.epochs ∧ (d.updPort n f).slices = d.slices
    ∧ (d.updPort n f).tiles = d.tiles ∧ (d.updPort n f).mcs = d.mcs ∧ (d.updPort n f).chans = d.chans
    ∧ (d.updPort n f).xacts = d.xacts ∧ (d.updPort n f).nextId = d.nextId ∧ (d.updPort n f).engines = d.engines
    ∧ (d.updPort n f).qlabs = d.qlabs ∧ (d.updPort n f).labis = d.labis ∧ (d.updPort n f).labEffects = d.labEffects
    ∧ (d.updPort n f).pairs = d.pairs ∧ (d.updPort n f).sources = d.sources ∧ (d.updPort n f).evqs = d.evqs
    ∧ (d.updPort n f).evt = d.evt ∧ (d.updPort n f).err = d.err ∧ (d.updPort n f).movers = d.movers
    ∧ (d.updPort n f).park = d.park ∧ (d.updPort n f).resync = d.resync ∧ (d.updPort n f).sec = d.sec
    ∧ (d.updPort n f).pwr = d.pwr ∧ (d.updPort n f).pmcs = d.pmcs ∧ (d.updPort n f).pmcUserEn = d.pmcUserEn
    ∧ (d.updPort n f).mgt = d.mgt ∧ (d.updPort n f).rawCells = d.rawCells ∧ (d.updPort n f).q0work = d.q0work
    ∧ (d.updPort n f).answers = d.answers ∧ (d.updPort n f).waits = d.waits
    ∧ (d.updPort n f).out = d.out := by
  repeat' constructor

@[simp] theorem Dev.port_updPort (d : Dev) (n : Nat) (f : Port → Port) : (d.updPort n f).port n = f (d.port n) := by
  simp [Dev.port, Dev.updPort]

theorem Dev.port_updPort_other (d : Dev) {n m : Nat} (f : Port → Port) (h : m ≠ n) : (d.updPort n f).port m = d.port m :=
  Tab.get_upd_other _ _ _ h

/-- What `Dev.updSlice` leaves alone. -/
@[simp] theorem Dev.updSlice_frame (d : Dev) (n : Nat) (f : Slice → Slice) :
    (d.updSlice n f).glob = d.glob ∧ (d.updSlice n f).mem = d.mem ∧ (d.updSlice n f).ports = d.ports
    ∧ (d.updSlice n f).binds = d.binds ∧ (d.updSlice n f).agents = d.agents ∧ (d.updSlice n f).epochs = d.epochs
    ∧ (d.updSlice n f).tiles = d.tiles ∧ (d.updSlice n f).mcs = d.mcs ∧ (d.updSlice n f).chans = d.chans
    ∧ (d.updSlice n f).xacts = d.xacts ∧ (d.updSlice n f).nextId = d.nextId ∧ (d.updSlice n f).engines = d.engines
    ∧ (d.updSlice n f).qlabs = d.qlabs ∧ (d.updSlice n f).labis = d.labis ∧ (d.updSlice n f).labEffects = d.labEffects
    ∧ (d.updSlice n f).pairs = d.pairs ∧ (d.updSlice n f).sources = d.sources ∧ (d.updSlice n f).evqs = d.evqs
    ∧ (d.updSlice n f).evt = d.evt ∧ (d.updSlice n f).err = d.err ∧ (d.updSlice n f).movers = d.movers
    ∧ (d.updSlice n f).park = d.park ∧ (d.updSlice n f).resync = d.resync ∧ (d.updSlice n f).sec = d.sec
    ∧ (d.updSlice n f).pwr = d.pwr ∧ (d.updSlice n f).pmcs = d.pmcs ∧ (d.updSlice n f).pmcUserEn = d.pmcUserEn
    ∧ (d.updSlice n f).mgt = d.mgt ∧ (d.updSlice n f).rawCells = d.rawCells ∧ (d.updSlice n f).q0work = d.q0work
    ∧ (d.updSlice n f).answers = d.answers ∧ (d.updSlice n f).waits = d.waits
    ∧ (d.updSlice n f).out = d.out := by
  repeat' constructor

@[simp] theorem Dev.slice_updSlice (d : Dev) (n : Nat) (f : Slice → Slice) : (d.updSlice n f).slice n = f (d.slice n) := by
  simp [Dev.slice, Dev.updSlice]

theorem Dev.slice_updSlice_other (d : Dev) {n m : Nat} (f : Slice → Slice) (h : m ≠ n) : (d.updSlice n f).slice m = d.slice m :=
  Tab.get_upd_other _ _ _ h

/-- What `Dev.updTile` leaves alone. -/
@[simp] theorem Dev.updTile_frame (d : Dev) (n : Nat) (f : Tile → Tile) :
    (d.updTile n f).glob = d.glob ∧ (d.updTile n f).mem = d.mem ∧ (d.updTile n f).ports = d.ports
    ∧ (d.updTile n f).binds = d.binds ∧ (d.updTile n f).agents = d.agents ∧ (d.updTile n f).epochs = d.epochs
    ∧ (d.updTile n f).slices = d.slices ∧ (d.updTile n f).mcs = d.mcs ∧ (d.updTile n f).chans = d.chans
    ∧ (d.updTile n f).xacts = d.xacts ∧ (d.updTile n f).nextId = d.nextId ∧ (d.updTile n f).engines = d.engines
    ∧ (d.updTile n f).qlabs = d.qlabs ∧ (d.updTile n f).labis = d.labis ∧ (d.updTile n f).labEffects = d.labEffects
    ∧ (d.updTile n f).pairs = d.pairs ∧ (d.updTile n f).sources = d.sources ∧ (d.updTile n f).evqs = d.evqs
    ∧ (d.updTile n f).evt = d.evt ∧ (d.updTile n f).err = d.err ∧ (d.updTile n f).movers = d.movers
    ∧ (d.updTile n f).park = d.park ∧ (d.updTile n f).resync = d.resync ∧ (d.updTile n f).sec = d.sec
    ∧ (d.updTile n f).pwr = d.pwr ∧ (d.updTile n f).pmcs = d.pmcs ∧ (d.updTile n f).pmcUserEn = d.pmcUserEn
    ∧ (d.updTile n f).mgt = d.mgt ∧ (d.updTile n f).rawCells = d.rawCells ∧ (d.updTile n f).q0work = d.q0work
    ∧ (d.updTile n f).answers = d.answers ∧ (d.updTile n f).waits = d.waits
    ∧ (d.updTile n f).out = d.out := by
  repeat' constructor

@[simp] theorem Dev.tile_updTile (d : Dev) (n : Nat) (f : Tile → Tile) : (d.updTile n f).tile n = f (d.tile n) := by
  simp [Dev.tile, Dev.updTile]

theorem Dev.tile_updTile_other (d : Dev) {n m : Nat} (f : Tile → Tile) (h : m ≠ n) : (d.updTile n f).tile m = d.tile m :=
  Tab.get_upd_other _ _ _ h

/-- What `Dev.updMc` leaves alone. -/
@[simp] theorem Dev.updMc_frame (d : Dev) (n : Nat) (f : Mc → Mc) :
    (d.updMc n f).glob = d.glob ∧ (d.updMc n f).mem = d.mem ∧ (d.updMc n f).ports = d.ports ∧ (d.updMc n f).binds = d.binds
    ∧ (d.updMc n f).agents = d.agents ∧ (d.updMc n f).epochs = d.epochs ∧ (d.updMc n f).slices = d.slices
    ∧ (d.updMc n f).tiles = d.tiles ∧ (d.updMc n f).chans = d.chans ∧ (d.updMc n f).xacts = d.xacts
    ∧ (d.updMc n f).nextId = d.nextId ∧ (d.updMc n f).engines = d.engines ∧ (d.updMc n f).qlabs = d.qlabs
    ∧ (d.updMc n f).labis = d.labis ∧ (d.updMc n f).labEffects = d.labEffects ∧ (d.updMc n f).pairs = d.pairs
    ∧ (d.updMc n f).sources = d.sources ∧ (d.updMc n f).evqs = d.evqs ∧ (d.updMc n f).evt = d.evt ∧ (d.updMc n f).err = d.err
    ∧ (d.updMc n f).movers = d.movers ∧ (d.updMc n f).park = d.park ∧ (d.updMc n f).resync = d.resync
    ∧ (d.updMc n f).sec = d.sec ∧ (d.updMc n f).pwr = d.pwr ∧ (d.updMc n f).pmcs = d.pmcs
    ∧ (d.updMc n f).pmcUserEn = d.pmcUserEn ∧ (d.updMc n f).mgt = d.mgt ∧ (d.updMc n f).rawCells = d.rawCells
    ∧ (d.updMc n f).q0work = d.q0work ∧ (d.updMc n f).answers = d.answers ∧ (d.updMc n f).waits = d.waits
    ∧ (d.updMc n f).out = d.out := by
  repeat' constructor

@[simp] theorem Dev.mc_updMc (d : Dev) (n : Nat) (f : Mc → Mc) : (d.updMc n f).mc n = f (d.mc n) := by
  simp [Dev.mc, Dev.updMc]

theorem Dev.mc_updMc_other (d : Dev) {n m : Nat} (f : Mc → Mc) (h : m ≠ n) : (d.updMc n f).mc m = d.mc m :=
  Tab.get_upd_other _ _ _ h

/-- What `Dev.updChan` leaves alone. -/
@[simp] theorem Dev.updChan_frame (d : Dev) (n : Nat) (f : Chan → Chan) :
    (d.updChan n f).glob = d.glob ∧ (d.updChan n f).mem = d.mem ∧ (d.updChan n f).ports = d.ports
    ∧ (d.updChan n f).binds = d.binds ∧ (d.updChan n f).agents = d.agents ∧ (d.updChan n f).epochs = d.epochs
    ∧ (d.updChan n f).slices = d.slices ∧ (d.updChan n f).tiles = d.tiles ∧ (d.updChan n f).mcs = d.mcs
    ∧ (d.updChan n f).xacts = d.xacts ∧ (d.updChan n f).nextId = d.nextId ∧ (d.updChan n f).engines = d.engines
    ∧ (d.updChan n f).qlabs = d.qlabs ∧ (d.updChan n f).labis = d.labis ∧ (d.updChan n f).labEffects = d.labEffects
    ∧ (d.updChan n f).pairs = d.pairs ∧ (d.updChan n f).sources = d.sources ∧ (d.updChan n f).evqs = d.evqs
    ∧ (d.updChan n f).evt = d.evt ∧ (d.updChan n f).err = d.err ∧ (d.updChan n f).movers = d.movers
    ∧ (d.updChan n f).park = d.park ∧ (d.updChan n f).resync = d.resync ∧ (d.updChan n f).sec = d.sec
    ∧ (d.updChan n f).pwr = d.pwr ∧ (d.updChan n f).pmcs = d.pmcs ∧ (d.updChan n f).pmcUserEn = d.pmcUserEn
    ∧ (d.updChan n f).mgt = d.mgt ∧ (d.updChan n f).rawCells = d.rawCells ∧ (d.updChan n f).q0work = d.q0work
    ∧ (d.updChan n f).answers = d.answers ∧ (d.updChan n f).waits = d.waits
    ∧ (d.updChan n f).out = d.out := by
  repeat' constructor

@[simp] theorem Dev.chan_updChan (d : Dev) (n : Nat) (f : Chan → Chan) : (d.updChan n f).chan n = f (d.chan n) := by
  simp [Dev.chan, Dev.updChan]

theorem Dev.chan_updChan_other (d : Dev) {n m : Nat} (f : Chan → Chan) (h : m ≠ n) : (d.updChan n f).chan m = d.chan m :=
  Tab.get_upd_other _ _ _ h

/-- What `Dev.updEngine` leaves alone. -/
@[simp] theorem Dev.updEngine_frame (d : Dev) (n : Nat) (f : Engine → Engine) :
    (d.updEngine n f).glob = d.glob ∧ (d.updEngine n f).mem = d.mem ∧ (d.updEngine n f).ports = d.ports
    ∧ (d.updEngine n f).binds = d.binds ∧ (d.updEngine n f).agents = d.agents ∧ (d.updEngine n f).epochs = d.epochs
    ∧ (d.updEngine n f).slices = d.slices ∧ (d.updEngine n f).tiles = d.tiles ∧ (d.updEngine n f).mcs = d.mcs
    ∧ (d.updEngine n f).chans = d.chans ∧ (d.updEngine n f).xacts = d.xacts ∧ (d.updEngine n f).nextId = d.nextId
    ∧ (d.updEngine n f).qlabs = d.qlabs ∧ (d.updEngine n f).labis = d.labis ∧ (d.updEngine n f).labEffects = d.labEffects
    ∧ (d.updEngine n f).pairs = d.pairs ∧ (d.updEngine n f).sources = d.sources ∧ (d.updEngine n f).evqs = d.evqs
    ∧ (d.updEngine n f).evt = d.evt ∧ (d.updEngine n f).err = d.err ∧ (d.updEngine n f).movers = d.movers
    ∧ (d.updEngine n f).park = d.park ∧ (d.updEngine n f).resync = d.resync ∧ (d.updEngine n f).sec = d.sec
    ∧ (d.updEngine n f).pwr = d.pwr ∧ (d.updEngine n f).pmcs = d.pmcs ∧ (d.updEngine n f).pmcUserEn = d.pmcUserEn
    ∧ (d.updEngine n f).mgt = d.mgt ∧ (d.updEngine n f).rawCells = d.rawCells ∧ (d.updEngine n f).q0work = d.q0work
    ∧ (d.updEngine n f).answers = d.answers ∧ (d.updEngine n f).waits = d.waits
    ∧ (d.updEngine n f).out = d.out := by
  repeat' constructor

@[simp] theorem Dev.engine_updEngine (d : Dev) (n : Nat) (f : Engine → Engine) : (d.updEngine n f).engine n = f (d.engine n) := by
  simp [Dev.engine, Dev.updEngine]

theorem Dev.engine_updEngine_other (d : Dev) {n m : Nat} (f : Engine → Engine) (h : m ≠ n) : (d.updEngine n f).engine m = d.engine m :=
  Tab.get_upd_other _ _ _ h

/-- What `Dev.updPair` leaves alone. -/
@[simp] theorem Dev.updPair_frame (d : Dev) (n : Nat) (f : Pair_ → Pair_) :
    (d.updPair n f).glob = d.glob ∧ (d.updPair n f).mem = d.mem ∧ (d.updPair n f).ports = d.ports
    ∧ (d.updPair n f).binds = d.binds ∧ (d.updPair n f).agents = d.agents ∧ (d.updPair n f).epochs = d.epochs
    ∧ (d.updPair n f).slices = d.slices ∧ (d.updPair n f).tiles = d.tiles ∧ (d.updPair n f).mcs = d.mcs
    ∧ (d.updPair n f).chans = d.chans ∧ (d.updPair n f).xacts = d.xacts ∧ (d.updPair n f).nextId = d.nextId
    ∧ (d.updPair n f).engines = d.engines ∧ (d.updPair n f).qlabs = d.qlabs ∧ (d.updPair n f).labis = d.labis
    ∧ (d.updPair n f).labEffects = d.labEffects ∧ (d.updPair n f).sources = d.sources ∧ (d.updPair n f).evqs = d.evqs
    ∧ (d.updPair n f).evt = d.evt ∧ (d.updPair n f).err = d.err ∧ (d.updPair n f).movers = d.movers
    ∧ (d.updPair n f).park = d.park ∧ (d.updPair n f).resync = d.resync ∧ (d.updPair n f).sec = d.sec
    ∧ (d.updPair n f).pwr = d.pwr ∧ (d.updPair n f).pmcs = d.pmcs ∧ (d.updPair n f).pmcUserEn = d.pmcUserEn
    ∧ (d.updPair n f).mgt = d.mgt ∧ (d.updPair n f).rawCells = d.rawCells ∧ (d.updPair n f).q0work = d.q0work
    ∧ (d.updPair n f).answers = d.answers ∧ (d.updPair n f).waits = d.waits
    ∧ (d.updPair n f).out = d.out := by
  repeat' constructor

@[simp] theorem Dev.pair_updPair (d : Dev) (n : Nat) (f : Pair_ → Pair_) : (d.updPair n f).pair n = f (d.pair n) := by
  simp [Dev.pair, Dev.updPair]

theorem Dev.pair_updPair_other (d : Dev) {n m : Nat} (f : Pair_ → Pair_) (h : m ≠ n) : (d.updPair n f).pair m = d.pair m :=
  Tab.get_upd_other _ _ _ h

/-- What `Dev.updSource` leaves alone. -/
@[simp] theorem Dev.updSource_frame (d : Dev) (n : Nat) (f : Source → Source) :
    (d.updSource n f).glob = d.glob ∧ (d.updSource n f).mem = d.mem ∧ (d.updSource n f).ports = d.ports
    ∧ (d.updSource n f).binds = d.binds ∧ (d.updSource n f).agents = d.agents ∧ (d.updSource n f).epochs = d.epochs
    ∧ (d.updSource n f).slices = d.slices ∧ (d.updSource n f).tiles = d.tiles ∧ (d.updSource n f).mcs = d.mcs
    ∧ (d.updSource n f).chans = d.chans ∧ (d.updSource n f).xacts = d.xacts ∧ (d.updSource n f).nextId = d.nextId
    ∧ (d.updSource n f).engines = d.engines ∧ (d.updSource n f).qlabs = d.qlabs ∧ (d.updSource n f).labis = d.labis
    ∧ (d.updSource n f).labEffects = d.labEffects ∧ (d.updSource n f).pairs = d.pairs ∧ (d.updSource n f).evqs = d.evqs
    ∧ (d.updSource n f).evt = d.evt ∧ (d.updSource n f).err = d.err ∧ (d.updSource n f).movers = d.movers
    ∧ (d.updSource n f).park = d.park ∧ (d.updSource n f).resync = d.resync ∧ (d.updSource n f).sec = d.sec
    ∧ (d.updSource n f).pwr = d.pwr ∧ (d.updSource n f).pmcs = d.pmcs ∧ (d.updSource n f).pmcUserEn = d.pmcUserEn
    ∧ (d.updSource n f).mgt = d.mgt ∧ (d.updSource n f).rawCells = d.rawCells ∧ (d.updSource n f).q0work = d.q0work
    ∧ (d.updSource n f).answers = d.answers ∧ (d.updSource n f).waits = d.waits
    ∧ (d.updSource n f).out = d.out := by
  repeat' constructor

@[simp] theorem Dev.source_updSource (d : Dev) (n : Nat) (f : Source → Source) : (d.updSource n f).source n = f (d.source n) := by
  simp [Dev.source, Dev.updSource]

theorem Dev.source_updSource_other (d : Dev) {n m : Nat} (f : Source → Source) (h : m ≠ n) : (d.updSource n f).source m = d.source m :=
  Tab.get_upd_other _ _ _ h

/-- What `Dev.updEvq` leaves alone. -/
@[simp] theorem Dev.updEvq_frame (d : Dev) (n : Nat) (f : Evq → Evq) :
    (d.updEvq n f).glob = d.glob ∧ (d.updEvq n f).mem = d.mem ∧ (d.updEvq n f).ports = d.ports
    ∧ (d.updEvq n f).binds = d.binds ∧ (d.updEvq n f).agents = d.agents ∧ (d.updEvq n f).epochs = d.epochs
    ∧ (d.updEvq n f).slices = d.slices ∧ (d.updEvq n f).tiles = d.tiles ∧ (d.updEvq n f).mcs = d.mcs
    ∧ (d.updEvq n f).chans = d.chans ∧ (d.updEvq n f).xacts = d.xacts ∧ (d.updEvq n f).nextId = d.nextId
    ∧ (d.updEvq n f).engines = d.engines ∧ (d.updEvq n f).qlabs = d.qlabs ∧ (d.updEvq n f).labis = d.labis
    ∧ (d.updEvq n f).labEffects = d.labEffects ∧ (d.updEvq n f).pairs = d.pairs ∧ (d.updEvq n f).sources = d.sources
    ∧ (d.updEvq n f).evt = d.evt ∧ (d.updEvq n f).err = d.err ∧ (d.updEvq n f).movers = d.movers
    ∧ (d.updEvq n f).park = d.park ∧ (d.updEvq n f).resync = d.resync ∧ (d.updEvq n f).sec = d.sec
    ∧ (d.updEvq n f).pwr = d.pwr ∧ (d.updEvq n f).pmcs = d.pmcs ∧ (d.updEvq n f).pmcUserEn = d.pmcUserEn
    ∧ (d.updEvq n f).mgt = d.mgt ∧ (d.updEvq n f).rawCells = d.rawCells ∧ (d.updEvq n f).q0work = d.q0work
    ∧ (d.updEvq n f).answers = d.answers ∧ (d.updEvq n f).waits = d.waits
    ∧ (d.updEvq n f).out = d.out := by
  repeat' constructor

@[simp] theorem Dev.evq_updEvq (d : Dev) (n : Nat) (f : Evq → Evq) : (d.updEvq n f).evq n = f (d.evq n) := by
  simp [Dev.evq, Dev.updEvq]

theorem Dev.evq_updEvq_other (d : Dev) {n m : Nat} (f : Evq → Evq) (h : m ≠ n) : (d.updEvq n f).evq m = d.evq m :=
  Tab.get_upd_other _ _ _ h

/-- What `Dev.updPmc` leaves alone. -/
@[simp] theorem Dev.updPmc_frame (d : Dev) (n : Nat) (f : Pmc → Pmc) :
    (d.updPmc n f).glob = d.glob ∧ (d.updPmc n f).mem = d.mem ∧ (d.updPmc n f).ports = d.ports
    ∧ (d.updPmc n f).binds = d.binds ∧ (d.updPmc n f).agents = d.agents ∧ (d.updPmc n f).epochs = d.epochs
    ∧ (d.updPmc n f).slices = d.slices ∧ (d.updPmc n f).tiles = d.tiles ∧ (d.updPmc n f).mcs = d.mcs
    ∧ (d.updPmc n f).chans = d.chans ∧ (d.updPmc n f).xacts = d.xacts ∧ (d.updPmc n f).nextId = d.nextId
    ∧ (d.updPmc n f).engines = d.engines ∧ (d.updPmc n f).qlabs = d.qlabs ∧ (d.updPmc n f).labis = d.labis
    ∧ (d.updPmc n f).labEffects = d.labEffects ∧ (d.updPmc n f).pairs = d.pairs ∧ (d.updPmc n f).sources = d.sources
    ∧ (d.updPmc n f).evqs = d.evqs ∧ (d.updPmc n f).evt = d.evt ∧ (d.updPmc n f).err = d.err
    ∧ (d.updPmc n f).movers = d.movers ∧ (d.updPmc n f).park = d.park ∧ (d.updPmc n f).resync = d.resync
    ∧ (d.updPmc n f).sec = d.sec ∧ (d.updPmc n f).pwr = d.pwr ∧ (d.updPmc n f).pmcUserEn = d.pmcUserEn
    ∧ (d.updPmc n f).mgt = d.mgt ∧ (d.updPmc n f).rawCells = d.rawCells ∧ (d.updPmc n f).q0work = d.q0work
    ∧ (d.updPmc n f).answers = d.answers ∧ (d.updPmc n f).waits = d.waits
    ∧ (d.updPmc n f).out = d.out := by
  repeat' constructor

@[simp] theorem Dev.pmc_updPmc (d : Dev) (n : Nat) (f : Pmc → Pmc) : (d.updPmc n f).pmc n = f (d.pmc n) := by
  simp [Dev.pmc, Dev.updPmc]

theorem Dev.pmc_updPmc_other (d : Dev) {n m : Nat} (f : Pmc → Pmc) (h : m ≠ n) : (d.updPmc n f).pmc m = d.pmc m :=
  Tab.get_upd_other _ _ _ h

/-- What `Dev.updLd` leaves alone. -/
@[simp] theorem Dev.updLd_frame (d : Dev) (p m : Nat) (f : Ld → Ld) :
    (d.updLd p m f).glob = d.glob ∧ (d.updLd p m f).mem = d.mem ∧ (d.updLd p m f).binds = d.binds
    ∧ (d.updLd p m f).agents = d.agents ∧ (d.updLd p m f).epochs = d.epochs ∧ (d.updLd p m f).slices = d.slices
    ∧ (d.updLd p m f).tiles = d.tiles ∧ (d.updLd p m f).mcs = d.mcs ∧ (d.updLd p m f).chans = d.chans
    ∧ (d.updLd p m f).xacts = d.xacts ∧ (d.updLd p m f).nextId = d.nextId ∧ (d.updLd p m f).engines = d.engines
    ∧ (d.updLd p m f).qlabs = d.qlabs ∧ (d.updLd p m f).labis = d.labis ∧ (d.updLd p m f).labEffects = d.labEffects
    ∧ (d.updLd p m f).pairs = d.pairs ∧ (d.updLd p m f).sources = d.sources ∧ (d.updLd p m f).evqs = d.evqs
    ∧ (d.updLd p m f).evt = d.evt ∧ (d.updLd p m f).err = d.err ∧ (d.updLd p m f).movers = d.movers
    ∧ (d.updLd p m f).park = d.park ∧ (d.updLd p m f).resync = d.resync ∧ (d.updLd p m f).sec = d.sec
    ∧ (d.updLd p m f).pwr = d.pwr ∧ (d.updLd p m f).pmcs = d.pmcs ∧ (d.updLd p m f).pmcUserEn = d.pmcUserEn
    ∧ (d.updLd p m f).mgt = d.mgt ∧ (d.updLd p m f).rawCells = d.rawCells ∧ (d.updLd p m f).q0work = d.q0work
    ∧ (d.updLd p m f).answers = d.answers ∧ (d.updLd p m f).waits = d.waits
    ∧ (d.updLd p m f).out = d.out := by
  repeat' constructor

/-- What `Dev.updAgent` leaves alone. -/
@[simp] theorem Dev.updAgent_frame (d : Dev) (a : BitVec 12) (f : Agent → Agent) :
    (d.updAgent a f).glob = d.glob ∧ (d.updAgent a f).mem = d.mem ∧ (d.updAgent a f).ports = d.ports
    ∧ (d.updAgent a f).binds = d.binds ∧ (d.updAgent a f).epochs = d.epochs ∧ (d.updAgent a f).slices = d.slices
    ∧ (d.updAgent a f).tiles = d.tiles ∧ (d.updAgent a f).mcs = d.mcs ∧ (d.updAgent a f).chans = d.chans
    ∧ (d.updAgent a f).xacts = d.xacts ∧ (d.updAgent a f).nextId = d.nextId ∧ (d.updAgent a f).engines = d.engines
    ∧ (d.updAgent a f).qlabs = d.qlabs ∧ (d.updAgent a f).labis = d.labis ∧ (d.updAgent a f).labEffects = d.labEffects
    ∧ (d.updAgent a f).pairs = d.pairs ∧ (d.updAgent a f).sources = d.sources ∧ (d.updAgent a f).evqs = d.evqs
    ∧ (d.updAgent a f).evt = d.evt ∧ (d.updAgent a f).err = d.err ∧ (d.updAgent a f).movers = d.movers
    ∧ (d.updAgent a f).park = d.park ∧ (d.updAgent a f).resync = d.resync ∧ (d.updAgent a f).sec = d.sec
    ∧ (d.updAgent a f).pwr = d.pwr ∧ (d.updAgent a f).pmcs = d.pmcs ∧ (d.updAgent a f).pmcUserEn = d.pmcUserEn
    ∧ (d.updAgent a f).mgt = d.mgt ∧ (d.updAgent a f).rawCells = d.rawCells ∧ (d.updAgent a f).q0work = d.q0work
    ∧ (d.updAgent a f).answers = d.answers ∧ (d.updAgent a f).waits = d.waits
    ∧ (d.updAgent a f).out = d.out := by
  repeat' constructor

/-- What `Dev.putXact` leaves alone. -/
@[simp] theorem Dev.putXact_frame (d : Dev) (i : Nat) (x : Xact) :
    (d.putXact i x).glob = d.glob ∧ (d.putXact i x).mem = d.mem ∧ (d.putXact i x).ports = d.ports
    ∧ (d.putXact i x).binds = d.binds ∧ (d.putXact i x).agents = d.agents ∧ (d.putXact i x).epochs = d.epochs
    ∧ (d.putXact i x).slices = d.slices ∧ (d.putXact i x).tiles = d.tiles ∧ (d.putXact i x).mcs = d.mcs
    ∧ (d.putXact i x).chans = d.chans ∧ (d.putXact i x).nextId = d.nextId ∧ (d.putXact i x).engines = d.engines
    ∧ (d.putXact i x).qlabs = d.qlabs ∧ (d.putXact i x).labis = d.labis ∧ (d.putXact i x).labEffects = d.labEffects
    ∧ (d.putXact i x).pairs = d.pairs ∧ (d.putXact i x).sources = d.sources ∧ (d.putXact i x).evqs = d.evqs
    ∧ (d.putXact i x).evt = d.evt ∧ (d.putXact i x).err = d.err ∧ (d.putXact i x).movers = d.movers
    ∧ (d.putXact i x).park = d.park ∧ (d.putXact i x).resync = d.resync ∧ (d.putXact i x).sec = d.sec
    ∧ (d.putXact i x).pwr = d.pwr ∧ (d.putXact i x).pmcs = d.pmcs ∧ (d.putXact i x).pmcUserEn = d.pmcUserEn
    ∧ (d.putXact i x).mgt = d.mgt ∧ (d.putXact i x).rawCells = d.rawCells ∧ (d.putXact i x).q0work = d.q0work
    ∧ (d.putXact i x).answers = d.answers ∧ (d.putXact i x).waits = d.waits
    ∧ (d.putXact i x).out = d.out := by
  repeat' constructor

/-- What `Dev.dropXact` leaves alone. -/
@[simp] theorem Dev.dropXact_frame (d : Dev) (i : Nat) :
    (d.dropXact i).glob = d.glob ∧ (d.dropXact i).mem = d.mem ∧ (d.dropXact i).ports = d.ports
    ∧ (d.dropXact i).binds = d.binds ∧ (d.dropXact i).agents = d.agents ∧ (d.dropXact i).epochs = d.epochs
    ∧ (d.dropXact i).slices = d.slices ∧ (d.dropXact i).tiles = d.tiles ∧ (d.dropXact i).mcs = d.mcs
    ∧ (d.dropXact i).chans = d.chans ∧ (d.dropXact i).nextId = d.nextId ∧ (d.dropXact i).engines = d.engines
    ∧ (d.dropXact i).qlabs = d.qlabs ∧ (d.dropXact i).labis = d.labis ∧ (d.dropXact i).labEffects = d.labEffects
    ∧ (d.dropXact i).pairs = d.pairs ∧ (d.dropXact i).sources = d.sources ∧ (d.dropXact i).evqs = d.evqs
    ∧ (d.dropXact i).evt = d.evt ∧ (d.dropXact i).err = d.err ∧ (d.dropXact i).movers = d.movers
    ∧ (d.dropXact i).park = d.park ∧ (d.dropXact i).resync = d.resync ∧ (d.dropXact i).sec = d.sec
    ∧ (d.dropXact i).pwr = d.pwr ∧ (d.dropXact i).pmcs = d.pmcs ∧ (d.dropXact i).pmcUserEn = d.pmcUserEn
    ∧ (d.dropXact i).mgt = d.mgt ∧ (d.dropXact i).rawCells = d.rawCells ∧ (d.dropXact i).q0work = d.q0work
    ∧ (d.dropXact i).answers = d.answers ∧ (d.dropXact i).waits = d.waits
    ∧ (d.dropXact i).out = d.out := by
  repeat' constructor

/-- What `Dev.setGlob` leaves alone. -/
@[simp] theorem Dev.setGlob_frame (d : Dev) (f : Glob → Glob) :
    (d.setGlob f).mem = d.mem ∧ (d.setGlob f).ports = d.ports ∧ (d.setGlob f).binds = d.binds
    ∧ (d.setGlob f).agents = d.agents ∧ (d.setGlob f).epochs = d.epochs ∧ (d.setGlob f).slices = d.slices
    ∧ (d.setGlob f).tiles = d.tiles ∧ (d.setGlob f).mcs = d.mcs ∧ (d.setGlob f).chans = d.chans
    ∧ (d.setGlob f).xacts = d.xacts ∧ (d.setGlob f).nextId = d.nextId ∧ (d.setGlob f).engines = d.engines
    ∧ (d.setGlob f).qlabs = d.qlabs ∧ (d.setGlob f).labis = d.labis ∧ (d.setGlob f).labEffects = d.labEffects
    ∧ (d.setGlob f).pairs = d.pairs ∧ (d.setGlob f).sources = d.sources ∧ (d.setGlob f).evqs = d.evqs
    ∧ (d.setGlob f).evt = d.evt ∧ (d.setGlob f).err = d.err ∧ (d.setGlob f).movers = d.movers ∧ (d.setGlob f).park = d.park
    ∧ (d.setGlob f).resync = d.resync ∧ (d.setGlob f).sec = d.sec ∧ (d.setGlob f).pwr = d.pwr ∧ (d.setGlob f).pmcs = d.pmcs
    ∧ (d.setGlob f).pmcUserEn = d.pmcUserEn ∧ (d.setGlob f).mgt = d.mgt ∧ (d.setGlob f).rawCells = d.rawCells
    ∧ (d.setGlob f).q0work = d.q0work ∧ (d.setGlob f).answers = d.answers ∧ (d.setGlob f).waits = d.waits
    ∧ (d.setGlob f).out = d.out := by
  repeat' constructor

/-- What `Dev.setErr` leaves alone. -/
@[simp] theorem Dev.setErr_frame (d : Dev) (f : Err → Err) :
    (d.setErr f).glob = d.glob ∧ (d.setErr f).mem = d.mem ∧ (d.setErr f).ports = d.ports ∧ (d.setErr f).binds = d.binds
    ∧ (d.setErr f).agents = d.agents ∧ (d.setErr f).epochs = d.epochs ∧ (d.setErr f).slices = d.slices
    ∧ (d.setErr f).tiles = d.tiles ∧ (d.setErr f).mcs = d.mcs ∧ (d.setErr f).chans = d.chans ∧ (d.setErr f).xacts = d.xacts
    ∧ (d.setErr f).nextId = d.nextId ∧ (d.setErr f).engines = d.engines ∧ (d.setErr f).qlabs = d.qlabs
    ∧ (d.setErr f).labis = d.labis ∧ (d.setErr f).labEffects = d.labEffects ∧ (d.setErr f).pairs = d.pairs
    ∧ (d.setErr f).sources = d.sources ∧ (d.setErr f).evqs = d.evqs ∧ (d.setErr f).evt = d.evt
    ∧ (d.setErr f).movers = d.movers ∧ (d.setErr f).park = d.park ∧ (d.setErr f).resync = d.resync ∧ (d.setErr f).sec = d.sec
    ∧ (d.setErr f).pwr = d.pwr ∧ (d.setErr f).pmcs = d.pmcs ∧ (d.setErr f).pmcUserEn = d.pmcUserEn ∧ (d.setErr f).mgt = d.mgt
    ∧ (d.setErr f).rawCells = d.rawCells ∧ (d.setErr f).q0work = d.q0work ∧ (d.setErr f).answers = d.answers ∧ (d.setErr f).waits = d.waits
    ∧ (d.setErr f).out = d.out := by
  repeat' constructor

/-- What `Dev.setSec` leaves alone. -/
@[simp] theorem Dev.setSec_frame (d : Dev) (f : Sec → Sec) :
    (d.setSec f).glob = d.glob ∧ (d.setSec f).mem = d.mem ∧ (d.setSec f).ports = d.ports ∧ (d.setSec f).binds = d.binds
    ∧ (d.setSec f).agents = d.agents ∧ (d.setSec f).epochs = d.epochs ∧ (d.setSec f).slices = d.slices
    ∧ (d.setSec f).tiles = d.tiles ∧ (d.setSec f).mcs = d.mcs ∧ (d.setSec f).chans = d.chans ∧ (d.setSec f).xacts = d.xacts
    ∧ (d.setSec f).nextId = d.nextId ∧ (d.setSec f).engines = d.engines ∧ (d.setSec f).qlabs = d.qlabs
    ∧ (d.setSec f).labis = d.labis ∧ (d.setSec f).labEffects = d.labEffects ∧ (d.setSec f).pairs = d.pairs
    ∧ (d.setSec f).sources = d.sources ∧ (d.setSec f).evqs = d.evqs ∧ (d.setSec f).evt = d.evt ∧ (d.setSec f).err = d.err
    ∧ (d.setSec f).movers = d.movers ∧ (d.setSec f).park = d.park ∧ (d.setSec f).resync = d.resync ∧ (d.setSec f).pwr = d.pwr
    ∧ (d.setSec f).pmcs = d.pmcs ∧ (d.setSec f).pmcUserEn = d.pmcUserEn ∧ (d.setSec f).mgt = d.mgt
    ∧ (d.setSec f).rawCells = d.rawCells ∧ (d.setSec f).q0work = d.q0work ∧ (d.setSec f).answers = d.answers ∧ (d.setSec f).waits = d.waits
    ∧ (d.setSec f).out = d.out := by
  repeat' constructor

/-- What `Dev.setPwr` leaves alone. -/
@[simp] theorem Dev.setPwr_frame (d : Dev) (f : Pwr → Pwr) :
    (d.setPwr f).glob = d.glob ∧ (d.setPwr f).mem = d.mem ∧ (d.setPwr f).ports = d.ports ∧ (d.setPwr f).binds = d.binds
    ∧ (d.setPwr f).agents = d.agents ∧ (d.setPwr f).epochs = d.epochs ∧ (d.setPwr f).slices = d.slices
    ∧ (d.setPwr f).tiles = d.tiles ∧ (d.setPwr f).mcs = d.mcs ∧ (d.setPwr f).chans = d.chans ∧ (d.setPwr f).xacts = d.xacts
    ∧ (d.setPwr f).nextId = d.nextId ∧ (d.setPwr f).engines = d.engines ∧ (d.setPwr f).qlabs = d.qlabs
    ∧ (d.setPwr f).labis = d.labis ∧ (d.setPwr f).labEffects = d.labEffects ∧ (d.setPwr f).pairs = d.pairs
    ∧ (d.setPwr f).sources = d.sources ∧ (d.setPwr f).evqs = d.evqs ∧ (d.setPwr f).evt = d.evt ∧ (d.setPwr f).err = d.err
    ∧ (d.setPwr f).movers = d.movers ∧ (d.setPwr f).park = d.park ∧ (d.setPwr f).resync = d.resync ∧ (d.setPwr f).sec = d.sec
    ∧ (d.setPwr f).pmcs = d.pmcs ∧ (d.setPwr f).pmcUserEn = d.pmcUserEn ∧ (d.setPwr f).mgt = d.mgt
    ∧ (d.setPwr f).rawCells = d.rawCells ∧ (d.setPwr f).q0work = d.q0work ∧ (d.setPwr f).answers = d.answers ∧ (d.setPwr f).waits = d.waits
    ∧ (d.setPwr f).out = d.out := by
  repeat' constructor

/-- What `emit` leaves alone. -/
@[simp] theorem emit_frame (d : Dev) (m : Msg) :
    (emit d m).glob = d.glob ∧ (emit d m).mem = d.mem ∧ (emit d m).ports = d.ports ∧ (emit d m).binds = d.binds
    ∧ (emit d m).agents = d.agents ∧ (emit d m).epochs = d.epochs ∧ (emit d m).slices = d.slices ∧ (emit d m).tiles = d.tiles
    ∧ (emit d m).mcs = d.mcs ∧ (emit d m).chans = d.chans ∧ (emit d m).xacts = d.xacts ∧ (emit d m).nextId = d.nextId
    ∧ (emit d m).engines = d.engines ∧ (emit d m).qlabs = d.qlabs ∧ (emit d m).labis = d.labis
    ∧ (emit d m).labEffects = d.labEffects ∧ (emit d m).pairs = d.pairs ∧ (emit d m).sources = d.sources
    ∧ (emit d m).evqs = d.evqs ∧ (emit d m).evt = d.evt ∧ (emit d m).err = d.err ∧ (emit d m).movers = d.movers
    ∧ (emit d m).park = d.park ∧ (emit d m).resync = d.resync ∧ (emit d m).sec = d.sec ∧ (emit d m).pwr = d.pwr
    ∧ (emit d m).pmcs = d.pmcs ∧ (emit d m).pmcUserEn = d.pmcUserEn ∧ (emit d m).mgt = d.mgt
    ∧ (emit d m).rawCells = d.rawCells ∧ (emit d m).q0work = d.q0work ∧ (emit d m).answers = d.answers
    ∧ (emit d m).waits = d.waits := by
  repeat' constructor

/-- What `Dev.drawn` leaves alone. -/
@[simp] theorem Dev.drawn_frame (d : Dev) :
    (d.drawn).mem = d.mem ∧ (d.drawn).ports = d.ports ∧ (d.drawn).binds = d.binds ∧ (d.drawn).agents = d.agents
    ∧ (d.drawn).epochs = d.epochs ∧ (d.drawn).slices = d.slices ∧ (d.drawn).tiles = d.tiles ∧ (d.drawn).mcs = d.mcs
    ∧ (d.drawn).chans = d.chans ∧ (d.drawn).xacts = d.xacts ∧ (d.drawn).nextId = d.nextId ∧ (d.drawn).engines = d.engines
    ∧ (d.drawn).qlabs = d.qlabs ∧ (d.drawn).labis = d.labis ∧ (d.drawn).labEffects = d.labEffects ∧ (d.drawn).pairs = d.pairs
    ∧ (d.drawn).sources = d.sources ∧ (d.drawn).evqs = d.evqs ∧ (d.drawn).evt = d.evt ∧ (d.drawn).err = d.err
    ∧ (d.drawn).movers = d.movers ∧ (d.drawn).park = d.park ∧ (d.drawn).resync = d.resync ∧ (d.drawn).sec = d.sec
    ∧ (d.drawn).pwr = d.pwr ∧ (d.drawn).pmcs = d.pmcs ∧ (d.drawn).pmcUserEn = d.pmcUserEn ∧ (d.drawn).mgt = d.mgt
    ∧ (d.drawn).rawCells = d.rawCells ∧ (d.drawn).q0work = d.q0work ∧ (d.drawn).answers = d.answers ∧ (d.drawn).waits = d.waits
    ∧ (d.drawn).out = d.out := by
  repeat' constructor

@[simp] theorem Dev.ld_updLd (d : Dev) (p m : Nat) (f : Ld → Ld) : (d.updLd p m f).ld p m = f (d.ld p m) := by
  simp [Dev.ld, Dev.updLd]

theorem Dev.ld_updLd_other (d : Dev) {p m q k : Nat} (f : Ld → Ld) (h : q ≠ p ∨ k ≠ m) : (d.updLd p m f).ld q k = d.ld q k := by
  by_cases hq : q = p
  · subst hq
    have hk : k ≠ m := by tauto
    simp [Dev.ld, Dev.updLd, Tab.get_upd_other _ _ _ hk]
  · simp [Dev.ld, Dev.updLd, Dev.port_updPort_other _ _ hq]

@[simp] theorem Dev.agent?_updAgent (d : Dev) (a : BitVec 12) (f : Agent → Agent) :
    (d.updAgent a f).agent? a = some (f (Tab.get {} d.agents a.toNat)) := by
  simp [Dev.agent?, Dev.updAgent, Tab.upd]

@[simp] theorem Dev.xact?_putXact (d : Dev) (i : Nat) (x : Xact) : (d.putXact i x).xact? i = some x := by
  simp [Dev.xact?, Dev.putXact]

theorem Dev.xact?_putXact_other (d : Dev) {i j : Nat} (x : Xact) (h : j ≠ i) : (d.putXact i x).xact? j = d.xact? j :=
  Tab.find_put_other _ _ h

theorem Dev.xact?_dropXact (d : Dev) (h : Tab.wf d.xacts = true) (i : Nat) : (d.dropXact i).xact? i = none :=
  Tab.find_del_same h i

@[simp] theorem Dev.setGlob_glob (d : Dev) (f : Glob → Glob) : (d.setGlob f).glob = f d.glob := rfl
@[simp] theorem Dev.setErr_err (d : Dev) (f : Err → Err) : (d.setErr f).err = f d.err := rfl
@[simp] theorem Dev.setSec_sec (d : Dev) (f : Sec → Sec) : (d.setSec f).sec = f d.sec := rfl
@[simp] theorem Dev.setPwr_pwr (d : Dev) (f : Pwr → Pwr) : (d.setPwr f).pwr = f d.pwr := rfl
@[simp] theorem emit_out (d : Dev) (m : Msg) : (emit d m).out = d.out ++ [m] := rfl
@[simp] theorem Dev.updXact_mem (d : Dev) (i : Nat) (f : Xact → Xact) : (d.updXact i f).mem = d.mem := by
  simp only [Dev.updXact]
  split <;> rfl
@[simp] theorem Dev.each_nil {α : Type} (d : Dev) (f : Dev → α → Dev) : d.each [] f = d := rfl
@[simp] theorem Dev.each_cons {α : Type} (d : Dev) (a : α) (l : List α) (f : Dev → α → Dev) : d.each (a :: l) f = (f d a).each l f := rfl

end Sys2Proof.Machine
end

