-- ==== Sys2Proof/Laws/Ops.lean ====
section
/-! SUPPORT. Laws of the shared operations: what each leaves alone, and how a meaning answers. -/

namespace Sys2Proof.Machine

/-- A meaning over the device answers the state its effect leaves. -/
theorem onDevice_turned (s : State) (f : Dev → Dev) : onDevice s f = .next (s.turned (f s.dev)) := rfl

@[simp] theorem State.turned_pending (s : State) (d : Dev) : (s.turned d).pending = s.pending := by simp [State.turned]
@[simp] theorem State.turned_dev (s : State) (d : Dev) : (s.turned d).dev = settle d := by simp [State.turned]

/-- Rewrites that keep a fact of the device keep it over a list. -/
theorem Dev.each_keeps {α : Type} (P : Dev → Prop) (d : Dev) (l : List α) (f : Dev → α → Dev) (h0 : P d)
    (h : ∀ d a, a ∈ l → P d → P (f d a)) : P (d.each l f) := by
  induction l generalizing d with
  | nil => exact h0
  | cons a l ih => exact ih (f d a) (h d a (by simp) h0) (fun d b hb => h d b (by simp [hb]))

/-- Rewrites that change nothing change nothing over a list. -/
theorem Dev.each_same {α : Type} (d : Dev) (l : List α) (f : Dev → α → Dev) (h : ∀ a ∈ l, f d a = d) : d.each l f = d := by
  induction l with
  | nil => rfl
  | cons a l ih =>
    rw [Dev.each_cons, h a (by simp)]
    exact ih (fun b hb => h b (by simp [hb]))

/-- What `raise` leaves alone. -/
@[simp] theorem raise_frame (d : Dev) (src cls sev : Nat) (i : Info) :
    (raise d src cls sev i).glob = d.glob ∧ (raise d src cls sev i).mem = d.mem ∧ (raise d src cls sev i).ports = d.ports
    ∧ (raise d src cls sev i).binds = d.binds ∧ (raise d src cls sev i).agents = d.agents
    ∧ (raise d src cls sev i).epochs = d.epochs ∧ (raise d src cls sev i).slices = d.slices
    ∧ (raise d src cls sev i).tiles = d.tiles ∧ (raise d src cls sev i).mcs = d.mcs ∧ (raise d src cls sev i).chans = d.chans
    ∧ (raise d src cls sev i).xacts = d.xacts ∧ (raise d src cls sev i).nextId = d.nextId
    ∧ (raise d src cls sev i).engines = d.engines ∧ (raise d src cls sev i).qlabs = d.qlabs
    ∧ (raise d src cls sev i).labis = d.labis ∧ (raise d src cls sev i).labEffects = d.labEffects
    ∧ (raise d src cls sev i).pairs = d.pairs ∧ (raise d src cls sev i).evqs = d.evqs ∧ (raise d src cls sev i).err = d.err
    ∧ (raise d src cls sev i).movers = d.movers ∧ (raise d src cls sev i).park = d.park
    ∧ (raise d src cls sev i).resync = d.resync ∧ (raise d src cls sev i).sec = d.sec ∧ (raise d src cls sev i).pwr = d.pwr
    ∧ (raise d src cls sev i).pmcs = d.pmcs ∧ (raise d src cls sev i).pmcUserEn = d.pmcUserEn
    ∧ (raise d src cls sev i).mgt = d.mgt ∧ (raise d src cls sev i).rawCells = d.rawCells
    ∧ (raise d src cls sev i).q0work = d.q0work ∧ (raise d src cls sev i).answers = d.answers ∧ (raise d src cls sev i).waits = d.waits
    ∧ (raise d src cls sev i).out = d.out := by
  unfold raise
  dsimp only
  split <;> simp

/-- What `dropLog` leaves alone. -/
@[simp] theorem dropLog_frame (d : Dev) :
    (dropLog d).glob = d.glob ∧ (dropLog d).mem = d.mem ∧ (dropLog d).ports = d.ports ∧ (dropLog d).binds = d.binds
    ∧ (dropLog d).agents = d.agents ∧ (dropLog d).epochs = d.epochs ∧ (dropLog d).slices = d.slices
    ∧ (dropLog d).tiles = d.tiles ∧ (dropLog d).mcs = d.mcs ∧ (dropLog d).chans = d.chans ∧ (dropLog d).xacts = d.xacts
    ∧ (dropLog d).nextId = d.nextId ∧ (dropLog d).engines = d.engines ∧ (dropLog d).qlabs = d.qlabs
    ∧ (dropLog d).labis = d.labis ∧ (dropLog d).labEffects = d.labEffects ∧ (dropLog d).pairs = d.pairs
    ∧ (dropLog d).evqs = d.evqs ∧ (dropLog d).movers = d.movers ∧ (dropLog d).park = d.park ∧ (dropLog d).resync = d.resync
    ∧ (dropLog d).sec = d.sec ∧ (dropLog d).pwr = d.pwr ∧ (dropLog d).pmcs = d.pmcs ∧ (dropLog d).pmcUserEn = d.pmcUserEn
    ∧ (dropLog d).mgt = d.mgt ∧ (dropLog d).rawCells = d.rawCells ∧ (dropLog d).q0work = d.q0work ∧ (dropLog d).answers = d.answers ∧ (dropLog d).waits = d.waits
    ∧ (dropLog d).out = d.out := by
  unfold dropLog
  dsimp only
  split <;> simp

/-- What `logErr` leaves alone. -/
@[simp] theorem logErr_frame (d : Dev) (f : Fail) :
    (logErr d f).glob = d.glob ∧ (logErr d f).mem = d.mem ∧ (logErr d f).ports = d.ports ∧ (logErr d f).binds = d.binds
    ∧ (logErr d f).agents = d.agents ∧ (logErr d f).epochs = d.epochs ∧ (logErr d f).slices = d.slices
    ∧ (logErr d f).tiles = d.tiles ∧ (logErr d f).mcs = d.mcs ∧ (logErr d f).chans = d.chans ∧ (logErr d f).xacts = d.xacts
    ∧ (logErr d f).nextId = d.nextId ∧ (logErr d f).engines = d.engines ∧ (logErr d f).qlabs = d.qlabs
    ∧ (logErr d f).labis = d.labis ∧ (logErr d f).labEffects = d.labEffects ∧ (logErr d f).pairs = d.pairs
    ∧ (logErr d f).evqs = d.evqs ∧ (logErr d f).movers = d.movers ∧ (logErr d f).park = d.park
    ∧ (logErr d f).resync = d.resync ∧ (logErr d f).sec = d.sec ∧ (logErr d f).pwr = d.pwr ∧ (logErr d f).pmcs = d.pmcs
    ∧ (logErr d f).pmcUserEn = d.pmcUserEn ∧ (logErr d f).mgt = d.mgt ∧ (logErr d f).rawCells = d.rawCells
    ∧ (logErr d f).q0work = d.q0work ∧ (logErr d f).answers = d.answers ∧ (logErr d f).waits = d.waits
    ∧ (logErr d f).out = d.out := by
  unfold logErr
  dsimp only
  repeat' split
  all_goals simp

/-- What `freeEntry` leaves alone. -/
@[simp] theorem freeEntry_frame (d : Dev) (i : Nat) :
    (freeEntry d i).glob = d.glob ∧ (freeEntry d i).mem = d.mem ∧ (freeEntry d i).ports = d.ports
    ∧ (freeEntry d i).binds = d.binds ∧ (freeEntry d i).agents = d.agents ∧ (freeEntry d i).epochs = d.epochs
    ∧ (freeEntry d i).slices = d.slices ∧ (freeEntry d i).tiles = d.tiles ∧ (freeEntry d i).mcs = d.mcs
    ∧ (freeEntry d i).chans = d.chans ∧ (freeEntry d i).xacts = d.xacts ∧ (freeEntry d i).nextId = d.nextId
    ∧ (freeEntry d i).engines = d.engines ∧ (freeEntry d i).qlabs = d.qlabs ∧ (freeEntry d i).labis = d.labis
    ∧ (freeEntry d i).labEffects = d.labEffects ∧ (freeEntry d i).pairs = d.pairs ∧ (freeEntry d i).sources = d.sources
    ∧ (freeEntry d i).evqs = d.evqs ∧ (freeEntry d i).evt = d.evt ∧ (freeEntry d i).movers = d.movers
    ∧ (freeEntry d i).park = d.park ∧ (freeEntry d i).resync = d.resync ∧ (freeEntry d i).sec = d.sec
    ∧ (freeEntry d i).pwr = d.pwr ∧ (freeEntry d i).pmcs = d.pmcs ∧ (freeEntry d i).pmcUserEn = d.pmcUserEn
    ∧ (freeEntry d i).mgt = d.mgt ∧ (freeEntry d i).rawCells = d.rawCells ∧ (freeEntry d i).q0work = d.q0work
    ∧ (freeEntry d i).answers = d.answers ∧ (freeEntry d i).waits = d.waits
    ∧ (freeEntry d i).out = d.out := by
  simp [freeEntry]

/-- What `fireFlip` leaves alone. -/
@[simp] theorem fireFlip_frame (d : Dev) (path inst dpa : Nat) :
    (fireFlip d path inst dpa).glob = d.glob ∧ (fireFlip d path inst dpa).mem = d.mem
    ∧ (fireFlip d path inst dpa).ports = d.ports ∧ (fireFlip d path inst dpa).binds = d.binds
    ∧ (fireFlip d path inst dpa).agents = d.agents ∧ (fireFlip d path inst dpa).epochs = d.epochs
    ∧ (fireFlip d path inst dpa).slices = d.slices ∧ (fireFlip d path inst dpa).tiles = d.tiles
    ∧ (fireFlip d path inst dpa).mcs = d.mcs ∧ (fireFlip d path inst dpa).chans = d.chans
    ∧ (fireFlip d path inst dpa).xacts = d.xacts ∧ (fireFlip d path inst dpa).nextId = d.nextId
    ∧ (fireFlip d path inst dpa).engines = d.engines ∧ (fireFlip d path inst dpa).qlabs = d.qlabs
    ∧ (fireFlip d path inst dpa).labis = d.labis ∧ (fireFlip d path inst dpa).labEffects = d.labEffects
    ∧ (fireFlip d path inst dpa).pairs = d.pairs ∧ (fireFlip d path inst dpa).evqs = d.evqs
    ∧ (fireFlip d path inst dpa).movers = d.movers ∧ (fireFlip d path inst dpa).park = d.park
    ∧ (fireFlip d path inst dpa).resync = d.resync ∧ (fireFlip d path inst dpa).sec = d.sec
    ∧ (fireFlip d path inst dpa).pwr = d.pwr ∧ (fireFlip d path inst dpa).pmcs = d.pmcs
    ∧ (fireFlip d path inst dpa).pmcUserEn = d.pmcUserEn ∧ (fireFlip d path inst dpa).mgt = d.mgt
    ∧ (fireFlip d path inst dpa).rawCells = d.rawCells ∧ (fireFlip d path inst dpa).q0work = d.q0work
    ∧ (fireFlip d path inst dpa).answers = d.answers ∧ (fireFlip d path inst dpa).waits = d.waits
    ∧ (fireFlip d path inst dpa).out = d.out := by
  simp [fireFlip]

/-- What `flipWrite` leaves alone. -/
@[simp] theorem flipWrite_frame (d : Dev) (path inst dpa w : Nat) (chk : Bool) :
    ((flipWrite d path inst dpa w chk).1).glob = d.glob ∧ ((flipWrite d path inst dpa w chk).1).mem = d.mem
    ∧ ((flipWrite d path inst dpa w chk).1).ports = d.ports ∧ ((flipWrite d path inst dpa w chk).1).binds = d.binds
    ∧ ((flipWrite d path inst dpa w chk).1).agents = d.agents ∧ ((flipWrite d path inst dpa w chk).1).epochs = d.epochs
    ∧ ((flipWrite d path inst dpa w chk).1).slices = d.slices ∧ ((flipWrite d path inst dpa w chk).1).tiles = d.tiles
    ∧ ((flipWrite d path inst dpa w chk).1).mcs = d.mcs ∧ ((flipWrite d path inst dpa w chk).1).chans = d.chans
    ∧ ((flipWrite d path inst dpa w chk).1).xacts = d.xacts ∧ ((flipWrite d path inst dpa w chk).1).nextId = d.nextId
    ∧ ((flipWrite d path inst dpa w chk).1).engines = d.engines ∧ ((flipWrite d path inst dpa w chk).1).qlabs = d.qlabs
    ∧ ((flipWrite d path inst dpa w chk).1).labis = d.labis ∧ ((flipWrite d path inst dpa w chk).1).labEffects = d.labEffects
    ∧ ((flipWrite d path inst dpa w chk).1).pairs = d.pairs ∧ ((flipWrite d path inst dpa w chk).1).evqs = d.evqs
    ∧ ((flipWrite d path inst dpa w chk).1).movers = d.movers ∧ ((flipWrite d path inst dpa w chk).1).park = d.park
    ∧ ((flipWrite d path inst dpa w chk).1).resync = d.resync ∧ ((flipWrite d path inst dpa w chk).1).sec = d.sec
    ∧ ((flipWrite d path inst dpa w chk).1).pwr = d.pwr ∧ ((flipWrite d path inst dpa w chk).1).pmcs = d.pmcs
    ∧ ((flipWrite d path inst dpa w chk).1).pmcUserEn = d.pmcUserEn ∧ ((flipWrite d path inst dpa w chk).1).mgt = d.mgt
    ∧ ((flipWrite d path inst dpa w chk).1).rawCells = d.rawCells ∧ ((flipWrite d path inst dpa w chk).1).q0work = d.q0work
    ∧ ((flipWrite d path inst dpa w chk).1).answers = d.answers ∧ ((flipWrite d path inst dpa w chk).1).waits = d.waits
    ∧ ((flipWrite d path inst dpa w chk).1).out = d.out := by
  unfold flipWrite
  split <;> simp

/-- What `count` leaves alone. -/
@[simp] theorem count_frame (d : Dev) (b code n : Nat) (c : Counted) :
    (count d b code n c).glob = d.glob ∧ (count d b code n c).mem = d.mem ∧ (count d b code n c).ports = d.ports
    ∧ (count d b code n c).binds = d.binds ∧ (count d b code n c).agents = d.agents ∧ (count d b code n c).epochs = d.epochs
    ∧ (count d b code n c).slices = d.slices ∧ (count d b code n c).tiles = d.tiles ∧ (count d b code n c).mcs = d.mcs
    ∧ (count d b code n c).chans = d.chans ∧ (count d b code n c).xacts = d.xacts ∧ (count d b code n c).nextId = d.nextId
    ∧ (count d b code n c).engines = d.engines ∧ (count d b code n c).qlabs = d.qlabs ∧ (count d b code n c).labis = d.labis
    ∧ (count d b code n c).labEffects = d.labEffects ∧ (count d b code n c).pairs = d.pairs
    ∧ (count d b code n c).sources = d.sources ∧ (count d b code n c).evqs = d.evqs ∧ (count d b code n c).evt = d.evt
    ∧ (count d b code n c).err = d.err ∧ (count d b code n c).movers = d.movers ∧ (count d b code n c).park = d.park
    ∧ (count d b code n c).resync = d.resync ∧ (count d b code n c).sec = d.sec ∧ (count d b code n c).pwr = d.pwr
    ∧ (count d b code n c).pmcUserEn = d.pmcUserEn ∧ (count d b code n c).mgt = d.mgt
    ∧ (count d b code n c).rawCells = d.rawCells ∧ (count d b code n c).q0work = d.q0work ∧ (count d b code n c).answers = d.answers ∧ (count d b code n c).waits = d.waits
    ∧ (count d b code n c).out = d.out := by
  unfold count
  split <;> simp

/-- What `sendMsix` leaves alone. -/
@[simp] theorem sendMsix_frame (d : Dev) (p m vec : Nat) :
    (sendMsix d p m vec).glob = d.glob ∧ (sendMsix d p m vec).mem = d.mem ∧ (sendMsix d p m vec).binds = d.binds
    ∧ (sendMsix d p m vec).agents = d.agents ∧ (sendMsix d p m vec).epochs = d.epochs
    ∧ (sendMsix d p m vec).slices = d.slices ∧ (sendMsix d p m vec).tiles = d.tiles ∧ (sendMsix d p m vec).mcs = d.mcs
    ∧ (sendMsix d p m vec).chans = d.chans ∧ (sendMsix d p m vec).xacts = d.xacts ∧ (sendMsix d p m vec).nextId = d.nextId
    ∧ (sendMsix d p m vec).engines = d.engines ∧ (sendMsix d p m vec).qlabs = d.qlabs ∧ (sendMsix d p m vec).labis = d.labis
    ∧ (sendMsix d p m vec).labEffects = d.labEffects ∧ (sendMsix d p m vec).pairs = d.pairs
    ∧ (sendMsix d p m vec).sources = d.sources ∧ (sendMsix d p m vec).evqs = d.evqs ∧ (sendMsix d p m vec).evt = d.evt
    ∧ (sendMsix d p m vec).err = d.err ∧ (sendMsix d p m vec).movers = d.movers ∧ (sendMsix d p m vec).park = d.park
    ∧ (sendMsix d p m vec).resync = d.resync ∧ (sendMsix d p m vec).sec = d.sec ∧ (sendMsix d p m vec).pwr = d.pwr
    ∧ (sendMsix d p m vec).pmcs = d.pmcs ∧ (sendMsix d p m vec).pmcUserEn = d.pmcUserEn ∧ (sendMsix d p m vec).mgt = d.mgt
    ∧ (sendMsix d p m vec).rawCells = d.rawCells ∧ (sendMsix d p m vec).q0work = d.q0work
    ∧ (sendMsix d p m vec).answers = d.answers ∧ (sendMsix d p m vec).waits = d.waits := by
  unfold sendMsix
  repeat' split
  all_goals simp

/-- What `Sec.mirrorOne` leaves alone: all but the flash copy. -/
@[simp] theorem Sec.mirrorOne_frame (s : Sec) (e : JEntry) :
    (s.mirrorOne e).installer = s.installer ∧ (s.mirrorOne e).authority = s.authority
    ∧ (s.mirrorOne e).authSigner = s.authSigner ∧ (s.mirrorOne e).floor = s.floor ∧ (s.mirrorOne e).floorFuse = s.floorFuse
    ∧ (s.mirrorOne e).testArmed = s.testArmed ∧ (s.mirrorOne e).mirrorFault = s.mirrorFault ∧ (s.mirrorOne e).slotA = s.slotA
    ∧ (s.mirrorOne e).slotB = s.slotB ∧ (s.mirrorOne e).commit0 = s.commit0 ∧ (s.mirrorOne e).commit1 = s.commit1
    ∧ (s.mirrorOne e).lastFwCommit = s.lastFwCommit ∧ (s.mirrorOne e).committing = s.committing
    ∧ (s.mirrorOne e).staging = s.staging ∧ (s.mirrorOne e).committedNotBooted = s.committedNotBooted
    ∧ (s.mirrorOne e).fuses = s.fuses ∧ (s.mirrorOne e).fused = s.fused ∧ (s.mirrorOne e).seed = s.seed
    ∧ (s.mirrorOne e).identity = s.identity ∧ (s.mirrorOne e).aliasOf = s.aliasOf ∧ (s.mirrorOne e).nonces = s.nonces
    ∧ (s.mirrorOne e).requests = s.requests ∧ (s.mirrorOne e).durable = s.durable ∧ (s.mirrorOne e).pkg = s.pkg
    ∧ (s.mirrorOne e).pkgPart = s.pkgPart ∧ (s.mirrorOne e).pkgCommitted = s.pkgCommitted
    ∧ (s.mirrorOne e).inForce = s.inForce ∧ (s.mirrorOne e).lastGen = s.lastGen ∧ (s.mirrorOne e).delivery = s.delivery
    ∧ (s.mirrorOne e).lastCheck = s.lastCheck ∧ (s.mirrorOne e).kFwDigest = s.kFwDigest
    ∧ (s.mirrorOne e).kPkgDigest = s.kPkgDigest ∧ (s.mirrorOne e).journal = s.journal ∧ (s.mirrorOne e).nextSeq = s.nextSeq
    ∧ (s.mirrorOne e).head = s.head ∧ (s.mirrorOne e).base = s.base ∧ (s.mirrorOne e).gaps = s.gaps
    ∧ (s.mirrorOne e).flashGap = s.flashGap ∧ (s.mirrorOne e).select = s.select ∧ (s.mirrorOne e).timestamp = s.timestamp
    ∧ (s.mirrorOne e).timestampSet = s.timestampSet ∧ (s.mirrorOne e).spdm = s.spdm := by
  simp [Sec.mirrorOne]

/-- Entries that reach flash in turn leave alone what each leaves alone. -/
@[simp] theorem Sec.mirrorOne_fold (s : Sec) (l : List JEntry) :
    (l.foldl Sec.mirrorOne s).installer = s.installer ∧ (l.foldl Sec.mirrorOne s).authority = s.authority
    ∧ (l.foldl Sec.mirrorOne s).authSigner = s.authSigner ∧ (l.foldl Sec.mirrorOne s).floor = s.floor
    ∧ (l.foldl Sec.mirrorOne s).floorFuse = s.floorFuse ∧ (l.foldl Sec.mirrorOne s).testArmed = s.testArmed
    ∧ (l.foldl Sec.mirrorOne s).mirrorFault = s.mirrorFault ∧ (l.foldl Sec.mirrorOne s).slotA = s.slotA
    ∧ (l.foldl Sec.mirrorOne s).slotB = s.slotB ∧ (l.foldl Sec.mirrorOne s).commit0 = s.commit0
    ∧ (l.foldl Sec.mirrorOne s).commit1 = s.commit1 ∧ (l.foldl Sec.mirrorOne s).lastFwCommit = s.lastFwCommit
    ∧ (l.foldl Sec.mirrorOne s).committing = s.committing ∧ (l.foldl Sec.mirrorOne s).staging = s.staging
    ∧ (l.foldl Sec.mirrorOne s).committedNotBooted = s.committedNotBooted ∧ (l.foldl Sec.mirrorOne s).fuses = s.fuses
    ∧ (l.foldl Sec.mirrorOne s).fused = s.fused ∧ (l.foldl Sec.mirrorOne s).seed = s.seed
    ∧ (l.foldl Sec.mirrorOne s).identity = s.identity ∧ (l.foldl Sec.mirrorOne s).aliasOf = s.aliasOf
    ∧ (l.foldl Sec.mirrorOne s).nonces = s.nonces ∧ (l.foldl Sec.mirrorOne s).requests = s.requests
    ∧ (l.foldl Sec.mirrorOne s).durable = s.durable ∧ (l.foldl Sec.mirrorOne s).pkg = s.pkg
    ∧ (l.foldl Sec.mirrorOne s).pkgPart = s.pkgPart ∧ (l.foldl Sec.mirrorOne s).pkgCommitted = s.pkgCommitted
    ∧ (l.foldl Sec.mirrorOne s).inForce = s.inForce ∧ (l.foldl Sec.mirrorOne s).lastGen = s.lastGen
    ∧ (l.foldl Sec.mirrorOne s).delivery = s.delivery ∧ (l.foldl Sec.mirrorOne s).lastCheck = s.lastCheck
    ∧ (l.foldl Sec.mirrorOne s).kFwDigest = s.kFwDigest ∧ (l.foldl Sec.mirrorOne s).kPkgDigest = s.kPkgDigest
    ∧ (l.foldl Sec.mirrorOne s).journal = s.journal ∧ (l.foldl Sec.mirrorOne s).nextSeq = s.nextSeq
    ∧ (l.foldl Sec.mirrorOne s).head = s.head ∧ (l.foldl Sec.mirrorOne s).base = s.base
    ∧ (l.foldl Sec.mirrorOne s).gaps = s.gaps ∧ (l.foldl Sec.mirrorOne s).flashGap = s.flashGap
    ∧ (l.foldl Sec.mirrorOne s).select = s.select ∧ (l.foldl Sec.mirrorOne s).timestamp = s.timestamp
    ∧ (l.foldl Sec.mirrorOne s).timestampSet = s.timestampSet ∧ (l.foldl Sec.mirrorOne s).spdm = s.spdm := by
  induction l generalizing s with
  | nil => simp
  | cons e l ih => simpa using ih (s.mirrorOne e)

/-- What `Sec.mirrorNext` leaves alone: all but the flash copy. -/
@[simp] theorem Sec.mirrorNext_frame (s : Sec) (k : Nat) :
    (s.mirrorNext k).installer = s.installer ∧ (s.mirrorNext k).authority = s.authority
    ∧ (s.mirrorNext k).authSigner = s.authSigner ∧ (s.mirrorNext k).floor = s.floor ∧ (s.mirrorNext k).floorFuse = s.floorFuse
    ∧ (s.mirrorNext k).testArmed = s.testArmed ∧ (s.mirrorNext k).mirrorFault = s.mirrorFault
    ∧ (s.mirrorNext k).slotA = s.slotA ∧ (s.mirrorNext k).slotB = s.slotB ∧ (s.mirrorNext k).commit0 = s.commit0
    ∧ (s.mirrorNext k).commit1 = s.commit1 ∧ (s.mirrorNext k).lastFwCommit = s.lastFwCommit
    ∧ (s.mirrorNext k).committing = s.committing ∧ (s.mirrorNext k).staging = s.staging
    ∧ (s.mirrorNext k).committedNotBooted = s.committedNotBooted ∧ (s.mirrorNext k).fuses = s.fuses
    ∧ (s.mirrorNext k).fused = s.fused ∧ (s.mirrorNext k).seed = s.seed ∧ (s.mirrorNext k).identity = s.identity
    ∧ (s.mirrorNext k).aliasOf = s.aliasOf ∧ (s.mirrorNext k).nonces = s.nonces ∧ (s.mirrorNext k).requests = s.requests
    ∧ (s.mirrorNext k).durable = s.durable ∧ (s.mirrorNext k).pkg = s.pkg ∧ (s.mirrorNext k).pkgPart = s.pkgPart
    ∧ (s.mirrorNext k).pkgCommitted = s.pkgCommitted ∧ (s.mirrorNext k).inForce = s.inForce
    ∧ (s.mirrorNext k).lastGen = s.lastGen ∧ (s.mirrorNext k).delivery = s.delivery ∧ (s.mirrorNext k).lastCheck = s.lastCheck
    ∧ (s.mirrorNext k).kFwDigest = s.kFwDigest ∧ (s.mirrorNext k).kPkgDigest = s.kPkgDigest
    ∧ (s.mirrorNext k).journal = s.journal ∧ (s.mirrorNext k).nextSeq = s.nextSeq ∧ (s.mirrorNext k).head = s.head
    ∧ (s.mirrorNext k).base = s.base ∧ (s.mirrorNext k).gaps = s.gaps ∧ (s.mirrorNext k).flashGap = s.flashGap
    ∧ (s.mirrorNext k).select = s.select ∧ (s.mirrorNext k).timestamp = s.timestamp
    ∧ (s.mirrorNext k).timestampSet = s.timestampSet ∧ (s.mirrorNext k).spdm = s.spdm := by
  simp [Sec.mirrorNext]

/-- What `ringPut` leaves alone. -/
@[simp] theorem ringPut_frame (d : Dev) (e : JEntry) :
    (ringPut d e).glob = d.glob ∧ (ringPut d e).mem = d.mem ∧ (ringPut d e).ports = d.ports ∧ (ringPut d e).binds = d.binds
    ∧ (ringPut d e).agents = d.agents ∧ (ringPut d e).epochs = d.epochs ∧ (ringPut d e).slices = d.slices
    ∧ (ringPut d e).tiles = d.tiles ∧ (ringPut d e).mcs = d.mcs ∧ (ringPut d e).chans = d.chans
    ∧ (ringPut d e).xacts = d.xacts ∧ (ringPut d e).nextId = d.nextId ∧ (ringPut d e).engines = d.engines
    ∧ (ringPut d e).qlabs = d.qlabs ∧ (ringPut d e).labis = d.labis ∧ (ringPut d e).labEffects = d.labEffects
    ∧ (ringPut d e).pairs = d.pairs ∧ (ringPut d e).evqs = d.evqs ∧ (ringPut d e).err = d.err
    ∧ (ringPut d e).movers = d.movers ∧ (ringPut d e).park = d.park ∧ (ringPut d e).resync = d.resync
    ∧ (ringPut d e).pwr = d.pwr ∧ (ringPut d e).pmcs = d.pmcs ∧ (ringPut d e).pmcUserEn = d.pmcUserEn
    ∧ (ringPut d e).mgt = d.mgt ∧ (ringPut d e).rawCells = d.rawCells ∧ (ringPut d e).q0work = d.q0work
    ∧ (ringPut d e).answers = d.answers ∧ (ringPut d e).waits = d.waits
    ∧ (ringPut d e).out = d.out ∧ (ringPut d e).sec.installer = d.sec.installer
    ∧ (ringPut d e).sec.authority = d.sec.authority ∧ (ringPut d e).sec.floor = d.sec.floor
    ∧ (ringPut d e).sec.testArmed = d.sec.testArmed ∧ (ringPut d e).sec.slotA = d.sec.slotA
    ∧ (ringPut d e).sec.slotB = d.sec.slotB ∧ (ringPut d e).sec.commit0 = d.sec.commit0
    ∧ (ringPut d e).sec.commit1 = d.sec.commit1 ∧ (ringPut d e).sec.lastFwCommit = d.sec.lastFwCommit
    ∧ (ringPut d e).sec.committing = d.sec.committing ∧ (ringPut d e).sec.staging = d.sec.staging
    ∧ (ringPut d e).sec.committedNotBooted = d.sec.committedNotBooted ∧ (ringPut d e).sec.fuses = d.sec.fuses
    ∧ (ringPut d e).sec.nonces = d.sec.nonces ∧ (ringPut d e).sec.requests = d.sec.requests
    ∧ (ringPut d e).sec.durable = d.sec.durable ∧ (ringPut d e).sec.pkg = d.sec.pkg
    ∧ (ringPut d e).sec.pkgCommitted = d.sec.pkgCommitted ∧ (ringPut d e).sec.inForce = d.sec.inForce
    ∧ (ringPut d e).sec.lastGen = d.sec.lastGen ∧ (ringPut d e).sec.delivery = d.sec.delivery
    ∧ (ringPut d e).sec.lastCheck = d.sec.lastCheck ∧ (ringPut d e).sec.kFwDigest = d.sec.kFwDigest
    ∧ (ringPut d e).sec.kPkgDigest = d.sec.kPkgDigest ∧ (ringPut d e).sec.select = d.sec.select
    ∧ (ringPut d e).sec.timestamp = d.sec.timestamp ∧ (ringPut d e).sec.timestampSet = d.sec.timestampSet
    ∧ (ringPut d e).sec.spdm = d.sec.spdm ∧ (ringPut d e).sec.authSigner = d.sec.authSigner
    ∧ (ringPut d e).sec.floorFuse = d.sec.floorFuse ∧ (ringPut d e).sec.fused = d.sec.fused
    ∧ (ringPut d e).sec.pkgPart = d.sec.pkgPart ∧ (ringPut d e).sec.seed = d.sec.seed
    ∧ (ringPut d e).sec.identity = d.sec.identity ∧ (ringPut d e).sec.aliasOf = d.sec.aliasOf := by
  unfold ringPut
  dsimp only
  repeat' split
  all_goals simp

/-- What `repeatCommit` leaves alone. -/
@[simp] theorem repeatCommit_frame (d : Dev) :
    (repeatCommit d).glob = d.glob ∧ (repeatCommit d).mem = d.mem ∧ (repeatCommit d).ports = d.ports
    ∧ (repeatCommit d).binds = d.binds ∧ (repeatCommit d).agents = d.agents ∧ (repeatCommit d).epochs = d.epochs
    ∧ (repeatCommit d).slices = d.slices ∧ (repeatCommit d).tiles = d.tiles ∧ (repeatCommit d).mcs = d.mcs
    ∧ (repeatCommit d).chans = d.chans ∧ (repeatCommit d).xacts = d.xacts ∧ (repeatCommit d).nextId = d.nextId
    ∧ (repeatCommit d).engines = d.engines ∧ (repeatCommit d).qlabs = d.qlabs ∧ (repeatCommit d).labis = d.labis
    ∧ (repeatCommit d).labEffects = d.labEffects ∧ (repeatCommit d).pairs = d.pairs ∧ (repeatCommit d).evqs = d.evqs
    ∧ (repeatCommit d).err = d.err ∧ (repeatCommit d).movers = d.movers ∧ (repeatCommit d).park = d.park
    ∧ (repeatCommit d).resync = d.resync ∧ (repeatCommit d).pwr = d.pwr ∧ (repeatCommit d).pmcs = d.pmcs
    ∧ (repeatCommit d).pmcUserEn = d.pmcUserEn ∧ (repeatCommit d).mgt = d.mgt ∧ (repeatCommit d).rawCells = d.rawCells
    ∧ (repeatCommit d).q0work = d.q0work ∧ (repeatCommit d).answers = d.answers ∧ (repeatCommit d).waits = d.waits
    ∧ (repeatCommit d).out = d.out ∧ (repeatCommit d).sec.installer = d.sec.installer
    ∧ (repeatCommit d).sec.authority = d.sec.authority ∧ (repeatCommit d).sec.floor = d.sec.floor
    ∧ (repeatCommit d).sec.testArmed = d.sec.testArmed ∧ (repeatCommit d).sec.slotA = d.sec.slotA
    ∧ (repeatCommit d).sec.slotB = d.sec.slotB ∧ (repeatCommit d).sec.commit0 = d.sec.commit0
    ∧ (repeatCommit d).sec.commit1 = d.sec.commit1 ∧ (repeatCommit d).sec.lastFwCommit = d.sec.lastFwCommit
    ∧ (repeatCommit d).sec.committing = d.sec.committing ∧ (repeatCommit d).sec.staging = d.sec.staging
    ∧ (repeatCommit d).sec.committedNotBooted = d.sec.committedNotBooted ∧ (repeatCommit d).sec.fuses = d.sec.fuses
    ∧ (repeatCommit d).sec.nonces = d.sec.nonces ∧ (repeatCommit d).sec.requests = d.sec.requests
    ∧ (repeatCommit d).sec.durable = d.sec.durable ∧ (repeatCommit d).sec.pkg = d.sec.pkg
    ∧ (repeatCommit d).sec.pkgCommitted = d.sec.pkgCommitted ∧ (repeatCommit d).sec.inForce = d.sec.inForce
    ∧ (repeatCommit d).sec.lastGen = d.sec.lastGen ∧ (repeatCommit d).sec.delivery = d.sec.delivery
    ∧ (repeatCommit d).sec.lastCheck = d.sec.lastCheck ∧ (repeatCommit d).sec.kFwDigest = d.sec.kFwDigest
    ∧ (repeatCommit d).sec.kPkgDigest = d.sec.kPkgDigest ∧ (repeatCommit d).sec.select = d.sec.select
    ∧ (repeatCommit d).sec.timestamp = d.sec.timestamp ∧ (repeatCommit d).sec.timestampSet = d.sec.timestampSet
    ∧ (repeatCommit d).sec.spdm = d.sec.spdm ∧ (repeatCommit d).sec.authSigner = d.sec.authSigner
    ∧ (repeatCommit d).sec.floorFuse = d.sec.floorFuse ∧ (repeatCommit d).sec.fused = d.sec.fused
    ∧ (repeatCommit d).sec.pkgPart = d.sec.pkgPart ∧ (repeatCommit d).sec.seed = d.sec.seed
    ∧ (repeatCommit d).sec.identity = d.sec.identity ∧ (repeatCommit d).sec.aliasOf = d.sec.aliasOf := by
  unfold repeatCommit
  split <;> simp

/-- What `journal` leaves alone. -/
@[simp] theorem journal_frame (d : Dev) (c : Change) :
    (journal d c).glob = d.glob ∧ (journal d c).mem = d.mem ∧ (journal d c).ports = d.ports ∧ (journal d c).binds = d.binds
    ∧ (journal d c).agents = d.agents ∧ (journal d c).epochs = d.epochs ∧ (journal d c).slices = d.slices
    ∧ (journal d c).tiles = d.tiles ∧ (journal d c).mcs = d.mcs ∧ (journal d c).chans = d.chans
    ∧ (journal d c).xacts = d.xacts ∧ (journal d c).nextId = d.nextId ∧ (journal d c).engines = d.engines
    ∧ (journal d c).qlabs = d.qlabs ∧ (journal d c).labis = d.labis ∧ (journal d c).labEffects = d.labEffects
    ∧ (journal d c).pairs = d.pairs ∧ (journal d c).evqs = d.evqs ∧ (journal d c).err = d.err
    ∧ (journal d c).movers = d.movers ∧ (journal d c).park = d.park ∧ (journal d c).resync = d.resync
    ∧ (journal d c).pwr = d.pwr ∧ (journal d c).pmcs = d.pmcs ∧ (journal d c).pmcUserEn = d.pmcUserEn
    ∧ (journal d c).mgt = d.mgt ∧ (journal d c).rawCells = d.rawCells ∧ (journal d c).q0work = d.q0work
    ∧ (journal d c).answers = d.answers ∧ (journal d c).waits = d.waits
    ∧ (journal d c).out = d.out ∧ (journal d c).sec.installer = d.sec.installer
    ∧ (journal d c).sec.authority = d.sec.authority ∧ (journal d c).sec.floor = d.sec.floor
    ∧ (journal d c).sec.testArmed = d.sec.testArmed ∧ (journal d c).sec.slotA = d.sec.slotA
    ∧ (journal d c).sec.slotB = d.sec.slotB ∧ (journal d c).sec.commit0 = d.sec.commit0
    ∧ (journal d c).sec.commit1 = d.sec.commit1 ∧ (journal d c).sec.lastFwCommit = d.sec.lastFwCommit
    ∧ (journal d c).sec.committing = d.sec.committing ∧ (journal d c).sec.staging = d.sec.staging
    ∧ (journal d c).sec.committedNotBooted = d.sec.committedNotBooted ∧ (journal d c).sec.fuses = d.sec.fuses
    ∧ (journal d c).sec.nonces = d.sec.nonces ∧ (journal d c).sec.requests = d.sec.requests
    ∧ (journal d c).sec.durable = d.sec.durable ∧ (journal d c).sec.pkg = d.sec.pkg
    ∧ (journal d c).sec.pkgCommitted = d.sec.pkgCommitted ∧ (journal d c).sec.inForce = d.sec.inForce
    ∧ (journal d c).sec.lastGen = d.sec.lastGen ∧ (journal d c).sec.delivery = d.sec.delivery
    ∧ (journal d c).sec.lastCheck = d.sec.lastCheck ∧ (journal d c).sec.kFwDigest = d.sec.kFwDigest
    ∧ (journal d c).sec.kPkgDigest = d.sec.kPkgDigest ∧ (journal d c).sec.select = d.sec.select
    ∧ (journal d c).sec.timestamp = d.sec.timestamp ∧ (journal d c).sec.timestampSet = d.sec.timestampSet
    ∧ (journal d c).sec.spdm = d.sec.spdm ∧ (journal d c).sec.authSigner = d.sec.authSigner
    ∧ (journal d c).sec.floorFuse = d.sec.floorFuse ∧ (journal d c).sec.fused = d.sec.fused
    ∧ (journal d c).sec.pkgPart = d.sec.pkgPart ∧ (journal d c).sec.seed = d.sec.seed
    ∧ (journal d c).sec.identity = d.sec.identity ∧ (journal d c).sec.aliasOf = d.sec.aliasOf := by
  simp [journal]

/-- What `journalDurable` leaves alone. -/
@[simp] theorem journalDurable_frame (d : Dev) (c : Change) :
    (journalDurable d c).glob = d.glob ∧ (journalDurable d c).mem = d.mem ∧ (journalDurable d c).ports = d.ports ∧ (journalDurable d c).binds = d.binds
    ∧ (journalDurable d c).agents = d.agents ∧ (journalDurable d c).epochs = d.epochs ∧ (journalDurable d c).slices = d.slices
    ∧ (journalDurable d c).tiles = d.tiles ∧ (journalDurable d c).mcs = d.mcs ∧ (journalDurable d c).chans = d.chans
    ∧ (journalDurable d c).xacts = d.xacts ∧ (journalDurable d c).nextId = d.nextId ∧ (journalDurable d c).engines = d.engines
    ∧ (journalDurable d c).qlabs = d.qlabs ∧ (journalDurable d c).labis = d.labis ∧ (journalDurable d c).labEffects = d.labEffects
    ∧ (journalDurable d c).pairs = d.pairs ∧ (journalDurable d c).evqs = d.evqs ∧ (journalDurable d c).err = d.err
    ∧ (journalDurable d c).movers = d.movers ∧ (journalDurable d c).park = d.park ∧ (journalDurable d c).resync = d.resync
    ∧ (journalDurable d c).pwr = d.pwr ∧ (journalDurable d c).pmcs = d.pmcs ∧ (journalDurable d c).pmcUserEn = d.pmcUserEn
    ∧ (journalDurable d c).mgt = d.mgt ∧ (journalDurable d c).rawCells = d.rawCells ∧ (journalDurable d c).q0work = d.q0work
    ∧ (journalDurable d c).answers = d.answers ∧ (journalDurable d c).waits = d.waits
    ∧ (journalDurable d c).out = d.out ∧ (journalDurable d c).sec.installer = d.sec.installer
    ∧ (journalDurable d c).sec.authority = d.sec.authority ∧ (journalDurable d c).sec.floor = d.sec.floor
    ∧ (journalDurable d c).sec.testArmed = d.sec.testArmed ∧ (journalDurable d c).sec.slotA = d.sec.slotA
    ∧ (journalDurable d c).sec.slotB = d.sec.slotB ∧ (journalDurable d c).sec.commit0 = d.sec.commit0
    ∧ (journalDurable d c).sec.commit1 = d.sec.commit1 ∧ (journalDurable d c).sec.lastFwCommit = d.sec.lastFwCommit
    ∧ (journalDurable d c).sec.committing = d.sec.committing ∧ (journalDurable d c).sec.staging = d.sec.staging
    ∧ (journalDurable d c).sec.committedNotBooted = d.sec.committedNotBooted ∧ (journalDurable d c).sec.fuses = d.sec.fuses
    ∧ (journalDurable d c).sec.nonces = d.sec.nonces ∧ (journalDurable d c).sec.requests = d.sec.requests
    ∧ (journalDurable d c).sec.durable = d.sec.durable ∧ (journalDurable d c).sec.pkg = d.sec.pkg
    ∧ (journalDurable d c).sec.pkgCommitted = d.sec.pkgCommitted ∧ (journalDurable d c).sec.inForce = d.sec.inForce
    ∧ (journalDurable d c).sec.lastGen = d.sec.lastGen ∧ (journalDurable d c).sec.delivery = d.sec.delivery
    ∧ (journalDurable d c).sec.lastCheck = d.sec.lastCheck ∧ (journalDurable d c).sec.kFwDigest = d.sec.kFwDigest
    ∧ (journalDurable d c).sec.kPkgDigest = d.sec.kPkgDigest ∧ (journalDurable d c).sec.select = d.sec.select
    ∧ (journalDurable d c).sec.timestamp = d.sec.timestamp ∧ (journalDurable d c).sec.timestampSet = d.sec.timestampSet
    ∧ (journalDurable d c).sec.spdm = d.sec.spdm ∧ (journalDurable d c).sec.authSigner = d.sec.authSigner
    ∧ (journalDurable d c).sec.floorFuse = d.sec.floorFuse ∧ (journalDurable d c).sec.fused = d.sec.fused
    ∧ (journalDurable d c).sec.pkgPart = d.sec.pkgPart ∧ (journalDurable d c).sec.seed = d.sec.seed
    ∧ (journalDurable d c).sec.identity = d.sec.identity ∧ (journalDurable d c).sec.aliasOf = d.sec.aliasOf := by
  simp [journalDurable]

/-- What `journalReg` leaves alone. -/
@[simp] theorem journalReg_frame (d : Dev) (o : Origin) (off n old new : Nat) :
    (journalReg d o off n old new).glob = d.glob ∧ (journalReg d o off n old new).mem = d.mem
    ∧ (journalReg d o off n old new).ports = d.ports ∧ (journalReg d o off n old new).binds = d.binds
    ∧ (journalReg d o off n old new).agents = d.agents ∧ (journalReg d o off n old new).epochs = d.epochs
    ∧ (journalReg d o off n old new).slices = d.slices ∧ (journalReg d o off n old new).tiles = d.tiles
    ∧ (journalReg d o off n old new).mcs = d.mcs ∧ (journalReg d o off n old new).chans = d.chans
    ∧ (journalReg d o off n old new).xacts = d.xacts ∧ (journalReg d o off n old new).nextId = d.nextId
    ∧ (journalReg d o off n old new).engines = d.engines ∧ (journalReg d o off n old new).qlabs = d.qlabs
    ∧ (journalReg d o off n old new).labis = d.labis ∧ (journalReg d o off n old new).labEffects = d.labEffects
    ∧ (journalReg d o off n old new).pairs = d.pairs ∧ (journalReg d o off n old new).evqs = d.evqs
    ∧ (journalReg d o off n old new).err = d.err ∧ (journalReg d o off n old new).movers = d.movers
    ∧ (journalReg d o off n old new).park = d.park ∧ (journalReg d o off n old new).resync = d.resync
    ∧ (journalReg d o off n old new).pwr = d.pwr ∧ (journalReg d o off n old new).pmcs = d.pmcs
    ∧ (journalReg d o off n old new).pmcUserEn = d.pmcUserEn ∧ (journalReg d o off n old new).mgt = d.mgt
    ∧ (journalReg d o off n old new).rawCells = d.rawCells ∧ (journalReg d o off n old new).q0work = d.q0work
    ∧ (journalReg d o off n old new).answers = d.answers ∧ (journalReg d o off n old new).waits = d.waits
    ∧ (journalReg d o off n old new).out = d.out ∧ (journalReg d o off n old new).sec.installer = d.sec.installer
    ∧ (journalReg d o off n old new).sec.authority = d.sec.authority ∧ (journalReg d o off n old new).sec.floor = d.sec.floor
    ∧ (journalReg d o off n old new).sec.testArmed = d.sec.testArmed ∧ (journalReg d o off n old new).sec.slotA = d.sec.slotA
    ∧ (journalReg d o off n old new).sec.slotB = d.sec.slotB ∧ (journalReg d o off n old new).sec.commit0 = d.sec.commit0
    ∧ (journalReg d o off n old new).sec.commit1 = d.sec.commit1
    ∧ (journalReg d o off n old new).sec.lastFwCommit = d.sec.lastFwCommit
    ∧ (journalReg d o off n old new).sec.committing = d.sec.committing
    ∧ (journalReg d o off n old new).sec.staging = d.sec.staging
    ∧ (journalReg d o off n old new).sec.committedNotBooted = d.sec.committedNotBooted
    ∧ (journalReg d o off n old new).sec.fuses = d.sec.fuses ∧ (journalReg d o off n old new).sec.nonces = d.sec.nonces
    ∧ (journalReg d o off n old new).sec.requests = d.sec.requests
    ∧ (journalReg d o off n old new).sec.durable = d.sec.durable ∧ (journalReg d o off n old new).sec.pkg = d.sec.pkg
    ∧ (journalReg d o off n old new).sec.pkgCommitted = d.sec.pkgCommitted
    ∧ (journalReg d o off n old new).sec.inForce = d.sec.inForce ∧ (journalReg d o off n old new).sec.lastGen = d.sec.lastGen
    ∧ (journalReg d o off n old new).sec.delivery = d.sec.delivery
    ∧ (journalReg d o off n old new).sec.lastCheck = d.sec.lastCheck
    ∧ (journalReg d o off n old new).sec.kFwDigest = d.sec.kFwDigest
    ∧ (journalReg d o off n old new).sec.kPkgDigest = d.sec.kPkgDigest
    ∧ (journalReg d o off n old new).sec.select = d.sec.select
    ∧ (journalReg d o off n old new).sec.timestamp = d.sec.timestamp
    ∧ (journalReg d o off n old new).sec.timestampSet = d.sec.timestampSet
    ∧ (journalReg d o off n old new).sec.spdm = d.sec.spdm ∧ (journalReg d o off n old new).sec.authSigner = d.sec.authSigner
    ∧ (journalReg d o off n old new).sec.floorFuse = d.sec.floorFuse ∧ (journalReg d o off n old new).sec.fused = d.sec.fused
    ∧ (journalReg d o off n old new).sec.pkgPart = d.sec.pkgPart ∧ (journalReg d o off n old new).sec.seed = d.sec.seed
    ∧ (journalReg d o off n old new).sec.identity = d.sec.identity
    ∧ (journalReg d o off n old new).sec.aliasOf = d.sec.aliasOf := by
  unfold journalReg
  split <;> simp

/-- What `lockWrite` leaves alone. -/
@[simp] theorem lockWrite_frame (d : Dev) (o : Origin) (off n held tried : Nat) :
    (lockWrite d o off n held tried).glob = d.glob ∧ (lockWrite d o off n held tried).mem = d.mem
    ∧ (lockWrite d o off n held tried).ports = d.ports ∧ (lockWrite d o off n held tried).binds = d.binds
    ∧ (lockWrite d o off n held tried).agents = d.agents ∧ (lockWrite d o off n held tried).epochs = d.epochs
    ∧ (lockWrite d o off n held tried).slices = d.slices ∧ (lockWrite d o off n held tried).tiles = d.tiles
    ∧ (lockWrite d o off n held tried).mcs = d.mcs ∧ (lockWrite d o off n held tried).chans = d.chans
    ∧ (lockWrite d o off n held tried).xacts = d.xacts ∧ (lockWrite d o off n held tried).nextId = d.nextId
    ∧ (lockWrite d o off n held tried).engines = d.engines ∧ (lockWrite d o off n held tried).qlabs = d.qlabs
    ∧ (lockWrite d o off n held tried).labis = d.labis ∧ (lockWrite d o off n held tried).labEffects = d.labEffects
    ∧ (lockWrite d o off n held tried).pairs = d.pairs ∧ (lockWrite d o off n held tried).evqs = d.evqs
    ∧ (lockWrite d o off n held tried).err = d.err ∧ (lockWrite d o off n held tried).movers = d.movers
    ∧ (lockWrite d o off n held tried).park = d.park ∧ (lockWrite d o off n held tried).resync = d.resync
    ∧ (lockWrite d o off n held tried).pwr = d.pwr ∧ (lockWrite d o off n held tried).pmcs = d.pmcs
    ∧ (lockWrite d o off n held tried).pmcUserEn = d.pmcUserEn ∧ (lockWrite d o off n held tried).mgt = d.mgt
    ∧ (lockWrite d o off n held tried).rawCells = d.rawCells ∧ (lockWrite d o off n held tried).q0work = d.q0work
    ∧ (lockWrite d o off n held tried).answers = d.answers ∧ (lockWrite d o off n held tried).waits = d.waits
    ∧ (lockWrite d o off n held tried).out = d.out ∧ (lockWrite d o off n held tried).sec.installer = d.sec.installer
    ∧ (lockWrite d o off n held tried).sec.authority = d.sec.authority
    ∧ (lockWrite d o off n held tried).sec.floor = d.sec.floor
    ∧ (lockWrite d o off n held tried).sec.testArmed = d.sec.testArmed
    ∧ (lockWrite d o off n held tried).sec.slotA = d.sec.slotA ∧ (lockWrite d o off n held tried).sec.slotB = d.sec.slotB
    ∧ (lockWrite d o off n held tried).sec.commit0 = d.sec.commit0
    ∧ (lockWrite d o off n held tried).sec.commit1 = d.sec.commit1
    ∧ (lockWrite d o off n held tried).sec.lastFwCommit = d.sec.lastFwCommit
    ∧ (lockWrite d o off n held tried).sec.committing = d.sec.committing
    ∧ (lockWrite d o off n held tried).sec.staging = d.sec.staging
    ∧ (lockWrite d o off n held tried).sec.committedNotBooted = d.sec.committedNotBooted
    ∧ (lockWrite d o off n held tried).sec.fuses = d.sec.fuses ∧ (lockWrite d o off n held tried).sec.nonces = d.sec.nonces
    ∧ (lockWrite d o off n held tried).sec.requests = d.sec.requests
    ∧ (lockWrite d o off n held tried).sec.durable = d.sec.durable ∧ (lockWrite d o off n held tried).sec.pkg = d.sec.pkg
    ∧ (lockWrite d o off n held tried).sec.pkgCommitted = d.sec.pkgCommitted
    ∧ (lockWrite d o off n held tried).sec.inForce = d.sec.inForce
    ∧ (lockWrite d o off n held tried).sec.lastGen = d.sec.lastGen
    ∧ (lockWrite d o off n held tried).sec.delivery = d.sec.delivery
    ∧ (lockWrite d o off n held tried).sec.lastCheck = d.sec.lastCheck
    ∧ (lockWrite d o off n held tried).sec.kFwDigest = d.sec.kFwDigest
    ∧ (lockWrite d o off n held tried).sec.kPkgDigest = d.sec.kPkgDigest
    ∧ (lockWrite d o off n held tried).sec.select = d.sec.select
    ∧ (lockWrite d o off n held tried).sec.timestamp = d.sec.timestamp
    ∧ (lockWrite d o off n held tried).sec.timestampSet = d.sec.timestampSet
    ∧ (lockWrite d o off n held tried).sec.spdm = d.sec.spdm
    ∧ (lockWrite d o off n held tried).sec.authSigner = d.sec.authSigner
    ∧ (lockWrite d o off n held tried).sec.floorFuse = d.sec.floorFuse
    ∧ (lockWrite d o off n held tried).sec.fused = d.sec.fused ∧ (lockWrite d o off n held tried).sec.pkgPart = d.sec.pkgPart
    ∧ (lockWrite d o off n held tried).sec.seed = d.sec.seed ∧ (lockWrite d o off n held tried).sec.identity = d.sec.identity
    ∧ (lockWrite d o off n held tried).sec.aliasOf = d.sec.aliasOf := by
  simp [lockWrite]

/-- What `journalCall` leaves alone. -/
@[simp] theorem journalCall_frame (d : Dev) (o : Origin) (code arg : Nat) (body results : List Word) :
    (journalCall d o code arg body results).glob = d.glob ∧ (journalCall d o code arg body results).mem = d.mem
    ∧ (journalCall d o code arg body results).ports = d.ports ∧ (journalCall d o code arg body results).binds = d.binds
    ∧ (journalCall d o code arg body results).agents = d.agents ∧ (journalCall d o code arg body results).epochs = d.epochs
    ∧ (journalCall d o code arg body results).slices = d.slices ∧ (journalCall d o code arg body results).tiles = d.tiles
    ∧ (journalCall d o code arg body results).mcs = d.mcs ∧ (journalCall d o code arg body results).chans = d.chans
    ∧ (journalCall d o code arg body results).xacts = d.xacts ∧ (journalCall d o code arg body results).nextId = d.nextId
    ∧ (journalCall d o code arg body results).engines = d.engines ∧ (journalCall d o code arg body results).qlabs = d.qlabs
    ∧ (journalCall d o code arg body results).labis = d.labis
    ∧ (journalCall d o code arg body results).labEffects = d.labEffects
    ∧ (journalCall d o code arg body results).pairs = d.pairs ∧ (journalCall d o code arg body results).evqs = d.evqs
    ∧ (journalCall d o code arg body results).err = d.err ∧ (journalCall d o code arg body results).movers = d.movers
    ∧ (journalCall d o code arg body results).park = d.park ∧ (journalCall d o code arg body results).resync = d.resync
    ∧ (journalCall d o code arg body results).pwr = d.pwr ∧ (journalCall d o code arg body results).pmcs = d.pmcs
    ∧ (journalCall d o code arg body results).pmcUserEn = d.pmcUserEn ∧ (journalCall d o code arg body results).mgt = d.mgt
    ∧ (journalCall d o code arg body results).rawCells = d.rawCells
    ∧ (journalCall d o code arg body results).q0work = d.q0work ∧ (journalCall d o code arg body results).answers = d.answers ∧ (journalCall d o code arg body results).waits = d.waits
    ∧ (journalCall d o code arg body results).out = d.out
    ∧ (journalCall d o code arg body results).sec.installer = d.sec.installer
    ∧ (journalCall d o code arg body results).sec.authority = d.sec.authority
    ∧ (journalCall d o code arg body results).sec.floor = d.sec.floor
    ∧ (journalCall d o code arg body results).sec.testArmed = d.sec.testArmed
    ∧ (journalCall d o code arg body results).sec.slotA = d.sec.slotA
    ∧ (journalCall d o code arg body results).sec.slotB = d.sec.slotB
    ∧ (journalCall d o code arg body results).sec.commit0 = d.sec.commit0
    ∧ (journalCall d o code arg body results).sec.commit1 = d.sec.commit1
    ∧ (journalCall d o code arg body results).sec.lastFwCommit = d.sec.lastFwCommit
    ∧ (journalCall d o code arg body results).sec.committing = d.sec.committing
    ∧ (journalCall d o code arg body results).sec.staging = d.sec.staging
    ∧ (journalCall d o code arg body results).sec.committedNotBooted = d.sec.committedNotBooted
    ∧ (journalCall d o code arg body results).sec.fuses = d.sec.fuses
    ∧ (journalCall d o code arg body results).sec.nonces = d.sec.nonces
    ∧ (journalCall d o code arg body results).sec.requests = d.sec.requests
    ∧ (journalCall d o code arg body results).sec.durable = d.sec.durable
    ∧ (journalCall d o code arg body results).sec.pkg = d.sec.pkg
    ∧ (journalCall d o code arg body results).sec.pkgCommitted = d.sec.pkgCommitted
    ∧ (journalCall d o code arg body results).sec.inForce = d.sec.inForce
    ∧ (journalCall d o code arg body results).sec.lastGen = d.sec.lastGen
    ∧ (journalCall d o code arg body results).sec.delivery = d.sec.delivery
    ∧ (journalCall d o code arg body results).sec.lastCheck = d.sec.lastCheck
    ∧ (journalCall d o code arg body results).sec.kFwDigest = d.sec.kFwDigest
    ∧ (journalCall d o code arg body results).sec.kPkgDigest = d.sec.kPkgDigest
    ∧ (journalCall d o code arg body results).sec.select = d.sec.select
    ∧ (journalCall d o code arg body results).sec.timestamp = d.sec.timestamp
    ∧ (journalCall d o code arg body results).sec.timestampSet = d.sec.timestampSet
    ∧ (journalCall d o code arg body results).sec.spdm = d.sec.spdm
    ∧ (journalCall d o code arg body results).sec.authSigner = d.sec.authSigner
    ∧ (journalCall d o code arg body results).sec.floorFuse = d.sec.floorFuse
    ∧ (journalCall d o code arg body results).sec.fused = d.sec.fused
    ∧ (journalCall d o code arg body results).sec.pkgPart = d.sec.pkgPart
    ∧ (journalCall d o code arg body results).sec.seed = d.sec.seed
    ∧ (journalCall d o code arg body results).sec.identity = d.sec.identity
    ∧ (journalCall d o code arg body results).sec.aliasOf = d.sec.aliasOf := by
  simp [journalCall]

/-- What `engCe` leaves alone. -/
@[simp] theorem engCe_frame (d : Dev) (e : Nat) (s : Bool) (i : Nat) :
    (engCe d e s i).glob = d.glob ∧ (engCe d e s i).mem = d.mem ∧ (engCe d e s i).ports = d.ports
    ∧ (engCe d e s i).binds = d.binds ∧ (engCe d e s i).agents = d.agents ∧ (engCe d e s i).epochs = d.epochs
    ∧ (engCe d e s i).slices = d.slices ∧ (engCe d e s i).tiles = d.tiles ∧ (engCe d e s i).mcs = d.mcs
    ∧ (engCe d e s i).chans = d.chans ∧ (engCe d e s i).xacts = d.xacts ∧ (engCe d e s i).nextId = d.nextId
    ∧ (engCe d e s i).engines = d.engines ∧ (engCe d e s i).qlabs = d.qlabs ∧ (engCe d e s i).labis = d.labis
    ∧ (engCe d e s i).labEffects = d.labEffects ∧ (engCe d e s i).pairs = d.pairs ∧ (engCe d e s i).evqs = d.evqs
    ∧ (engCe d e s i).err = d.err ∧ (engCe d e s i).movers = d.movers ∧ (engCe d e s i).park = d.park
    ∧ (engCe d e s i).resync = d.resync ∧ (engCe d e s i).sec = d.sec ∧ (engCe d e s i).pwr = d.pwr
    ∧ (engCe d e s i).pmcs = d.pmcs ∧ (engCe d e s i).pmcUserEn = d.pmcUserEn ∧ (engCe d e s i).mgt = d.mgt
    ∧ (engCe d e s i).rawCells = d.rawCells ∧ (engCe d e s i).q0work = d.q0work ∧ (engCe d e s i).answers = d.answers ∧ (engCe d e s i).waits = d.waits
    ∧ (engCe d e s i).out = d.out := by
  simp [engCe]

/-- What `advance` leaves alone. -/
@[simp] theorem advance_frame (d : Dev) (e n : Nat) :
    (advance d e n).glob = d.glob ∧ (advance d e n).mem = d.mem ∧ (advance d e n).ports = d.ports
    ∧ (advance d e n).binds = d.binds ∧ (advance d e n).agents = d.agents ∧ (advance d e n).epochs = d.epochs
    ∧ (advance d e n).slices = d.slices ∧ (advance d e n).tiles = d.tiles ∧ (advance d e n).mcs = d.mcs
    ∧ (advance d e n).chans = d.chans ∧ (advance d e n).xacts = d.xacts ∧ (advance d e n).nextId = d.nextId
    ∧ (advance d e n).qlabs = d.qlabs ∧ (advance d e n).labis = d.labis ∧ (advance d e n).labEffects = d.labEffects
    ∧ (advance d e n).pairs = d.pairs ∧ (advance d e n).sources = d.sources ∧ (advance d e n).evqs = d.evqs
    ∧ (advance d e n).evt = d.evt ∧ (advance d e n).err = d.err ∧ (advance d e n).movers = d.movers
    ∧ (advance d e n).park = d.park ∧ (advance d e n).resync = d.resync ∧ (advance d e n).sec = d.sec
    ∧ (advance d e n).pwr = d.pwr ∧ (advance d e n).pmcs = d.pmcs ∧ (advance d e n).pmcUserEn = d.pmcUserEn
    ∧ (advance d e n).mgt = d.mgt ∧ (advance d e n).rawCells = d.rawCells ∧ (advance d e n).q0work = d.q0work
    ∧ (advance d e n).answers = d.answers ∧ (advance d e n).waits = d.waits
    ∧ (advance d e n).out = d.out := by
  simp [advance]

/-- What `jumpTo` leaves alone. -/
@[simp] theorem jumpTo_frame (d : Dev) (e : Nat) (pc : BitVec 14) :
    (jumpTo d e pc).glob = d.glob ∧ (jumpTo d e pc).mem = d.mem ∧ (jumpTo d e pc).ports = d.ports
    ∧ (jumpTo d e pc).binds = d.binds ∧ (jumpTo d e pc).agents = d.agents ∧ (jumpTo d e pc).epochs = d.epochs
    ∧ (jumpTo d e pc).slices = d.slices ∧ (jumpTo d e pc).tiles = d.tiles ∧ (jumpTo d e pc).mcs = d.mcs
    ∧ (jumpTo d e pc).chans = d.chans ∧ (jumpTo d e pc).xacts = d.xacts ∧ (jumpTo d e pc).nextId = d.nextId
    ∧ (jumpTo d e pc).qlabs = d.qlabs ∧ (jumpTo d e pc).labis = d.labis ∧ (jumpTo d e pc).labEffects = d.labEffects
    ∧ (jumpTo d e pc).pairs = d.pairs ∧ (jumpTo d e pc).sources = d.sources ∧ (jumpTo d e pc).evqs = d.evqs
    ∧ (jumpTo d e pc).evt = d.evt ∧ (jumpTo d e pc).err = d.err ∧ (jumpTo d e pc).movers = d.movers
    ∧ (jumpTo d e pc).park = d.park ∧ (jumpTo d e pc).resync = d.resync ∧ (jumpTo d e pc).sec = d.sec
    ∧ (jumpTo d e pc).pwr = d.pwr ∧ (jumpTo d e pc).pmcs = d.pmcs ∧ (jumpTo d e pc).pmcUserEn = d.pmcUserEn
    ∧ (jumpTo d e pc).mgt = d.mgt ∧ (jumpTo d e pc).rawCells = d.rawCells ∧ (jumpTo d e pc).q0work = d.q0work
    ∧ (jumpTo d e pc).answers = d.answers ∧ (jumpTo d e pc).waits = d.waits
    ∧ (jumpTo d e pc).out = d.out := by
  simp [jumpTo]

/-- What `putScratch` leaves alone. -/
@[simp] theorem putScratch_frame (d : Dev) (e i : Nat) (w : Word) :
    (putScratch d e i w).glob = d.glob ∧ (putScratch d e i w).mem = d.mem ∧ (putScratch d e i w).ports = d.ports
    ∧ (putScratch d e i w).binds = d.binds ∧ (putScratch d e i w).agents = d.agents ∧ (putScratch d e i w).epochs = d.epochs
    ∧ (putScratch d e i w).slices = d.slices ∧ (putScratch d e i w).tiles = d.tiles ∧ (putScratch d e i w).mcs = d.mcs
    ∧ (putScratch d e i w).chans = d.chans ∧ (putScratch d e i w).xacts = d.xacts ∧ (putScratch d e i w).nextId = d.nextId
    ∧ (putScratch d e i w).qlabs = d.qlabs ∧ (putScratch d e i w).labis = d.labis
    ∧ (putScratch d e i w).labEffects = d.labEffects ∧ (putScratch d e i w).pairs = d.pairs
    ∧ (putScratch d e i w).evqs = d.evqs ∧ (putScratch d e i w).movers = d.movers ∧ (putScratch d e i w).park = d.park
    ∧ (putScratch d e i w).resync = d.resync ∧ (putScratch d e i w).sec = d.sec ∧ (putScratch d e i w).pwr = d.pwr
    ∧ (putScratch d e i w).pmcs = d.pmcs ∧ (putScratch d e i w).pmcUserEn = d.pmcUserEn ∧ (putScratch d e i w).mgt = d.mgt
    ∧ (putScratch d e i w).rawCells = d.rawCells ∧ (putScratch d e i w).q0work = d.q0work ∧ (putScratch d e i w).answers = d.answers ∧ (putScratch d e i w).waits = d.waits
    ∧ (putScratch d e i w).out = d.out := by
  simp [putScratch]

/-- What `putImem` leaves alone. -/
@[simp] theorem putImem_frame (d : Dev) (e i : Nat) (w : Word) :
    (putImem d e i w).glob = d.glob ∧ (putImem d e i w).mem = d.mem ∧ (putImem d e i w).ports = d.ports
    ∧ (putImem d e i w).binds = d.binds ∧ (putImem d e i w).agents = d.agents ∧ (putImem d e i w).epochs = d.epochs
    ∧ (putImem d e i w).slices = d.slices ∧ (putImem d e i w).tiles = d.tiles ∧ (putImem d e i w).mcs = d.mcs
    ∧ (putImem d e i w).chans = d.chans ∧ (putImem d e i w).xacts = d.xacts ∧ (putImem d e i w).nextId = d.nextId
    ∧ (putImem d e i w).qlabs = d.qlabs ∧ (putImem d e i w).labis = d.labis ∧ (putImem d e i w).labEffects = d.labEffects
    ∧ (putImem d e i w).pairs = d.pairs ∧ (putImem d e i w).evqs = d.evqs ∧ (putImem d e i w).movers = d.movers
    ∧ (putImem d e i w).park = d.park ∧ (putImem d e i w).resync = d.resync ∧ (putImem d e i w).sec = d.sec
    ∧ (putImem d e i w).pwr = d.pwr ∧ (putImem d e i w).pmcs = d.pmcs ∧ (putImem d e i w).pmcUserEn = d.pmcUserEn
    ∧ (putImem d e i w).mgt = d.mgt ∧ (putImem d e i w).rawCells = d.rawCells ∧ (putImem d e i w).q0work = d.q0work
    ∧ (putImem d e i w).answers = d.answers ∧ (putImem d e i w).waits = d.waits
    ∧ (putImem d e i w).out = d.out := by
  simp [putImem]

/-- A record raised where the source's buffer has room: it carries the source's count and time, and the count moves on. -/
theorem raise_room (d : Dev) (src cls sev : Nat) (i : Info) (h : (d.source src).buf.length < 2) :
    (raise d src cls sev i).source src = { d.source src with
      seq := (d.source src).seq + 1
      buf := (d.source src).buf ++ [⟨src, cls, sev, (d.source src).seq.toNat, i, d.glob.time, (d.source src).route⟩] } := by
  simp [raise, h]

/-- A record raised where the buffer is full is lost, and counted. -/
theorem raise_lost (d : Dev) (src cls sev : Nat) (i : Info) (h : 2 ≤ (d.source src).buf.length) :
    (raise d src cls sev i).source src = { d.source src with seq := (d.source src).seq + 1 }
      ∧ (raise d src cls sev i).evt = { d.evt with lost := satInc 32 d.evt.lost } := by
  have h' : ¬ (d.source src).buf.length < 2 := by omega
  unfold raise
  dsimp only
  rw [if_neg h']
  exact ⟨by simp [Dev.source, Dev.updSource], rfl⟩

theorem raise_other (d : Dev) (src cls sev : Nat) (i : Info) {n : Nat} (h : n ≠ src) :
    (raise d src cls sev i).source n = d.source n := by
  simp only [raise]
  split <;> simp [Dev.source, Dev.updSource, Tab.get_upd_other _ _ _ h]

/-- The engine after an instruction of `n` words completes. -/
@[simp] theorem advance_engine (d : Dev) (e n : Nat) :
    (advance d e n).engine e = { (d.engine e).spend with pc := (d.engine e).pc + BitVec.ofNat 14 n, st := .running, wait := .none } := by
  simp [advance]

@[simp] theorem jumpTo_engine (d : Dev) (e : Nat) (pc : BitVec 14) :
    (jumpTo d e pc).engine e = { (d.engine e).spend with pc := pc, st := .running, wait := .none } := by
  simp [jumpTo]

end Sys2Proof.Machine
end

