-- ==== Sys2Proof/Laws/MemFrame.lean ====
section
/-! SUPPORT. Main memory and every operation on the device: the ones that leave it alone. -/

namespace Sys2Proof.Machine

set_option maxRecDepth 2000

@[simp] theorem Dev.each_mem {α : Type} (d : Dev) (l : List α) (f : Dev → α → Dev) (h : ∀ d a, (f d a).mem = d.mem) :
    (d.each l f).mem = d.mem :=
  Dev.each_keeps (fun x => x.mem = d.mem) d l f rfl (fun x a _ hx => (h x a).trans hx)

@[simp] theorem foldl_mem {α : Type} (d : Dev) (l : List α) (f : Dev → α → Dev) (h : ∀ d a, (f d a).mem = d.mem) :
    (l.foldl f d).mem = d.mem := Dev.each_mem d l f h

theorem foldl_fst_mem {α β : Type} (l : List α) (f : Dev × β → α → Dev × β) (h : ∀ p a, (f p a).1.mem = p.1.mem) (p : Dev × β) :
    (l.foldl f p).1.mem = p.1.mem := by
  induction l generalizing p with
  | nil => rfl
  | cons a l ih => exact (ih (f p a)).trans (h p a)

@[simp] theorem Dev.ite_mem (c : Prop) [Decidable c] (a b : Dev) : (if c then a else b).mem = if c then a.mem else b.mem := by
  split <;> rfl

@[simp] theorem Dev.putSent_mem (d : Dev) (i : Nat) (x : Xact) : (Dev.putSent d i x).mem = d.mem := by
  simp [Dev.putSent]

@[simp] theorem Dev.start_mem (d : Dev) (x : Xact) : (Dev.start d x).1.mem = d.mem := by
  simp [Dev.start]

@[simp] theorem powerBusy_mem (d : Dev) (dom : Nat) (on : Bool) (reason : Nat) : (powerBusy d dom on reason).mem = d.mem := by
  simp [powerBusy]

@[simp] theorem freeLine_mem (d : Dev) (dpa : Nat) : (freeLine d dpa).mem = d.mem := by
  simp [freeLine]

@[simp] theorem rebuildJournal_mem (d : Dev) : (rebuildJournal d).mem = d.mem := by
  simp [rebuildJournal]

@[simp] theorem markHandlers_mem (d : Dev) (e : Nat) : (markHandlers d e).mem = d.mem := by
  simp [markHandlers]

@[simp] theorem abandonSnapshot_mem (d : Dev) : (abandonSnapshot d).mem = d.mem := by
  unfold abandonSnapshot
  try dsimp only
  repeat' split
  all_goals first
    | (simp; done)
    | (have hh := congrArg (fun p => p.1.mem) ‹(_ : Dev × _) = (_, _)›; simp at hh; simp [hh]; done)
    | (simp; repeat' (first | rw [Dev.each_mem] | rw [foldl_mem]); all_goals first | (simp; done) | (intros; repeat' split) <;> simp_all)

@[simp] theorem haltEngine_mem (d : Dev) (e cause : Nat) (double : Bool) : (haltEngine d e cause double).mem = d.mem := by
  simp [haltEngine]

@[simp] theorem trap_mem (d : Dev) (e cause : Nat) (tpc : BitVec 14) (tval : Info) (imprecise : Bool) :
    (trap d e cause tpc tval imprecise).mem = d.mem := by
  simp [trap]

@[simp] theorem trapHere_mem (d : Dev) (e cause : Nat) (tval : Info) : (trapHere d e cause tval).mem = d.mem := by
  simp [trapHere]

@[simp] theorem fetchCheck_mem (d : Dev) (e i : Nat) (c : Ecc) (ok : Dev → Dev) (hok : ∀ d, (ok d).mem = d.mem) :
    (fetchCheck d e i c ok).mem = d.mem := by
  unfold fetchCheck
  try dsimp only
  repeat' split
  all_goals first
    | (simp; done)
    | (rename_i heq; have hh := congrArg (fun p => p.1.mem) heq; simp at hh; simp [hh]; done)
    | (have hh := congrArg (fun p => p.1.mem) ‹(_ : Dev × _) = (_, _)›; simp at hh; simp [hh]; done)
    | (simp_all; done)
    | (simp; repeat' (first | rw [Dev.each_mem] | rw [foldl_mem]); all_goals first | (simp; done) | (intros; repeat' split) <;> simp_all)

@[simp] theorem runInstr_mem (d : Dev) (x : Env) (row : Word) (illegal priv : Bool) (body : Dev → Dev) (hbody : ∀ d, (body d).mem = d.mem) :
    (runInstr d x row illegal priv body).mem = d.mem := by
  unfold runInstr
  dsimp only
  repeat' split
  all_goals simp_all

@[simp] theorem scratchCheck_mem (d : Dev) (e i : Nat) (c : Ecc) (ok : Dev → Dev) (hok : ∀ d, (ok d).mem = d.mem) :
    (scratchCheck d e i c ok).mem = d.mem := by
  unfold scratchCheck
  try dsimp only
  repeat' split
  all_goals first
    | (simp; done)
    | (rename_i heq; have hh := congrArg (fun p => p.1.mem) heq; simp at hh; simp [hh]; done)
    | (have hh := congrArg (fun p => p.1.mem) ‹(_ : Dev × _) = (_, _)›; simp at hh; simp [hh]; done)
    | (simp_all; done)
    | (simp; repeat' (first | rw [Dev.each_mem] | rw [foldl_mem]); all_goals first | (simp; done) | (intros; repeat' split) <;> simp_all)

@[simp] theorem queueAccess_mem (d : Dev) (n reason : Nat) (o : Origin) (evq : Bool) :
    (queueAccess d n reason o evq).mem = d.mem := by
  simp [queueAccess]

@[simp] theorem popFails_mem (d : Dev) (e : Nat) : (popFails d e).mem = d.mem := by
  unfold popFails
  split <;> simp

@[simp] theorem pushFails_mem (d : Dev) (e n : Nat) : (pushFails d e n).mem = d.mem := by
  unfold pushFails
  split <;> simp

@[simp] theorem closePair_mem (d : Dev) (n cause : Nat) : (closePair d n cause).mem = d.mem := by
  simp [closePair]

@[simp] theorem closePortPairs_mem (d : Dev) (port cause : Nat) : (closePortPairs d port cause).mem = d.mem := by
  simp [closePortPairs]

@[simp] theorem pairMismatch_mem (d : Dev) (n idx : Nat) : (pairMismatch d n idx).mem = d.mem := by
  simp [pairMismatch]

@[simp] theorem pairDiffers_mem (d : Dev) (n : Nat) (i : Option (BitVec 2)) : (pairDiffers d n i).mem = d.mem := by
  simp [pairDiffers]

@[simp] theorem pairUpdated_mem (d : Dev) (n : Nat) : (pairUpdated d n).mem = d.mem := by
  unfold pairUpdated
  split <;> simp

@[simp] theorem openPair_mem (d : Dev) (n port ld : Nat) (value : BitVec 32) : (openPair d n port ld value).mem = d.mem := by
  simp [openPair]

@[simp] theorem openDone_mem (d : Dev) (n : Nat) : (openDone d n).mem = d.mem := by
  simp [openDone]

@[simp] theorem popTo_mem (d : Dev) (n e : Nat) (a : Info) (g : Nat) : (popTo d n e a g).mem = d.mem := by
  simp [popTo]

@[simp] theorem popPacket_mem (d : Dev) (n e : Nat) (a : Info) (g : Nat) : (popPacket d n e a g).mem = d.mem := by
  simp [popPacket]

@[simp] theorem serveWaiter_mem (d : Dev) (n : Nat) : (serveWaiter d n).mem = d.mem := by
  unfold serveWaiter
  dsimp only
  repeat' split
  all_goals simp

@[simp] theorem serveWaiters_mem (d : Dev) (n : Nat) : (serveWaiters d n).mem = d.mem := by
  simp [serveWaiters]

@[simp] theorem tryCommit_mem (d : Dev) (n : Nat) : (tryCommit d n).mem = d.mem := by
  unfold tryCommit
  dsimp only
  repeat' split
  all_goals simp

@[simp] theorem pairInterrupt_mem (d : Dev) (n : Nat) : (pairInterrupt d n).mem = d.mem := by
  simp [pairInterrupt]

@[simp] theorem pushRecord_mem (d : Dev) (n : Nat) (ws : List Word) : (pushRecord d n ws).mem = d.mem := by
  simp [pushRecord]

@[simp] theorem pushPacket_mem (d : Dev) (n : Nat) (ws : List Word) : (pushPacket d n ws).mem = d.mem := by
  simp [pushPacket]

@[simp] theorem endPopped_mem (d : Dev) (e n : Nat) (ws : List Word) : (endPopped d e n ws).mem = d.mem := by
  simp [endPopped]

@[simp] theorem moveCplHead_mem (d : Dev) (n : Nat) (v : BitVec 8) : (moveCplHead d n v).mem = d.mem := by
  unfold moveCplHead
  try dsimp only
  repeat' split
  all_goals first
    | (simp; done)
    | (have hh := congrArg (fun p => p.1.mem) ‹(_ : Dev × _) = (_, _)›; simp at hh; simp [hh]; done)
    | (simp; repeat' (first | rw [Dev.each_mem] | rw [foldl_mem]); all_goals first | (simp; done) | (intros; repeat' split) <;> simp_all)

@[simp] theorem evqInterrupt_mem (d : Dev) (q : Nat) : (evqInterrupt d q).mem = d.mem := by
  simp [evqInterrupt]

@[simp] theorem ldCopy_mem (d : Dev) (q : Nat) (r : Rec) : (ldCopy d q r).mem = d.mem := by
  simp [ldCopy]

@[simp] theorem evqMismatch_mem (d : Dev) (q : Nat) (headBad : Bool) : (evqMismatch d q headBad).mem = d.mem := by
  simp [evqMismatch]

@[simp] theorem evqDiffers_mem (d : Dev) (q : Nat) (h : Option Bool) : (evqDiffers d q h).mem = d.mem := by
  simp [evqDiffers]

@[simp] theorem toEvq_mem (d : Dev) (q : Nat) (r : Rec) (ptrErr : Option Bool) : (toEvq d q r ptrErr).mem = d.mem := by
  unfold toEvq
  dsimp only
  repeat' split
  all_goals simp

@[simp] theorem moveEvqHead_mem (d : Dev) (o : Origin) (q : Nat) (v : BitVec 8) (ptrErr : Option Bool) :
    (moveEvqHead d o q v ptrErr).mem = d.mem := by
  unfold moveEvqHead
  dsimp only
  repeat' split
  all_goals simp

@[simp] theorem takeWake_mem (d : Dev) (e : Nat) : (takeWake d e).mem = d.mem := by
  unfold takeWake
  split <;> simp

@[simp] theorem unsend_mem (d : Dev) (e : Nat) (r : Rec) : (unsend d e r).mem = d.mem := by
  simp [unsend]

@[simp] theorem dropWake_mem (d : Dev) (e : Nat) (r : Rec) : (dropWake d e r).mem = d.mem := by
  unfold dropWake
  dsimp only
  repeat' split
  all_goals simp

@[simp] theorem toWake_mem (d : Dev) (e : Nat) (r : Rec) : (toWake d e r).mem = d.mem := by
  unfold toWake
  dsimp only
  repeat' split
  all_goals simp

@[simp] theorem deliver_mem (d : Dev) (r : Rec) (ptrErr : Option Bool) : (deliver d r ptrErr).mem = d.mem := by
  simp [deliver]

@[simp] theorem fabricTransfer_mem (d : Dev) (parityOk : Bool) (ptrErr : Option Bool) :
    (fabricTransfer d parityOk ptrErr).mem = d.mem := by
  unfold fabricTransfer
  dsimp only
  repeat' split
  all_goals simp

@[simp] theorem resyncStart_mem (d : Dev) (who : Word) : (resyncStart d who).mem = d.mem := by
  simp [resyncStart]

@[simp] theorem resyncRequest_mem (d : Dev) (o : Origin) : (resyncRequest d o).mem = d.mem := by
  simp [resyncRequest]

@[simp] theorem setState_mem (d : Dev) (new : DevState) : (setState d new).mem = d.mem := by
  simp [setState]

@[simp] theorem loseCells_mem (d : Dev) (t : Nat) : (loseCells d t).mem = d.mem := by
  simp [loseCells]

@[simp] theorem cutTest_mem (d : Dev) (t : Nat) : (cutTest d t).mem = d.mem := by
  simp [cutTest]

@[simp] theorem cutTests_mem (d : Dev) : (cutTests d).mem = d.mem := by
  simp [cutTests]

@[simp] theorem rlogPut_mem (d : Dev) (i : Nat) (w : Word) : (rlogPut d i w).mem = d.mem := by
  simp [rlogPut]

@[simp] theorem recordFatal_mem (d : Dev) (cause : Nat) (i : Info) : (recordFatal d cause i).mem = d.mem := by
  simp [recordFatal]

@[simp] theorem viralLd_mem (d : Dev) (p m : Nat) : (viralLd d p m).mem = d.mem := by
  simp [viralLd]

@[simp] theorem enterRecovery_mem (d : Dev) (cause : Nat) (i : Info) : (enterRecovery d cause i).mem = d.mem := by
  unfold enterRecovery
  repeat' split
  all_goals simp

@[simp] theorem ackConflicts_mem (d : Dev) (p : Nat) : (ackConflicts d p).mem = d.mem := by
  unfold ackConflicts
  dsimp only
  rw [foldl_mem]
  intro d a
  repeat' split
  all_goals simp

@[simp] theorem respondData_mem (d : Dev) (r : Req) (t0 : Nat) (data : Line) (poison : Bool) (m : Option Meta) :
    (respondData d r t0 data poison m).mem = d.mem := by
  unfold respondData
  split <;> simp

@[simp] theorem respondCmp_mem (d : Dev) (r : Req) (own : Bool) : (respondCmp d r own).mem = d.mem := by
  unfold respondCmp
  split <;> simp

@[simp] theorem failRequest_mem (d : Dev) (r : Req) (t0 kind : Nat) : (failRequest d r t0 kind).mem = d.mem := by
  unfold failRequest
  split <;> simp

@[simp] theorem Dev.setLab_mem (d : Dev) (l : Nat) (t : Tab LabEntry) : (Dev.setLab d l t).mem = d.mem := by
  simp [Dev.setLab]

@[simp] theorem labLookup_mem (d : Dev) (l : Nat) (view : BitVec 12) (gran : BitVec 2) (va : Nat) (c : Ecc) :
    (labLookup d l view gran va c).1.mem = d.mem := by
  unfold labLookup
  repeat' split
  all_goals simp

@[simp] theorem labInstall_mem (d : Dev) (l : Nat) (view : BitVec 12) (gran : BitVec 2) (vpn : Nat) (pte : Pte) (lock : Bool) :
    (labInstall d l view gran vpn pte lock).1.mem = d.mem := by
  unfold labInstall
  dsimp only
  repeat' split
  all_goals simp

@[simp] theorem parkRequest_mem (d : Dev) (p : Nat) (r : Req) :
    (parkRequest d p r).1.mem = d.mem := by
  unfold parkRequest
  dsimp only
  repeat' split
  all_goals simp

@[simp] theorem translateHost_mem (d : Dev) (p : Nat) (x : Xact) (c : Ecc) : (translateHost d p x c).mem = d.mem := by
  unfold translateHost
  dsimp only
  repeat' split
  all_goals simp

@[simp] theorem freeSlot_mem (d : Dev) (p k : Nat) : (freeSlot d p k).mem = d.mem := by
  simp [freeSlot]

@[simp] theorem failSlot_mem (d : Dev) (p k : Nat) : (failSlot d p k).mem = d.mem := by
  simp [failSlot]

@[simp] theorem relook_mem (d : Dev) (p : Nat) (since : Nat) (i : Nat) (x : Xact) : (relook d p since i x).mem = d.mem := by
  unfold relook
  try dsimp only
  repeat' split
  all_goals first
    | (simp; done)
    | (have hh := congrArg (fun p => p.1.mem) ‹(_ : Dev × _) = (_, _)›; simp at hh; simp [hh]; done)
    | (simp; repeat' (first | rw [Dev.each_mem] | rw [foldl_mem]); all_goals first | (simp; done) | (intros; repeat' split) <;> simp_all)

@[simp] theorem endSlot_mem (d : Dev) (p k : Nat) : (endSlot d p k).mem = d.mem := by
  simp [endSlot]

@[simp] theorem slotTimeout_mem (d : Dev) (p k : Nat) : (slotTimeout d p k).mem = d.mem := by
  unfold slotTimeout
  split <;> simp

@[simp] theorem putTag_mem (d : Dev) (s cset way : Nat) (e : TagEntry) : (putTag d s cset way e).mem = d.mem := by
  simp [putTag]

@[simp] theorem victimWay_mem (d : Dev) (s cset : Nat) : (victimWay d s cset).1.mem = d.mem := by
  unfold victimWay
  dsimp only
  repeat' split
  all_goals simp

@[simp] theorem lockedNote_mem (d : Dev) (s first n : Nat) : (lockedNote d s first n).mem = d.mem := by
  simp [lockedNote]

@[simp] theorem lockedCount_mem (d : Dev) (s n : Nat) : (lockedCount d s n).mem = d.mem := by
  simp [lockedCount]

@[simp] theorem lockedInval_mem (d : Dev) (s : Nat) (sectors : List Nat) : (lockedInval d s sectors).mem = d.mem := by
  unfold lockedInval
  split <;> simp

@[simp] theorem tileStore_mem (d : Dev) (s dpa way : Nat) (data : Line) (mask : Mask) :
    (tileStore d s dpa way data mask).mem = d.mem := by
  simp [tileStore]

@[simp] theorem writeUpdate_mem (d : Dev) (s dpa : Nat) (data : Line) (mask : Mask) (poison : Bool) :
    (writeUpdate d s dpa data mask poison).mem = d.mem := by
  unfold writeUpdate
  repeat' split
  all_goals simp

@[simp] theorem install_mem (d : Dev) (s dpa way : Nat) (data : Line) (poison old : Bool) :
    (install d s dpa way data poison old).mem = d.mem := by
  simp [install]

@[simp] theorem dropSide_mem (d : Dev) (s line : Nat) : (dropSide d s line).mem = d.mem := by
  simp [dropSide]

@[simp] theorem markNoAlloc_mem (d : Dev) (i : Nat) : (markNoAlloc d i).mem = d.mem := by
  unfold markNoAlloc
  repeat' split
  all_goals simp

@[simp] theorem markWhere_mem (d : Dev) (s : Nat) (f : Xact → Bool) : (markWhere d s f).mem = d.mem := by
  simp [markWhere]

@[simp] theorem invalSub_mem (d : Dev) (s dpa : Nat) (unlock : Bool) : (invalSub d s dpa unlock).1.mem = d.mem := by
  unfold invalSub
  dsimp only
  repeat' split
  all_goals simp

@[simp] theorem invalWay_mem (d : Dev) (s cset way : Nat) (unlock : Bool) : (invalWay d s cset way unlock).1.mem = d.mem := by
  unfold invalWay
  dsimp only
  repeat' split
  all_goals simp

@[simp] theorem checkTags_mem (d : Dev) (s cset : Nat) (err : Option (Fin 16 × Ecc × Ecc)) (who : Who) :
    (checkTags d s cset err who).mem = d.mem := by
  unfold checkTags
  apply Dev.each_mem
  intro d w
  dsimp only
  split <;> simp

@[simp] theorem putDir_mem (d : Dev) (s dset way : Nat) (e : DirEntry) : (putDir d s dset way e).mem = d.mem := by
  simp [putDir]

@[simp] theorem dirNote_mem (d : Dev) (s sub dset : Nat) (way : Option Nat) (agent : BitVec 12) :
    (dirNote d s sub dset way agent).mem = d.mem := by
  simp [dirNote]

@[simp] theorem poisonWrite_mem (d : Dev) (s dpa : Nat) (who : BitVec 12) : (poisonWrite d s dpa who).mem = d.mem := by
  simp [poisonWrite]

@[simp] theorem loseLine_mem (d : Dev) (s dpa : Nat) (a : BitVec 12) (ep : BitVec 4) : (loseLine d s dpa a ep).mem = d.mem := by
  unfold loseLine
  dsimp only
  repeat' split
  all_goals simp

@[simp] theorem noteUnknown_mem (d : Dev) (s dset : Nat) : (noteUnknown d s dset).mem = d.mem := by
  simp [noteUnknown]

@[simp] theorem ldBind_mem (d : Dev) (p m : Nat) (a : BitVec 12) (ep : BitVec 4) (attach db : Bool) :
    (ldBind d p m a ep attach db).mem = d.mem := by
  simp [ldBind]

@[simp] theorem withdrawOffers_mem (d : Dev) (p m : Nat) : (withdrawOffers d p m).mem = d.mem := by
  simp [withdrawOffers]

@[simp] theorem resign_mem (d : Dev) (a : BitVec 12) (cause : Nat) : (resign d a cause).mem = d.mem := by
  unfold resign
  try dsimp only
  repeat' split
  all_goals first
    | (simp; done)
    | (have hh := congrArg (fun p => p.1.mem) ‹(_ : Dev × _) = (_, _)›; simp at hh; simp [hh]; done)
    | (simp; repeat' (first | rw [Dev.each_mem] | rw [foldl_mem]); all_goals first | (simp; done) | (intros; repeat' split) <;> simp_all)

@[simp] theorem giveResult_mem (d : Dev) (i : Nat) (x : Xact) (data : Line) (poison ok : Bool) :
    (giveResult d i x data poison ok).mem = d.mem := by
  unfold giveResult
  split <;> simp

@[simp] theorem finish_mem (d : Dev) (i : Nat) (data : Line) (poison ok : Bool) : (finish d i data poison ok).mem = d.mem := by
  unfold finish
  dsimp only
  repeat' split
  all_goals simp

@[simp] theorem sendSnoop_mem (d : Dev) (p : Nat) (s : Snoop) (vpn : Nat) : (sendSnoop d p s vpn).mem = d.mem := by
  simp [sendSnoop]

@[simp] theorem portRecall_mem (d : Dev) (p : Nat) (a : BitVec 12) (line : Nat) (data : Bool) :
    (portRecall d p a line data).mem = d.mem := by
  unfold portRecall
  dsimp only
  repeat' split
  all_goals simp

@[simp] theorem sendRecall_mem (d : Dev) (s line : Nat) (t : Target) : (sendRecall d s line t).mem = d.mem := by
  unfold sendRecall
  dsimp only
  repeat' split
  all_goals simp

@[simp] theorem startRecall_mem (d : Dev) (i : Nat) (line : Nat) (ts : List Target) (dw : Option Nat) (evict : Option Nat) :
    (startRecall d i line ts dw evict).mem = d.mem := by
  unfold startRecall
  repeat' split
  all_goals simp

@[simp] theorem dirVictim_mem (d : Dev) (s dset : Nat) : (dirVictim d s dset).1.mem = d.mem := by
  unfold dirVictim
  dsimp only
  repeat' split
  all_goals simp

@[simp] theorem resolveEntry_mem (d : Dev) (s dset way : Nat) : (resolveEntry d s dset way).1.mem = d.mem := by
  unfold resolveEntry
  dsimp only
  repeat' split
  all_goals simp

@[simp] theorem markUnk_mem (d : Dev) (s dset way : Nat) (who : Who) : (markUnk d s dset way who).mem = d.mem := by
  unfold markUnk
  try dsimp only
  repeat' split
  all_goals first
    | (simp; done)
    | (have hh := congrArg (fun p => p.1.mem) ‹(_ : Dev × _) = (_, _)›; simp at hh; simp [hh]; done)
    | (simp; repeat' (first | rw [Dev.each_mem] | rw [foldl_mem]); all_goals first | (simp; done) | (intros; repeat' split) <;> simp_all)

@[simp] theorem rebuildAge_mem (d : Dev) (s dset : Nat) (w : Option (Fin 16)) : (rebuildAge d s dset w).mem = d.mem := by
  unfold rebuildAge
  split <;> simp

@[simp] theorem checkDir_mem (d : Dev) (s dset : Nat) (err : Option (Fin 16 × Ecc)) (who : Who) :
    (checkDir d s dset err who).mem = d.mem := by
  unfold checkDir
  split
  · rfl
  · apply Dev.each_mem
    intro d w
    dsimp only
    generalize eccWith _ _ = c
    cases c <;> simp

@[simp] theorem queuePrefetch_mem (d : Dev) (s : Nat) (r : Req) (dpa : Nat) : (queuePrefetch d s r dpa).mem = d.mem := by
  simp [queuePrefetch]

@[simp] theorem detect_mem (d : Dev) (s : Nat) (r : Req) : (detect d s r).mem = d.mem := by
  simp [detect]

@[simp] theorem chooseWay_mem (d : Dev) (s dpa : Nat) : (chooseWay d s dpa).1.mem = d.mem := by
  unfold chooseWay
  repeat' split
  all_goals first
    | (simp; done)
    | (have hh := congrArg (fun p => p.1.mem) ‹(_ : Dev × _) = (_, _)›; simp at hh; simp [hh])

@[simp] theorem readDirect_mem (d : Dev) (i : Nat) (x : Xact) : (readDirect d i x).mem = d.mem := by
  simp [readDirect]

@[simp] theorem bindMiss_mem (d : Dev) (i : Nat) (x : Xact) : (bindMiss d i x).mem = d.mem := by
  simp [bindMiss]

@[simp] theorem joinPrefetch_mem (d : Dev) (i j : Nat) (x : Xact) : (joinPrefetch d i j x).mem = d.mem := by
  simp [joinPrefetch]

@[simp] theorem readTile_mem (d : Dev) (i : Nat) (x : Xact) (w : Nat) : (readTile d i x w).mem = d.mem := by
  simp [readTile]

@[simp] theorem readSide_mem (d : Dev) (i : Nat) (x : Xact) (e : SideEntry) : (readSide d i x e).mem = d.mem := by
  unfold readSide
  try dsimp only
  repeat' split
  all_goals first
    | (simp; done)
    | (have hh := congrArg (fun p => p.1.mem) ‹(_ : Dev × _) = (_, _)›; simp at hh; simp [hh]; done)
    | (simp; repeat' (first | rw [Dev.each_mem] | rw [foldl_mem]); all_goals first | (simp; done) | (intros; repeat' split) <;> simp_all)

@[simp] theorem readStage_mem (d : Dev) (i : Nat) : (readStage d i).mem = d.mem := by
  unfold readStage
  dsimp only
  repeat' split
  all_goals simp

@[simp] theorem dataRead_mem (d : Dev) (i : Nat) : (dataRead d i).mem = d.mem := by
  unfold dataRead
  repeat' split
  all_goals simp

@[simp] theorem readAhead_mem (d : Dev) (i : Nat) : (readAhead d i).mem = d.mem := by
  unfold readAhead
  split <;> simp

@[simp] theorem dropPrefetched_mem (d : Dev) (s line : Nat) : (dropPrefetched d s line).mem = d.mem := by
  simp [dropPrefetched]

@[simp] theorem writeStage_mem (d : Dev) (i : Nat) : (writeStage d i).mem = d.mem := by
  unfold writeStage
  repeat' split
  all_goals simp

@[simp] theorem cmoInval_mem (d : Dev) (x : Xact) : (cmoInval d x).1.mem = d.mem := by
  unfold cmoInval
  dsimp only
  repeat' split
  all_goals simp

@[simp] theorem markWay_mem (d : Dev) (s cset way : Nat) : (markWay d s cset way).mem = d.mem := by
  simp [markWay]

@[simp] theorem swMarks_mem (d : Dev) (x : Xact) : (swMarks d x).mem = d.mem := by
  unfold swMarks
  try dsimp only
  repeat' split
  all_goals first
    | (simp; done)
    | (have hh := congrArg (fun p => p.1.mem) ‹(_ : Dev × _) = (_, _)›; simp at hh; simp [hh]; done)
    | (simp; repeat' (first | rw [Dev.each_mem] | rw [foldl_mem]); all_goals first | (simp; done) | (intros; repeat' split) <;> simp_all)

@[simp] theorem resolveLine_mem (d : Dev) (s dpa : Nat) : (resolveLine d s dpa).mem = d.mem := by
  unfold resolveLine
  split <;> simp

@[simp] theorem cmoEnd_mem (d : Dev) (i : Nat) : (cmoEnd d i).mem = d.mem := by
  unfold cmoEnd
  split
  · rfl
  · rename_i x _
    have h : (cmoInval d x).1.mem = d.mem := by simp
    revert h
    rcases cmoInval d x with ⟨d1, l⟩
    intro h
    dsimp only
    split <;> simp only [resolveLine_mem, finish_mem] <;> split <;> simp_all

@[simp] theorem cmoStage_mem (d : Dev) (i : Nat) : (cmoStage d i).mem = d.mem := by
  unfold cmoStage
  split <;> simp

@[simp] theorem preloadStage_mem (d : Dev) (i : Nat) (lgrp : BitVec 4) : (preloadStage d i lgrp).mem = d.mem := by
  unfold preloadStage
  try dsimp only
  repeat' split
  all_goals first
    | (simp; done)
    | (have hh := congrArg (fun p => p.1.mem) ‹(_ : Dev × _) = (_, _)›; simp at hh; simp [hh]; done)
    | (simp; repeat' (first | rw [Dev.each_mem] | rw [foldl_mem]); all_goals first | (simp; done) | (intros; repeat' split) <;> simp_all)

@[simp] theorem prefetchIssue_mem (d : Dev) (i : Nat) : (prefetchIssue d i).mem = d.mem := by
  unfold prefetchIssue
  split <;> simp

@[simp] theorem dataStage_mem (d : Dev) (i : Nat) : (dataStage d i).mem = d.mem := by
  unfold dataStage
  repeat' split
  all_goals simp

@[simp] theorem moveDir_mem (d : Dev) (s dset way : Nat) (old new : DirEntry) : (moveDir d s dset way old new).mem = d.mem := by
  simp [moveDir]

@[simp] theorem applyDir_mem (d : Dev) (i : Nat) : (applyDir d i).mem = d.mem := by
  unfold applyDir
  dsimp only
  repeat' split
  all_goals simp

@[simp] theorem allocDir_mem (d : Dev) (i : Nat) (way : Nat) : (allocDir d i way).mem = d.mem := by
  unfold allocDir
  split <;> simp

@[simp] theorem toRetry_mem (d : Dev) (i : Nat) : (toRetry d i).mem = d.mem := by
  simp [toRetry]

@[simp] theorem relookup_mem (d : Dev) (i : Nat) : (relookup d i).mem = d.mem := by
  simp [relookup]

@[simp] theorem allocStage_mem (d : Dev) (i : Nat) : (allocStage d i).mem = d.mem := by
  unfold allocStage
  try dsimp only
  repeat' split
  all_goals first
    | (simp; done)
    | (have hh := congrArg (fun p => p.1.mem) ‹(_ : Dev × _) = (_, _)›; simp at hh; simp [hh]; done)
    | (simp; repeat' (first | rw [Dev.each_mem] | rw [foldl_mem]); all_goals first | (simp; done) | (intros; repeat' split) <;> simp_all)

@[simp] theorem dirStage_mem (d : Dev) (i : Nat) : (dirStage d i).mem = d.mem := by
  unfold dirStage
  dsimp only
  repeat' split
  all_goals simp

@[simp] theorem lookupUnk_mem (d : Dev) (i : Nat) (x : Xact) : (lookupUnk d i x).mem = d.mem := by
  unfold lookupUnk
  dsimp only
  repeat' split
  all_goals simp

@[simp] theorem dropAhead_mem (d : Dev) (i : Nat) : (dropAhead d i).mem = d.mem := by
  simp [dropAhead]

@[simp] theorem passRecalls_mem (d : Dev) (x : Xact) : (passRecalls d x).mem = d.mem := by
  simp [passRecalls]

@[simp] theorem lookup_mem (d : Dev) (i : Nat) (err : LookupErr) : (lookup d i err).mem = d.mem := by
  unfold lookup
  split
  · rfl
  · rename_i x hx
    dsimp only
    generalize h1 : (if x.cleared = true then d else count d (8 + x.slice) 0x10 1 x.req.counted) = d1
    have e1 : d1.mem = d.mem := by subst h1; split <;> simp
    generalize h2 : (if (d1.enabled x.slice && !x.req.device && x.req.op != .sweepRead) = true then
      checkTags d1 x.slice (csetOf x.req.dpa) err.tag (whoOf x.req) else d1) = d2
    have e2 : d2.mem = d.mem := by subst h2; split <;> simp [e1]
    split
    · simp [e2]
    · split
      · simp [e2]
      generalize h3 : rebuildAge (checkDir d2 x.slice (dsetOf x.req.dpa) err.dir (whoOf x.req)) x.slice (dsetOf x.req.dpa) err.aux = d3
      have e3 : d3.mem = d.mem := by subst h3; simp [e2]
      generalize h4 : (if (x.req.demand && d3.enabled x.slice && !x.cleared) = true then detect d3 x.slice x.req else d3) = d4
      have e4 : d4.mem = d.mem := by subst h4; split <;> simp [e3]
      split
      · simp [e4]
      · have key : ∀ r : Dev × Bool, r.1.mem = d.mem → Dev.mem (match r with
            | (d, true) => d.putXact i { x with phase := .queued, cleared := true }
            | (d, false) => if x.req.op == .scp && !d.scpHolds x then finish d i 0 false false else dirStage d i) = d.mem := by
          rintro ⟨d5, b⟩ e5
          cases b
          · dsimp only
            split <;> simpa using e5
          · simpa using e5
        exact key _ (by split <;> simp [e4])

@[simp] theorem evicted_mem (d : Dev) (i : Nat) (x : Xact) (w : Nat) : (evicted d i x w).mem = d.mem := by
  simp [evicted]

@[simp] theorem recallDone_mem (d : Dev) (i : Nat) : (recallDone d i).mem = d.mem := by
  unfold recallDone
  repeat' split
  all_goals simp

@[simp] theorem markDue_mem (d : Dev) (a : BitVec 12) (line : Nat) : (markDue d a line).mem = d.mem := by
  simp [markDue]

@[simp] theorem recallLost_mem (d : Dev) (i : Nat) (x : Xact) (line : Nat) (t : Target) :
    (recallLost d i x line t).mem = d.mem := by
  unfold recallLost
  dsimp only
  repeat' split
  all_goals simp

@[simp] theorem answerOne_mem (d : Dev) (a : BitVec 12) (line : Nat) (kept lost dataOnly : Bool) (i : Nat) :
    (answerOne d a line kept lost dataOnly i).mem = d.mem := by
  unfold answerOne
  repeat' split
  all_goals simp

@[simp] theorem answerNow_mem (d : Dev) (a : BitVec 12) (line : Nat) (kept lost dataOnly : Bool) :
    (answerNow d a line kept lost dataOnly).mem = d.mem := by
  simp [answerNow]

@[simp] theorem answer_mem (d : Dev) (a : BitVec 12) (line : Nat) (kept lost dataOnly : Bool) :
    (answer d a line kept lost dataOnly).mem = d.mem := by
  unfold answer
  split <;> simp

@[simp] theorem takeAnswers_mem (d : Dev) : (takeAnswers d).mem = d.mem := by
  simp [takeAnswers]

@[simp] theorem answerAll_mem (d : Dev) (a : BitVec 12) : (answerAll d a).mem = d.mem := by
  simp [answerAll]

@[simp] theorem retryRecalls_mem (d : Dev) (line : Nat) : (retryRecalls d line).mem = d.mem := by
  simp [retryRecalls]

@[simp] theorem mergeReads_mem (d : Dev) (data : Line) (poison : Bool) (l : List (Nat × Xact)) (n : Nat) :
    (mergeReads d data poison l n).mem = d.mem := by
  induction n generalizing d l with
  | zero => cases l <;> simp [mergeReads]
  | succ n ih =>
    cases l with
    | nil => simp [mergeReads]
    | cons a l =>
      simp only [mergeReads]
      split
      · rw [ih]; simp
      · rfl

@[simp] theorem demandFill_mem (d : Dev) (i : Nat) (x : Xact) (way : Option Nat) (noAlloc : Bool) (data : Line) (poison err : Bool) :
    (demandFill d i x way noAlloc data poison err).mem = d.mem := by
  unfold demandFill
  extract_lets s joined judge d1 d2 d3 ahead
  have e1 : d1.mem = d.mem := by
    show (match way with | some w => _ | none => _ : Dev).mem = _
    split
    · split <;> simp
    · rfl
  have e2 : d2.mem = d.mem := by
    show (match x.req.op, x.req.src with | .preload _, _ => _ | _, _ => _ : Dev).mem = _
    split <;> simp [e1]
  have e3 : d3.mem = d.mem := (Dev.each_mem _ _ _ (fun d j => by simp)).trans e2
  rw [resolveLine_mem]
  split <;> simp [e3]

@[simp] theorem fillReturn_mem (d : Dev) (i : Nat) : (fillReturn d i).mem = d.mem := by
  unfold fillReturn
  repeat' split
  all_goals simp

@[simp] theorem orderMarks_mem (d : Dev) (s : Nat) (x : Xact) : (orderMarks d s x).mem = d.mem := by
  unfold orderMarks
  split <;> simp

@[simp] theorem arriveOne_mem (d : Dev) (s : Nat) (i : Nat) : (arriveOne d s i).mem = d.mem := by
  unfold arriveOne
  split <;> simp

@[simp] theorem arrive_mem (d : Dev) (s : Nat) (ids : List Nat) : (arrive d s ids).mem = d.mem := by
  simp [arrive]

@[simp] theorem countWalk_mem (d : Dev) (s n : Nat) : (countWalk d s n).mem = d.mem := by
  simp [countWalk]

@[simp] theorem walkSet_mem (d : Dev) (s dset : Nat) (err : Option (Fin 16 × Ecc)) : (walkSet d s dset err).mem = d.mem := by
  simp [walkSet]

@[simp] theorem passOver_mem (d : Dev) (s : Nat) (who : Option Nat) :
    (passOver d s who).mem = d.mem := by
  unfold passOver
  try dsimp only
  repeat' split
  all_goals first
    | (simp; done)
    | (have hh := congrArg (fun p => p.1.mem) ‹(_ : Dev × _) = (_, _)›; simp at hh; simp [hh]; done)
    | (simp; repeat' (first | rw [Dev.each_mem] | rw [foldl_mem]); all_goals first | (simp; done) | (intros; repeat' split) <;> simp_all)

@[simp] theorem walkIssue_mem (d : Dev) (s : Nat) (err : Option (Fin 16 × Ecc)) : (walkIssue d s err).mem = d.mem := by
  simp [walkIssue]

@[simp] theorem orderFatal_mem (d : Dev) (structure_ place entry : Nat) :
    (orderFatal d structure_ place entry).mem = d.mem := by
  simp [orderFatal]

@[simp] theorem checkSide_mem (d : Dev) (s : Nat) (x : Xact) (err : Ecc) : (checkSide d s x err).mem = d.mem := by
  simp [checkSide]

@[simp] theorem issueOne_mem (d : Dev) (s : Nat) (err : LookupErr) : (issueOne d s err).mem = d.mem := by
  unfold issueOne
  repeat' split
  all_goals simp

@[simp] theorem issue_mem (d : Dev) (s : Nat) (err : LookupErr) : (issue d s err).mem = d.mem := by
  unfold issue
  split <;> simp

@[simp] theorem retryIssue_mem (d : Dev) (s i : Nat) (err : Option (Fin 16 × Ecc)) : (retryIssue d s i err).mem = d.mem := by
  unfold retryIssue
  split <;> simp

@[simp] theorem guardEngage_mem (d : Dev) (s i : Nat) : (guardEngage d s i).mem = d.mem := by
  unfold guardEngage
  split <;> simp

@[simp] theorem chanEvent_mem (d : Dev) (c cause cls sev dpa symbols : Nat) :
    (chanEvent d c cause cls sev dpa symbols).mem = d.mem := by
  simp [chanEvent]

@[simp] theorem checkFill_mem (d : Dev) (c csec : Nat) : (checkFill d c csec).mem = d.mem := by
  simp [checkFill]

@[simp] theorem checkRead_mem (d : Dev) (line : Nat) (r : Counted) (chk : Ecc) : (checkRead d line r chk).mem = d.mem := by
  unfold checkRead
  dsimp only
  repeat' split
  all_goals simp

@[simp] theorem repairLater_mem (d : Dev) (line : Nat) (data : Line) (poison : Bool) :
    (repairLater d line data poison).mem = d.mem := by
  simp [repairLater]

@[simp] theorem dropRepair_mem (d : Dev) (line : Nat) : (dropRepair d line).mem = d.mem := by
  simp [dropRepair]

@[simp] theorem overLimit_mem (d : Dev) (r : Req) : (overLimit d r).mem = d.mem := by
  simp [overLimit]

@[simp] theorem checkEntries_mem (d : Dev) (line : Nat) (c : Ecc) : (checkEntries d line c).mem = d.mem := by
  simp [checkEntries]

@[simp] theorem readLine_mem (d : Dev) (line symbols : Nat) (wrongAddr : Bool) (who : Who) :
    (readLine d line symbols wrongAddr who).1.mem = d.mem := by
  unfold readLine
  split <;> simp

@[simp] theorem moverWriteLate_mem (d : Dev) (i : Nat) (x : Xact) : (moverWriteLate d i x).mem = d.mem := by
  unfold moverWriteLate
  try dsimp only
  repeat' split
  all_goals first
    | (simp; done)
    | (have hh := congrArg (fun p => p.1.mem) ‹(_ : Dev × _) = (_, _)›; simp at hh; simp [hh]; done)
    | (simp; repeat' (first | rw [Dev.each_mem] | rw [foldl_mem]); all_goals first | (simp; done) | (intros; repeat' split) <;> simp_all)

@[simp] theorem readTimesOut_mem (d : Dev) (i : Nat) : (readTimesOut d i).mem = d.mem := by
  unfold readTimesOut
  split <;> simp

@[simp] theorem takeEntry_mem (d : Dev) (i : Nat) (x : Xact) (bad : Nat) : (takeEntry d i x bad).mem = d.mem := by
  unfold takeEntry
  split <;> simp

@[simp] theorem ackWrite_mem (d : Dev) (i : Nat) : (ackWrite d i).mem = d.mem := by
  unfold ackWrite
  repeat' split
  all_goals simp

@[simp] theorem ageEntry_mem (d : Dev) (m line : Nat) : (ageEntry d m line).mem = d.mem := by
  simp [ageEntry]

@[simp] theorem wbUeFound_mem (d : Dev) (m : Nat) (e : WbEntry) : (wbUeFound d m e).mem = d.mem := by
  unfold wbUeFound
  try dsimp only
  repeat' split
  all_goals simp

@[simp] theorem wbAddrUe_mem (d : Dev) (m k : Nat) (e : WbEntry) : (wbAddrUe d m k e).mem = d.mem := by
  unfold wbAddrUe
  try dsimp only
  repeat' split
  all_goals simp

@[simp] theorem drainEntry_mem (d : Dev) (m : Nat) (dataUe : List Nat) (e : WbEntry) :
    (drainEntry d m dataUe e).mem = d.mem := by
  unfold drainEntry
  dsimp only
  split <;> simp

@[simp] theorem endBatches_mem (d : Dev) (m : Nat) : (endBatches d m).mem = d.mem := by
  simp [endBatches]

@[simp] theorem drainAll_mem (d : Dev) (m : Nat) : (drainAll d m).mem = d.mem := by
  simp [drainAll]

@[simp] theorem batchStart_mem (d : Dev) (c : Nat) (dataUe : List Nat) (addrUe : Option (BitVec 8)) :
    (batchStart d c dataUe addrUe).mem = d.mem := by
  unfold batchStart
  split
  · rfl
  · dsimp only
    split <;> simp

@[simp] theorem mergeRead_mem (d : Dev) (line symbols : Nat) (wrongAddr : Bool) :
    (mergeRead d line symbols wrongAddr).1.mem = d.mem := by
  unfold mergeRead
  split <;> simp

@[simp] theorem mergeWaiters_mem (d : Dev) (line : Nat) : (mergeWaiters d line).mem = d.mem := by
  unfold mergeWaiters
  try dsimp only
  repeat' split
  all_goals first
    | (simp; done)
    | (have hh := congrArg (fun p => p.1.mem) ‹(_ : Dev × _) = (_, _)›; simp at hh; simp [hh]; done)
    | (simp; repeat' (first | rw [Dev.each_mem] | rw [foldl_mem]); all_goals first | (simp; done) | (intros; repeat' split) <;> simp_all)

@[simp] theorem endDrains_mem (d : Dev) : (endDrains d).mem = d.mem := by
  simp [endDrains]

@[simp] theorem failChannel_mem (d : Dev) (c : Nat) (timeouts : Bool) : (failChannel d c timeouts).mem = d.mem := by
  simp [failChannel]

@[simp] theorem blocks_mem (d : Dev) (c ns : Nat) : (blocks d c ns).mem = d.mem := by
  simp [blocks]

@[simp] theorem zqLatch_mem (d : Dev) (c : Nat) : (zqLatch d c).mem = d.mem := by
  simp [zqLatch]

@[simp] theorem retrainDq_mem (d : Dev) (c : Nat) (ok : Bool) : (retrainDq d c ok).mem = d.mem := by
  simp [retrainDq]

@[simp] theorem readMr4_mem (d : Dev) (c : Nat) (code : BitVec 3) (hot : Bool) : (readMr4 d c code hot).mem = d.mem := by
  simp [readMr4]

@[simp] theorem startDrain_mem (d : Dev) (t cause : Nat) (retiring : Bool) : (startDrain d t cause retiring).mem = d.mem := by
  simp [startDrain]

@[simp] theorem flipFirst_mem (d : Dev) (s : Nat) (f : Nat → Nat → Bool) : (flipFirst d s f).mem = d.mem := by
  unfold flipFirst
  try dsimp only
  repeat' split
  all_goals first
    | (simp; done)
    | (have hh := congrArg (fun p => p.1.mem) ‹(_ : Dev × _) = (_, _)›; simp at hh; simp [hh]; done)
    | (simp; repeat' (first | rw [Dev.each_mem] | rw [foldl_mem]); all_goals first | (simp; done) | (intros; repeat' split) <;> simp_all)

@[simp] theorem clearTags_mem (d : Dev) (s : Nat) (f : Nat → Nat → Bool) : (clearTags d s f).mem = d.mem := by
  simp [clearTags]

@[simp] theorem walkEnd_mem (d : Dev) (t : Nat) : (walkEnd d t).mem = d.mem := by
  simp [walkEnd]

@[simp] theorem retireBank_mem (d : Dev) (t b : Nat) : (retireBank d t b).mem = d.mem := by
  simp [retireBank]

@[simp] theorem bankWalkEnd_mem (d : Dev) (t b : Nat) : (bankWalkEnd d t b).mem = d.mem := by
  simp [bankWalkEnd]

@[simp] theorem goOnline_mem (d : Dev) (t : Nat) : (goOnline d t).mem = d.mem := by
  simp [goOnline]

@[simp] theorem tileReturn_mem (d : Dev) (i : Nat) (err : Ecc) : (tileReturn d i err).mem = d.mem := by
  unfold tileReturn
  dsimp only
  repeat' split
  all_goals simp

@[simp] theorem noAnswer_mem (d : Dev) (t : Nat) : (noAnswer d t).mem = d.mem := by
  simp [noAnswer]

@[simp] theorem labiIssue_mem (d : Dev) (e form : Nat) (view : BitVec 12) (gran : BitVec 2) (vpn : Nat) :
    (labiIssue d e form view gran vpn).1.mem = d.mem := by
  simp [labiIssue]

@[simp] theorem drainThrough_mem (d : Dev) (l : Nat) (x : LabEntry) : (drainThrough d l x).mem = d.mem := by
  simp [drainThrough]

@[simp] theorem labiEffect_mem (d : Dev) (e id : Nat) : (labiEffect d e id).mem = d.mem := by
  unfold labiEffect
  split <;> simp

@[simp] theorem Dev.setCall_mem (d : Dev) (e : Nat) (c : Option Call) : (Dev.setCall d e c).mem = d.mem := by
  simp [Dev.setCall]

@[simp] theorem callReq_mem (d : Dev) (e line : Nat) (op : Op) (data : Line) (mask : Mask) (device : Bool) :
    (callReq d e line op data mask device).1.mem = d.mem := by
  simp [callReq]

@[simp] theorem preloadReq_mem (d : Dev) (e sector : Nat) (g : BitVec 4) (device stream : Bool) :
    (preloadReq d e sector g device stream).1.mem = d.mem := by
  simp [preloadReq]

@[simp] theorem reserve_mem (d : Dev) (e dpa : Nat) : (reserve d e dpa).mem = d.mem := by
  simp [reserve]

@[simp] theorem rmwTake_mem (d : Dev) (e : Nat) (c : Call) (dpa : Nat) (k : Rmw) (line : Line) (bad : Bool) :
    (rmwTake d e c dpa k line bad).1.mem = d.mem := by
  unfold rmwTake
  try dsimp only
  repeat' split
  all_goals first
    | (simp; done)
    | (have hh := congrArg (fun p => p.1.mem) ‹(_ : Dev × _) = (_, _)›; simp at hh; simp [hh]; done)
    | (simp; repeat' (first | rw [Dev.each_mem] | rw [foldl_mem]); all_goals first | (simp; done) | (intros; repeat' split) <;> simp_all)

@[simp] theorem mvCheck_mem (d : Dev) (e line : Nat) (c : Ecc) : (mvCheck d e line c).mem = d.mem := by
  unfold mvCheck
  repeat' split
  all_goals simp

@[simp] theorem rmwReq_mem (d : Dev) (e : Nat) (c : Call) (dpa : Nat) (k : Rmw) : (rmwReq d e c dpa k).1.mem = d.mem := by
  unfold rmwReq
  try dsimp only
  repeat' split
  all_goals first
    | (simp; done)
    | (have hh := congrArg (fun p => p.1.mem) ‹(_ : Dev × _) = (_, _)›; simp at hh; simp [hh]; done)
    | (simp; repeat' (first | rw [Dev.each_mem] | rw [foldl_mem]); all_goals first | (simp; done) | (intros; repeat' split) <;> simp_all)

@[simp] theorem mvEvict_mem (d : Dev) (e line : Nat) : (mvEvict d e line).mem = d.mem := by
  unfold mvEvict
  split <;> simp

@[simp] theorem callFaultAt_mem (d : Dev) (e dpa : Nat) : (callFaultAt d e dpa).mem = d.mem := by
  simp [callFaultAt]

@[simp] theorem callFault_mem (d : Dev) (e : Nat) (x : Xact) : (callFault d e x).mem = d.mem := by
  unfold callFault
  dsimp only
  split <;> simp

@[simp] theorem mvInstall_mem (d : Dev) (e line : Nat) (data : Line) (poison : Bool) :
    (mvInstall d e line data poison).mem = d.mem := by
  simp [mvInstall]

@[simp] theorem cacheLine_mem (d : Dev) (e i : Nat) : (cacheLine d e i).mem = d.mem := by
  unfold cacheLine
  repeat' split
  all_goals simp

@[simp] theorem reapOne_mem (d : Dev) (e : Nat) (c : Call) (i : Nat) (x : Xact) (data : Line) (poison ok : Bool) :
    (reapOne d e c i x data poison ok).1.mem = d.mem := by
  unfold reapOne
  try dsimp only
  repeat' split
  all_goals first
    | (simp; done)
    | (have hh := congrArg (fun p => p.1.mem) ‹(_ : Dev × _) = (_, _)›; simp at hh; simp [hh]; done)
    | (simp; repeat' (first | rw [Dev.each_mem] | rw [foldl_mem]); all_goals first | (simp; done) | (intros; repeat' split) <;> simp_all)

@[simp] theorem reap_mem (d : Dev) (e : Nat) (c : Call) : (reap d e c).1.mem = d.mem := by
  unfold reap
  rw [foldl_fst_mem]
  intro p a
  repeat' split
  all_goals simp

@[simp] theorem callWaits_mem (d : Dev) (e : Nat) (waits : Bool) : (callWaits d e waits).mem = d.mem := by
  simp [callWaits]

@[simp] theorem issueMany_mem (d : Dev) (c : Call) (n : Nat) (f : Dev → Nat → Dev × Nat) (hf : ∀ d a, (f d a).1.mem = d.mem) :
    (issueMany d c n f).1.mem = d.mem := by
  unfold issueMany
  rw [foldl_fst_mem]
  intro p a
  simp [hf]

@[simp] theorem endCall_mem (d : Dev) (e : Nat) (c : Call) : (endCall d e c).mem = d.mem := by
  unfold endCall
  repeat' split
  all_goals simp

@[simp] theorem dcEvent_mem (d : Dev) (src p m region base : Nat) (accepted : Bool) :
    (dcEvent d src p m region base accepted).mem = d.mem := by
  simp [dcEvent]

@[simp] theorem mailboxDone_mem (d : Dev) (p m op code : Nat) (payload : List Nat) :
    (mailboxDone d p m op code payload).mem = d.mem := by
  simp [mailboxDone]

@[simp] theorem viewBindGo_mem (d : Dev) (c : Call) : (viewBindGo d c).1.mem = d.mem := by
  unfold viewBindGo
  repeat' split
  all_goals simp

@[simp] theorem viewGo_mem (d : Dev) (c : Call) : (viewGo d c).1.mem = d.mem := by
  unfold viewGo
  repeat' split
  all_goals simp

@[simp] theorem loadProgram_mem (d : Dev) (e : Nat) (ps : List (BitVec 32)) : (loadProgram d e ps).mem = d.mem := by
  simp [loadProgram]

@[simp] theorem progGo_mem (d : Dev) (e : Nat) (c : Call) : (progGo d e c).1.mem = d.mem := by
  unfold progGo
  repeat' split
  all_goals simp

@[simp] theorem tileOfflineGo_mem (t : Nat) (d : Dev) (c : Call) : (tileOfflineGo t d c).1.mem = d.mem := by
  unfold tileOfflineGo
  split <;> simp

@[simp] theorem tileOnlineGo_mem (t : Nat) (d : Dev) (c : Call) : (tileOnlineGo t d c).1.mem = d.mem := by
  unfold tileOnlineGo
  split <;> simp

@[simp] theorem tileRetireGo_mem (t : Nat) (d : Dev) (c : Call) : (tileRetireGo t d c).1.mem = d.mem := by
  unfold tileRetireGo
  split <;> simp

@[simp] theorem bankRetireGo_mem (t b : Nat) (d : Dev) (c : Call) : (bankRetireGo t b d c).1.mem = d.mem := by
  unfold bankRetireGo
  repeat' split
  all_goals simp

@[simp] theorem tileGo_mem (d : Dev) (c : Call) : (tileGo d c).1.mem = d.mem := by
  unfold tileGo
  dsimp only
  repeat' split
  all_goals simp

@[simp] theorem runStep_mem (d : Dev) (e : Nat) (c : Call) : (runStep d e c).1.mem = d.mem := by
  unfold runStep
  dsimp only
  repeat' split
  all_goals simp

@[simp] theorem haltMover_mem (d : Dev) (key reason : Nat) (op : MoverOp) : (haltMover d key reason op).mem = d.mem := by
  unfold haltMover
  dsimp only
  repeat' split
  all_goals simp

@[simp] theorem putMover_mem (d : Dev) (key : Nat) (op : MoverOp) : (putMover d key op).mem = d.mem := by
  simp [putMover]

@[simp] theorem countSwept_mem (d : Dev) (ch : Nat) (op : MoverOp) (code : Nat) : (countSwept d ch op code).mem = d.mem := by
  unfold countSwept
  split <;> simp

@[simp] theorem settleMover_mem (d : Dev) (key : Nat) : (settleMover d key).mem = d.mem := by
  unfold settleMover
  repeat' split
  all_goals simp

@[simp] theorem moverRead_mem (d : Dev) (key : Nat) (staging : Ecc) : (moverRead d key staging).mem = d.mem := by
  unfold moverRead
  split <;> simp

@[simp] theorem backToUser_mem (d : Dev) (e : Nat) : (backToUser d e).mem = d.mem := by
  simp [backToUser]

@[simp] theorem endRun_mem (d : Dev) (e status : Nat) (ws : List Word) : (endRun d e status ws).mem = d.mem := by
  unfold endRun
  split <;> simp

@[simp] theorem labwPut_mem (d : Dev) (l : Nat) (view : BitVec 12) (gran : BitVec 2) (vpn : Nat) (p : Pte) (lock : Bool) :
    (labwPut d l view gran vpn p lock).1.mem = d.mem := by
  unfold labwPut
  dsimp only
  repeat' split
  all_goals simp

@[simp] theorem labwSlot_mem (d : Dev) (e p k : Nat) (put : Option (BitVec 12 × BitVec 2 × Nat × Pte × Bool)) :
    (labwSlot d e p k put).1.mem = d.mem := by
  unfold labwSlot
  repeat' split
  all_goals simp

@[simp] theorem setLabres_mem (d : Dev) (e n : Nat) : (setLabres d e n).mem = d.mem := by
  simp [setLabres]

@[simp] theorem handlerPut_mem (d : Dev) (e l : Nat) (view : BitVec 12) (g n : Nat) (p : Pte) :
    (handlerPut d e l view g n p).mem = d.mem := by
  simp [handlerPut]

@[simp] theorem handlerRead_mem (d : Dev) (e line : Nat) : (handlerRead d e line).mem = d.mem := by
  unfold handlerRead
  dsimp only
  repeat' split
  all_goals simp

@[simp] theorem missReads_mem (d : Dev) (e : Nat) (view : BitVec 12) (va : Nat) :
    (missReads d e view va).mem = d.mem := by
  unfold missReads
  try dsimp only
  repeat' split
  all_goals first
    | (simp; done)
    | (have hh := congrArg (fun p => p.1.mem) ‹(_ : Dev × _) = (_, _)›; simp at hh; simp [hh]; done)
    | (simp; repeat' (first | rw [Dev.each_mem] | rw [foldl_mem]); all_goals first | (simp; done) | (intros; repeat' split) <;> simp_all)

@[simp] theorem handleMiss_mem (d : Dev) (e : Nat) (r : Rec) : (handleMiss d e r).mem = d.mem := by
  unfold handleMiss
  dsimp only
  repeat' split
  all_goals simp

@[simp] theorem handlerTurn_mem (d : Dev) (e : Nat) : (handlerTurn d e).mem = d.mem := by
  unfold handlerTurn
  dsimp only
  repeat' split
  all_goals simp

@[simp] theorem runMiss_mem (d : Dev) (e : Nat) (view : BitVec 12) : (runMiss d e view).mem = d.mem := by
  unfold runMiss
  dsimp only
  repeat' split
  all_goals simp

@[simp] theorem settleRun_mem (d : Dev) (e : Nat) : (settleRun d e).mem = d.mem := by
  unfold settleRun
  dsimp only
  repeat' split
  all_goals simp

@[simp] theorem settleFault_mem (d : Dev) (e : Nat) : (settleFault d e).mem = d.mem := by
  unfold settleFault
  dsimp only
  repeat' split
  all_goals simp

@[simp] theorem settleRecalls_mem (d : Dev) : (settleRecalls d).mem = d.mem := by
  simp [settleRecalls]

@[simp] theorem parkFinish_mem (d : Dev) : (parkFinish d).mem = d.mem := by
  simp [parkFinish]

@[simp] theorem stepLoads_mem (d : Dev) (e : Nat) (c : Call) : (stepLoads d e c).1.mem = d.mem := by
  unfold stepLoads
  dsimp only
  repeat' split
  all_goals simp

@[simp] theorem runCall_mem (e n : Nat) (d : Dev) : (runCall e n d).mem = d.mem := by
  induction n generalizing d with
  | zero => rfl
  | succ n ih =>
    simp only [runCall]
    split
    · rfl
    · rename_i c hc
      have h1 : (reap d e c).1.mem = d.mem := reap_mem d e c
      by_cases hm : (reap d e c).1.missWaits e = true
      · simp [hm, h1]
      · have h3 : (stepLoads (reap d e c).1 e (reap d e c).2).1.mem = d.mem := (stepLoads_mem _ _ _).trans h1
        simp only [hm, Bool.false_eq_true, if_false]
        split
        · rename_i hs
          rw [hs] at h3
          simpa using h3
        · rename_i d2 c2 hs
          rw [hs] at h3
          have h3 : d2.mem = d.mem := h3
          have h2 := runStep_mem d2 e { c2 with reads := [] }
          split
          · rw [ih]
            split <;> simp [h3, h2]
          · split <;> simp [h3, h2]

@[simp] theorem settle_mem (d : Dev) : (settle d).mem = d.mem := by
  unfold settle
  simp only
  rw [Dev.each_mem, Dev.each_mem, Dev.each_mem]
  · split
    · rw [Dev.each_mem, parkFinish_mem, settleRecalls_mem]
      exact fun d k => settleMover_mem d k
    · rfl
  · exact fun d e => settleRun_mem d e
  · exact fun d e => settleFault_mem d e
  · intro d e
    split <;> simp

@[simp] theorem portAnswer_mem (d : Dev) (h : M2S) (l : Ld) (op : Op) : (portAnswer d h l op).mem = d.mem := by
  simp [portAnswer]

@[simp] theorem resignedRequest_mem (d : Dev) (h : M2S) (l : Ld) (op : Op) : (resignedRequest d h l op).mem = d.mem := by
  simp [resignedRequest]

@[simp] theorem recoveryRequest_mem (d : Dev) (h : M2S) (l : Ld) (op : Op) : (recoveryRequest d h l op).mem = d.mem := by
  simp [recoveryRequest]

@[simp] theorem matchedWrite_mem (d : Dev) (h : M2S) (x : Xact) (s : Snoop) (l : Ld) :
    (matchedWrite d h x s l).mem = d.mem := by
  unfold matchedWrite
  dsimp only
  repeat' split
  all_goals simp

@[simp] theorem hostRequest_mem (d : Dev) (h : M2S) (opOf : Bool → Op) (data : Line) (mask : Mask) (poison : Bool) :
    (hostRequest d h opOf data mask poison).mem = d.mem := by
  unfold hostRequest
  dsimp only
  repeat' split
  all_goals simp

@[simp] theorem setRas_mem (d : Dev) (p : Nat) (ld : Option Nat) (bit : Nat) (correctable : Bool) :
    (setRas d p ld bit correctable).mem = d.mem := by
  unfold setRas
  repeat' split
  all_goals simp

@[simp] theorem protocol_mem (d : Dev) (p : Nat) (ld : Option Nat) (bit : Nat) (correctable : Bool) (birsp : Option (BitVec 12)) :
    (protocol d p ld bit correctable birsp).mem = d.mem := by
  simp [protocol]

@[simp] theorem protocolError_mem (d : Dev) (p m : Nat) (a : BitVec 12) : (protocolError d p m a).mem = d.mem := by
  simp [protocolError]

@[simp] theorem birspCounted_mem (d : Dev) (p : Nat) (l : Ld) (line : Option Nat) :
    (birspCounted d p l line).mem = d.mem := by
  unfold birspCounted
  try dsimp only
  repeat' split
  all_goals first
    | (simp; done)
    | (have hh := congrArg (fun p => p.1.mem) ‹(_ : Dev × _) = (_, _)›; simp at hh; simp [hh]; done)
    | (simp; repeat' (first | rw [Dev.each_mem] | rw [foldl_mem]); all_goals first | (simp; done) | (intros; repeat' split) <;> simp_all)

@[simp] theorem birsp_mem (d : Dev) (p m hpa : Nat) (kept : Bool) : (birsp d p m hpa kept).mem = d.mem := by
  unfold birsp
  dsimp only
  repeat' split
  all_goals simp

@[simp] theorem biConflict_mem (d : Dev) (h : M2S) : (biConflict d h).mem = d.mem := by
  unfold biConflict
  dsimp only
  repeat' split
  all_goals simp

@[simp] theorem unreachable_mem (d : Dev) (s : Snoop) : (unreachable d s).mem = d.mem := by
  simp [unreachable]

@[simp] theorem reverseReturn_mem (d : Dev) (p frame : Nat) : (reverseReturn d p frame).mem = d.mem := by
  unfold reverseReturn
  repeat' split
  all_goals simp

@[simp] theorem engineRecall_mem (d : Dev) (e line : Nat) : (engineRecall d e line).mem = d.mem := by
  simp [engineRecall]

@[simp] theorem snoopTimeout_mem (d : Dev) (p : Nat) (a : BitVec 12) (line : Nat) : (snoopTimeout d p a line).mem = d.mem := by
  simp [snoopTimeout]

@[simp] theorem endResignation_mem (d : Dev) (a : BitVec 12) : (endResignation d a).mem = d.mem := by
  unfold endResignation
  split <;> simp

@[simp] theorem resignationPoint_mem (d : Dev) (a : BitVec 12) : (resignationPoint d a).mem = d.mem := by
  unfold resignationPoint
  split <;> simp

@[simp] theorem passStart_mem (d : Dev) : (passStart d).mem = d.mem := by
  simp [passStart]

@[simp] theorem walkRest_mem (d : Dev) (s : Nat) : (walkRest d s).mem = d.mem := by
  simp [walkRest]

@[simp] theorem passEnd_mem (d : Dev) : (passEnd d).mem = d.mem := by
  simp [passEnd]

@[simp] theorem flushEnd_mem (d : Dev) (s dset : Nat) : (flushEnd d s dset).mem = d.mem := by
  simp [flushEnd]

@[simp] theorem flushRecall_mem (d : Dev) (s t : Nat) (f : Flush) (ts : List Target) :
    (flushRecall d s t f ts).mem = d.mem := by
  simp [flushRecall]

@[simp] theorem flushStep_mem (d : Dev) (s : Nat) : (flushStep d s).mem = d.mem := by
  unfold flushStep
  repeat' split
  all_goals simp

@[simp] theorem patrolStart_mem (d : Dev) : (patrolStart d).mem = d.mem := by
  simp [patrolStart]

@[simp] theorem patrolRead_mem (d : Dev) (errs : List PatrolErr) (s c w j : Nat) : (patrolRead d errs s c w j).mem = d.mem := by
  unfold patrolRead
  dsimp only
  repeat' split
  all_goals simp

@[simp] theorem patrolSlice_mem (d : Dev) (errs : List PatrolErr) (s : Nat) : (patrolSlice d errs s).mem = d.mem := by
  simp [patrolSlice]

@[simp] theorem patrolEnd_mem (d : Dev) (errs : List PatrolErr) : (patrolEnd d errs).mem = d.mem := by
  simp [patrolEnd]

@[simp] theorem startTrain_mem (d : Dev) (p : Nat) : (startTrain d p).mem = d.mem := by
  simp [startTrain]

@[simp] theorem linkDown_mem (d : Dev) (p code : Nat) : (linkDown d p code).mem = d.mem := by
  unfold linkDown
  repeat' split
  all_goals simp

@[simp] theorem perstLow_mem (d : Dev) (p : Nat) : (perstLow d p).mem = d.mem := by
  simp [perstLow]

@[simp] theorem raiseDegraded_mem (d : Dev) (p : Nat) :
    (raiseDegraded d p).mem = d.mem := by
  unfold raiseDegraded
  try dsimp only
  repeat' split
  all_goals first
    | (simp; done)
    | (have hh := congrArg (fun p => p.1.mem) ‹(_ : Dev × _) = (_, _)›; simp at hh; simp [hh]; done)
    | (simp; repeat' (first | rw [Dev.each_mem] | rw [foldl_mem]); all_goals first | (simp; done) | (intros; repeat' split) <;> simp_all)

@[simp] theorem reachL0_mem (d : Dev) (p : Nat) (width rate : BitVec 2) (flit256 lopt : Bool) :
    (reachL0 d p width rate flit256 lopt).mem = d.mem := by
  unfold reachL0
  try dsimp only
  repeat' split
  all_goals first
    | (simp; done)
    | (have hh := congrArg (fun p => p.1.mem) ‹(_ : Dev × _) = (_, _)›; simp at hh; simp [hh]; done)
    | (simp; repeat' (first | rw [Dev.each_mem] | rw [foldl_mem]); all_goals first | (simp; done) | (intros; repeat' split) <;> simp_all)

@[simp] theorem replayed_mem (d : Dev) (p : Nat) (err : Option ProtoErr) : (replayed d p err).mem = d.mem := by
  unfold replayed
  split <;> simp

@[simp] theorem pllOut_mem (d : Dev) (i : Nat) :
    (pllOut d i).mem = d.mem := by
  unfold pllOut
  try dsimp only
  repeat' split
  all_goals first
    | (simp; done)
    | (have hh := congrArg (fun p => p.1.mem) ‹(_ : Dev × _) = (_, _)›; simp at hh; simp [hh]; done)
    | (simp; repeat' (first | rw [Dev.each_mem] | rw [foldl_mem]); all_goals first | (simp; done) | (intros; repeat' split) <;> simp_all)

@[simp] theorem pllIn_mem (d : Dev) (i : Nat) :
    (pllIn d i).mem = d.mem := by
  unfold pllIn
  try dsimp only
  repeat' split
  all_goals first
    | (simp; done)
    | (have hh := congrArg (fun p => p.1.mem) ‹(_ : Dev × _) = (_, _)›; simp at hh; simp [hh]; done)
    | (simp; repeat' (first | rw [Dev.each_mem] | rw [foldl_mem]); all_goals first | (simp; done) | (intros; repeat' split) <;> simp_all)

@[simp] theorem refclkGone_mem (d : Dev) (p : Nat) : (refclkGone d p).mem = d.mem := by
  unfold refclkGone
  try dsimp only
  repeat' split
  all_goals first
    | (simp; done)
    | (have hh := congrArg (fun p => p.1.mem) ‹(_ : Dev × _) = (_, _)›; simp at hh; simp [hh]; done)
    | (simp; repeat' (first | rw [Dev.each_mem] | rw [foldl_mem]); all_goals first | (simp; done) | (intros; repeat' split) <;> simp_all)

@[simp] theorem refclkBack_mem (d : Dev) (p : Nat) : (refclkBack d p).mem = d.mem := by
  unfold refclkBack
  try dsimp only
  repeat' split
  all_goals first
    | (simp; done)
    | (have hh := congrArg (fun p => p.1.mem) ‹(_ : Dev × _) = (_, _)›; simp at hh; simp [hh]; done)
    | (simp; repeat' (first | rw [Dev.each_mem] | rw [foldl_mem]); all_goals first | (simp; done) | (intros; repeat' split) <;> simp_all)

@[simp] theorem pllLost_mem (d : Dev) (i : Nat) : (pllLost d i).mem = d.mem := by
  unfold pllLost
  try dsimp only
  repeat' split
  all_goals first
    | (simp; done)
    | (have hh := congrArg (fun p => p.1.mem) ‹(_ : Dev × _) = (_, _)›; simp at hh; simp [hh]; done)
    | (simp; repeat' (first | rw [Dev.each_mem] | rw [foldl_mem]); all_goals first | (simp; done) | (intros; repeat' split) <;> simp_all)

@[simp] theorem attach_mem (d : Dev) (p m : Nat) : (attach d p m).mem = d.mem := by
  simp [attach]

@[simp] theorem commit_mem (d : Dev) (p m base size : Nat) : (commit d p m base size).mem = d.mem := by
  unfold commit
  repeat' split
  all_goals simp

@[simp] theorem detach_mem (d : Dev) (p m : Nat) : (detach d p m).mem = d.mem := by
  unfold detach
  dsimp only
  repeat' split
  all_goals simp

@[simp] theorem memOn_mem (d : Dev) (p m : Nat) : (memOn d p m).mem = d.mem := by
  simp [memOn]

@[simp] theorem uncommit_mem (d : Dev) (p m : Nat) : (uncommit d p m).mem = d.mem := by
  simp [uncommit]

@[simp] theorem localDone_mem (d : Dev) (e len : Nat) (f : Engine → Engine) : (localDone d e len f).mem = d.mem := by
  simp [localDone]

@[simp] theorem branchTo_mem (d : Dev) (e : Nat) (taken : Bool) (off : BitVec 8) (len : Nat) :
    (branchTo d e taken off len).mem = d.mem := by
  simp [branchTo]

@[simp] theorem powerRequest_mem (d : Dev) (o : Origin) (dom : Nat) (on : Bool) : (powerRequest d o dom on).mem = d.mem := by
  simp [powerRequest]

@[simp] theorem evictMview_mem (d : Dev) (e : Nat) : (evictMview d e).mem = d.mem := by
  simp [evictMview]

@[simp] theorem selfRefresh_mem (d : Dev) (m : Nat) : (selfRefresh d m).mem = d.mem := by
  simp [selfRefresh]

@[simp] theorem offPrepare_mem (d : Dev) (dom : Nat) : (offPrepare d dom).mem = d.mem := by
  simp [offPrepare]

@[simp] theorem powerCheck_mem (d : Dev) : (powerCheck d).mem = d.mem := by
  unfold powerCheck
  dsimp only
  repeat' split
  all_goals simp

@[simp] theorem setDomain_mem (d : Dev) (dom : Nat) (on : Bool) : (setDomain d dom on).mem = d.mem := by
  simp [setDomain]

@[simp] theorem pmcLose_mem (d : Dev) (b : Nat) : (pmcLose d b).mem = d.mem := by
  simp [pmcLose]

@[simp] theorem powerDone_mem (d : Dev) (dom : Nat) (on : Bool) : (powerDone d dom on).mem = d.mem := by
  simp [powerDone]

@[simp] theorem startEngine_mem (d : Dev) (e : Nat) (pc : BitVec 14) : (startEngine d e pc).mem = d.mem := by
  simp [startEngine]

@[simp] theorem startQuad_mem (d : Dev) (q : Nat) : (startQuad d q).mem = d.mem := by
  simp [startQuad]

@[simp] theorem onStart_mem (d : Dev) (dom : Nat) : (onStart d dom).mem = d.mem := by
  simp [onStart]

@[simp] theorem onDone_mem (d : Dev) : (onDone d).mem = d.mem := by
  unfold onDone
  split <;> simp

@[simp] theorem takeReading_mem (d : Dev) (i : Nat) (r : Option Int) : (takeReading d i r).mem = d.mem := by
  unfold takeReading
  repeat' split
  all_goals simp

@[simp] theorem thermPin_mem (d : Dev) (i tj : Nat) : (thermPin d i tj).mem = d.mem := by
  simp [thermPin]

@[simp] theorem throttle_mem (d : Dev) (i tj : Nat) : (throttle d i tj).mem = d.mem := by
  simp [throttle]

@[simp] theorem shutdown_mem (d : Dev) (i tj : Nat) : (shutdown d i tj).mem = d.mem := by
  simp [shutdown]

@[simp] theorem sample_mem (d : Dev) (readings : List (Option Int)) : (sample d readings).mem = d.mem := by
  unfold sample
  dsimp only
  repeat' split
  all_goals simp

@[simp] theorem rlogFrom_mem (d : Dev) (i : Nat) (ws : List Word) : (rlogFrom d i ws).mem = d.mem := by
  simp [rlogFrom]

@[simp] theorem resetLog_mem (d : Dev) (src : ResetSrc) : (resetLog d src).mem = d.mem := by
  simp [resetLog]

@[simp] theorem beginReset_mem (d : Dev) (src : ResetSrc) (role origin : Nat) : (beginReset d src role origin).mem = d.mem := by
  simp [beginReset]

@[simp] theorem pinLow_mem (d : Dev) : (pinLow d).mem = d.mem := by
  simp [pinLow]

@[simp] theorem startBegin_mem (d : Dev) : (startBegin d).mem = d.mem := by
  simp [startBegin]

@[simp] theorem pinHigh_mem (d : Dev) (straps : BitVec 4) : (pinHigh d straps).mem = d.mem := by
  simp [pinHigh]

@[simp] theorem fwCommitEntry_mem (d : Dev) (role origin : Nat) : (fwCommitEntry d role origin).mem = d.mem := by
  simp [fwCommitEntry]

@[simp] theorem authFail_mem (d : Dev) (code reason : Nat) (by_ : Signer) (origin : Nat) (mgmt : Bool) (bytes : BitVec 512) :
    (authFail d code reason by_ origin mgmt bytes).mem = d.mem := by
  simp [authFail]

@[simp] theorem releasePorts_mem (d : Dev) : (releasePorts d).mem = d.mem := by
  simp [releasePorts]

@[simp] theorem domainsOn_mem (d : Dev) (l : List Nat) : (domainsOn d l).mem = d.mem := by
  simp [domainsOn]

@[simp] theorem waitForImage_mem (d : Dev) : (waitForImage d).mem = d.mem := by
  simp [waitForImage]

@[simp] theorem bootRom_mem (d : Dev) : (bootRom d).mem = d.mem := by
  simp [bootRom]

@[simp] theorem loadSeed_mem (d : Dev) : (loadSeed d).mem = d.mem := by
  simp [loadSeed]

@[simp] theorem deriveAlias_mem (d : Dev) : (deriveAlias d).mem = d.mem := by
  simp [deriveAlias]

@[simp] theorem loadFuses_mem (d : Dev) : (loadFuses d).mem = d.mem := by
  simp [loadFuses]

@[simp] theorem fuseLoaded_mem (d : Dev) (bad : Option (BitVec 4)) : (fuseLoaded d bad).mem = d.mem := by
  unfold fuseLoaded
  repeat' split
  all_goals simp

@[simp] theorem runFirmware_mem (d : Dev) (b : Bool) : (runFirmware d b).mem = d.mem := by
  simp [runFirmware]

@[simp] theorem fwVerified_mem (d : Dev) (b ok : Bool) : (fwVerified d b ok).mem = d.mem := by
  simp [fwVerified]

@[simp] theorem fwStaged_mem (d : Dev) (origin : Nat) (b : Bool) (old : BitVec 256) (img : FwImage) :
    (fwStaged d origin b old img).mem = d.mem := by
  simp [fwStaged]

@[simp] theorem mctpImage_mem (d : Dev) (img : FwImage) (sigOk : Bool) : (mctpImage d img sigOk).mem = d.mem := by
  simp [mctpImage]

@[simp] theorem applyPort_mem (d : Dev) (p : Package) (n : Nat) : (applyPort d p n).mem = d.mem := by
  unfold applyPort
  try dsimp only
  repeat' split
  all_goals first
    | (simp; done)
    | (have hh := congrArg (fun p => p.1.mem) ‹(_ : Dev × _) = (_, _)›; simp at hh; simp [hh]; done)
    | (simp; repeat' (first | rw [Dev.each_mem] | rw [foldl_mem]); all_goals first | (simp; done) | (intros; repeat' split) <;> simp_all)

@[simp] theorem startTest_mem (d : Dev) (quarter : Bool) (t : Nat) : (startTest d quarter t).mem = d.mem := by
  simp [startTest]

@[simp] theorem tilesOnline_mem (d : Dev) : (tilesOnline d).mem = d.mem := by
  simp [tilesOnline]

@[simp] theorem leaveOff_mem (d : Dev) (ports : BitVec 8) (quads : BitVec 5) : (leaveOff d ports quads).mem = d.mem := by
  simp [leaveOff]

@[simp] theorem repairBank_mem (d : Dev) (t b : Nat) (es : List BistEntry) : (repairBank d t b es).mem = d.mem := by
  simp [repairBank]

@[simp] theorem bistDone_mem (d : Dev) (t result : Nat) : (bistDone d t result).mem = d.mem := by
  simp [bistDone]

@[simp] theorem testEnds_mem (d : Dev) (t : Nat) (r : BistOutcome) : (testEnds d t r).mem = d.mem := by
  simp [testEnds]

@[simp] theorem tagsInvalid_mem (d : Dev) (s : Nat) : (tagsInvalid d s).mem = d.mem := by
  simp [tagsInvalid]

@[simp] theorem openSlice_mem (d : Dev) (s : Nat) : (openSlice d s).mem = d.mem := by
  simp [openSlice]

@[simp] theorem loadPackage_mem (d : Dev) (p : Package) : (loadPackage d p).mem = d.mem := by
  simp [loadPackage]

@[simp] theorem memoryActive_mem (d : Dev) : (memoryActive d).mem = d.mem := by
  simp [memoryActive]

@[simp] theorem parkStart_mem (d : Dev) (pace : BitVec 8) : (parkStart d pace).mem = d.mem := by
  simp [parkStart]

@[simp] theorem parkGo_mem (d : Dev) (o : Origin) (pace : BitVec 8) : (parkGo d o pace).mem = d.mem := by
  simp [parkGo]

@[simp] theorem parkRecallReq_mem (d : Dev) (s line : Nat) : (parkRecallReq d s line).mem = d.mem := by
  simp [parkRecallReq]

@[simp] theorem parkStep_mem (d : Dev) (s : Nat) : (parkStep d s).mem = d.mem := by
  simp [parkStep]

@[simp] theorem regDropped_mem (d : Dev) (o : Origin) (off reason : Nat) (read : Bool) :
    (regDropped d o off reason read).mem = d.mem := by
  unfold regDropped
  split <;> simp

@[simp] theorem narrowWrite_mem (d : Dev) (o : Origin) (off : Nat) : (narrowWrite d o off).mem = d.mem := by
  simp [narrowWrite]

@[simp] theorem writeGlbLock_mem (d : Dev) (o : Origin) (v : Nat) : (writeGlbLock d o v).mem = d.mem := by
  simp [writeGlbLock]

@[simp] theorem writeErrLock_mem (d : Dev) (o : Origin) (v : Nat) : (writeErrLock d o v).mem = d.mem := by
  simp [writeErrLock]

@[simp] theorem glbWrite_mem (d : Dev) (o : Origin) (r v : Nat) : (glbWrite d o r v).mem = d.mem := by
  unfold glbWrite
  split <;> simp

@[simp] theorem prtWrite_mem (d : Dev) (p r v : Nat) : (prtWrite d p r v).mem = d.mem := by
  simp [prtWrite]

@[simp] theorem labWrite_mem (d : Dev) (r v : Nat) : (labWrite d r v).mem = d.mem := by
  unfold labWrite
  repeat' split
  all_goals simp

@[simp] theorem slcCtrl_mem (d : Dev) (s v : Nat) : (slcCtrl d s v).mem = d.mem := by
  simp [slcCtrl]

@[simp] theorem dirWrite_mem (d : Dev) (r v : Nat) : (dirWrite d r v).mem = d.mem := by
  unfold dirWrite
  split <;> simp

@[simp] theorem memWrite_mem (d : Dev) (m r v : Nat) : (memWrite d m r v).mem = d.mem := by
  unfold memWrite
  split <;> simp

@[simp] theorem queCtrl_mem (d : Dev) (o : Origin) (n v : Nat) : (queCtrl d o n v).mem = d.mem := by
  unfold queCtrl
  split <;> simp

@[simp] theorem queHead_mem (d : Dev) (o : Origin) (n v : Nat) (pe : Option (BitVec 2)) : (queHead d o n v pe).mem = d.mem := by
  simp [queHead]

@[simp] theorem queWrite_mem (d : Dev) (o : Origin) (r v : Nat) (pe : Option (BitVec 2)) :
    (queWrite d o r v pe).mem = d.mem := by
  unfold queWrite
  dsimp only
  repeat' split
  all_goals simp

@[simp] theorem evtWrite_mem (d : Dev) (o : Origin) (r v : Nat) (pe : Option Bool) : (evtWrite d o r v pe).mem = d.mem := by
  unfold evtWrite
  repeat' split
  all_goals simp

@[simp] theorem flipCtrl_mem (d : Dev) (v : Nat) : (flipCtrl d v).mem = d.mem := by
  simp [flipCtrl]

@[simp] theorem logFree_mem (d : Dev) (v : Nat) : (logFree d v).mem = d.mem := by
  simp [logFree]

@[simp] theorem errWrite_mem (d : Dev) (o : Origin) (r v : Nat) : (errWrite d o r v).mem = d.mem := by
  unfold errWrite
  split <;> simp

@[simp] theorem pwrWrite_mem (d : Dev) (o : Origin) (r v : Nat) : (pwrWrite d o r v).mem = d.mem := by
  unfold pwrWrite
  split <;> simp

@[simp] theorem pmcGrun_mem (d : Dev) (v : Nat) : (pmcGrun d v).mem = d.mem := by
  simp [pmcGrun]

@[simp] theorem pmcCounter_mem (d : Dev) (b k : Nat) (hi : Bool) (v : Nat) : (pmcCounter d b k hi v).mem = d.mem := by
  simp [pmcCounter]

@[simp] theorem pmcWrite_mem (d : Dev) (r v : Nat) : (pmcWrite d r v).mem = d.mem := by
  unfold pmcWrite
  dsimp only
  repeat' split
  all_goals simp

@[simp] theorem msixWrite_mem (d : Dev) (p m r v : Nat) : (msixWrite d p m r v).mem = d.mem := by
  simp [msixWrite]

@[simp] theorem decoderWrite_mem (d : Dev) (p m v : Nat) :
    (decoderWrite d p m v).mem = d.mem := by
  unfold decoderWrite
  try dsimp only
  repeat' split
  all_goals first
    | (simp; done)
    | (have hh := congrArg (fun p => p.1.mem) ‹(_ : Dev × _) = (_, _)›; simp at hh; simp [hh]; done)
    | (simp; repeat' (first | rw [Dev.each_mem] | rw [foldl_mem]); all_goals first | (simp; done) | (intros; repeat' split) <;> simp_all)

@[simp] theorem fnWrite_mem (d : Dev) (o : Origin) (off v : Nat) : (fnWrite d o off v).mem = d.mem := by
  unfold fnWrite
  try dsimp only
  repeat' split
  all_goals first
    | (simp; done)
    | (have hh := congrArg (fun p => p.1.mem) ‹(_ : Dev × _) = (_, _)›; simp at hh; simp [hh]; done)
    | (simp; repeat' (first | rw [Dev.each_mem] | rw [foldl_mem]); all_goals first | (simp; done) | (intros; repeat' split) <;> simp_all)

@[simp] theorem regEffect_mem (d : Dev) (o : Origin) (off v : Nat) (pe : Option (BitVec 2)) (ev : Option Bool) :
    (regEffect d o off v pe ev).mem = d.mem := by
  unfold regEffect
  repeat' split
  all_goals simp

@[simp] theorem regWrite32_mem (d : Dev) (o : Origin) (off v : Nat) (pe : Option (BitVec 2)) (ev : Option Bool) :
    (regWrite32 d o off v pe ev).mem = d.mem := by
  simp [regWrite32]

@[simp] theorem regWrite64_mem (d : Dev) (o : Origin) (off v : Nat) : (regWrite64 d o off v).mem = d.mem := by
  simp [regWrite64]

@[simp] theorem gated_mem (d : Dev) (o : Origin) (off : Nat) (f : Dev → Dev) (hf : ∀ d, (f d).mem = d.mem) :
    (gated d o off f).mem = d.mem := by
  unfold gated
  try dsimp only
  repeat' split
  all_goals first
    | (simp; done)
    | (rename_i heq; have hh := congrArg (fun p => p.1.mem) heq; simp at hh; simp [hh]; done)
    | (have hh := congrArg (fun p => p.1.mem) ‹(_ : Dev × _) = (_, _)›; simp at hh; simp [hh]; done)
    | (simp_all; done)
    | (simp; repeat' (first | rw [Dev.each_mem] | rw [foldl_mem]); all_goals first | (simp; done) | (intros; repeat' split) <;> simp_all)

@[simp] theorem dwordWrite_mem (d : Dev) (o : Origin) (off v en : Nat) (pe : Option (BitVec 2)) (ev : Option Bool) :
    (dwordWrite d o off v en pe ev).mem = d.mem := by
  simp [dwordWrite]

@[simp] theorem busWriteNow_mem (d : Dev) (o : Origin) (off v : Nat) (size8 : Bool) (en : Nat) (pe : Option (BitVec 2)) (ev : Option Bool) :
    (busWriteNow d o off v size8 en pe ev).mem = d.mem := by
  unfold busWriteNow
  repeat' split
  all_goals first
    | (simp; done)
    | (rw [gated_mem]; intro d; split <;> simp)

@[simp] theorem busWrite_mem (d : Dev) (o : Origin) (off v : Nat) (size8 : Bool) (en : Nat) (pe : Option (BitVec 2)) (ev : Option Bool) :
    (busWrite d o off v size8 en pe ev).mem = d.mem := by
  unfold busWrite
  try dsimp only
  repeat' split
  all_goals first
    | (simp; done)
    | (have hh := congrArg (fun p => p.1.mem) ‹(_ : Dev × _) = (_, _)›; simp at hh; simp [hh]; done)
    | (simp; repeat' (first | rw [Dev.each_mem] | rw [foldl_mem]); all_goals first | (simp; done) | (intros; repeat' split) <;> simp_all)

@[simp] theorem writeReg_mem (d : Dev) (o : Origin) (off : Nat) (v : BitVec 32) : (writeReg d o off v).mem = d.mem := by
  simp [writeReg]

@[simp] theorem pmcOverflow_mem (d : Dev) (b : Nat) : (pmcOverflow d b).mem = d.mem := by
  unfold pmcOverflow
  try dsimp only
  repeat' split
  all_goals first
    | (simp; done)
    | (have hh := congrArg (fun p => p.1.mem) ‹(_ : Dev × _) = (_, _)›; simp at hh; simp [hh]; done)
    | (simp; repeat' (first | rw [Dev.each_mem] | rw [foldl_mem]); all_goals first | (simp; done) | (intros; repeat' split) <;> simp_all)

@[simp] theorem locate_mem (d : Dev) (e : Nat) (c : Ecc) (k : Acc) (atomic : Bool) (wa : Nat) :
    (locate d e c k atomic wa).1.mem = d.mem := by
  unfold locate
  try dsimp only
  repeat' split
  all_goals first
    | (simp; done)
    | (have hh := congrArg (fun p => p.1.mem) ‹(_ : Dev × _) = (_, _)›; simp at hh; simp [hh]; done)
    | (simp; repeat' (first | rw [Dev.each_mem] | rw [foldl_mem]); all_goals first | (simp; done) | (intros; repeat' split) <;> simp_all)

@[simp] theorem endLoad_mem (d : Dev) (e : Nat) (k : LoadKind) (g a : Nat) (upd : Option Info) (dpa : Nat) (ws : List Word) (len : Nat) :
    (endLoad d e k g a upd dpa ws len).mem = d.mem := by
  unfold endLoad
  split <;> simp

@[simp] theorem takeLoad_mem (d : Dev) (e : Nat) (k : LoadKind) (g a : Nat) (upd : Option Info) (addr : Info) (dpa : Nat) (ws : List Word) (len : Nat) :
    (takeLoad d e k g a upd addr dpa ws len).mem = d.mem := by
  unfold takeLoad
  split <;> simp

@[simp] theorem loadWords_mem (d : Dev) (e : Nat) (l : List Loc) (ids : List (Nat × Nat)) : (loadWords d e l ids).1.mem = d.mem := by
  induction l generalizing d ids with
  | nil => rfl
  | cons a l ih =>
    simp only [loadWords]
    repeat' split
    all_goals simp [ih]

@[simp] theorem locateAll_mem (d : Dev) (e : Nat) (c : Ecc) (k : Acc) (atomic : Bool) (l : List Info) :
    (locateAll d e c k atomic l).1.mem = d.mem := by
  induction l generalizing d c with
  | nil => rfl
  | cons a l ih =>
    simp only [locateAll]
    rw [ih]
    exact locate_mem _ _ _ _ _ _

@[simp] theorem loadFrom_mem (d : Dev) (x : Env) (k : LoadKind) (g a : Nat) (upd : Option Info) (addr : Info) (ls : List Loc) (len : Nat) :
    (loadFrom d x k g a upd addr ls len).mem = d.mem := by
  unfold loadFrom
  dsimp only
  repeat' split
  all_goals simp

@[simp] theorem loadMem_mem (d : Dev) (x : Env) (acc : Acc) (k : LoadKind) (g a : Nat) (upd : Option Info) (addr : Info) (n len : Nat) :
    (loadMem d x acc k g a upd addr n len).mem = d.mem := by
  unfold loadMem
  dsimp only
  repeat' split
  all_goals simp

@[simp] theorem endRegLoad_mem (d : Dev) (e off g : Nat) (pair : Bool) (a : Nat) (upd : Option Info) (len : Nat) :
    (endRegLoad d e off g pair a upd len).mem = d.mem := by
  simp [endRegLoad]

@[simp] theorem loadReg_mem (d : Dev) (e g a : Nat) (upd : Option Info) (addr : Info) (pair : Bool) (len : Nat) :
    (loadReg d e g a upd addr pair len).mem = d.mem := by
  simp [loadReg]

@[simp] theorem imemCheck_mem (d : Dev) (e i : Nat) (c : Ecc) (addr : Info) (ok : Dev → Dev) (hok : ∀ d, (ok d).mem = d.mem) :
    (imemCheck d e i c addr ok).mem = d.mem := by
  unfold imemCheck
  try dsimp only
  repeat' split
  all_goals first
    | (simp; done)
    | (rename_i heq; have hh := congrArg (fun p => p.1.mem) heq; simp at hh; simp [hh]; done)
    | (have hh := congrArg (fun p => p.1.mem) ‹(_ : Dev × _) = (_, _)›; simp at hh; simp [hh]; done)
    | (simp_all; done)
    | (simp; repeat' (first | rw [Dev.each_mem] | rw [foldl_mem]); all_goals first | (simp; done) | (intros; repeat' split) <;> simp_all)

@[simp] theorem readLocal_mem (d : Dev) (e : Nat) (cs : List Ecc) (k : Dev → List Word → Dev) (hk : ∀ d ws, (k d ws).mem = d.mem)
    (acc : List Word) (l : List Info) : (readLocal d e cs k acc l).mem = d.mem := by
  induction l generalizing d cs acc with
  | nil => simp [readLocal, hk]
  | cons a l ih =>
    simp only [readLocal]
    split
    · exact scratchCheck_mem _ _ _ _ _ (fun d => ih d _ _)
    · exact imemCheck_mem _ _ _ _ _ _ (fun d => ih d _ _)

@[simp] theorem loadLocal_mem (d : Dev) (x : Env) (k : LoadKind) (g a : Nat) (upd : Option Info) (addr : Info) (n len : Nat) :
    (loadLocal d x k g a upd addr n len).mem = d.mem := by
  unfold loadLocal
  dsimp only
  repeat' split
  all_goals simp

@[simp] theorem putLocal_mem (d : Dev) (e : Nat) (a : Info) (w : Word) : (putLocal d e a w).mem = d.mem := by
  simp [putLocal]

@[simp] theorem loadTile_mem (d : Dev) (e : Nat) (k : LoadKind) (g a : Nat) (upd : Option Info) (addr : Info) (n len : Nat) :
    (loadTile d e k g a upd addr n len).mem = d.mem := by
  simp [loadTile]

@[simp] theorem runLoad_mem (d : Dev) (x : Env) (k : LoadKind) (g a : Nat) (o : OffM) (n : Nat) (update : Bool) :
    (runLoad d x k g a o n update).mem = d.mem := by
  unfold runLoad
  dsimp only
  repeat' split
  all_goals simp

@[simp] theorem storeTo_mem (d : Dev) (e a : Nat) (upd : Option Info) (addr : Info) (ls : List Loc) (ws : List Word) (len : Nat) :
    (storeTo d e a upd addr ls ws len).mem = d.mem := by
  simp [storeTo]

@[simp] theorem storeMem_mem (d : Dev) (x : Env) (nt : Bool) (a : Nat) (upd : Option Info) (addr : Info) (ws : List Word) (len : Nat) :
    (storeMem d x nt a upd addr ws len).mem = d.mem := by
  unfold storeMem
  dsimp only
  repeat' split
  all_goals simp

@[simp] theorem bufferOther_mem (d : Dev) (e a : Nat) (upd : Option Info) (addr : Info) (k : SbKind) (len : Nat) :
    (bufferOther d e a upd addr k len).mem = d.mem := by
  simp [bufferOther]

@[simp] theorem storeReg_mem (d : Dev) (e a : Nat) (upd : Option Info) (addr : Info) (ws : List Word) (len : Nat) :
    (storeReg d e a upd addr ws len).mem = d.mem := by
  simp [storeReg]

@[simp] theorem storeLocal_mem (d : Dev) (e a : Nat) (upd : Option Info) (addr : Info) (ws : List Word) (len : Nat) :
    (storeLocal d e a upd addr ws len).mem = d.mem := by
  unfold storeLocal
  split <;> simp

@[simp] theorem storeTile_mem (d : Dev) (e a : Nat) (upd : Option Info) (addr : Info) (ws : List Word) (len : Nat) :
    (storeTile d e a upd addr ws len).mem = d.mem := by
  simp [storeTile]

@[simp] theorem runStore_mem (d : Dev) (x : Env) (nt : Bool) (g a : Nat) (o : OffM) (n : Nat) (update : Bool) :
    (runStore d x nt g a o n update).mem = d.mem := by
  unfold runStore
  dsimp only
  repeat' split
  all_goals simp

@[simp] theorem runLrp_mem (d : Dev) (x : Env) (g a : Nat) (o : OffM) : (runLrp d x g a o).mem = d.mem := by
  unfold runLrp
  repeat' split
  all_goals simp

@[simp] theorem endScp_mem (d : Dev) (e : Nat) (ok : Bool) (len : Nat) : (endScp d e ok len).mem = d.mem := by
  simp [endScp]

@[simp] theorem scpTo_mem (d : Dev) (e g : Nat) (ls : List Loc) (len : Nat) : (scpTo d e g ls len).mem = d.mem := by
  unfold scpTo
  dsimp only
  repeat' split
  all_goals simp

@[simp] theorem runScp_mem (d : Dev) (x : Env) (g a : Nat) (o : OffM) : (runScp d x g a o).mem = d.mem := by
  unfold runScp
  dsimp only
  repeat' split
  all_goals simp

@[simp] theorem endFence_mem (d : Dev) (e : Nat) (failed : Bool) : (endFence d e failed).mem = d.mem := by
  simp [endFence]

@[simp] theorem endStop_mem (d : Dev) (e : Nat) : (endStop d e).mem = d.mem := by
  simp [endStop]

@[simp] theorem endSvcCmo_mem (d : Dev) (e id : Nat) : (endSvcCmo d e id).mem = d.mem := by
  simp [endSvcCmo]

@[simp] theorem bufferSettle_mem (d : Dev) (e : Nat) : (bufferSettle d e).mem = d.mem := by
  unfold bufferSettle
  dsimp only
  repeat' split
  all_goals simp

@[simp] theorem dropEntry_mem (d : Dev) (e id : Nat) : (dropEntry d e id).mem = d.mem := by
  simp [dropEntry]

@[simp] theorem faultWaiting_mem (d : Dev) (e : Nat) : (faultWaiting d e).mem = d.mem := by
  unfold faultWaiting
  dsimp only
  repeat' split
  all_goals simp

@[simp] theorem storeFails_mem (d : Dev) (e : Nat) (b : SbEntry) : (storeFails d e b).mem = d.mem := by
  simp [storeFails]

@[simp] theorem endEntry_mem (d : Dev) (e : Nat) (b : SbEntry) (ok : Bool) : (endEntry d e b ok).mem = d.mem := by
  simp [endEntry]

@[simp] theorem issued_mem (d : Dev) (e id : Nat) (xids : List Nat) : (issued d e id xids).mem = d.mem := by
  simp [issued]

@[simp] theorem startWrites_mem (d : Dev) (e : Nat) (b : SbEntry) (l : List LineWrite) : (startWrites d e b l).1.mem = d.mem := by
  induction l generalizing d with
  | nil => rfl
  | cons a l ih => simp [startWrites, ih]

@[simp] theorem windowWrite_mem (d : Dev) (off : Nat) (v : BitVec 32) : (windowWrite d off v).mem = d.mem := by
  simp only [windowWrite]
  split
  · split <;> simp
  · rfl

@[simp] theorem putCells_mem (d : Dev) (a : Nat) (v : Pair) (pair : Bool) : (putCells d a v pair).mem = d.mem := by
  simp [putCells]

@[simp] theorem issueEntry_mem (d : Dev) (e : Nat) (b : SbEntry) : (issueEntry d e b).mem = d.mem := by
  unfold issueEntry
  repeat' split
  all_goals simp

@[simp] theorem bufferIssue_mem (d : Dev) (e : Nat) (parityOk : Bool) : (bufferIssue d e parityOk).mem = d.mem := by
  unfold bufferIssue
  repeat' split
  all_goals simp

@[simp] theorem beyondLimit_mem (d : Dev) (e dpa : Nat) : (beyondLimit d e dpa).mem = d.mem := by
  simp [beyondLimit]

@[simp] theorem completeEntry_mem (d : Dev) (e : Nat) (b : SbEntry) : (completeEntry d e b).mem = d.mem := by
  unfold completeEntry
  repeat' split
  all_goals simp

@[simp] theorem scpAnswer_mem (d : Dev) (e id len : Nat) : (scpAnswer d e id len).mem = d.mem := by
  unfold scpAnswer
  repeat' split
  all_goals simp

@[simp] theorem storeComplete_mem (d : Dev) (e id : Nat) : (storeComplete d e id).mem = d.mem := by
  unfold storeComplete
  repeat' split
  all_goals simp

@[simp] theorem orphan_mem (d : Dev) (i : Nat) : (orphan d i).mem = d.mem := by
  unfold orphan
  repeat' split
  all_goals simp

@[simp] theorem callLate_mem (d : Dev) (e i : Nat) (c : Call) :
    (callLate d e i c).1.mem = d.mem := by
  unfold callLate
  try dsimp only
  repeat' split
  all_goals first
    | (simp; done)
    | (have hh := congrArg (fun p => p.1.mem) ‹(_ : Dev × _) = (_, _)›; simp at hh; simp [hh]; done)
    | (simp; repeat' (first | rw [Dev.each_mem] | rw [foldl_mem]); all_goals first | (simp; done) | (intros; repeat' split) <;> simp_all)

@[simp] theorem callTimeout_mem (d : Dev) (e id : Nat) :
    (callTimeout d e id).mem = d.mem := by
  unfold callTimeout
  try dsimp only
  repeat' split
  all_goals first
    | (simp; done)
    | (have hh := congrArg (fun p => p.1.mem) ‹(_ : Dev × _) = (_, _)›; simp at hh; simp [hh]; done)
    | (simp; repeat' (first | rw [Dev.each_mem] | rw [foldl_mem]); all_goals first | (simp; done) | (intros; repeat' split) <;> simp_all)

@[simp] theorem storeTimeout_mem (d : Dev) (e id : Nat) : (storeTimeout d e id).mem = d.mem := by
  unfold storeTimeout
  try dsimp only
  repeat' split
  all_goals first
    | (simp; done)
    | (have hh := congrArg (fun p => p.1.mem) ‹(_ : Dev × _) = (_, _)›; simp at hh; simp [hh]; done)
    | (simp; repeat' (first | rw [Dev.each_mem] | rw [foldl_mem]); all_goals first | (simp; done) | (intros; repeat' split) <;> simp_all)

@[simp] theorem loadReturn_mem (d : Dev) (e : Nat) : (loadReturn d e).mem = d.mem := by
  unfold loadReturn
  split <;> simp

@[simp] theorem loadTimeout_mem (d : Dev) (e : Nat) : (loadTimeout d e).mem = d.mem := by
  unfold loadTimeout
  split <;> simp

@[simp] theorem accessTimeout_mem (d : Dev) (o : Origin) (off : Nat) (read : Bool) :
    (accessTimeout d o off read).mem = d.mem := by
  unfold accessTimeout
  dsimp only
  repeat' split
  all_goals simp

@[simp] theorem expire_mem (d : Dev) (e : Nat) : (expire d e).mem = d.mem := by
  unfold expire
  split <;> simp

@[simp] theorem waitLimit_mem (d : Dev) (e : Nat) : (waitLimit d e).mem = d.mem := by
  unfold waitLimit
  split <;> simp

@[simp] theorem wakeArrival_mem (d : Dev) (e : Nat) (parityOk : Bool) : (wakeArrival d e parityOk).mem = d.mem := by
  unfold wakeArrival
  split <;> simp

@[simp] theorem budgetTrap_mem (d : Dev) (e : Nat) : (budgetTrap d e).mem = d.mem := by
  simp [budgetTrap]

@[simp] theorem runFence_mem (d : Dev) (e : Nat) (arg : BitVec 6) : (runFence d e arg).mem = d.mem := by
  simp [runFence]

@[simp] theorem runTrap_mem (d : Dev) (e : Nat) (arg : BitVec 6) : (runTrap d e arg).mem = d.mem := by
  simp [runTrap]

@[simp] theorem returnTrap_mem (d : Dev) (e : Nat) : (returnTrap d e).mem = d.mem := by
  simp [returnTrap]

@[simp] theorem runStop_mem (d : Dev) (e : Nat) : (runStop d e).mem = d.mem := by
  simp [runStop]

@[simp] theorem clearEffects_mem (d : Dev) (e : Nat) : (clearEffects d e).mem = d.mem := by
  simp [clearEffects]

@[simp] theorem runLabsync_mem (d : Dev) (e : Nat) : (runLabsync d e).mem = d.mem := by
  simp [runLabsync]

@[simp] theorem runEwait_mem (d : Dev) (e g : Nat) : (runEwait d e g).mem = d.mem := by
  simp [runEwait]

@[simp] theorem readDesc_mem (d : Dev) (x : Env) (addr : Info) (n : Nat) (k : Dev → List Word → Dev) (hk : ∀ d a, (k d a).mem = d.mem) :
    (readDesc d x addr n k).mem = d.mem := by
  unfold readDesc
  dsimp only
  repeat' split
  all_goals simp_all

@[simp] theorem enterOp_mem (d : Dev) (e : Nat) (b : SbEntry) : (enterOp d e b).mem = d.mem := by
  simp [enterOp]

@[simp] theorem runLabi_mem (d : Dev) (x : Env) (form : BitVec 2) (addr : Info) : (runLabi d x form addr).mem = d.mem := by
  simp [runLabi]

@[simp] theorem runCmo_mem (d : Dev) (x : Env) (kind : BitVec 2) (sw : Bool) (a : Nat) (coh unlock : Bool) (g : Nat) :
    (runCmo d x kind sw a coh unlock g).mem = d.mem := by
  unfold runCmo
  dsimp only
  repeat' split
  all_goals simp

@[simp] theorem runZero_mem (d : Dev) (x : Env) (a : Nat) : (runZero d x a).mem = d.mem := by
  unfold runZero
  dsimp only
  repeat' split
  all_goals simp

@[simp] theorem runQpop_mem (d : Dev) (x : Env) (nb : Bool) (a g : Nat) : (runQpop d x nb a g).mem = d.mem := by
  unfold runQpop
  dsimp only
  repeat' split
  all_goals simp

@[simp] theorem pushOrWait_mem (d : Dev) (e n : Nat) (ws : List Word) : (pushOrWait d e n ws).mem = d.mem := by
  simp [pushOrWait]

@[simp] theorem runQpush_mem (d : Dev) (x : Env) (a g : Nat) : (runQpush d x a g).mem = d.mem := by
  simp [runQpush]

@[simp] theorem runIfill_mem (d : Dev) (x : Env) (a g : Nat) : (runIfill d x a g).mem = d.mem := by
  unfold runIfill
  dsimp only
  repeat' split
  all_goals simp

@[simp] theorem endLabw_mem (d : Dev) (e r : Nat) : (endLabw d e r).mem = d.mem := by
  simp [endLabw]

@[simp] theorem labwArrives_mem (d : Dev) (e : Nat) (ws : List Word) : (labwArrives d e ws).mem = d.mem := by
  unfold labwArrives
  dsimp only
  repeat' split
  all_goals simp

@[simp] theorem labsyncEnds_mem (d : Dev) (e : Nat) : (labsyncEnds d e).mem = d.mem := by
  unfold labsyncEnds
  dsimp only
  repeat' split
  all_goals simp

@[simp] theorem slotWriteNow_mem (d : Dev) (o : Origin) (n cell slot : Nat) (v : BitVec 32) (en : BitVec 4) (parityOk : Bool) (ptrErr : Option (BitVec 2)) :
    (slotWriteNow d o n cell slot v en parityOk ptrErr).mem = d.mem := by
  unfold slotWriteNow
  try dsimp only
  repeat' split
  all_goals first
    | (simp; done)
    | (have hh := congrArg (fun p => p.1.mem) ‹(_ : Dev × _) = (_, _)›; simp at hh; simp [hh]; done)
    | (simp; repeat' (first | rw [Dev.each_mem] | rw [foldl_mem]); all_goals first | (simp; done) | (intros; repeat' split) <;> simp_all)

@[simp] theorem slotWrite_mem (d : Dev) (o : Origin) (n cell slot : Nat) (v : BitVec 32) (en : BitVec 4) (parityOk : Bool) (ptrErr : Option (BitVec 2)) :
    (slotWrite d o n cell slot v en parityOk ptrErr).mem = d.mem := by
  unfold slotWrite
  try dsimp only
  repeat' split
  all_goals first
    | (simp; done)
    | (have hh := congrArg (fun p => p.1.mem) ‹(_ : Dev × _) = (_, _)›; simp at hh; simp [hh]; done)
    | (simp; repeat' (first | rw [Dev.each_mem] | rw [foldl_mem]); all_goals first | (simp; done) | (intros; repeat' split) <;> simp_all)

@[simp] theorem moderate_mem (d : Dev) (isEvq : Bool) (n : Nat) : (moderate d isEvq n).mem = d.mem := by
  simp [moderate]

@[simp] theorem service_mem (d : Dev) (e n : Nat) (f : Dev → Dev) (hf : ∀ d, (f d).mem = d.mem) :
    (service d e n f).mem = d.mem := by
  unfold service
  try dsimp only
  repeat' split
  all_goals first
    | (simp; done)
    | (rename_i heq; have hh := congrArg (fun p => p.1.mem) heq; simp at hh; simp [hh]; done)
    | (have hh := congrArg (fun p => p.1.mem) ‹(_ : Dev × _) = (_, _)›; simp at hh; simp [hh]; done)
    | (simp_all; done)
    | (simp; repeat' (first | rw [Dev.each_mem] | rw [foldl_mem]); all_goals first | (simp; done) | (intros; repeat' split) <;> simp_all)

@[simp] theorem svcReturn_mem (d : Dev) (e : Nat) (status : Word) : (svcReturn d e status).mem = d.mem := by
  simp [svcReturn]

@[simp] theorem svcExit_mem (d : Dev) (e : Nat) : (svcExit d e).mem = d.mem := by
  simp [svcExit]

@[simp] theorem svcLine_mem (d : Dev) (e : Nat) : (svcLine d e).1.mem = d.mem := by
  unfold svcLine
  try dsimp only
  repeat' split
  all_goals first
    | (simp; done)
    | (have hh := congrArg (fun p => p.1.mem) ‹(_ : Dev × _) = (_, _)›; simp at hh; simp [hh]; done)
    | (simp; repeat' (first | rw [Dev.each_mem] | rw [foldl_mem]); all_goals first | (simp; done) | (intros; repeat' split) <;> simp_all)

@[simp] theorem svcCmo_mem (d : Dev) (e : Nat) : (svcCmo d e).mem = d.mem := by
  unfold svcCmo
  dsimp only
  split
  · simp
  · split
    · rfl
    · split
      · simp
      · have h : (svcLine d e).1.mem = d.mem := by simp
        revert h
        rcases svcLine d e with ⟨d1, l⟩
        intro h
        cases l <;> simpa using h

@[simp] theorem svcLabi_mem (d : Dev) (e : Nat) : (svcLabi d e).mem = d.mem := by
  simp [svcLabi]

@[simp] theorem svcLabsync_mem (d : Dev) (e : Nat) : (svcLabsync d e).mem = d.mem := by
  simp [svcLabsync]

theorem beginCall_mem (d : Dev) (k : CallCtx) (code : Nat) (n : List Word → Nat) (f : List Word → Dev → Call → Dev × Call)
    (hf : ∀ ws d c, (f ws d c).1.mem = d.mem) : (beginCall d k code n f).mem = d.mem := by
  unfold beginCall
  dsimp only
  split
  · rfl
  · split <;> simp [hf]

@[simp] theorem beginRange_mem (d : Dev) (k : CallCtx) (code n : Nat) (noCoh : Bool) :
    (beginRange d k code n noCoh).mem = d.mem := by
  unfold beginRange
  apply beginCall_mem
  intro ws d c
  dsimp only
  split <;> rfl

@[simp] theorem invalAllGo_mem (ws : List Word) (d : Dev) (c : Call) : (invalAllGo ws d c).1.mem = d.mem := by
  unfold invalAllGo
  dsimp only
  repeat' split
  all_goals simp

@[simp] theorem maintSetwayGo_mem (ws : List Word) (d : Dev) (c : Call) : (maintSetwayGo ws d c).1.mem = d.mem := by
  unfold maintSetwayGo
  dsimp only
  repeat' split
  all_goals simp

@[simp] theorem lockPreloadGo_mem (ws : List Word) (d : Dev) (c : Call) : (lockPreloadGo ws d c).1.mem = d.mem := by
  unfold lockPreloadGo
  dsimp only
  repeat' split
  all_goals simp

@[simp] theorem viewCreateArgs_mem (ws : List Word) (d : Dev) (c : Call) : (viewCreateArgs ws d c).1.mem = d.mem := by
  unfold viewCreateArgs
  dsimp only
  repeat' split
  all_goals simp

@[simp] theorem viewBindArgs_mem (ws : List Word) (d : Dev) (c : Call) : (viewBindArgs ws d c).1.mem = d.mem := by
  simp [viewBindArgs]

@[simp] theorem viewRemapGo_mem (ws : List Word) (d : Dev) (c : Call) : (viewRemapGo ws d c).1.mem = d.mem := by
  unfold viewRemapGo
  dsimp only
  repeat' split
  all_goals simp

@[simp] theorem resignGo_mem (ws : List Word) (d : Dev) (c : Call) : (resignGo ws d c).1.mem = d.mem := by
  unfold resignGo
  dsimp only
  repeat' split
  all_goals simp

@[simp] theorem tileCall_mem (ws : List Word) (d : Dev) (c : Call) : (tileCall ws d c).1.mem = d.mem := by
  simp [tileCall]

@[simp] theorem parkCall_mem (ws : List Word) (d : Dev) (c : Call) : (parkCall ws d c).1.mem = d.mem := by
  unfold parkCall
  split <;> simp

@[simp] theorem progLoadGo_mem (e : Nat) (ws : List Word) (d : Dev) (c : Call) : (progLoadGo e ws d c).1.mem = d.mem := by
  unfold progLoadGo
  dsimp only
  repeat' split
  all_goals simp

@[simp] theorem progRunGo_mem (e : Nat) (ws : List Word) (d : Dev) (c : Call) : (progRunGo e ws d c).1.mem = d.mem := by
  unfold progRunGo
  dsimp only
  repeat' split
  all_goals simp

@[simp] theorem progFreeGo_mem (e : Nat) (ws : List Word) (d : Dev) (c : Call) : (progFreeGo e ws d c).1.mem = d.mem := by
  unfold progFreeGo
  split <;> simp

@[simp] theorem dcAddArgs_mem (ws : List Word) (d : Dev) (c : Call) : (dcAddArgs ws d c).1.mem = d.mem := by
  unfold dcAddArgs
  dsimp only
  repeat' split
  all_goals simp

@[simp] theorem dcReleaseGo_mem (ws : List Word) (d : Dev) (c : Call) : (dcReleaseGo ws d c).1.mem = d.mem := by
  unfold dcReleaseGo
  dsimp only
  repeat' split
  all_goals simp

@[simp] theorem mbx_mem (d : Dev) (b : Mbx) (op : Nat) (f : Dev → Dev × Nat × List Nat) (hf : ∀ d, (f d).1.mem = d.mem) :
    (mbx d b op f).mem = d.mem := by
  unfold mbx
  dsimp only
  repeat' split
  all_goals simp_all

@[simp] theorem mbxRead_mem (d : Dev) (b : Mbx) (op : Nat) (payload : Dev → List Nat) :
    (mbxRead d b op payload).mem = d.mem := by
  simp [mbxRead]

@[simp] theorem mbxQ0_mem (d : Dev) (b : Mbx) (f : Dev → Dev) (hf : ∀ d, (f d).mem = d.mem) : (mbxQ0 d b f).mem = d.mem := by
  unfold mbxQ0
  try dsimp only
  repeat' split
  all_goals first
    | (simp; done)
    | (rename_i heq; have hh := congrArg (fun p => p.1.mem) heq; simp at hh; simp [hh]; done)
    | (have hh := congrArg (fun p => p.1.mem) ‹(_ : Dev × _) = (_, _)›; simp at hh; simp [hh]; done)
    | (simp_all; done)
    | (simp; repeat' (first | rw [Dev.each_mem] | rw [foldl_mem]); all_goals first | (simp; done) | (intros; repeat' split) <;> simp_all)

@[simp] theorem clearRecords_mem (d : Dev) (b : Mbx) (n : Nat) : (clearRecords d b n).1.mem = d.mem := by
  unfold clearRecords
  split <;> simp

@[simp] theorem rewriteLine_mem (d : Dev) (b : Mbx) (op va : Nat) (data : Line) (poison : Bool) :
    (rewriteLine d b op va data poison).mem = d.mem := by
  unfold rewriteLine
  apply mbxQ0_mem
  intro d
  dsimp only
  generalize (if d.inService then d.ldDpa b.port.val b.ld.val va else none) = o
  cases o <;> simp

@[simp] theorem setStamp_mem (d : Dev) (t : BitVec 64) : (setStamp d t).mem = d.mem := by
  simp [setStamp]

@[simp] theorem transferFw_mem (d : Dev) (b : Mbx) (img : FwImage) : (transferFw d b img).mem = d.mem := by
  simp [transferFw]

@[simp] theorem stageVerified_mem (d : Dev) (ok : Bool) : (stageVerified d ok).mem = d.mem := by
  unfold stageVerified
  split <;> simp

@[simp] theorem activateFw_mem (d : Dev) (b : Mbx) (online : Bool) : (activateFw d b online).mem = d.mem := by
  simp [activateFw]

@[simp] theorem commitWritten_mem (d : Dev) : (commitWritten d).mem = d.mem := by
  unfold commitWritten
  split <;> simp

@[simp] theorem dcResponse_mem (d : Dev) (p m : Nat) (xs : List Extent) : (dcResponse d p m xs).mem = d.mem := by
  simp [dcResponse]

@[simp] theorem dcReleaseHost_mem (d : Dev) (b : Mbx) (x : Extent) : (dcReleaseHost d b x).mem = d.mem := by
  unfold dcReleaseHost
  apply mbxQ0_mem
  intro d
  dsimp only
  split <;> simp

@[simp] theorem issueNonce_mem (d : Dev) (value : BitVec 256) : (issueNonce d value).1.mem = d.mem := by
  simp [issueNonce]

@[simp] theorem packageRefused_mem (d : Dev) (reason origin : Nat) (mgmt : Bool) (p : Package) (q : Signed) :
    (packageRefused d reason origin mgmt p q).mem = d.mem := by
  simp [packageRefused]

@[simp] theorem replyTo_mem (d : Dev) (b : Option Mbx) (op code : Nat) (payload : List Nat) :
    (replyTo d b op code payload).mem = d.mem := by
  unfold replyTo
  split <;> simp

@[simp] theorem authorizeQueued_mem (d : Dev) (b : Option Mbx) (p : Package) (q : Signed) (pkgSigOk : Bool) :
    (authorizeQueued d b p q pkgSigOk).mem = d.mem := by
  unfold authorizeQueued
  try dsimp only
  repeat' split
  all_goals first
    | (simp; done)
    | (have hh := congrArg (fun p => p.1.mem) ‹(_ : Dev × _) = (_, _)›; simp at hh; simp [hh]; done)
    | (simp; repeat' (first | rw [Dev.each_mem] | rw [foldl_mem]); all_goals first | (simp; done) | (intros; repeat' split) <;> simp_all)

@[simp] theorem deliverPiece_mem (d : Dev) (b : Option Mbx) (eid : BitVec 8) (last : Option (Package × Signed)) (pkgSigOk : Bool) :
    (deliverPiece d b eid last pkgSigOk).mem = d.mem := by
  unfold deliverPiece
  try dsimp only
  repeat' split
  all_goals first
    | (simp; done)
    | (have hh := congrArg (fun p => p.1.mem) ‹(_ : Dev × _) = (_, _)›; simp at hh; simp [hh]; done)
    | (simp; repeat' (first | rw [Dev.each_mem] | rw [foldl_mem]); all_goals first | (simp; done) | (intros; repeat' split) <;> simp_all)

@[simp] theorem packageDelivered_mem (d : Dev) (b : Option Mbx) (eid : BitVec 8) (last : Option (Package × Signed)) (pkgSigOk : Bool) :
    (packageDelivered d b eid last pkgSigOk).mem = d.mem := by
  unfold packageDelivered
  try dsimp only
  repeat' split
  all_goals first
    | (simp; done)
    | (have hh := congrArg (fun p => p.1.mem) ‹(_ : Dev × _) = (_, _)›; simp at hh; simp [hh]; done)
    | (simp; repeat' (first | rw [Dev.each_mem] | rw [foldl_mem]); all_goals first | (simp; done) | (intros; repeat' split) <;> simp_all)

@[simp] theorem packageFails_mem (d : Dev) (b : Option Mbx) :
    (packageFails d b).mem = d.mem := by
  unfold packageFails
  try dsimp only
  repeat' split
  all_goals first
    | (simp; done)
    | (have hh := congrArg (fun p => p.1.mem) ‹(_ : Dev × _) = (_, _)›; simp at hh; simp [hh]; done)
    | (simp; repeat' (first | rw [Dev.each_mem] | rw [foldl_mem]); all_goals first | (simp; done) | (intros; repeat' split) <;> simp_all)

@[simp] theorem packageVerified_mem (d : Dev) (b : Option Mbx) (p : Package) (q : Signed) (pkgSigOk current : Bool) :
    (packageVerified d b p q pkgSigOk current).mem = d.mem := by
  unfold packageVerified
  try dsimp only
  repeat' split
  all_goals first
    | (simp; done)
    | (have hh := congrArg (fun p => p.1.mem) ‹(_ : Dev × _) = (_, _)›; simp at hh; simp [hh]; done)
    | (simp; repeat' (first | rw [Dev.each_mem] | rw [foldl_mem]); all_goals first | (simp; done) | (intros; repeat' split) <;> simp_all)

@[simp] theorem fmAnswer_mem (d : Dev) (p : Nat) (f : Dev → Dev × List Nat) (hf : ∀ d, (f d).1.mem = d.mem) :
    (fmAnswer d p f).mem = d.mem := by
  unfold fmAnswer
  dsimp only
  repeat' split
  all_goals simp_all

@[simp] theorem setShares_mem (d : Dev) (p : Nat) (shares : List (BitVec 8)) : (setShares d p shares).mem = d.mem := by
  simp [setShares]

@[simp] theorem doeDone_mem (d : Dev) (p m ty : Nat) (payload : List Nat) : (doeDone d p m ty payload).mem = d.mem := by
  simp [doeDone]

@[simp] theorem spdmSend_mem (d : Dev) (q : SpdmReq) : (spdmSend d q).mem = d.mem := by
  unfold spdmSend
  split <;> simp

@[simp] theorem spdmPump_mem (l : List SpdmReq) (d : Dev) : (spdmPump l d).mem = d.mem := by
  induction l generalizing d with
  | nil => simp [spdmPump]
  | cons q l ih =>
    simp only [spdmPump]
    split <;> simp [ih]

@[simp] theorem spdmRequest_mem (d : Dev) (q : SpdmReq) : (spdmRequest d q).mem = d.mem := by
  simp [spdmRequest]

@[simp] theorem spdmSigned_mem (d : Dev) : (spdmSigned d).mem = d.mem := by
  unfold spdmSigned
  split <;> simp

@[simp] theorem nonceGiven_mem (d : Dev) (value : BitVec 256) : (nonceGiven d value).mem = d.mem := by
  simp [nonceGiven]

@[simp] theorem signedRequest_mem (d : Dev) (r : SReq) (q : Signed) : (signedRequest d r q).mem = d.mem := by
  simp [signedRequest]

@[simp] theorem requestTaken_mem (d : Dev) (r : SReq) (q : Signed) (current : Bool) :
    (requestTaken d r q current).mem = d.mem := by
  unfold requestTaken
  try dsimp only
  repeat' split
  all_goals first
    | (simp; done)
    | (have hh := congrArg (fun p => p.1.mem) ‹(_ : Dev × _) = (_, _)›; simp at hh; simp [hh]; done)
    | (simp; repeat' (first | rw [Dev.each_mem] | rw [foldl_mem]); all_goals first | (simp; done) | (intros; repeat' split) <;> simp_all)

@[simp] theorem signatureVerified_mem (d : Dev) : (signatureVerified d).mem = d.mem := by
  unfold signatureVerified
  try dsimp only
  repeat' split
  all_goals first
    | (simp; done)
    | (have hh := congrArg (fun p => p.1.mem) ‹(_ : Dev × _) = (_, _)›; simp at hh; simp [hh]; done)
    | (simp; repeat' (first | rw [Dev.each_mem] | rw [foldl_mem]); all_goals first | (simp; done) | (intros; repeat' split) <;> simp_all)

@[simp] theorem fuseChanged_mem (d : Dev) (bank : Nat) : (fuseChanged d bank).mem = d.mem := by
  simp [fuseChanged]

@[simp] theorem planFuses_mem (d : Dev) (t : Nat) (es : List BistEntry) : (planFuses d t es).mem = d.mem := by
  simp [planFuses]

@[simp] theorem clearRetired_mem (d : Dev) (t b : Nat) (whole : Bool) : (clearRetired d t b whole).mem = d.mem := by
  simp [clearRetired]

@[simp] theorem journalDurable_mem (d : Dev) (c : Change) : (journalDurable d c).mem = d.mem := by
  simp [journalDurable]

@[simp] theorem flashFails_mem (d : Dev) : (flashFails d).mem = d.mem := by
  simp [flashFails]

@[simp] theorem dropAuthority_mem (d : Dev) : (dropAuthority d).mem = d.mem := by
  simp [dropAuthority]

@[simp] theorem durableChange_mem (d : Dev) (x : Durable) (d' : Dev) : ((durableChange d x).2 d').mem = d'.mem := by
  unfold durableChange
  dsimp only
  split <;> simp

@[simp] theorem durableWritten_mem (d : Dev) (ok : Bool) : (durableWritten d ok).mem = d.mem := by
  unfold durableWritten
  repeat' split
  all_goals simp

@[simp] theorem mirror_mem (d : Dev) (count : Nat) (ok : Bool) : (mirror d count ok).mem = d.mem := by
  simp [mirror]

@[simp] theorem testAnswer_mem (d : Dev) (status : Nat) : (testAnswer d status).mem = d.mem := by
  simp [testAnswer]

@[simp] theorem tileTestAsked_mem (d : Dev) (t : Nat) : (tileTestAsked d t).mem = d.mem := by
  simp [tileTestAsked]

@[simp] theorem hubTestAsked_mem (d : Dev) : (hubTestAsked d).mem = d.mem := by
  simp [hubTestAsked]

@[simp] theorem retrainAsked_mem (d : Dev) (c : Nat) (kind : TrainKind) : (retrainAsked d c kind).mem = d.mem := by
  unfold retrainAsked
  try dsimp only
  repeat' split
  all_goals first
    | (simp; done)
    | (have hh := congrArg (fun p => p.1.mem) ‹(_ : Dev × _) = (_, _)›; simp at hh; simp [hh]; done)
    | (simp; repeat' (first | rw [Dev.each_mem] | rw [foldl_mem]); all_goals first | (simp; done) | (intros; repeat' split) <;> simp_all)

@[simp] theorem i3cAssign_mem (d : Dev) (a : BitVec 7) : (i3cAssign d a).mem = d.mem := by
  simp [i3cAssign]

@[simp] theorem i3cAnswer_mem (d : Dev) (v : Nat) : (i3cAnswer d v).mem = d.mem := by
  simp [i3cAnswer]

@[simp] theorem jtagLoad_mem (d : Dev) (n : Nat) : (jtagLoad d n).mem = d.mem := by
  simp [jtagLoad]

@[simp] theorem snapshotDone_mem (d : Dev) : (snapshotDone d).mem = d.mem := by
  simp [snapshotDone]

@[simp] theorem tickBlock_mem (d : Dev) (b : Nat) : (tickBlock d b).mem = d.mem := by
  simp [tickBlock]

@[simp] theorem tickDev_mem (d : Dev) : (tickDev d).mem = d.mem := by
  simp [tickDev]

@[simp] theorem loseRecords_mem (d : Dev) (dom : Nat) : (loseRecords d dom).mem = d.mem := by
  simp [loseRecords]

@[simp] theorem commitFails_mem (d : Dev) (origin : BitVec 16) : (commitFails d origin).mem = d.mem := by
  unfold commitFails
  try dsimp only
  repeat' split
  all_goals first
    | (simp; done)
    | (have hh := congrArg (fun p => p.1.mem) ‹(_ : Dev × _) = (_, _)›; simp at hh; simp [hh]; done)
    | (simp; repeat' (first | rw [Dev.each_mem] | rw [foldl_mem]); all_goals first | (simp; done) | (intros; repeat' split) <;> simp_all)

@[simp] theorem holdInconsistent_mem (d : Dev) : (holdInconsistent d).mem = d.mem := by
  unfold holdInconsistent
  try dsimp only
  repeat' split
  all_goals first
    | (simp; done)
    | (have hh := congrArg (fun p => p.1.mem) ‹(_ : Dev × _) = (_, _)›; simp at hh; simp [hh]; done)
    | (simp; repeat' (first | rw [Dev.each_mem] | rw [foldl_mem]); all_goals first | (simp; done) | (intros; repeat' split) <;> simp_all)

end Sys2Proof.Machine
end

