-- ==== Sys2Proof/Laws/MemWf.lean ====
section
/-! SUPPORT. The operations that write main memory keep its canonical form. -/

namespace Sys2Proof.Machine

set_option maxRecDepth 2000

theorem Dev.each_memWf {α : Type} (d : Dev) (l : List α) (f : Dev → α → Dev) (h : d.mem.wf = true)
    (hf : ∀ d a, d.mem.wf = true → (f d a).mem.wf = true) : (d.each l f).mem.wf = true :=
  Dev.each_keeps (fun x => x.mem.wf = true) d l f h (fun x a _ hx => hf x a hx)

theorem Dev.each_memWf_of_mem {α : Type} (d : Dev) (l : List α) (f : Dev → α → Dev) (h : d.mem.wf = true)
    (hf : ∀ d a, (f d a).mem = d.mem) : (d.each l f).mem.wf = true := by
  rw [Dev.each_mem d l f hf]
  exact h

@[simp] theorem storeLine_memWf (d : Dev) (line : Nat) (data : Line) (poison codeOnly : Bool) (h : d.mem.wf = true) :
    (storeLine d line data poison codeOnly).mem.wf = true := by
  unfold storeLine
  simp only [Dev.updChan_frame, flipWrite_frame]
  split
  · exact Memory.poisonLine_wf h _
  · exact Memory.writeLine_wf h _ _ _

@[simp] theorem runRepairs_memWf (d : Dev) (c : Nat) (h : d.mem.wf = true) : (runRepairs d c).mem.wf = true := by
  unfold runRepairs
  exact Dev.each_memWf _ _ _ h (fun d r hd => by simpa using storeLine_memWf d _ _ _ _ hd)

@[simp] theorem finishRepairs_memWf (d : Dev) (m : Nat) (h : d.mem.wf = true) : (finishRepairs d m).mem.wf = true := by
  unfold finishRepairs
  refine Dev.each_memWf _ _ _ h (fun d j hd => ?_)
  split
  · exact runRepairs_memWf d _ hd
  · exact hd

@[simp] theorem repairBefore_memWf (d : Dev) (line : Nat) (whole : Bool) (h : d.mem.wf = true) :
    (repairBefore d line whole).mem.wf = true := by
  unfold repairBefore
  try dsimp only
  repeat' split
  all_goals first
    | (simp [h]; done)
    | (simp_all; done)

@[simp] theorem acceptWrite_memWf (d : Dev) (i : Nat) (h : d.mem.wf = true) :
    (acceptWrite d i).mem.wf = true := by
  unfold acceptWrite
  try dsimp only
  repeat' split
  all_goals first
    | (simp [h]; done)
    | (simp_all; done)

@[simp] theorem readArrival_memWf (d : Dev) (i : Nat) (err chk : Ecc) (h : d.mem.wf = true) :
    (readArrival d i err chk).mem.wf = true := by
  unfold readArrival
  try dsimp only
  repeat' split
  all_goals first
    | (simp [h]; done)
    | (simp_all; done)

@[simp] theorem channelReturn_memWf (d : Dev) (i symbols : Nat) (wrongAddr : Bool) (h : d.mem.wf = true) :
    (channelReturn d i symbols wrongAddr).mem.wf = true := by
  unfold channelReturn
  try dsimp only
  repeat' split
  all_goals first
    | (simp [h]; done)
    | (simp_all; done)

@[simp] theorem mergeReturn_memWf (d : Dev) (m line symbols : Nat) (wrongAddr : Bool) (chk : Ecc) (h : d.mem.wf = true) :
    (mergeReturn d m line symbols wrongAddr chk).mem.wf = true := by
  unfold mergeReturn
  try dsimp only
  repeat' split
  all_goals first
    | (simp [h]; done)
    | (simp_all; done)

@[simp] theorem writeTaken_memWf (d : Dev) (m line : Nat) (err : Ecc) (h : d.mem.wf = true) :
    (writeTaken d m line err).mem.wf = true := by
  unfold writeTaken
  try dsimp only
  repeat' split
  all_goals first
    | (simp [h]; done)
    | (simp_all; done)

@[simp] theorem writeAddrUe_mem (d : Dev) (m line : Nat) : (writeAddrUe d m line).mem = d.mem := by
  unfold writeAddrUe
  repeat' split
  all_goals simp

@[simp] theorem loseDomain_memWf (d : Dev) (dom : Nat) (h : d.mem.wf = true) : (loseDomain d dom).mem.wf = true := by
  unfold loseDomain
  try dsimp only
  repeat' split
  all_goals first
    | (simp [h]; done)
    | (simp_all; done)

@[simp] theorem offDone_memWf (d : Dev) (h : d.mem.wf = true) : (offDone d).mem.wf = true := by
  unfold offDone
  try dsimp only
  repeat' split
  all_goals first
    | (simp [h]; done)
    | (simp_all; done)

@[simp] theorem resetDomains_memWf (d : Dev) (clean : Bool) (h : d.mem.wf = true) :
    (resetDomains d clean).mem.wf = true := by
  unfold resetDomains
  try dsimp only
  repeat' split
  all_goals first
    | (simp [h]; done)
    | (simp_all; done)

@[simp] theorem drainEnd_memWf (d : Dev) (clean : Bool) (h : d.mem.wf = true) : (drainEnd d clean).mem.wf = true := by
  unfold drainEnd
  split
  · exact h
  · have h' : (d.each [0, 1, 2, 3] finishRepairs).mem.wf = true :=
      Dev.each_memWf _ _ _ h (fun d m hd => finishRepairs_memWf d m hd)
    dsimp only
    generalize d.each [0, 1, 2, 3] finishRepairs = d' at h' ⊢
    repeat' split
    all_goals simp [h']

@[simp] theorem supplyLost_memWf (d : Dev) (h : d.mem.wf = true) : (supplyLost d).mem.wf = true := by
  unfold supplyLost
  try dsimp only
  repeat' split
  all_goals first
    | (simp [h]; done)
    | (simp_all; done)

@[simp] theorem trainMemory_memWf (d : Dev) (p : Package) (h : d.mem.wf = true) : (trainMemory d p).mem.wf = true := by
  unfold trainMemory
  try dsimp only
  repeat' split
  all_goals first
    | (simp [h]; done)
    | (simp_all; done)

@[simp] theorem startProgress_memWf (d : Dev) (h : d.mem.wf = true) : (startProgress d).mem.wf = true := by
  unfold startProgress
  try dsimp only
  repeat' split
  all_goals first
    | (simp [h]; done)
    | (simp_all; done)

@[simp] theorem stepNine_memWf (d : Dev) (h : d.mem.wf = true) : (stepNine d).mem.wf = true := by
  unfold stepNine
  try dsimp only
  repeat' split
  all_goals first
    | (simp [h]; done)
    | (simp_all; done)

@[simp] theorem pkgCheck_memWf (d : Dev) (sigOk : Bool) (h : d.mem.wf = true) : (pkgCheck d sigOk).mem.wf = true := by
  unfold pkgCheck
  try dsimp only
  repeat' split
  all_goals first
    | (simp [h]; done)
    | (simp_all; done)

@[simp] theorem hubDone_memWf (d : Dev) (ports : BitVec 8) (quads : BitVec 5) (core mc : Bool) (h : d.mem.wf = true) :
    (hubDone d ports quads core mc).mem.wf = true := by
  unfold hubDone
  try dsimp only
  repeat' split
  all_goals first
    | (simp [h]; done)
    | (simp_all; done)

@[simp] theorem memoryTrained_memWf (d : Dev) (p : Package) (full : Bool) (h : d.mem.wf = true) :
    (memoryTrained d p full).mem.wf = true := by
  unfold memoryTrained
  try dsimp only
  repeat' split
  all_goals first
    | (simp [h]; done)
    | (simp_all; done)

@[simp] theorem trained_memWf (d : Dev) (c : Nat) (full : Bool) (rate : Option (BitVec 3)) (pop : Population) (h : d.mem.wf = true) :
    (trained d c full rate pop).mem.wf = true := by
  unfold trained
  try dsimp only
  repeat' split
  all_goals first
    | (simp [h]; done)
    | (simp_all; done)

@[simp] theorem tileTested_memWf (d : Dev) (t : Nat) (r : BistOutcome) (h : d.mem.wf = true) :
    (tileTested d t r).mem.wf = true := by
  unfold tileTested
  try dsimp only
  repeat' split
  all_goals first
    | (simp [h]; done)
    | (simp_all; done)

@[simp] theorem poisonInPlace_memWf (d : Dev) (dpa : Nat) (h : d.mem.wf = true) :
    (poisonInPlace d dpa).mem.wf = true := by
  unfold poisonInPlace
  exact storeLine_memWf _ _ _ _ _ (by simpa using h)

@[simp] theorem zeroMem_memWf (d : Dev) (lim dpa bytes : Nat) (h : d.mem.wf = true) :
    (zeroMem d lim dpa bytes).mem.wf = true := by
  unfold zeroMem
  dsimp only
  split
  · exact storeLine_memWf _ _ _ _ _ (Memory.zeroLines_wf h _ _)
  · exact Memory.zeroLines_wf h _ _

@[simp] theorem pairInPlace_memWf (d : Dev) (lim dpa : Nat) (v : BitVec 32) (h : d.mem.wf = true) :
    (pairInPlace d lim dpa v).mem.wf = true := by
  unfold pairInPlace
  split
  · exact h
  · exact storeLine_memWf _ _ _ _ _ h

@[simp] theorem settleMemory_memWf (d : Dev) (p : Package) (lim : Nat) (h : d.mem.wf = true) :
    (settleMemory d p lim).mem.wf = true := by
  unfold settleMemory
  apply zeroMem_memWf
  split
  · exact Dev.each_memWf _ _ _ h (fun d k hd => poisonInPlace_memWf d k hd)
  · exact Dev.each_memWf _ _ _ (by simp [h]) (fun d k hd => pairInPlace_memWf d _ _ _ hd)

@[simp] theorem stepThirteen_memWf (d : Dev) (p : Package) (h : d.mem.wf = true) :
    (stepThirteen d p).mem.wf = true := by
  unfold stepThirteen
  try dsimp only
  repeat' split
  all_goals first
    | (simp [h]; done)
    | (simp_all; done)

@[simp] theorem finalSteps_memWf (d : Dev) (h : d.mem.wf = true) : (finalSteps d).mem.wf = true := by
  unfold finalSteps
  try dsimp only
  repeat' split
  all_goals first
    | (simp [h]; done)
    | (simp_all; done)

@[simp] theorem heldReturn_memWf (d : Dev) (p : Package) (h : d.mem.wf = true) : (heldReturn d p).mem.wf = true := by
  unfold heldReturn
  try dsimp only
  repeat' split
  all_goals first
    | (simp [h]; done)
    | (simp_all; done)

@[simp] theorem packageCommitted_memWf (d : Dev) (ok : Bool) (h : d.mem.wf = true) :
    (packageCommitted d ok).mem.wf = true := by
  unfold packageCommitted
  try dsimp only
  repeat' split
  all_goals first
    | (simp [h]; done)
    | (simp_all; done)

end Sys2Proof.Machine
end

