-- ==== Sys2Proof/Laws/Still.lean ====
section
/-! SUPPORT. What goes on by itself after a command, and the parts of the device it leaves alone. -/

namespace Sys2Proof.Machine

set_option maxRecDepth 2000

/-- The agents, the counts of lines lost aside. -/
def agentsBut (t : Tab Agent) (a : Nat) : Option Agent := (Tab.find t a).map (fun x => { x with lost := 0 })

/-- The parts of the device that work under way leaves alone, the counts of lines lost aside (a CMO that ends may find one, R203). -/
def Dev.still (d : Dev) :=
  ({ d.glob with linesLost := 0 }, d.mem, agentsBut d.agents, d.epochs, d.mcs, d.chans, d.evqs, d.resync, d.mgt, d.pwr.on, d.sec.floor)

@[simp] theorem Dev.each_still {α : Type} (d : Dev) (l : List α) (f : Dev → α → Dev) (h : ∀ d a, (f d a).still = d.still) :
    (d.each l f).still = d.still :=
  Dev.each_keeps (fun x => x.still = d.still) d l f rfl (fun x a _ hx => (h x a).trans hx)

@[simp] theorem foldl_still {α : Type} (d : Dev) (l : List α) (f : Dev → α → Dev) (h : ∀ d a, (f d a).still = d.still) :
    (l.foldl f d).still = d.still := Dev.each_still d l f h

theorem foldl_fst_still {α β : Type} (l : List α) (f : Dev × β → α → Dev × β) (h : ∀ p a, (f p a).1.still = p.1.still) (p : Dev × β) :
    (l.foldl f p).1.still = p.1.still := by
  induction l generalizing p with
  | nil => rfl
  | cons a l ih => exact (ih (f p a)).trans (h p a)

@[simp] theorem Dev.ite_still (c : Prop) [Decidable c] (a b : Dev) : (if c then a else b).still = if c then a.still else b.still := by
  split <;> rfl

@[simp] theorem Dev.updPort_still (d : Dev) (n : Nat) (f : Port → Port) : (Dev.updPort d n f).still = d.still := rfl
@[simp] theorem Dev.updLd_still (d : Dev) (p m : Nat) (f : Ld → Ld) : (Dev.updLd d p m f).still = d.still := rfl
@[simp] theorem Dev.updSlice_still (d : Dev) (n : Nat) (f : Slice → Slice) : (Dev.updSlice d n f).still = d.still := rfl
@[simp] theorem Dev.updTile_still (d : Dev) (n : Nat) (f : Tile → Tile) : (Dev.updTile d n f).still = d.still := rfl
@[simp] theorem Dev.updEngine_still (d : Dev) (n : Nat) (f : Engine → Engine) : (Dev.updEngine d n f).still = d.still := rfl
@[simp] theorem Dev.updPair_still (d : Dev) (n : Nat) (f : Pair_ → Pair_) : (Dev.updPair d n f).still = d.still := rfl
@[simp] theorem Dev.updSource_still (d : Dev) (n : Nat) (f : Source → Source) : (Dev.updSource d n f).still = d.still := rfl
@[simp] theorem Dev.putXact_still (d : Dev) (i : Nat) (x : Xact) : (Dev.putXact d i x).still = d.still := rfl
@[simp] theorem Dev.dropXact_still (d : Dev) (i : Nat) : (Dev.dropXact d i).still = d.still := rfl
@[simp] theorem Dev.setErr_still (d : Dev) (f : Err → Err) : (Dev.setErr d f).still = d.still := rfl
@[simp] theorem emit_still (d : Dev) (m : Msg) : (emit d m).still = d.still := rfl
@[simp] theorem Dev.updXact_still (d : Dev) (i : Nat) (f : Xact → Xact) : (d.updXact i f).still = d.still := by
  simp only [Dev.updXact]
  split <;> rfl
@[simp] theorem raise_still (d : Dev) (src cls sev : Nat) (i : Info) : (raise d src cls sev i).still = d.still := by simp [Dev.still]
@[simp] theorem dropLog_still (d : Dev) : (dropLog d).still = d.still := by simp [Dev.still]
@[simp] theorem logErr_still (d : Dev) (f : Fail) : (logErr d f).still = d.still := by simp [Dev.still]
@[simp] theorem freeEntry_still (d : Dev) (i : Nat) : (freeEntry d i).still = d.still := by simp [Dev.still]
@[simp] theorem fireFlip_still (d : Dev) (path inst dpa : Nat) : (fireFlip d path inst dpa).still = d.still := by simp [Dev.still]
@[simp] theorem flipWrite_still (d : Dev) (path inst dpa w : Nat) (chk : Bool) : ((flipWrite d path inst dpa w chk).1).still = d.still := by simp [Dev.still]
@[simp] theorem sendMsix_still (d : Dev) (p m vec : Nat) : (sendMsix d p m vec).still = d.still := by simp [Dev.still]
@[simp] theorem journal_still (d : Dev) (c : Change) : (journal d c).still = d.still := by simp [Dev.still]
@[simp] theorem journalCall_still (d : Dev) (o : Origin) (code arg : Nat) (body results : List Word) :
    (journalCall d o code arg body results).still = d.still := by simp [Dev.still]
@[simp] theorem putScratch_still (d : Dev) (e i : Nat) (w : Word) : (putScratch d e i w).still = d.still := by simp [Dev.still]
@[simp] theorem putImem_still (d : Dev) (e i : Nat) (w : Word) : (putImem d e i w).still = d.still := by simp [Dev.still]
@[simp] theorem count_still (d : Dev) (b code n : Nat) (c : Counted) : (count d b code n c).still = d.still := by simp [Dev.still]
@[simp] theorem advance_still (d : Dev) (e n : Nat) : (advance d e n).still = d.still := by simp [Dev.still]

@[simp] theorem Dev.putSent_still (d : Dev) (i : Nat) (x : Xact) : (Dev.putSent d i x).still = d.still := by
  unfold Dev.putSent
  rfl

@[simp] theorem Dev.start_still (d : Dev) (x : Xact) : (Dev.start d x).1.still = d.still := by
  unfold Dev.start
  rfl

@[simp] theorem powerBusy_still (d : Dev) (dom : Nat) (on : Bool) (reason : Nat) :
    (powerBusy d dom on reason).still = d.still := by
  unfold powerBusy
  rw [raise_still]
  rfl

@[simp] theorem freeLine_still (d : Dev) (dpa : Nat) : (freeLine d dpa).still = d.still := by
  simp [freeLine]

@[simp] theorem popFails_still (d : Dev) (e : Nat) : (popFails d e).still = d.still := by
  unfold popFails
  split <;> first | rfl | simp

@[simp] theorem pushFails_still (d : Dev) (e n : Nat) : (pushFails d e n).still = d.still := by
  unfold pushFails
  split <;> first | rfl | simp

@[simp] theorem closePair_still (d : Dev) (n cause : Nat) : (closePair d n cause).still = d.still := by
  simp [closePair]

@[simp] theorem pairMismatch_still (d : Dev) (n idx : Nat) : (pairMismatch d n idx).still = d.still := by
  simp [pairMismatch]

@[simp] theorem pairUpdated_still (d : Dev) (n : Nat) : (pairUpdated d n).still = d.still := by
  unfold pairUpdated
  split <;> first | rfl | simp

@[simp] theorem pairInterrupt_still (d : Dev) (n : Nat) : (pairInterrupt d n).still = d.still := by
  simp [pairInterrupt]

@[simp] theorem pushRecord_still (d : Dev) (n : Nat) (ws : List Word) : (pushRecord d n ws).still = d.still := by
  simp [pushRecord]

@[simp] theorem pushPacket_still (d : Dev) (n : Nat) (ws : List Word) : (pushPacket d n ws).still = d.still := by
  simp [pushPacket]

@[simp] theorem ackConflicts_still (d : Dev) (p : Nat) : (ackConflicts d p).still = d.still := by
  unfold ackConflicts
  dsimp only
  apply Dev.each_still
  intro d a
  repeat' split
  all_goals simp

@[simp] theorem respondData_still (d : Dev) (r : Req) (t0 : Nat) (data : Line) (poison : Bool) (m : Option Meta) :
    (respondData d r t0 data poison m).still = d.still := by
  unfold respondData
  split <;> first | rfl | simp

@[simp] theorem respondCmp_still (d : Dev) (r : Req) (own : Bool) : (respondCmp d r own).still = d.still := by
  unfold respondCmp
  split <;> first | rfl | simp

@[simp] theorem Dev.setLab_still (d : Dev) (l : Nat) (t : Tab LabEntry) : (Dev.setLab d l t).still = d.still := by
  unfold Dev.setLab
  split <;> first | rfl | simp

@[simp] theorem labInstall_still (d : Dev) (l : Nat) (view : BitVec 12) (gran : BitVec 2) (vpn : Nat) (pte : Pte) (lock : Bool) :
    (labInstall d l view gran vpn pte lock).1.still = d.still := by
  unfold labInstall
  dsimp only
  split <;> simp <;> rfl

@[simp] theorem putTag_still (d : Dev) (s cset way : Nat) (e : TagEntry) : (putTag d s cset way e).still = d.still := by
  simp [putTag]

@[simp] theorem victimWay_still (d : Dev) (s cset : Nat) : (victimWay d s cset).1.still = d.still := by
  unfold victimWay
  dsimp only
  repeat' split
  all_goals first | rfl | simp

@[simp] theorem lockedNote_still (d : Dev) (s first n : Nat) : (lockedNote d s first n).still = d.still := by
  simp [lockedNote]

@[simp] theorem lockedCount_still (d : Dev) (s n : Nat) : (lockedCount d s n).still = d.still := by
  simp [lockedCount]

@[simp] theorem lockedInval_still (d : Dev) (s : Nat) (sectors : List Nat) : (lockedInval d s sectors).still = d.still := by
  unfold lockedInval
  split <;> first | rfl | simp

@[simp] theorem tileStore_still (d : Dev) (s dpa way : Nat) (data : Line) (mask : Mask) :
    (tileStore d s dpa way data mask).still = d.still := by
  simp [tileStore]

@[simp] theorem writeUpdate_still (d : Dev) (s dpa : Nat) (data : Line) (mask : Mask) (poison : Bool) :
    (writeUpdate d s dpa data mask poison).still = d.still := by
  unfold writeUpdate
  repeat' split
  all_goals first | rfl | simp

@[simp] theorem install_still (d : Dev) (s dpa way : Nat) (data : Line) (poison old : Bool) :
    (install d s dpa way data poison old).still = d.still := by
  simp [install]

@[simp] theorem dropSide_still (d : Dev) (s line : Nat) : (dropSide d s line).still = d.still := by
  simp [dropSide]

@[simp] theorem markNoAlloc_still (d : Dev) (i : Nat) : (markNoAlloc d i).still = d.still := by
  unfold markNoAlloc
  repeat' split
  all_goals first | rfl | simp

@[simp] theorem markWhere_still (d : Dev) (s : Nat) (f : Xact → Bool) : (markWhere d s f).still = d.still := by
  simp [markWhere]

@[simp] theorem invalSub_still (d : Dev) (s dpa : Nat) (unlock : Bool) : (invalSub d s dpa unlock).1.still = d.still := by
  unfold invalSub
  dsimp only
  repeat' split
  all_goals first | rfl | simp

@[simp] theorem invalWay_still (d : Dev) (s cset way : Nat) (unlock : Bool) :
    (invalWay d s cset way unlock).1.still = d.still := by
  unfold invalWay
  dsimp only
  repeat' split
  all_goals first | rfl | simp

@[simp] theorem putDir_still (d : Dev) (s dset way : Nat) (e : DirEntry) : (putDir d s dset way e).still = d.still := by
  simp [putDir]

@[simp] theorem giveResult_still (d : Dev) (i : Nat) (x : Xact) (data : Line) (poison ok : Bool) :
    (giveResult d i x data poison ok).still = d.still := by
  unfold giveResult
  split <;> first | rfl | simp

@[simp] theorem finish_still (d : Dev) (i : Nat) (data : Line) (poison ok : Bool) :
    (finish d i data poison ok).still = d.still := by
  unfold finish
  dsimp only
  repeat' split
  all_goals first | rfl | simp

@[simp] theorem sendSnoop_still (d : Dev) (p : Nat) (s : Snoop) (vpn : Nat) : (sendSnoop d p s vpn).still = d.still := by
  simp [sendSnoop]

@[simp] theorem portRecall_still (d : Dev) (p : Nat) (a : BitVec 12) (line : Nat) (data : Bool) :
    (portRecall d p a line data).still = d.still := by
  unfold portRecall
  dsimp only
  repeat' split
  all_goals first | rfl | simp

@[simp] theorem sendRecall_still (d : Dev) (s line : Nat) (t : Target) : (sendRecall d s line t).still = d.still := by
  unfold sendRecall
  dsimp only
  repeat' split
  all_goals first | rfl | simp

@[simp] theorem startRecall_still (d : Dev) (i : Nat) (line : Nat) (ts : List Target) (dw : Option Nat) (evict : Option Nat) :
    (startRecall d i line ts dw evict).still = d.still := by
  unfold startRecall
  repeat' split
  all_goals first | rfl | simp

@[simp] theorem chooseWay_still (d : Dev) (s dpa : Nat) : (chooseWay d s dpa).1.still = d.still := by
  unfold chooseWay
  try dsimp only
  repeat' split
  all_goals first
    | rfl
    | (simp; done)
    | (have hh := congrArg (fun p => p.1.still) ‹(_ : Dev × _) = (_, _)›; simp at hh; simp [hh]; done)
    | (simp_all; done)
    | (simp; repeat' (first | rw [Dev.each_still] | rw [foldl_still]); all_goals first | rfl | (simp; done) | (intros; (repeat' split) <;> first | rfl | simp_all))

@[simp] theorem readDirect_still (d : Dev) (i : Nat) (x : Xact) : (readDirect d i x).still = d.still := by
  simp [readDirect]

@[simp] theorem bindMiss_still (d : Dev) (i : Nat) (x : Xact) : (bindMiss d i x).still = d.still := by
  simp [bindMiss]

@[simp] theorem joinPrefetch_still (d : Dev) (i j : Nat) (x : Xact) : (joinPrefetch d i j x).still = d.still := by
  simp [joinPrefetch]

@[simp] theorem readTile_still (d : Dev) (i : Nat) (x : Xact) (w : Nat) : (readTile d i x w).still = d.still := by
  simp [readTile]

@[simp] theorem readSide_still (d : Dev) (i : Nat) (x : Xact) (e : SideEntry) : (readSide d i x e).still = d.still := by
  unfold readSide
  try dsimp only
  repeat' split
  all_goals first
    | rfl
    | (simp; done)
    | (have hh := congrArg (fun p => p.1.still) ‹(_ : Dev × _) = (_, _)›; simp at hh; simp [hh]; done)
    | (simp_all; done)
    | (simp; repeat' (first | rw [Dev.each_still] | rw [foldl_still]); all_goals first | rfl | (simp; done) | (intros; (repeat' split) <;> first | rfl | simp_all))

@[simp] theorem readStage_still (d : Dev) (i : Nat) : (readStage d i).still = d.still := by
  unfold readStage
  dsimp only
  repeat' split
  all_goals first | rfl | simp

@[simp] theorem dataRead_still (d : Dev) (i : Nat) : (dataRead d i).still = d.still := by
  unfold dataRead
  repeat' split
  all_goals first | rfl | simp

@[simp] theorem dropPrefetched_still (d : Dev) (s line : Nat) : (dropPrefetched d s line).still = d.still := by
  simp [dropPrefetched]

@[simp] theorem writeStage_still (d : Dev) (i : Nat) : (writeStage d i).still = d.still := by
  unfold writeStage
  repeat' split
  all_goals first | rfl | simp

@[simp] theorem cmoInval_still (d : Dev) (x : Xact) : (cmoInval d x).1.still = d.still := by
  unfold cmoInval
  dsimp only
  repeat' split
  all_goals first | rfl | simp

@[simp] theorem setLost_still (d : Dev) (f : Nat → Nat) : (d.setGlob (fun g => { g with linesLost := f g.linesLost })).still = d.still := rfl

theorem agentLost_still {d : Dev} {a : BitVec 12} {x : Agent} (h : d.agent? a = some x) (f : Agent → Nat) :
    (d.updAgent a (fun y => { y with lost := f y })).still = d.still := by
  have hf : Tab.find d.agents a.toNat = some x := h
  have h' : agentsBut (d.updAgent a (fun y => { y with lost := f y })).agents = agentsBut d.agents := by
    funext b
    unfold agentsBut Dev.updAgent Tab.upd
    by_cases hb : b = a.toNat
    · simp [hb, hf, Tab.get]
    · simp [Tab.find_put_other _ _ hb]
  simp only [Dev.still, h']
  rfl

@[simp] theorem poisonWrite_still (d : Dev) (s dpa : Nat) (who : BitVec 12) : (poisonWrite d s dpa who).still = d.still := by
  simp [poisonWrite]

@[simp] theorem dirNote_still (d : Dev) (s sub dset : Nat) (way : Option Nat) (agent : BitVec 12) :
    (dirNote d s sub dset way agent).still = d.still := by
  simp [dirNote]

@[simp] theorem loseLine_still (d : Dev) (s dpa : Nat) (a : BitVec 12) (ep : BitVec 4) : (loseLine d s dpa a ep).still = d.still := by
  unfold loseLine
  extract_lets d1 d2 ag who d3 d4 d5 d6
  have e2 : d2.still = d.still := by
    simp only [d2]
    generalize (if d1.enabled s then _ else _) = o
    cases o <;> simp [d1]
  have e4 : d4.still = d.still := by
    simp only [d4]
    rw [setLost_still]
    simp [d3, e2]
  have g4 : ∀ x, ag = some x → d4.agent? a = some x := by
    intro x hx
    simpa [d4, d3, Dev.agent?, ag] using hx
  clear_value ag d4
  have e6 : d6.still = d.still := by
    simp only [d6]
    cases ag with
    | none => exact e4
    | some x =>
      have h : d5.still = d.still := (agentLost_still (g4 x rfl) (fun y => satInc 24 y.lost)).trans e4
      dsimp only
      split
      · exact e4
      · split
        · rw [raise_still]; exact h
        · exact h
  simp [e6]

@[simp] theorem resolveEntry_still (d : Dev) (s dset way : Nat) : (resolveEntry d s dset way).1.still = d.still := by
  unfold resolveEntry
  dsimp only
  repeat' split
  all_goals first | rfl | simp

@[simp] theorem resolveLine_still (d : Dev) (s dpa : Nat) : (resolveLine d s dpa).still = d.still := by
  unfold resolveLine
  split <;> first | rfl | simp

@[simp] theorem markWay_still (d : Dev) (s cset way : Nat) : (markWay d s cset way).still = d.still := by
  simp [markWay]

@[simp] theorem swMarks_still (d : Dev) (x : Xact) : (swMarks d x).still = d.still := by
  unfold swMarks
  try dsimp only
  repeat' split
  all_goals first
    | (simp; done)
    | (have hh := congrArg (fun p => p.1.still) ‹(_ : Dev × _) = (_, _)›; simp at hh; simp [hh]; done)
    | (simp; repeat' (first | rw [Dev.each_still] | rw [foldl_still]); all_goals first | (simp; done) | (intros; repeat' split) <;> simp_all)

@[simp] theorem cmoEnd_still (d : Dev) (i : Nat) : (cmoEnd d i).still = d.still := by
  unfold cmoEnd
  split
  · rfl
  · rename_i x _
    have h : (cmoInval d x).1.still = d.still := by simp
    revert h
    rcases cmoInval d x with ⟨d1, l⟩
    intro h
    dsimp only
    split <;> simp only [resolveLine_still, finish_still] <;> split <;> simp_all

@[simp] theorem cmoStage_still (d : Dev) (i : Nat) : (cmoStage d i).still = d.still := by
  unfold cmoStage
  split <;> first | rfl | simp

@[simp] theorem preloadStage_still (d : Dev) (i : Nat) (lgrp : BitVec 4) : (preloadStage d i lgrp).still = d.still := by
  unfold preloadStage
  try dsimp only
  repeat' split
  all_goals first
    | rfl
    | (simp; done)
    | (have hh := congrArg (fun p => p.1.still) ‹(_ : Dev × _) = (_, _)›; simp at hh; simp [hh]; done)
    | (simp_all; done)
    | (simp; repeat' (first | rw [Dev.each_still] | rw [foldl_still]); all_goals first | rfl | (simp; done) | (intros; (repeat' split) <;> first | rfl | simp_all))

@[simp] theorem prefetchIssue_still (d : Dev) (i : Nat) : (prefetchIssue d i).still = d.still := by
  unfold prefetchIssue
  split <;> first | rfl | simp

@[simp] theorem dataStage_still (d : Dev) (i : Nat) : (dataStage d i).still = d.still := by
  unfold dataStage
  repeat' split
  all_goals first | rfl | simp

@[simp] theorem moveDir_still (d : Dev) (s dset way : Nat) (old new : DirEntry) :
    (moveDir d s dset way old new).still = d.still := by
  simp [moveDir]

@[simp] theorem applyDir_still (d : Dev) (i : Nat) : (applyDir d i).still = d.still := by
  unfold applyDir
  dsimp only
  repeat' split
  all_goals first | rfl | simp

@[simp] theorem allocDir_still (d : Dev) (i : Nat) (way : Nat) : (allocDir d i way).still = d.still := by
  unfold allocDir
  split <;> first | rfl | simp

@[simp] theorem toRetry_still (d : Dev) (i : Nat) : (toRetry d i).still = d.still := by
  simp [toRetry]

@[simp] theorem relookup_still (d : Dev) (i : Nat) : (relookup d i).still = d.still := by
  simp [relookup]

@[simp] theorem evicted_still (d : Dev) (i : Nat) (x : Xact) (w : Nat) : (evicted d i x w).still = d.still := by
  simp [evicted]

@[simp] theorem recallDone_still (d : Dev) (i : Nat) : (recallDone d i).still = d.still := by
  have h (d' : Dev) (p : Park) : ({ d' with park := p } : Dev).still = d'.still := rfl
  unfold recallDone
  repeat' split
  all_goals first | rfl | (simp; done) | (rw [dataStage_still, applyDir_still, h]) | (simp [h]; done) | (rw [resolveLine_still, dataStage_still, applyDir_still, h])

@[simp] theorem chanEvent_still (d : Dev) (c cause cls sev dpa symbols : Nat) :
    (chanEvent d c cause cls sev dpa symbols).still = d.still := by
  simp [chanEvent]

@[simp] theorem overLimit_still (d : Dev) (r : Req) : (overLimit d r).still = d.still := by
  simp [overLimit]

@[simp] theorem startDrain_still (d : Dev) (t cause : Nat) (retiring : Bool) :
    (startDrain d t cause retiring).still = d.still := by
  simp [startDrain]

@[simp] theorem retireBank_still (d : Dev) (t b : Nat) : (retireBank d t b).still = d.still := by
  simp [retireBank]

@[simp] theorem goOnline_still (d : Dev) (t : Nat) : (goOnline d t).still = d.still := by
  unfold goOnline
  simp only [raise_still, Dev.updTile_still]
  rfl

@[simp] theorem labiIssue_still (d : Dev) (e form : Nat) (view : BitVec 12) (gran : BitVec 2) (vpn : Nat) :
    (labiIssue d e form view gran vpn).1.still = d.still := by
  unfold labiIssue
  rfl

@[simp] theorem Dev.setCall_still (d : Dev) (e : Nat) (c : Option Call) : (Dev.setCall d e c).still = d.still := by
  unfold Dev.setCall
  split <;> first | rfl | simp

@[simp] theorem callReq_still (d : Dev) (e line : Nat) (op : Op) (data : Line) (mask : Mask) (device : Bool) :
    (callReq d e line op data mask device).1.still = d.still := by
  simp [callReq]

@[simp] theorem preloadReq_still (d : Dev) (e sector : Nat) (g : BitVec 4) (device stream : Bool) :
    (preloadReq d e sector g device stream).1.still = d.still := by
  simp [preloadReq]

@[simp] theorem mvInstall_still (d : Dev) (e line : Nat) (data : Line) (poison : Bool) :
    (mvInstall d e line data poison).still = d.still := by
  simp [mvInstall]

@[simp] theorem mvCheck_still (d : Dev) (e line : Nat) (c : Ecc) : (mvCheck d e line c).still = d.still := by
  unfold mvCheck
  repeat' split
  all_goals first | rfl | simp

@[simp] theorem cacheLine_still (d : Dev) (e i : Nat) : (cacheLine d e i).still = d.still := by
  unfold cacheLine
  repeat' split
  all_goals first | rfl | simp

@[simp] theorem reserve_still (d : Dev) (e dpa : Nat) : (reserve d e dpa).still = d.still := by
  simp [reserve]

@[simp] theorem rmwTake_still (d : Dev) (e : Nat) (c : Call) (dpa : Nat) (k : Rmw) (line : Line) (bad : Bool) :
    (rmwTake d e c dpa k line bad).1.still = d.still := by
  unfold rmwTake
  try dsimp only
  repeat' split
  all_goals first
    | (simp; done)
    | (have hh := congrArg (fun p => p.1.still) ‹(_ : Dev × _) = (_, _)›; simp at hh; simp [hh]; done)
    | (simp; repeat' (first | rw [Dev.each_still] | rw [foldl_still]); all_goals first | (simp; done) | (intros; repeat' split) <;> simp_all)

@[simp] theorem mvEvict_still (d : Dev) (e line : Nat) : (mvEvict d e line).still = d.still := by
  unfold mvEvict
  split <;> simp

@[simp] theorem callFaultAt_still (d : Dev) (e dpa : Nat) : (callFaultAt d e dpa).still = d.still := by
  simp [callFaultAt]

@[simp] theorem callFault_still (d : Dev) (e : Nat) (x : Xact) : (callFault d e x).still = d.still := by
  unfold callFault
  dsimp only
  split <;> simp

@[simp] theorem rmwReq_still (d : Dev) (e : Nat) (c : Call) (dpa : Nat) (k : Rmw) : (rmwReq d e c dpa k).1.still = d.still := by
  unfold rmwReq
  try dsimp only
  repeat' split
  all_goals first
    | (simp; done)
    | (have hh := congrArg (fun p => p.1.still) ‹(_ : Dev × _) = (_, _)›; simp at hh; simp [hh]; done)
    | (simp; repeat' (first | rw [Dev.each_still] | rw [foldl_still]); all_goals first | (simp; done) | (intros; repeat' split) <;> simp_all)

@[simp] theorem reapOne_still (d : Dev) (e : Nat) (c : Call) (i : Nat) (x : Xact) (data : Line) (poison ok : Bool) :
    (reapOne d e c i x data poison ok).1.still = d.still := by
  unfold reapOne
  try dsimp only
  repeat' split
  all_goals first
    | (simp; done)
    | (have hh := congrArg (fun p => p.1.still) ‹(_ : Dev × _) = (_, _)›; simp at hh; simp [hh]; done)
    | (simp; repeat' (first | rw [Dev.each_still] | rw [foldl_still]); all_goals first | (simp; done) | (intros; repeat' split) <;> simp_all)

@[simp] theorem reap_still (d : Dev) (e : Nat) (c : Call) : (reap d e c).1.still = d.still := by
  unfold reap
  rw [foldl_fst_still]
  intro p a
  repeat' split
  all_goals simp

@[simp] theorem callWaits_still (d : Dev) (e : Nat) (waits : Bool) : (callWaits d e waits).still = d.still := by
  simp [callWaits]

@[simp] theorem issueMany_still (d : Dev) (c : Call) (n : Nat) (f : Dev → Nat → Dev × Nat) (hf : ∀ d a, (f d a).1.still = d.still) :
    (issueMany d c n f).1.still = d.still := by
  unfold issueMany
  rw [foldl_fst_still]
  intro p a
  simp [hf]

@[simp] theorem endCall_still (d : Dev) (e : Nat) (c : Call) : (endCall d e c).still = d.still := by
  unfold endCall
  repeat' split
  all_goals first | rfl | simp

@[simp] theorem dcEvent_still (d : Dev) (src p m region base : Nat) (accepted : Bool) :
    (dcEvent d src p m region base accepted).still = d.still := by
  simp [dcEvent]

@[simp] theorem mailboxDone_still (d : Dev) (p m op code : Nat) (payload : List Nat) :
    (mailboxDone d p m op code payload).still = d.still := by
  simp [mailboxDone]

@[simp] theorem viewBindGo_still (d : Dev) (c : Call) : (viewBindGo d c).1.still = d.still := by
  unfold viewBindGo
  repeat' split
  all_goals first | rfl | simp

@[simp] theorem viewGo_still (d : Dev) (c : Call) : (viewGo d c).1.still = d.still := by
  unfold viewGo
  repeat' split
  all_goals first | rfl | simp

@[simp] theorem loadProgram_still (d : Dev) (e : Nat) (ps : List (BitVec 32)) : (loadProgram d e ps).still = d.still := by
  simp [loadProgram]

@[simp] theorem progGo_still (d : Dev) (e : Nat) (c : Call) : (progGo d e c).1.still = d.still := by
  unfold progGo
  repeat' split
  all_goals first | rfl | simp

@[simp] theorem tileOfflineGo_still (t : Nat) (d : Dev) (c : Call) : (tileOfflineGo t d c).1.still = d.still := by
  simp only [tileOfflineGo, apply_ite Prod.fst, apply_ite Dev.still, startDrain_still, ite_self]

@[simp] theorem tileOnlineGo_still (t : Nat) (d : Dev) (c : Call) : (tileOnlineGo t d c).1.still = d.still := by
  unfold tileOnlineGo
  split <;> first | rfl | simp

@[simp] theorem tileRetireGo_still (t : Nat) (d : Dev) (c : Call) : (tileRetireGo t d c).1.still = d.still := by
  simp only [tileRetireGo, apply_ite Prod.fst, apply_ite Dev.still, startDrain_still, Dev.updTile_still, ite_self]

@[simp] theorem bankRetireGo_still (t b : Nat) (d : Dev) (c : Call) : (bankRetireGo t b d c).1.still = d.still := by
  unfold bankRetireGo
  repeat' split
  all_goals first | rfl | simp

@[simp] theorem tileGo_still (d : Dev) (c : Call) : (tileGo d c).1.still = d.still := by
  simp only [tileGo, apply_ite Prod.fst, apply_ite Dev.still, tileOfflineGo_still, tileOnlineGo_still, tileRetireGo_still,
    bankRetireGo_still, ite_self]

@[simp] theorem countWalk_still (d : Dev) (s n : Nat) : (countWalk d s n).still = d.still := by
  simp [countWalk]

@[simp] theorem runStep_still (d : Dev) (e : Nat) (c : Call) : (runStep d e c).1.still = d.still := by
  unfold runStep
  dsimp only
  repeat' split
  all_goals first | rfl | simp

@[simp] theorem haltMover_still (d : Dev) (key reason : Nat) (op : MoverOp) :
    (haltMover d key reason op).still = d.still := by
  unfold haltMover
  dsimp only
  have h (d' : Dev) (m : Tab MoverOp) : ({ d' with movers := m } : Dev).still = d'.still := rfl
  split
  · rw [Dev.updEngine_still, h]
    split <;> simp
  · rw [h]
    split <;> simp

@[simp] theorem putMover_still (d : Dev) (key : Nat) (op : MoverOp) : (putMover d key op).still = d.still := by
  unfold putMover
  rfl

@[simp] theorem countSwept_still (d : Dev) (ch : Nat) (op : MoverOp) (code : Nat) :
    (countSwept d ch op code).still = d.still := by
  unfold countSwept
  split <;> first | rfl | simp

@[simp] theorem settleMover_still (d : Dev) (key : Nat) : (settleMover d key).still = d.still := by
  unfold settleMover
  have h (d' : Dev) (m : Tab MoverOp) : ({ d' with movers := m } : Dev).still = d'.still := rfl
  dsimp only
  repeat' split
  all_goals first | (simp; done) | (rw [h]; simp)

@[simp] theorem backToUser_still (d : Dev) (e : Nat) : (backToUser d e).still = d.still := by
  simp [backToUser]

@[simp] theorem endRun_still (d : Dev) (e status : Nat) (ws : List Word) : (endRun d e status ws).still = d.still := by
  unfold endRun
  split <;> first | rfl | simp

@[simp] theorem labwPut_still (d : Dev) (l : Nat) (view : BitVec 12) (gran : BitVec 2) (vpn : Nat) (p : Pte) (lock : Bool) :
    (labwPut d l view gran vpn p lock).1.still = d.still := by
  unfold labwPut
  dsimp only
  repeat' split
  all_goals first | rfl | simp

@[simp] theorem setLabres_still (d : Dev) (e n : Nat) : (setLabres d e n).still = d.still := by
  simp [setLabres]

@[simp] theorem handlerPut_still (d : Dev) (e l : Nat) (view : BitVec 12) (g n : Nat) (p : Pte) :
    (handlerPut d e l view g n p).still = d.still := by
  simp [handlerPut]

@[simp] theorem runMiss_still (d : Dev) (e : Nat) (view : BitVec 12) : (runMiss d e view).still = d.still := by
  unfold runMiss
  dsimp only
  repeat' split
  all_goals first | rfl | simp

@[simp] theorem settleRun_still (d : Dev) (e : Nat) : (settleRun d e).still = d.still := by
  unfold settleRun
  dsimp only
  repeat' split
  all_goals first | rfl | simp

@[simp] theorem settleFault_still (d : Dev) (e : Nat) : (settleFault d e).still = d.still := by
  unfold settleFault
  dsimp only
  repeat' split
  all_goals first | rfl | simp

@[simp] theorem settleRecalls_still (d : Dev) : (settleRecalls d).still = d.still := by
  simp [settleRecalls]

@[simp] theorem parkFinish_still (d : Dev) : (parkFinish d).still = d.still := by
  unfold parkFinish
  split
  · rw [raise_still]
    rfl
  · rfl

@[simp] theorem stepLoads_still (d : Dev) (e : Nat) (c : Call) : (stepLoads d e c).1.still = d.still := by
  unfold stepLoads
  dsimp only
  repeat' split
  all_goals simp

@[simp] theorem runCall_still (e n : Nat) (d : Dev) : (runCall e n d).still = d.still := by
  induction n generalizing d with
  | zero => rfl
  | succ n ih =>
    simp only [runCall]
    split
    · rfl
    · rename_i c hc
      have h1 : (reap d e c).1.still = d.still := reap_still d e c
      by_cases hm : (reap d e c).1.missWaits e = true
      · simp [hm, h1]
      · have h3 : (stepLoads (reap d e c).1 e (reap d e c).2).1.still = d.still := (stepLoads_still _ _ _).trans h1
        simp only [hm, Bool.false_eq_true, if_false]
        split
        · rename_i hs
          rw [hs] at h3
          simpa using h3
        · rename_i d2 c2 hs
          rw [hs] at h3
          have h3 : d2.still = d.still := h3
          have h2 := runStep_still d2 e { c2 with reads := [] }
          split
          · rw [ih]
            split <;> simp [h3, h2]
          · split <;> simp [h3, h2]

@[simp] theorem settle_still (d : Dev) : (settle d).still = d.still := by
  unfold settle
  simp only
  rw [Dev.each_still, Dev.each_still, Dev.each_still]
  · split
    · rw [Dev.each_still, parkFinish_still, settleRecalls_still]
      exact fun d k => settleMover_still d k
    · rfl
  · exact fun d e => settleRun_still d e
  · exact fun d e => settleFault_still d e
  · intro d e
    split
    · rfl
    · exact runCall_still e _ d

@[simp] theorem flushRecall_still (d : Dev) (s t : Nat) (f : Flush) (ts : List Target) :
    (flushRecall d s t f ts).still = d.still := by
  simp [flushRecall]

@[simp] theorem orphan_still (d : Dev) (i : Nat) : (orphan d i).still = d.still := by
  unfold orphan
  repeat' split
  all_goals first | rfl | simp


end Sys2Proof.Machine
end

