-- ==== Sys2Proof/Machine/Balls.lean ====
section
/-! DEFINITION. What the package's balls carry (R505-R508): row names, the ball rule, the channel block, the management table. -/

namespace Sys2Proof.Machine

/-- A supply or ground net (R498, R506). -/
inductive Net where
  | vss | vddAon | vddCore | vddTile | vddPhy | vddaPhy | vddMem | vddqM | vddIo
  deriving DecidableEq, Repr

/-- A signal of a memory channel's block (R506). -/
inductive ChanSignal where
  | ck (true_ : Bool)
  | ca (k : Nat)
  | cs (k : Nat)
  | resetN
  | wck (byte : Nat) (true_ : Bool)
  | rdqs (byte : Nat) (true_ : Bool)
  | dq (k : Nat)
  | dmi (byte : Nat)
  deriving DecidableEq, Repr

/-- A management, test or control pin (R508). -/
inductive MgtPin where
  | mgtXin | mgtXout | devRstN | faultN | alertN | thermN | i3cScl | i3cSda | strap (k : Nat) | flCk | flCsN | flDqs | flIo (k : Nat)
  | tck | tms | tdi | tdo | trstN
  deriving DecidableEq, Repr

/-- What a ball carries. -/
inductive Ball where
  | net (n : Net)
  | txp (port k : Nat) | txn (port k : Nat) | rxp (port k : Nat) | rxn (port k : Nat)
  | refclkP (port : Nat) | refclkN (port : Nat) | perstN (port : Nat)
  | zq (mc : Nat)
  | chan (c : Nat) (s : ChanSignal)
  | mgt (p : MgtPin)
  deriving DecidableEq, Repr

def vssBall : Ball := .net .vss

/-- The letters of the row names (R505). -/
def rowLetters : List Char :=
  ['A', 'B', 'C', 'D', 'E', 'F', 'G', 'H', 'J', 'K', 'L', 'M', 'N', 'P', 'T', 'U', 'V', 'W', 'Y']

/-- `row_name` (R505), rows numbered from 1. -/
def rowName (i : Nat) : List Char :=
  if i ≤ 19 then [rowLetters.getD (i - 1) 'A'] else [rowLetters.getD ((i - 20) / 19) 'A', rowLetters.getD ((i - 20) % 19) 'A']

/-- The channel block, row by row from the package edge (R506); none is VSS. -/
def chanBlock (r b : Nat) : Option ChanSignal :=
  match r, b with
  | 0, 0 => some (.ck true) | 0, 1 => some (.ck false)
  | 1, k => some (.ca k)
  | 2, k => some (.ca (3 + k))
  | 3, 0 => some (.ca 6) | 3, k => some (.cs (k - 1))
  | 4, 0 => some .resetN
  | 5, 0 => some (.wck 0 true) | 5, 1 => some (.wck 0 false)
  | 6, k => some (.dq k)
  | 7, k => some (.dq (3 + k))
  | 8, 2 => some (.dmi 0) | 8, k => some (.dq (6 + k))
  | 9, 0 => some (.rdqs 0 true) | 9, 1 => some (.rdqs 0 false)
  | 10, 0 => some (.wck 1 true) | 10, 1 => some (.wck 1 false)
  | 11, k => some (.dq (8 + k))
  | 12, k => some (.dq (11 + k))
  | 13, 2 => some (.dmi 1) | 13, k => some (.dq (14 + k))
  | 14, 0 => some (.rdqs 1 true) | 14, 1 => some (.rdqs 1 false)
  | _, _ => none

/-- The management table, rows 20 (AA) to 45 and columns 9 and 10 (R508). -/
def mgtBall (i j : Nat) : Ball :=
  let pins : List MgtPin := [.mgtXin, .mgtXout, .devRstN, .faultN, .alertN, .thermN, .i3cScl, .i3cSda, .strap 0, .strap 1, .strap 2,
    .strap 3, .flCk, .flCsN, .flDqs, .flIo 0, .flIo 1, .flIo 2, .flIo 3, .flIo 4, .flIo 5, .flIo 6, .flIo 7, .tck, .tms, .tdi, .tdo, .trstN]
  let k := 2 * (i - 20) + (j - 9)
  match pins[k]? with
  | some p => .mgt p
  | none => if k < 44 then .net .vddIo else if k < 52 then .net .vddAon else vssBall

/-- A ball of the port edges (R506). -/
def portBall (i j : Nat) : Ball :=
  let c := if j ≤ 8 then j else 70 - j
  let n := (i - 3) / 16 + (if 62 ≤ j then 4 else 0)
  let k := (i - 3) % 16
  if i < 3 ∨ 66 < i then vssBall
  else match c, k with
  | 1, k => .txp n k
  | 2, k => .txn n k
  | 4, k => .rxp n k
  | 5, k => .rxn n k
  | 7, 0 => .refclkP n
  | 7, 1 => .refclkN n
  | 7, 3 => .perstN n
  | _, _ => vssBall

/-- A ball of the memory bands (R506). -/
def memoryBall (i j : Nat) : Ball :=
  if j = 59 then
    match i with
    | 1 => .zq 0
    | 2 => .zq 1
    | 68 => .zq 3
    | 69 => .zq 2
    | _ => vssBall
  else
    match chanBlock (if i ≤ 17 then i - 1 else 69 - i) ((j - 11) % 3) with
    | some s => .chan ((j - 11) / 3 + (if 53 ≤ i then 16 else 0)) s
    | none => vssBall

/-- A ball of the core region (R506). -/
def coreBall (i j : Nat) : Ball :=
  if (i + j) % 2 = 0 then vssBall
  else if i ≤ 19 ∨ 51 ≤ i then .net .vddqM
  else if i ≤ 21 ∨ 49 ≤ i then .net .vddMem
  else if j = 11 ∨ j = 59 then .net .vddaPhy
  else if j ≤ 16 ∨ 54 ≤ j then .net .vddPhy
  else if 26 ≤ i ∧ i ≤ 44 ∧ 24 ≤ j ∧ j ≤ 46 then .net .vddTile
  else .net .vddCore

/-- What ball (row `i`, column `j`) carries, both from 1 to 69 (R506). -/
def ball (i j : Nat) : Ball :=
  if j ≤ 8 ∨ 62 ≤ j then portBall i j
  else if j ≤ 10 then (if 20 ≤ i ∧ i ≤ 45 then mgtBall i j else vssBall)
  else if 60 ≤ j then vssBall
  else if i ≤ 17 ∨ 53 ≤ i then memoryBall i j
  else coreBall i j

end Sys2Proof.Machine
end

