-- ==== Sys2Proof/Tests/Slice0.lean ====
section
/-! SUPPORT. Tests. Expected values come from the manual's worked examples (the chapter is named at each) and from the published
test values of SHA-512 and CRC-32; the witnesses show that the hypotheses of every obligation can be met together. -/

open Sys2Proof Sys2Proof.Machine

namespace Sys2Proof.Tests

set_option linter.unusedVariables false
set_option Elab.async false

-- states the tests start from

/-- A state with nothing waiting. -/
def st (d : Dev) : State := { dev := d, pending := [] }

/-- An LD attached as agent 5, its 256 MiB decoded at 1 TiB, its view 1 in 64 KiB granules. -/
def ldA : Ld := {
  base := 2 ^ 40, size := 2 ^ 28, committed := true, memEnable := true, biEnable := true, st := .attached, agent := 5
  epoch := 1, hdmDb := true, view := 1, gran := 0 }

/-- The page of the first MiB of view 1, writable. -/
def labA : LabEntry := { view := 1, gran := 0, vpn := 0, pte := { frame := 0x40000, v := true, w := true } }

/-- A port that is up with one attached LD and one LAB entry. -/
def portA : Port := {
  link := .up, width := 3, rate := 3, flit256 := true, released := true, cfg := ⟨3, 3, 2, false⟩, cfgLoaded := true
  lab := [(4 * labSetOf 0 1 0, labA)], lds := [(0, ldA)] }

/-- Memory with the descriptor of view 1 (one level, root table 20) and its first entry, a leaf of 16 GiB at DPA 16 GiB. -/
def memA : Memory := ((Memory.undefined.writeLine 0 (0x01000014 <<< 32) false).writeLine 640 0x03040000 false)

/-- A device in SERVICE: all domains on, port 0 up, agent 5 attached to view 1, channels ready. -/
def svc : Dev := { State.reset.dev with
  glob := { State.reset.dev.glob with
    dev := .service, step := 12, fwRunning := true, fusesOk := true, pkgChecked := true, hubTested := true
    tableSize := 32, rmapBase := 0x400 }
  mem := memA
  pwr := { State.reset.dev.pwr with on := 0xFFFFFFF }
  ports := [(0, portA)], binds := [(0, 1)], agents := [(5, { epoch := 1, hdmDb := true, view := 1 })], epochs := [(5, 1)]
  chans := (List.range 32).map (fun c => (c, { st := 2, trained := true })) }

/-- Engine 4, of quad 1, running with address registers for each space. -/
def engA : Engine := {
  st := .running, sup := true, pc := 5, g := [(0, 0x20), (1, 7), (2, 3)]
  a := [(0, 0x40), (1, 2 * 2 ^ 52 + 0x100), (2, 0x7FFF)]
  mview := [⟨2, 0xABCD, false, 1, 0⟩], imem := [(5, 0)]
  scratch := (List.range 8).map (fun j => (0x100 + j, BitVec.ofNat 18 (3 * j))) }

def eng (y : Engine) : Dev := { svc with engines := [(4, y)] }
def env : Env := { e := 4, fetch := .ok, local_ := .ok, lab := .ok, mview := .ok }
/-- A device with one request under way, number 7. -/
def req (x : Xact) : Dev := { svc with xacts := [(7, x)], nextId := 8 }
def host (r : Req) : Req := { r with src := .host 0 0 9, agent := 5, epoch := 1, hdmDb := true }

/-- An installation package. -/
def pkgA : Package := {
  generation := 1, digest := 0, fieldsOk := true, tiles := 0xFF, population := ⟨0, false⟩, rate := 0
  ports := List.replicate 8 ⟨3, 3, 1, false⟩, tableBase := 0, tableSize := 32, rmapBase := 0x400, handlers := List.replicate 8 0
  serve := List.replicate 64 0, routes := [], flipAllowed := false }

/-- Engine 4 holds a popped packet of queue 0 that names routine `c`, with these body words. -/
def callA (c : BitVec 8) (ws : List Word := []) : Dev := {
  eng { engA with popped := some (0, 3, c, ws) } with pairs := [(0, { st := 2, serve := 0x10 })] }
/-- The same with a program loaded. -/
def progA (c : BitVec 8) (ws : List Word := []) : Dev := {
  eng { engA with popped := some (0, 3, c, ws), prog := some ⟨255, 0, 64, 0⟩ } with pairs := [(0, { st := 2, serve := 0x10 })] }

/-- A signature by the installer whose key digest is 1, over a request or package of this device. -/
def signA (code target : Nat) (params : BitVec 512) : Signed :=
  ⟨3, 77, ⟨0, 0, 1, sha512 (svc.signText 77 code 2 target params)⟩⟩


/-- What the next state's device shows. -/
def seen {α : Type} (f : Dev → α) : Answer → Option α
  | .next t => some (f t.dev)
  | _ => none

-- a term that breaks each check of `Instr.wf`, and the check that refuses it

/-- A package with one port too few. -/
def pkgBad : Package := { pkgA with ports := List.replicate 7 ⟨3, 3, 1, false⟩ }

theorem test_wf_refuses_start_operands :
    (Instr.memoryTrainingDone 0 true (some 5) ⟨0, false⟩).wf = false
      ∧ (Instr.tileSelfTestDone 0 ⟨true, false, true, 0, List.replicate 257 ⟨0, 0, 0, 0, 0⟩⟩).wf = false
      ∧ (Instr.linkUp 0 0 3 true false).wf = false ∧ (Instr.linkUp 0 3 0 true false).wf = false
      ∧ (Instr.hdmDecoderCommit 0 0 (2 ^ 52) 0).wf = false ∧ (Instr.thermalSample []).wf = false := by decide +kernel

theorem test_wf_refuses_addresses :
    let h : M2S := ⟨0, 0, 2 ^ 52, 0, .ok⟩
    (Instr.memRd h .noOp).wf = false ∧ (Instr.memRdData h).wf = false ∧ (Instr.memInv h .noOp).wf = false
      ∧ (Instr.memInvNt h .noOp).wf = false ∧ (Instr.memClnEvct h).wf = false ∧ (Instr.memWr h .noOp 0 false).wf = false
      ∧ (Instr.memWrPtl h .noOp 0 0 false).wf = false ∧ (Instr.memSpecRd h).wf = false ∧ (Instr.biConflict h).wf = false
      ∧ (Instr.birspI 0 0 (2 ^ 52)).wf = false ∧ (Instr.birspS 0 0 (2 ^ 52)).wf = false := by decide

theorem test_wf_refuses_lists :
    (Instr.homeQueueArrival 0 [1, 2, 3, 4, 5]).wf = false ∧ (Instr.homeQueueArrival 0 [1, 1]).wf = false
      ∧ (Instr.moderationTimeout true 9).wf = false
      ∧ (Instr.packageDeliver none 8 (some (pkgBad, signA 0 0 0)) true).wf = false
      ∧ (Instr.packageDeliver none 8 (some ({ pkgA with handlers := [] }, signA 0 0 0)) true).wf = false
      ∧ (Instr.packageDeliver none 8 (some ({ pkgA with serve := [] }, signA 0 0 0)) true).wf = false
      ∧ (Instr.packageDeliver none 8 (some ({ pkgA with routes := [(512, 0)] }, signA 0 0 0)) true).wf = false
      ∧ (Instr.setLdAllocations 0 (List.replicate 15 0)).wf = false
      ∧ (Instr.registerWrite (.host 0 0) 0 0 false 16).wf = false := by decide

theorem test_wf_accepts :
    (Instr.packageDeliver none 8 (some (pkgA, signA 0 0 0)) true).wf = true ∧ (Instr.homeQueueArrival 0 [1, 2, 3, 4]).wf = true
      ∧ (Instr.registerWrite (.host 0 0) 0 0 false 15).wf = true ∧ (Instr.memoryTrainingDone 0 true (some 4) ⟨0, false⟩).wf = true := by
  decide

/-- An operand no event has is the one stop of the model. -/
theorem test_ill_formed_faults : exec (.linkUp 0 0 3 true false) State.reset = .fault .illFormed := rfl

/-- The table gives no row bits, so no word spells a command. -/
theorem test_no_word_is_a_command : decodeTableWord 8 5 = none ∧ State.reset.withFetchWord 8 5 = State.reset := ⟨rfl, rfl⟩

/-- A step takes the front of the queue and leaves the rest. -/
theorem test_step_takes_front :
    step { dev := svc, pending := [.sysNop env 0, .linkReplay 0 none] } = exec (.sysNop env 0) { dev := svc, pending := [.linkReplay 0 none] } := rfl

-- the worked example of Slices and the request path, and what other chapters derive from its DPA

/-- The line of the recurring example. -/
def dpaX : Nat := 0x0B7E350040

theorem test_example_slice_sets_and_channel :
    sa dpaX = 0x05BF1A80 ∧ subOf dpaX = 1 ∧ kOf dpaX = 0x005BF1A8 ∧ sliceOf dpaX = 2 ∧ csetOf dpaX = 0x1377 ∧ ctagOf dpaX = 0x02DF
      ∧ dsetOf dpaX = 0x20B9 ∧ dtagOf dpaX = 0x05BF ∧ chanOf dpaX = 0x15 ∧ mcOf dpaX = 2 ∧ csecOf dpaX = 0x2DF8D4 := by decide +kernel

/-- The way back from the directory's and the cache's sets and tags. -/
theorem test_example_addresses_come_back :
    dpaOfDir 2 0x20B9 0x05BF = dpaX ∧ dpaOfTag 2 0x1377 0x02DF + 64 = dpaX ∧ dpaOfIndex 2 (lineIndex dpaX) = dpaX := by decide +kernel

/-- Sector cache chapter: way 5 is on T2, bank 11, row 0x9BB; way 12 on T6, same bank and row less the low bit of the way. -/
theorem test_example_tile_bank_row :
    tileOfWay 5 = 2 ∧ bankOf 2 0x1377 = 11 ∧ rowOf 0x1377 5 = 0x9BB ∧ tileOfWay 12 = 6 := by decide

/-- Memory path chapter: the place of the line and of its check bytes on 32 GiB channels of two ranks. -/
theorem test_example_place : place 0x2DF8D4 1 3 true = ⟨3, 2, 0xB7E3, 9, 1, 2, 0xE4FDC, 13, 0, 1, 8⟩ := by decide +kernel

/-- Pool views chapter: the LAB set of the worked translation. -/
theorem test_example_lab_set : labSet 0x5A 0x34F20 9 = 0x0DD := by decide +kernel

/-- The published CRC-32 check value. -/
theorem test_crc32 : crc32 [0x31, 0x32, 0x33, 0x34, 0x35, 0x36, 0x37, 0x38, 0x39] = 0xCBF43926 := by decide +kernel

/-- The published digest of "abc", its first byte in the low bits. -/
theorem test_sha512 : sha512 [0x61, 0x62, 0x63] =
    0x9fa44ca54fc99a2a0ee83c6423444d45bdebfea3233cba36a8c14f272a9992219ad3554be6ee9e0aa27ea9894efae612314120ae497341ccba7a6193a135afdd := by
  decide +kernel

-- Electrical and package chapter: its two worked balls and the ends of the row names

theorem test_example_balls :
    ball 28 65 = .rxn 5 9 ∧ rowName 28 = ['A', 'J'] ∧ ball 62 26 = .chan 21 (.dq 3) ∧ rowName 62 = ['C', 'E']
      ∧ rowName 39 = ['B', 'A'] ∧ rowName 69 = ['C', 'M'] := by decide +kernel

-- Fuvos chapter, "Worked example: one level of a walk", one instruction a test

/-- E6 in supervisor mode with the pointer of the example in G2:G3 and the index in G4. -/
def walker (y : Engine → Engine) : State := st { svc with engines := [(6, y {
  st := .running, sup := true, pc := 0x400, g := [(2, 0x05C7), (3, 0x3100), (4, 0x120), (6, 0x7E35), (7, 0x030B), (8, 0x7E35)]
  a := [(0, 0x20000000)] })] }

def e6 : Env := { env with e := 6 }

theorem test_example_amov : seen (fun d => ((d.engine 6).ra 1, (d.engine 6).pc)) (exec (.amov e6 1 0) (walker id)) = some (0x20000000, 0x401) := by
  decide +kernel

theorem test_example_atbl : seen (fun d => (d.engine 6).ra 1) (exec (.atbl e6 1 2) (walker (fun y => { y with a := [(1, 0x20000000)] })))
    = some 0x20171C00 := by decide +kernel

theorem test_example_shi : seen (fun d => (d.engine 6).rg 4) (exec (.shi e6 4 ⟨1, none⟩) (walker id)) = some 0x240 := by decide +kernel

theorem test_example_aaddw : seen (fun d => (d.engine 6).ra 1)
    (exec (.aaddw e6 1 4) (walker (fun y => { y with a := [(1, 0x20171C00)], g := [(4, 0x240)] }))) = some 0x20171E40 := by decide +kernel

theorem test_example_or : seen (fun d => (d.engine 6).rg 8) (exec (.alu e6 6 8 7) (walker id)) = some 0x7F3F := by decide +kernel

/-- ANDI with an extension word takes two words of the program and sets Z. -/
theorem test_example_andi : seen (fun d => ((d.engine 6).rg 8, (d.engine 6).flags.getLsbD 0, (d.engine 6).pc))
    (exec (.andi e6 8 ⟨0, some 0x30000⟩) (walker (fun y => { y with g := [(8, 0x7F3F)] }))) = some (0, true, 0x402) := by decide +kernel

-- Register reference chapter: the byte write to SLC_CTRL

/-- It is dropped, and NARROW_WRITE carries the offset, the LD and the port. -/
theorem test_example_narrow_write :
    seen (fun d => ((d.slice 2).ctrl, (d.source 453).buf.map (fun r => (r.cls, r.sev, r.seq, r.info))))
      (exec (.registerWrite (.host 3 2) 0x032000 0x17 false 1) (st { svc with ports := [(3, { portA with cfg := ⟨3, 3, 16, false⟩, lds := [(2, ldA)] })] }))
    = some ((svc.slice 2).ctrl, [(0, 1, 0, 0x64032000)]) := by decide +kernel

-- reset

theorem test_reset_state : State.reset.pending = [] ∧ State.reset.dev.glob.dev = .start ∧ (State.reset.dev.engine 4).st = .stopped := by decide +kernel

-- the hypotheses of every clause of every obligation can be met together

theorem witness_StepRunsFrontCommandOrTicks :
    ∃ s : State, s.pending = [] :=
  ⟨State.reset, by decide +kernel⟩

theorem witness_OnlyFullResetLeavesRecoveryAndTest :
    (∃ s : State, ∃ t : State, ∃ c : Instr, exec c s = .next t ∧ (s.dev.glob.dev = .recovery ∨ s.dev.glob.dev = .test))
    ∧ (∃ s : State, ∃ t : State, ∃ c : Instr, exec c s = .next t ∧ t.dev.glob.dev = .service)
    ∧ (∃ s : State, ∃ t : State, ∃ c : Instr, exec c s = .next t ∧ t.dev.glob.dev = .test) :=
  ⟨⟨(st { svc with glob := { svc.glob with dev := .recovery } }),
    (match exec (.linkReplay 0 none) (st { svc with glob := { svc.glob with dev := .recovery } }) with | .next t => t | _ => st svc),
    (.linkReplay 0 none), rfl, by decide +kernel⟩,
  ⟨(st { svc with glob := { svc.glob with dev := .service } }),
    (match exec (.linkReplay 0 none) (st { svc with glob := { svc.glob with dev := .service } }) with | .next t => t | _ => st svc),
    (.linkReplay 0 none), rfl, by decide +kernel⟩,
  ⟨(st { svc with glob := { svc.glob with dev := .test } }),
    (match exec (.linkReplay 0 none) (st { svc with glob := { svc.glob with dev := .test } }) with | .next t => t | _ => st svc),
    (.linkReplay 0 none), rfl, by decide +kernel⟩⟩

theorem witness_SoundQueueNeverStops :
    (∃ s : State, s.sound)
    ∧ (∃ s : State, ∃ k : Nat, s.sound) :=
  ⟨⟨{ State.reset with pending := [.linkReplay 0 none] }, by decide +kernel⟩,
  ⟨{ State.reset with pending := [.linkReplay 0 none] }, 2, by decide +kernel⟩⟩

theorem witness_OnlyIllFormedCommandsStop :
    ∃ s : State, ∃ c : Instr, c.wf = true :=
  ⟨State.reset, .linkReplay 0 none, by decide +kernel⟩

theorem witness_EveryStepKeepsMemoryForm :
    ∃ s : State, ∃ t : State, s.dev.mem.wf = true ∧ step s = .next t :=
  ⟨(st svc), (match step (st svc) with | .next t => t | _ => st svc), by decide +kernel, rfl⟩

theorem witness_WorkUnderWay :
    (∃ d : Dev, d.park.st ≠ 1)
    ∧ (∃ d : Dev, d.park.st = 1)
    ∧ (∃ d : Dev, d.quiet) :=
  ⟨⟨svc, by decide +kernel⟩,
  ⟨{ svc with park := { svc.park with st := 1 } }, by decide +kernel⟩,
  ⟨State.reset.dev, ⟨rfl, rfl, by decide +kernel, (fun _ h => nomatch h), by decide +kernel⟩⟩⟩

theorem witness_RaisedRecords :
    (∃ d : Dev, ∃ src : Nat, ∃ cls : Nat, ∃ sev : Nat, ∃ i : Info, (d.source src).buf.length < 2)
    ∧ (∃ d : Dev, ∃ src : Nat, ∃ cls : Nat, ∃ sev : Nat, ∃ i : Info, 2 ≤ (d.source src).buf.length)
    ∧ (∃ d : Dev, ∃ src : Nat, ∃ cls : Nat, ∃ sev : Nat, ∃ i : Info, ∃ n, n ≠ src) :=
  ⟨⟨State.reset.dev, 511, 6, 3, 0, by decide +kernel⟩,
  ⟨{ svc with sources := [(3, { buf := [⟨3, 0, 1, 0, 0, 0, 8⟩, ⟨3, 0, 1, 1, 0, 0, 8⟩] })] }, 3, 0, 1, 0, by decide +kernel⟩,
  ⟨State.reset.dev, 0, 0, 0, 0, 1, by decide +kernel⟩⟩

theorem witness_StartUpFusesAndFirmware :
    (∃ s : State, ∃ b : BitVec 4, s.dev.glob.dev = .start ∧ s.dev.glob.step = 1 ∧ s.dev.glob.resetPhase = .none)
    ∧ (∃ s : State, ∃ d : Dev, (s.dev.glob.dev = .start ∧ s.dev.glob.step = 1 ∧ s.dev.glob.resetPhase = .none) ∧
      d = fuseLoaded s.dev none)
    ∧ (∃ s : State, ∃ d : Dev, (s.dev.glob.dev = .start ∧ s.dev.glob.step = 1 ∧ s.dev.glob.resetPhase = .none) ∧
      d = fuseLoaded s.dev none ∧ (s.dev.engine 0).st = .stopped)
    ∧ (∃ s : State, ∃ d : Dev, (s.dev.glob.resetPhase = .held ∧ s.dev.glob.rstHigh = true ∧
      s.dev.glob.resetT + 4000 ≤ s.dev.glob.time ∧ s.dev.glob.dev = .start ∧ (∀ n,
      s.dev.glob.thermHold = some n → s.dev.tooHot n = false)) ∧ d = bootRom (startBegin s.dev))
    ∧ (∃ s : State, ∃ ok : Bool, s.dev.glob.dev = .start ∧ s.dev.glob.step = 3 ∧ s.dev.glob.waitMctp = false ∧
      s.dev.glob.resetPhase = .none ∧ s.dev.accepts s.dev.bootSlot ok = true)
    ∧ (∃ s : State, ∃ ok : Bool, ∃ d : Dev, (s.dev.glob.dev = .start ∧ s.dev.glob.step = 3 ∧ s.dev.glob.waitMctp = false ∧
      s.dev.glob.resetPhase = .none ∧ s.dev.accepts s.dev.bootSlot ok = false) ∧ d = fwVerified s.dev s.dev.bootSlot ok)
    ∧ (∃ s : State, ∃ ok : Bool, ∃ d : Dev, (s.dev.glob.dev = .start ∧ s.dev.glob.step = 3 ∧ s.dev.glob.waitMctp = false ∧
      s.dev.glob.resetPhase = .none ∧ s.dev.accepts s.dev.bootSlot ok = false) ∧ d = fwVerified s.dev s.dev.bootSlot ok ∧
      s.dev.glob.fwFailed = none)
    ∧ (∃ s : State, ∃ ok : Bool, ∃ d : Dev, (s.dev.glob.dev = .start ∧ s.dev.glob.step = 3 ∧ s.dev.glob.waitMctp = false ∧
      s.dev.glob.resetPhase = .none ∧ s.dev.accepts s.dev.bootSlot ok = false) ∧ d = fwVerified s.dev s.dev.bootSlot ok ∧
      s.dev.glob.fwFailed ≠ none)
    ∧ (∃ s : State, ∃ img : FwImage, ∃ b : Bool, (s.dev.glob.dev = .start ∧ s.dev.glob.waitMctp = true ∧
      s.dev.glob.resetPhase = .none ∧ s.dev.q0Runs = true ∧ s.dev.sec.floor ≤ img.svn ∧ headerOk img = true ∧
      s.dev.sec.signerHeld img = true) ∧ b = !s.dev.sec.namedSlot) :=
  ⟨⟨State.reset, 15, by decide +kernel⟩,
  ⟨State.reset, _, by decide +kernel, rfl⟩,
  ⟨State.reset, _, by decide +kernel, rfl, by decide +kernel⟩,
  ⟨(st { State.reset.dev with glob := { State.reset.dev.glob with resetPhase := .held, rstHigh := true, time := 4000 } }), _,
    by decide +kernel, rfl⟩,
  ⟨(st { State.reset.dev with glob := { State.reset.dev.glob with step := 3 }, sec := { State.reset.dev.sec with slotA := { img := some ⟨4096, 1, 0, false, 0⟩, valid := true } } }),
    true, by decide +kernel⟩,
  ⟨(st { State.reset.dev with glob := { State.reset.dev.glob with step := 3 }, sec := { State.reset.dev.sec with slotA := { img := some ⟨4096, 1, 0, false, 0⟩, valid := true } } }),
    false, _, by decide +kernel, rfl⟩,
  ⟨(st { State.reset.dev with glob := { State.reset.dev.glob with step := 3 }, sec := { State.reset.dev.sec with slotA := { img := some ⟨4096, 1, 0, false, 0⟩, valid := true } } }),
    false, _, by decide +kernel, rfl, by decide +kernel⟩,
  ⟨(st { State.reset.dev with glob := { State.reset.dev.glob with step := 3, fwFailed := some false }, sec := { State.reset.dev.sec with slotA := { img := some ⟨4096, 1, 0, false, 0⟩, valid := true } } }),
    false, _, by decide +kernel, rfl, by decide +kernel⟩,
  ⟨(st { State.reset.dev with glob := { State.reset.dev.glob with waitMctp := true }, pwr := { State.reset.dev.pwr with on := 3 } }),
    ⟨4096, 1, 0, false, 0⟩, _, by decide +kernel, rfl⟩⟩

theorem witness_PackageHubAndFinalSteps :
    (∃ s : State, ∃ ok : Bool, ∃ d : Dev, (s.dev.glob.dev = .start ∧ s.dev.glob.fwRunning = true ∧ s.dev.glob.pkgChecked = false ∧
      s.dev.glob.resetPhase = .none ∧ s.dev.glob.quick = false) ∧ d = pkgCheck s.dev ok)
    ∧ (∃ s : State, ∃ ports : BitVec 8, ∃ quads : BitVec 5, ∃ core : Bool, ∃ mc : Bool, (s.dev.glob.dev = .start ∧
      s.dev.glob.pkgChecked = true ∧ s.dev.glob.hubTested = false ∧ s.dev.glob.resetPhase = .none ∧ (core || mc) = true) ∧ ∃ d,
      d = leaveOff (s.dev.setGlob (fun g => { g with hubTested := true, lbist := BitVec.ofNat 15 (lbistBits ports quads core mc), hubMapValid := lbistBits ports quads core mc == 0 })) ports quads)
    ∧ (∃ s : State, ∃ ports : BitVec 8, ∃ quads : BitVec 5, s.dev.glob.dev = .test ∧ s.dev.glob.hubTested = false ∧
      s.dev.glob.resetPhase = .none ∧ ¬ (ports = 0 ∧ quads = 0))
    ∧ (∃ d : Dev, ∃ ports : BitVec 8, ∃ quads : BitVec 5, ∃ p : Nat, p < 8 ∧ ports.getLsbD p = true)
    ∧ (∃ s : State, ∃ p : Package, ∃ d : Dev, (s.dev.sec.pkg = some p ∧ s.dev.glob.dev = .start ∧ s.dev.glob.pkgUsable = true ∧
      s.dev.glob.resetPhase = .none ∧ s.dev.memReady = true ∧ s.dev.glob.step = (if s.dev.glob.quick then 7 else 12)) ∧
      d = finalSteps s.dev)
    ∧ (∃ s : State, ∃ p : Package, ∃ d : Dev, (s.dev.sec.pkg = some p ∧ s.dev.glob.dev = .start ∧ s.dev.glob.pkgUsable = true ∧
      s.dev.glob.resetPhase = .none ∧ s.dev.memReady = true ∧ s.dev.glob.step = (if s.dev.glob.quick then 7 else 12)) ∧
      d = finalSteps s.dev ∧ s.dev.consistent p = true)
    ∧ (∃ s : State, ∃ p : Package, ∃ d : Dev, (s.dev.sec.pkg = some p ∧ s.dev.glob.dev = .start ∧ s.dev.glob.pkgUsable = true ∧
      s.dev.glob.resetPhase = .none ∧ s.dev.memReady = true ∧ s.dev.glob.step = (if s.dev.glob.quick then 7 else 12)) ∧
      d = finalSteps s.dev ∧ s.dev.consistent p = false) :=
  ⟨⟨(st { svc with glob := { svc.glob with dev := .start, pkgChecked := false, hubTested := false, pkgUsable := true, foundPop := some ⟨0, false⟩ }, sec := { svc.sec with pkg := some pkgA, pkgCommitted := true, installer := some 1 } }),
    false, _, by decide +kernel, rfl⟩,
  ⟨(st { svc with glob := { svc.glob with dev := .start, pkgChecked := true, hubTested := false, pkgUsable := true, foundPop := some ⟨0, false⟩ }, sec := { svc.sec with pkg := some pkgA, pkgCommitted := true, installer := some 1 } }),
    0, 0, true, false, by decide +kernel, _, rfl⟩,
  ⟨(st { svc with glob := { svc.glob with dev := .test, hubTested := false } }), 0x80, 0, by decide +kernel⟩,
  ⟨svc, 0x80, 0, 7, by decide +kernel⟩,
  ⟨(st { svc with glob := { svc.glob with dev := .start, pkgChecked := true, hubTested := true, pkgUsable := true, foundPop := some ⟨0, false⟩ }, sec := { svc.sec with pkg := some pkgA, pkgCommitted := true, installer := some 1 } }),
    pkgA, _, by decide +kernel, rfl⟩,
  ⟨(st { svc with glob := { svc.glob with dev := .start, pkgChecked := true, hubTested := true, pkgUsable := true, foundPop := some ⟨0, false⟩ }, sec := { svc.sec with pkg := some pkgA, pkgCommitted := true, installer := some 1 } }),
    pkgA, _, by decide +kernel, rfl, by decide +kernel⟩,
  ⟨(st { svc with glob := { svc.glob with dev := .start, pkgChecked := true, hubTested := true, pkgUsable := true, foundPop := some ⟨0, false⟩ }, sec := { svc.sec with pkg := some { pkgA with tableSize := 0 }, pkgCommitted := true, installer := some 1 } }),
    { pkgA with tableSize := 0 }, _, by decide +kernel, rfl, by decide +kernel⟩⟩

theorem witness_TrainingAndTileTests :
    (∃ s : State, ∃ c : Fin 32, ∃ full : Bool, ∃ pop : Population, ∃ p : Package, s.dev.sec.pkg = some p ∧ s.dev.glob.dev = .start ∧
      (s.dev.chan c.val).st = 1 ∧ full ≠ s.dev.glob.trainSaved)
    ∧ (∃ s : State, ∃ c : Fin 32, ∃ full : Bool, ∃ pop : Population, ∃ p : Package, ∃ d : Dev, (s.dev.sec.pkg = some p ∧
      p.rate.toNat ≤ 4 ∧ s.dev.glob.dev = .start ∧ (s.dev.chan c.val).st = 1 ∧ full ≠ s.dev.glob.trainSaved) ∧
      d = trained s.dev c.val full (some p.rate) pop)
    ∧ (∃ s : State, ∃ t : Fin 8, ∃ sig : BitVec 64, (s.dev.glob.dev = .test ∧ (s.dev.tile t.val).bist = 1) ∧ ∃ d,
      d = (loseCells s.dev t.val).updTile t.val (fun x => { x with bist := 2, sigMatch := true, overflow := false, signature := sig, tested := true, failedOutright := false, mapValid := true, unrepaired := 0, fails := [], softRows := [], softGroups := [] }))
    ∧ (∃ s : State, ∃ t : Fin 8, ∃ sig : BitVec 64, (s.dev.glob.dev = .test ∧ (s.dev.tile t.val).bist = 1) ∧ ∃ d,
      d = tileTested s.dev t.val ⟨false, false, false, sig, []⟩)
    ∧ (∃ s : State, ∃ t : Fin 8, (s.dev.glob.resetPhase = .none ∧ s.dev.tileSt t.val = .offline ∧ (s.dev.tile t.val).bist ≠ 1 ∧
      s.dev.domOn (tileDom t.val) = true ∧ s.dev.leaving (tileDom t.val) = false ∧ s.dev.glob.dev = .service ∧ s.dev.testsRunning = 0) ∧
      ∃ d, d = startTest s.dev true t.val)
    ∧ (∃ s : State, ∃ t : Fin 8, (s.dev.glob.resetPhase = .none ∧ s.dev.tileSt t.val = .offline ∧ (s.dev.tile t.val).bist ≠ 1 ∧
      s.dev.domOn (tileDom t.val) = true ∧ s.dev.leaving (tileDom t.val) = false ∧ s.dev.glob.dev = .service ∧ s.dev.testsRunning = 0) ∧
      ∃ d, d = startTest s.dev true t.val ∧ ∃ k, k ≠ t.val)
    ∧ (∃ s : State, ∃ t : Fin 8, s.dev.glob.resetPhase = .none ∧ s.dev.tileSt t.val = .offline ∧ (s.dev.tile t.val).bist ≠ 1 ∧
      s.dev.domOn (tileDom t.val) = true ∧ s.dev.leaving (tileDom t.val) = false ∧ s.dev.glob.dev = .test ∧ s.dev.testsRunning < 2)
    ∧ (∃ s : State, ∃ t : Fin 8, s.dev.glob.resetPhase = .none ∧ s.dev.glob.dev = .service ∧
      (s.dev.tileSt t.val ≠ .offline ∨ s.dev.testsRunning ≠ 0))
    ∧ (∃ s : State, s.dev.glob.dev = .test ∧ s.dev.glob.resetPhase = .none)
    ∧ (∃ s : State, (s.dev.glob.dev = .service ∨ s.dev.glob.dev = .held ∨ s.dev.glob.dev = .recovery) ∧ s.dev.glob.resetPhase = .none)
    ∧ (∃ s : State, ∃ c : Fin 32, s.dev.glob.dev ≠ .off)
    ∧ (∃ s : State, ∃ c : Fin 32, (s.dev.glob.dev = .service ∨ s.dev.glob.dev = .held ∨ s.dev.glob.dev = .recovery) ∧
      s.dev.glob.resetPhase = .none) :=
  ⟨⟨(st { { svc with glob := { svc.glob with dev := .start, pkgChecked := true, hubTested := true, pkgUsable := true, foundPop := some ⟨0, false⟩ }, sec := { svc.sec with pkg := some pkgA, pkgCommitted := true, installer := some 1 } } with chans := [(31, { st := 1 })] }),
    31, true, ⟨0, false⟩, pkgA, by decide +kernel⟩,
  ⟨(st { { svc with glob := { svc.glob with dev := .start, pkgChecked := true, hubTested := true, pkgUsable := true, foundPop := some ⟨0, false⟩ }, sec := { svc.sec with pkg := some pkgA, pkgCommitted := true, installer := some 1 } } with chans := [(31, { st := 1 })] }),
    31, true, ⟨0, false⟩, pkgA, _, by decide +kernel, rfl⟩,
  ⟨(st { svc with glob := { svc.glob with dev := .test }, tiles := [(7, { bist := 1 })] }), 7, 9, by decide +kernel, _, rfl⟩,
  ⟨(st { svc with glob := { svc.glob with dev := .test }, tiles := [(7, { bist := 1 })] }), 7, 9, by decide +kernel, _, rfl⟩,
  ⟨(st { svc with tiles := [(7, { st := .offline })] }), 7, by decide +kernel, _, rfl⟩,
  ⟨(st { svc with tiles := [(7, { st := .offline })] }), 7, by decide +kernel, _, rfl, 0, by decide +kernel⟩,
  ⟨(st { svc with glob := { svc.glob with dev := .test }, tiles := [(7, { st := .offline })] }), 7, by decide +kernel⟩,
  ⟨(st { svc with tiles := [(7, { st := .online })] }), 7, by decide +kernel⟩,
  ⟨(st { svc with glob := { svc.glob with dev := .test }, tiles := [(7, { st := .offline })] }), by decide +kernel⟩,
  ⟨(st svc), by decide +kernel⟩,
  ⟨(st svc), 31, by decide +kernel⟩,
  ⟨(st svc), 31, by decide +kernel⟩⟩

theorem witness_LinkCommands :
    (∃ s : State, ∃ p : Fin 8, (s.dev.port p.val).cfg.disabled = true)
    ∧ (∃ s : State, ∃ p : Fin 8, ∃ d : Dev, (s.dev.port p.val).cfg.disabled = false ∧
      d = linkDown (s.dev.updPort p.val (fun x => { x with perst := true })) p.val 4)
    ∧ (∃ s : State, ∃ p : Fin 8, ∃ d : Dev,
      d = startTrain (s.dev.updPort p.val (fun x => { x with perst := false, perstT := s.dev.glob.time })) p.val)
    ∧ (∃ s : State, ∃ p : Fin 8, ∃ d : Dev,
      d = startTrain (s.dev.updPort p.val (fun x => { x with perst := false, perstT := s.dev.glob.time })) p.val ∧
      (s.dev.port p.val).link = .down ∧ s.dev.domOn (portDom p.val) = true ∧ s.dev.leaving (portDom p.val) = false ∧
      (s.dev.port p.val).refclkLost = false ∧ s.dev.pwr.unlocked.getLsbD (p.val + 2) = false ∧ (s.dev.port p.val).cfg.disabled = false ∧
      (s.dev.port p.val).failed = false ∧ (s.dev.port p.val).released = true)
    ∧ (∃ s : State, ∃ p : Fin 8, ∃ d : Dev,
      d = startTrain (s.dev.updPort p.val (fun x => { x with perst := false, perstT := s.dev.glob.time })) p.val ∧
      ((s.dev.port p.val).link ≠ .down ∨ s.dev.domOn (portDom p.val) = false ∨ s.dev.leaving (portDom p.val) = true ∨ (s.dev.port p.val).refclkLost = true ∨ s.dev.pwr.unlocked.getLsbD (p.val + 2) = true ∨ (s.dev.port p.val).cfg.disabled = true ∨ (s.dev.port p.val).failed = true ∨ (s.dev.port p.val).released = false))
    ∧ (∃ s : State, ∃ p : Fin 8, ∃ width : BitVec 2, ∃ rate : BitVec 2, ∃ flit256 : Bool, ∃ lopt : Bool, ∃ d : Dev, (width ≠ 0 ∧
      rate ≠ 0) ∧ d = reachL0 s.dev p.val width rate flit256 lopt)
    ∧ (∃ s : State, ∃ p : Fin 8, ∃ width : BitVec 2, ∃ rate : BitVec 2, ∃ flit256 : Bool, ∃ lopt : Bool, ∃ d : Dev, (width ≠ 0 ∧
      rate ≠ 0) ∧ d = reachL0 s.dev p.val width rate flit256 lopt ∧ s.dev.canTrain p.val = true ∧ (s.dev.port p.val).link ≠ .up ∧
      width ≤ (s.dev.port p.val).cfg.maxWidth ∧ rate ≤ (s.dev.port p.val).cfg.maxRate ∧ (flit256 = true ∨ (rate ≠ 3 ∧ lopt = false)))
    ∧ (∃ s : State, ∃ p : Fin 8, ∃ width : BitVec 2, ∃ rate : BitVec 2, ∃ flit256 : Bool, ∃ lopt : Bool, ∃ d : Dev, (width ≠ 0 ∧
      rate ≠ 0) ∧ d = reachL0 s.dev p.val width rate flit256 lopt ∧
      ((s.dev.port p.val).link = .up ∨ s.dev.canTrain p.val = false ∨ (s.dev.port p.val).cfg.maxWidth < width ∨ (s.dev.port p.val).cfg.maxRate < rate ∨ (flit256 = false ∧
      (rate = 3 ∨ lopt = true))))
    ∧ (∃ s : State, ∃ p : Fin 8, ∃ cause : DropCause, ∃ d : Dev, (s.dev.port p.val).link = .up ∧
      d = linkDown s.dev p.val (dropCode cause))
    ∧ (∃ s : State, ∃ p : Fin 8, ∃ cause : DropCause, ∃ d : Dev, (s.dev.port p.val).link = .up ∧
      d = linkDown s.dev p.val (dropCode cause) ∧ s.dev.glob.resetPhase = .none)
    ∧ (∃ s : State, ∃ p : Fin 8, ∃ cause : DropCause, (s.dev.port p.val).link ≠ .up)
    ∧ (∃ s : State, ∃ p : Fin 8, ∃ e : ProtoErr, (s.dev.port p.val).link = .up)
    ∧ (∃ s : State, ∃ p : Fin 8, ∃ e : ProtoErr, (s.dev.port p.val).link ≠ .up)
    ∧ (∃ s : State, ∃ p : Fin 8, ∃ count : BitVec 16, (s.dev.port p.val).link = .up ∧ (s.dev.port p.val).replayThresh < count) :=
  ⟨⟨(st { svc with ports := [(0, { portA with cfg := ⟨3, 3, 2, true⟩ })] }), 0, by decide +kernel⟩,
  ⟨(st svc), 0, _, by decide +kernel, rfl⟩,
  ⟨(st { svc with ports := [(0, { portA with link := .down, perst := true })] }), 0, _, rfl⟩,
  ⟨(st { svc with ports := [(0, { portA with link := .down, perst := true })] }), 0, _, rfl, by decide +kernel⟩,
  ⟨(st { svc with ports := [(0, { portA with link := .down, perst := true, failed := true })] }), 0, _, rfl, by decide +kernel⟩,
  ⟨(st { svc with ports := [(0, { portA with link := .training })] }), 0, 3, 3, true, true, _, by decide +kernel, rfl⟩,
  ⟨(st { svc with ports := [(0, { portA with link := .training })] }), 0, 3, 3, true, true, _, by decide +kernel, rfl,
    by decide +kernel⟩,
  ⟨(st { svc with ports := [(0, { portA with link := .training })] }), 0, 3, 3, false, true, _, by decide +kernel, rfl,
    by decide +kernel⟩,
  ⟨(st svc), 0, .hotReset, _, by decide +kernel, rfl⟩,
  ⟨(st svc), 0, .hotReset, _, by decide +kernel, rfl, by decide +kernel⟩,
  ⟨(st svc), 7, .hotReset, by decide +kernel⟩,
  ⟨(st svc), 0, ⟨some 15, 31, true⟩, by decide +kernel⟩,
  ⟨(st svc), 7, ⟨none, 0, false⟩, by decide +kernel⟩,
  ⟨(st svc), 0, 0x101, by decide +kernel⟩⟩

theorem witness_ClocksAndTemperature :
    (∃ s : State, ∃ p : Fin 8, (s.dev.port p.val).refclkLost = false)
    ∧ (∃ s : State, ∃ p : Fin 8, (s.dev.port p.val).refclkLost = true)
    ∧ (∃ d : Dev, ∃ i : Nat, d.domOn (islandDom i) = true ∧ d.pwr.unlocked.getLsbD i = false)
    ∧ (∃ d : Dev, ∃ i : Nat, d.pwr.unlocked.getLsbD i = true)
    ∧ (∃ s : State, s.dev.pwr.xinLost = false)
    ∧ (∃ s : State, ∃ i : Fin 29, ∃ d : Dev, (s.dev.domOn (islandDom i.val) = true ∧ s.dev.pwr.unlocked.getLsbD i.val = false) ∧
      d = raise (s.dev.setPwr (fun q => { q with unlocked := q.unlocked ||| BitVec.ofNat 29 (2 ^ i.val) })) 486 2 2 (info i.val))
    ∧ (∃ s : State, ∃ i : Fin 29, s.dev.pwr.unlocked.getLsbD i.val = true ∧ (i.val < 2 ∨ 10 < i.val))
    ∧ (∃ s : State, s.dev.pwr.unlocked.getLsbD 10 = true)
    ∧ (∃ s : State, ∃ i : Fin 29, s.dev.pwr.unlocked.getLsbD i.val = true ∧ 2 ≤ i.val ∧ i.val ≤ 9 ∧
      (s.dev.port (i.val - 2)).refclkLost = false)
    ∧ (∃ s : State, ∃ i : Fin 29, s.dev.pwr.unlocked.getLsbD i.val = true ∧ 2 ≤ i.val ∧ i.val ≤ 9 ∧
      (s.dev.port (i.val - 2)).refclkLost = true)
    ∧ (∃ s : State, ∃ i : Fin 29, s.dev.pwr.unlocked.getLsbD i.val = false)
    ∧ (∃ d : Dev, d.waits = [])
    ∧ (∃ d : Dev, d.answers = [])
    ∧ (∃ s : State, ∃ r : List (Option Int), r.length = 24 ∧ s.dev.glob.dev ≠ .off)
    ∧ (∃ d : Dev, ∃ r : List (Option Int), (d.each (List.range 24) (fun d i => takeReading d i (r.getD i none))).hottest = none)
    ∧ (∃ p : Pwr, ∃ tj : Nat, p.thmCtrl.getLsbD 14 = true ∧ p.throttleAt + 3 ≤ tj)
    ∧ (∃ p : Pwr, ∃ tj : Nat, p.thmCtrl.getLsbD 14 = true ∧ p.throttleAt ≤ tj ∧ tj < p.throttleAt + 3 ∧ p.level = 0)
    ∧ (∃ p : Pwr, ∃ tj : Nat, p.thmCtrl.getLsbD 14 = true ∧ tj + 5 ≤ p.throttleAt)
    ∧ (∃ p : Pwr, ∃ tj : Nat, p.thmCtrl.getLsbD 14 = false) :=
  ⟨⟨(st svc), 0, by decide +kernel⟩,
  ⟨(st { svc with ports := [(0, { portA with refclkLost := true, perst := true })] }), 0, by decide +kernel⟩,
  ⟨svc, 28, by decide +kernel⟩,
  ⟨{ svc with pwr := { svc.pwr with unlocked := 4 } }, 2, by decide +kernel⟩,
  ⟨(st svc), by decide +kernel⟩,
  ⟨(st svc), 10, _, by decide +kernel, rfl⟩,
  ⟨(st { svc with pwr := { svc.pwr with unlocked := 0x10000000 } }), 28, by decide +kernel⟩,
  ⟨(st { svc with pwr := { svc.pwr with unlocked := 0x400 } }), by decide +kernel⟩,
  ⟨(st { svc with pwr := { svc.pwr with unlocked := 0x200 } }), 9, by decide +kernel⟩,
  ⟨(st { { svc with pwr := { svc.pwr with unlocked := 0x200 } } with ports := [(7, { portA with refclkLost := true })] }), 9,
    by decide +kernel⟩,
  ⟨(st svc), 28, by decide +kernel⟩,
  ⟨svc, by decide +kernel⟩,
  ⟨svc, by decide +kernel⟩,
  ⟨(st svc), (List.replicate 24 (some 125)), by decide +kernel⟩,
  ⟨svc, (List.replicate 24 none), by decide +kernel⟩,
  ⟨{}, 103, by decide +kernel⟩,
  ⟨{}, 102, by decide +kernel⟩,
  ⟨{}, 95, by decide +kernel⟩,
  ⟨{ thmCtrl := 0 }, 0, by decide +kernel⟩⟩

theorem witness_DecodersAndAgents :
    (∃ s : State, ∃ p : Fin 8, ∃ ld : Fin 16, ∃ base : Nat, ∃ size : Nat, ∃ r : Nat, base < 2 ^ 52 ∧
      s.dev.ldPresent p.val ld.val = true ∧ (s.dev.ld p.val ld.val).committed = false ∧ s.dev.attachCheck p.val ld.val size = some r)
    ∧ (∃ s : State, ∃ p : Fin 8, ∃ ld : Fin 16, ∃ base : Nat, ∃ size : Nat, ∃ d : Dev, (base < 2 ^ 52 ∧
      s.dev.ldPresent p.val ld.val = true ∧ (s.dev.ld p.val ld.val).committed = false ∧ s.dev.attachCheck p.val ld.val size = none) ∧
      d = commit s.dev p.val ld.val base size)
    ∧ (∃ s : State, ∃ p : Fin 8, ∃ ld : Fin 16, ∃ base : Nat, ∃ size : Nat, ∃ d : Dev, (base < 2 ^ 52 ∧
      s.dev.ldPresent p.val ld.val = true ∧ (s.dev.ld p.val ld.val).committed = false ∧ s.dev.attachCheck p.val ld.val size = none) ∧
      d = commit s.dev p.val ld.val base size ∧ (s.dev.ld p.val ld.val).memEnable = false)
    ∧ (∃ s : State, ∃ p : Fin 8, ∃ ld : Fin 16, ∃ base : Nat, ∃ size : Nat, ∃ d : Dev, (base < 2 ^ 52 ∧
      s.dev.ldPresent p.val ld.val = true ∧ (s.dev.ld p.val ld.val).committed = false ∧ s.dev.attachCheck p.val ld.val size = none) ∧
      d = commit s.dev p.val ld.val base size ∧ (s.dev.ld p.val ld.val).memEnable = true)
    ∧ (∃ s : State, ∃ p : Fin 8, ∃ ld : Fin 16, ∃ d : Dev, s.dev.configTakes p.val ld.val = true ∧ d = memOn s.dev p.val ld.val)
    ∧ (∃ s : State, ∃ p : Fin 8, ∃ ld : Fin 16, ∃ d : Dev, s.dev.configTakes p.val ld.val = true ∧ d = memOn s.dev p.val ld.val ∧
      (s.dev.ld p.val ld.val).place = true ∧ s.dev.inService = true)
    ∧ (∃ s : State, ∃ p : Fin 8, ∃ ld : Fin 16, ∃ d : Dev, s.dev.configTakes p.val ld.val = true ∧ d = memOn s.dev p.val ld.val ∧
      ((s.dev.ld p.val ld.val).place = false ∨ s.dev.inService = false))
    ∧ (∃ s : State, ∃ p : Fin 8, ∃ ld : Fin 16, ∃ d : Dev, s.dev.ldPresent p.val ld.val = true ∧ d = uncommit s.dev p.val ld.val)
    ∧ (∃ s : State, ∃ p : Fin 8, ∃ ld : Fin 16, ∃ d : Dev, s.dev.ldPresent p.val ld.val = true ∧ d = uncommit s.dev p.val ld.val ∧
      (s.dev.ld p.val ld.val).st = .unbound)
    ∧ (∃ s : State, ∃ p : Fin 8, ∃ ld : Fin 16, ∃ d : Dev, s.dev.ldPresent p.val ld.val = true ∧ d = uncommit s.dev p.val ld.val ∧
      (s.dev.ld p.val ld.val).st = .attached ∧ ∃ x, s.dev.agent? (s.dev.ld p.val ld.val).agent = some x ∧ x.attached = true ∧
      x.hdmDb = false)
    ∧ (∃ s : State, ∃ p : Fin 8, ∃ ld : Fin 16, s.dev.configTakes p.val ld.val = true ∧ (s.dev.ld p.val ld.val).st = .unbound)
    ∧ (∃ s : State, ∃ p : Fin 8, ∃ ld : Fin 16, s.dev.configTakes p.val ld.val = true ∧ (s.dev.ld p.val ld.val).st = .attached)
    ∧ (∃ s : State, ∃ p : Fin 8, ∃ ld : Fin 16, s.dev.fnReady p.val = false)
    ∧ (∃ d : Dev, ∃ p : Nat, ∃ m : Nat, p < 8 ∧ m < 16) :=
  ⟨⟨(st { svc with ports := [(0, { portA with lds := [(0, { ldA with st := .unbound, committed := false, memEnable := false })] })] }),
    0, 0, (2 ^ 52 - 1), (2 ^ 28 + 1), 3, by decide +kernel⟩,
  ⟨(st { svc with ports := [(0, { portA with lds := [(0, { ldA with st := .unbound, committed := false, memEnable := false })] })] }),
    0, 0, 0, (2 ^ 28), _, by decide +kernel, rfl⟩,
  ⟨(st { svc with ports := [(0, { portA with lds := [(0, { ldA with st := .unbound, committed := false, memEnable := false })] })] }),
    0, 0, 0, (2 ^ 28), _, by decide +kernel, rfl, by decide +kernel⟩,
  ⟨(st { svc with ports := [(0, { portA with lds := [(0, { ldA with st := .unbound, committed := false, memEnable := true })] })] }),
    0, 0, 0, (2 ^ 28), _, by decide +kernel, rfl, by decide +kernel⟩,
  ⟨(st { svc with glob := { svc.glob with time := 400000000 }, ports := [(0, { portA with lds := [(0, { ldA with st := .unbound, committed := false, memEnable := false })] })] }),
    0, 0, _, Bool.and_eq_true_iff.mpr ⟨by decide +kernel,
    decide_eq_true (Nat.le_trans (Nat.add_le_add_left (Nat.min_le_right _ _) _) (by decide +kernel))⟩, rfl⟩,
  ⟨(st { svc with glob := { svc.glob with time := 400000000 }, ports := [(0, { portA with lds := [(0, { ldA with st := .unbound, committed := true, memEnable := false })] })] }),
    0, 0, _, Bool.and_eq_true_iff.mpr ⟨by decide +kernel,
    decide_eq_true (Nat.le_trans (Nat.add_le_add_left (Nat.min_le_right _ _) _) (by decide +kernel))⟩, rfl, by decide +kernel⟩,
  ⟨(st { svc with glob := { svc.glob with time := 400000000 }, ports := [(0, { portA with lds := [(0, { ldA with st := .unbound, committed := false, memEnable := false })] })] }),
    0, 0, _, Bool.and_eq_true_iff.mpr ⟨by decide +kernel,
    decide_eq_true (Nat.le_trans (Nat.add_le_add_left (Nat.min_le_right _ _) _) (by decide +kernel))⟩, rfl, by decide +kernel⟩,
  ⟨(st { svc with ports := [(0, { portA with lds := [(0, { ldA with st := .unbound, committed := false, memEnable := false })] })] }),
    0, 0, _, by decide +kernel, rfl⟩,
  ⟨(st { svc with ports := [(0, { portA with lds := [(0, { ldA with st := .unbound, committed := false, memEnable := false })] })] }),
    0, 0, _, by decide +kernel, rfl, by decide +kernel⟩,
  ⟨(st { svc with agents := [(5, { epoch := 1, hdmDb := false, view := 1 })] }), 0, 0, _, by decide +kernel, rfl, by decide +kernel,
    { epoch := 1, hdmDb := false, view := 1 }, by decide +kernel⟩,
  ⟨(st { svc with glob := { svc.glob with time := 400000000 }, ports := [(0, { portA with lds := [(0, { ldA with st := .unbound, committed := true, memEnable := true })] })] }),
    0, 0, Bool.and_eq_true_iff.mpr ⟨by decide +kernel,
    decide_eq_true (Nat.le_trans (Nat.add_le_add_left (Nat.min_le_right _ _) _) (by decide +kernel))⟩, by decide +kernel⟩,
  ⟨(st { svc with glob := { svc.glob with time := 400000000 } }), 0, 0, Bool.and_eq_true_iff.mpr ⟨by decide +kernel,
    decide_eq_true (Nat.le_trans (Nat.add_le_add_left (Nat.min_le_right _ _) _) (by decide +kernel))⟩, by decide +kernel⟩,
  ⟨(st { svc with glob := { svc.glob with riseT := 1 } }), 0, 0, decide_eq_false (by show ¬ 1 + _ ≤ 0; omega)⟩,
  ⟨svc, 7, 15, by decide +kernel⟩⟩

theorem witness_FullReset :
    (∃ s : State, s.dev.glob.rstHigh = true)
    ∧ (∃ s : State, s.dev.glob.rstHigh = true ∧ s.dev.glob.dev ≠ .off ∧ s.dev.glob.resetPhase ≠ .draining)
    ∧ (∃ s : State, s.dev.glob.rstHigh = false)
    ∧ (∃ s : State, ∃ r : Nat, ∃ o : Nat, r = originRole .mgmt ∧ o = originField .mgmt)
    ∧ (∃ s : State, ∃ r : Nat, ∃ o : Nat, r = originRole .mgmt ∧ o = originField .mgmt ∧ s.dev.glob.dev ≠ .off ∧
      s.dev.glob.resetPhase ≠ .draining)
    ∧ (∃ s : State, ∃ clean : Bool, s.dev.glob.resetPhase = .draining)
    ∧ (∃ s : State, s.dev.glob.dev ≠ .off)
    ∧ (∃ s : State, ∃ straps : BitVec 4, s.dev.glob.rstHigh = true ∧ s.dev.glob.dev ≠ .off)
    ∧ (∃ s : State, ∃ straps : BitVec 4, (s.dev.glob.rstHigh = false ∨ s.dev.glob.dev = .off))
    ∧ (∃ s : State, ∃ straps : BitVec 4, (s.dev.glob.rstHigh = false ∨ s.dev.glob.dev = .off) ∧ s.dev.glob.dev ≠ .off)
    ∧ (∃ s : State, ∃ straps : BitVec 4, (s.dev.glob.rstHigh = false ∨ s.dev.glob.dev = .off) ∧ s.dev.glob.dev = .off) :=
  ⟨⟨(st svc), by decide +kernel⟩,
  ⟨(st svc), by decide +kernel⟩,
  ⟨(st { svc with glob := { svc.glob with rstHigh := false } }), by decide +kernel⟩,
  ⟨(st svc), _, _, rfl, rfl⟩,
  ⟨(st svc), _, _, rfl, rfl, by decide +kernel⟩,
  ⟨(st { svc with glob := { svc.glob with resetPhase := .draining } }), true, by decide +kernel⟩,
  ⟨(st svc), by decide +kernel⟩,
  ⟨(st svc), 3, by decide +kernel⟩,
  ⟨(st { svc with glob := { svc.glob with rstHigh := false } }), 3, by decide +kernel⟩,
  ⟨(st { svc with glob := { svc.glob with rstHigh := false } }), 3, by decide +kernel⟩,
  ⟨(st { svc with glob := { svc.glob with dev := .off } }), 0xF, by decide +kernel⟩⟩

theorem witness_PowerRequests :
    (∃ s : State, ∃ o : Origin, ∃ dom : BitVec 5, s.dev.glob.dev ≠ .off ∧ s.dev.pwr.waiting.length < 8)
    ∧ (∃ s : State, ∃ o : Origin, ∃ dom : BitVec 5, s.dev.glob.dev ≠ .off ∧ 8 ≤ s.dev.pwr.waiting.length)
    ∧ (∃ s : State, ∃ r : PwrReq, ∃ rest : List PwrReq, ∃ n : Nat, s.dev.pwr.busy = none ∧ s.dev.pwr.waiting = r :: rest ∧
      (s.dev.setPwr (fun p => { p with waiting := rest })).powerReason r.domain r.on = some n)
    ∧ (∃ s : State, ∃ r : PwrReq, ∃ rest : List PwrReq, ∃ d : Dev, (s.dev.pwr.busy = none ∧ s.dev.pwr.waiting = r :: rest ∧
      (s.dev.setPwr (fun p => { p with waiting := rest })).powerReason r.domain r.on = none) ∧
      d = (s.dev.setPwr (fun p => { p with waiting := rest })).setPwr (fun p => { p with busy := some r, lastDomain := BitVec.ofNat 5 r.domain, lastOn := r.on, lastResult := 0 }))
    ∧ (∃ s : State, ∃ r : PwrReq, ∃ d : Dev, (s.dev.pwr.busy = some r ∧ r.on = false ∧ s.dev.crossing r.domain = false) ∧
      d = powerDone (setDomain (loseDomain s.dev r.domain) r.domain false) r.domain false)
    ∧ (∃ s : State, ∃ r : PwrReq, ∃ d : Dev, (s.dev.pwr.busy = some r ∧ r.on = false ∧ s.dev.crossing r.domain = false) ∧
      d = powerDone (setDomain (loseDomain s.dev r.domain) r.domain false) r.domain false ∧ r.domain < 28)
    ∧ (∃ s : State, ∃ r : PwrReq, ∃ d : Dev, (s.dev.pwr.busy = some r ∧ r.on = true) ∧
      d = powerDone (onStart (setDomain s.dev r.domain true) r.domain) r.domain true)
    ∧ (∃ s : State, ∃ r : PwrReq, ∃ d : Dev, (s.dev.pwr.busy = some r ∧ r.on = true) ∧
      d = powerDone (onStart (setDomain s.dev r.domain true) r.domain) r.domain true ∧ r.domain < 28) :=
  ⟨⟨(st svc), .mgmt, 31, by decide +kernel⟩,
  ⟨(st { svc with pwr := { svc.pwr with waiting := List.replicate 8 ⟨16, false, .mgmt, none⟩ } }), .mgmt, 0, by decide +kernel⟩,
  ⟨(st { svc with pwr := { svc.pwr with waiting := [⟨28, true, .mgmt, none⟩] } }), ⟨28, true, .mgmt, none⟩, [], 2, by decide +kernel⟩,
  ⟨(st { svc with pwr := { svc.pwr with on := 0xFEFFFF, waiting := [⟨16, true, .mgmt, none⟩] } }), ⟨16, true, .mgmt, none⟩, [], _,
    by decide +kernel, rfl⟩,
  ⟨(st { svc with pwr := { svc.pwr with busy := some ⟨16, false, .mgmt, none⟩ } }), ⟨16, false, .mgmt, none⟩, _, by decide +kernel, rfl⟩,
  ⟨(st { svc with pwr := { svc.pwr with busy := some ⟨16, false, .mgmt, none⟩ } }), ⟨16, false, .mgmt, none⟩, _, by decide +kernel,
    rfl, by decide +kernel⟩,
  ⟨(st { svc with pwr := { svc.pwr with on := 0, busy := some ⟨27, true, .q0, none⟩ } }), ⟨27, true, .q0, none⟩, _, by decide +kernel,
    rfl⟩,
  ⟨(st { svc with pwr := { svc.pwr with on := 0, busy := some ⟨27, true, .q0, none⟩ } }), ⟨27, true, .q0, none⟩, _, by decide +kernel,
    rfl, by decide +kernel⟩⟩

theorem witness_HostRequestsReachTheirSlice :
    (∃ s : State, ∃ h : M2S, ∃ m : MetaReq, ∃ e : LabEntry, ∃ d : Dev, (h.wf = true ∧ s.dev.takesRequest h) ∧ s.dev.labHolds h e ∧
      d = hostRequest s.dev h (readOp · m) 0 0 false)
    ∧ (∃ s : State, ∃ h : M2S, ∃ e : LabEntry, ∃ d : Dev, (h.wf = true ∧ s.dev.takesRequest h) ∧ s.dev.labHolds h e ∧
      d = hostRequest s.dev h (fun db => if db then .readData else .readUntracked) 0 0 false)
    ∧ (∃ s : State, ∃ h : M2S, ∃ m : MetaReq, ∃ e : LabEntry, ∃ d : Dev, (h.wf = true ∧ s.dev.takesRequest h) ∧ s.dev.labHolds h e ∧
      d = hostRequest s.dev h (invOp · m) 0 0 false)
    ∧ (∃ s : State, ∃ h : M2S, ∃ e : LabEntry, ∃ d : Dev, (h.wf = true ∧ s.dev.takesRequest h) ∧ s.dev.labHolds h e ∧
      d = hostRequest s.dev h (fun _ => .cleanEvict) 0 0 false)
    ∧ (∃ s : State, ∃ h : M2S, ∃ m : MetaReq, ∃ data : Line, ∃ poison : Bool, ∃ e : LabEntry, ∃ d : Dev, (h.wf = true ∧
      s.dev.takesRequest h) ∧ s.dev.labHolds h e ∧ e.pte.w = true ∧
      d = hostRequest s.dev h (fun db => .write (keepOf db m)) data (BitVec.allOnes 64) poison)
    ∧ (∃ s : State, ∃ h : M2S, ∃ m : MetaReq, ∃ data : Line, ∃ mask : Mask, ∃ poison : Bool, ∃ e : LabEntry, ∃ d : Dev, (h.wf = true ∧
      s.dev.takesRequest h) ∧ s.dev.labHolds h e ∧ e.pte.w = true ∧
      d = hostRequest s.dev h (fun db => .write (keepOf db m)) data mask poison)
    ∧ (∃ s : State, ∃ h : M2S, ∃ m : MetaReq, ∃ data : Line, ∃ poison : Bool, ∃ e : LabEntry, ∃ d : Dev, (h.wf = true ∧
      s.dev.takesRequest h) ∧ s.dev.labHolds h e ∧ e.pte.w = false ∧
      d = hostRequest s.dev h (fun db => .write (keepOf db m)) data (BitVec.allOnes 64) poison)
    ∧ (∃ s : State, ∃ h : M2S, ∃ m : MetaReq, ∃ data : Line, ∃ mask : Mask, ∃ poison : Bool, ∃ e : LabEntry, ∃ d : Dev, (h.wf = true ∧
      s.dev.takesRequest h) ∧ s.dev.labHolds h e ∧ e.pte.w = false ∧
      d = hostRequest s.dev h (fun db => .write (keepOf db m)) data mask poison)
    ∧ (∃ s : State, ∃ h : M2S, ∃ m : MetaReq, ∃ k : Nat, ∃ d : Dev, (h.wf = true ∧ s.dev.takesRequest h ∧ s.dev.labMisses h ∧
      s.dev.slotOf h = some k) ∧ d = hostRequest s.dev h (readOp · m) 0 0 false)
    ∧ (∃ s : State, ∃ h : M2S, ∃ m : MetaReq, ∃ k : Nat, ∃ i : Nat, ∃ d : Dev, (h.wf = true ∧ s.dev.takesRequest h ∧
      s.dev.labMisses h ∧ s.dev.slotOf h = none ∧ (s.dev.port h.port.val).handler = some i ∧ (s.dev.port h.port.val).freeSlot = some k) ∧
      d = hostRequest s.dev h (readOp · m) 0 0 false)
    ∧ (∃ s : State, ∃ h : M2S, ∃ m : MetaReq, ∃ data : Line, ∃ poison : Bool, ∃ k : Nat, ∃ i : Nat, ∃ d : Dev, (h.wf = true ∧
      s.dev.takesRequest h ∧ s.dev.labMisses h ∧ s.dev.slotOf h = none ∧ (s.dev.port h.port.val).handler = some i ∧
      (s.dev.port h.port.val).freeSlot = some k) ∧
      d = hostRequest s.dev h (fun db => .write (keepOf db m)) data (BitVec.allOnes 64) poison)
    ∧ (∃ s : State, ∃ h : M2S, ∃ m : MetaReq, ∃ d : Dev, (h.wf = true ∧ s.dev.takesRequest h ∧ s.dev.labMisses h ∧
      s.dev.slotOf h = none ∧ (s.dev.port h.port.val).handler = none) ∧ d = hostRequest s.dev h (readOp · m) 0 0 false)
    ∧ (∃ p : Nat, ∃ k : Nat, ∃ q : ParkSlot, k < 32) :=
  ⟨⟨(st svc), ⟨0, 0, 2 ^ 40 + 64, 9, .ok⟩, .state .s, labA, _, by decide +kernel, ⟨4 * labSetOf 0 1 0, by decide +kernel⟩, rfl⟩,
  ⟨(st svc), ⟨0, 0, 2 ^ 40 + 64, 9, .ok⟩, labA, _, by decide +kernel, ⟨4 * labSetOf 0 1 0, by decide +kernel⟩, rfl⟩,
  ⟨(st svc), ⟨0, 0, 2 ^ 40 + 64, 9, .ok⟩, .state .s, labA, _, by decide +kernel, ⟨4 * labSetOf 0 1 0, by decide +kernel⟩, rfl⟩,
  ⟨(st svc), ⟨0, 0, 2 ^ 40 + 64, 9, .ok⟩, labA, _, by decide +kernel, ⟨4 * labSetOf 0 1 0, by decide +kernel⟩, rfl⟩,
  ⟨(st svc), ⟨0, 0, 2 ^ 40 + 64, 9, .ok⟩, .noOp, 5, false, labA, _, by decide +kernel, ⟨4 * labSetOf 0 1 0, by decide +kernel⟩,
    by decide +kernel, rfl⟩,
  ⟨(st svc), ⟨0, 0, 2 ^ 40 + 64, 9, .ok⟩, .noOp, 5, 1, true, labA, _, by decide +kernel, ⟨4 * labSetOf 0 1 0, by decide +kernel⟩,
    by decide +kernel, rfl⟩,
  ⟨(st { svc with ports := [(0, { portA with lab := [(4 * labSetOf 0 1 0, { labA with pte := { labA.pte with w := false } })] })] }),
    ⟨0, 0, 2 ^ 40 + 64, 9, .ok⟩, .noOp, 5, false, { labA with pte := { labA.pte with w := false } }, _, by decide +kernel,
    ⟨4 * labSetOf 0 1 0, by decide +kernel⟩, by decide +kernel, rfl⟩,
  ⟨(st { svc with ports := [(0, { portA with lab := [(4 * labSetOf 0 1 0, { labA with pte := { labA.pte with w := false } })] })] }),
    ⟨0, 0, 2 ^ 40 + 64, 9, .ok⟩, .noOp, 5, 1, true, { labA with pte := { labA.pte with w := false } }, _, by decide +kernel,
    ⟨4 * labSetOf 0 1 0, by decide +kernel⟩, by decide +kernel, rfl⟩,
  ⟨(st { svc with ports := [(0, { portA with slots := [(31, { view := 1, gran := 0, vpn := 2048, va := 2 ^ 27 })] })] }), ⟨0, 0,
    2 ^ 40 + 2 ^ 27, 9, .ok⟩, .noOp, 31, _, by decide +kernel, rfl⟩,
  ⟨(st { svc with ports := [(0, { portA with handlers := 0x87 })], engines := [(7, { st := .running })] }), ⟨0, 0, 2 ^ 40 + 2 ^ 27, 9,
    .ok⟩, .noOp, 0, 0, _, by decide +kernel, rfl⟩,
  ⟨(st { svc with ports := [(0, { portA with handlers := 0x87 })], engines := [(7, { st := .running })] }), ⟨0, 0, 2 ^ 40 + 2 ^ 27, 9,
    .ok⟩, .noOp, 5, false, 0, 0, _, by decide +kernel, rfl⟩,
  ⟨(st svc), ⟨0, 0, 2 ^ 40 + 2 ^ 27, 9, .ok⟩, .noOp, _, by decide +kernel, rfl⟩,
  ⟨7, 31, {}, by decide +kernel⟩⟩

theorem witness_SnoopsAndParkSlots :
    (∃ s : State, ∃ h : M2S, h.wf = true)
    ∧ (∃ s : State, ∃ h : M2S, h.wf = true ∧ s.dev.portUp h.port.val = true ∧
      ((s.dev.ld h.port.val h.ld.val).st = .resigned ∨ ((s.dev.ld h.port.val h.ld.val).st = .attached ∧
      (s.dev.ld h.port.val h.ld.val).hdmDb = true ∧
      (s.dev.port h.port.val).snoopAt (s.dev.ld h.port.val h.ld.val).agent (h.va (s.dev.ld h.port.val h.ld.val)) = none)))
    ∧ (∃ s : State, ∃ h : M2S, ∃ n : Snoop, h.wf = true ∧ s.dev.portUp h.port.val = true ∧
      (s.dev.ld h.port.val h.ld.val).st = .attached ∧ (s.dev.ld h.port.val h.ld.val).hdmDb = true ∧
      (s.dev.port h.port.val).snoopAt (s.dev.ld h.port.val h.ld.val).agent (h.va (s.dev.ld h.port.val h.ld.val)) = some n)
    ∧ (∃ s : State, ∃ p : Fin 8, ∃ ld : Fin 16, ∃ hpa : Nat, ∃ n : Snoop, ∃ d : Dev, (hpa < 2 ^ 52 ∧ s.dev.portUp p.val = true ∧
      (s.dev.ld p.val ld.val).st = .attached ∧
      (s.dev.port p.val).snoops.find? (fun x => x.agent == (s.dev.ld p.val ld.val).agent && x.sent && decide ((s.dev.ld p.val ld.val).base + x.va = hpa / 64 * 64)) = some n) ∧
      d = (birspCounted s.dev p.val (s.dev.ld p.val ld.val) (some n.line)).updPort p.val (fun q => { q with snoops := q.snoops.filter (fun t => !(t.agent == n.agent && decide (t.line = n.line))) }) ∧
      ∃ a,
      a = answer (match n.conflict with | some tag => emit d (.biConflictAck p.val ld.val tag) | none => d) n.agent n.line false false n.inv)
    ∧ (∃ s : State, ∃ p : Fin 8, ∃ ld : Fin 16, ∃ hpa : Nat, ∃ n : Snoop, ∃ d : Dev, (hpa < 2 ^ 52 ∧ s.dev.portUp p.val = true ∧
      (s.dev.ld p.val ld.val).st = .attached ∧
      (s.dev.port p.val).snoops.find? (fun x => x.agent == (s.dev.ld p.val ld.val).agent && x.sent && decide ((s.dev.ld p.val ld.val).base + x.va = hpa / 64 * 64)) = some n) ∧
      d = (if n.data then (fun d : Dev => d) else (fun d => protocolError d p.val ld.val (s.dev.ld p.val ld.val).agent)) ((birspCounted s.dev p.val (s.dev.ld p.val ld.val) (some n.line)).updPort p.val (fun q => { q with snoops := q.snoops.filter (fun t => !(t.agent == n.agent && decide (t.line = n.line))) })) ∧
      ∃ a,
      a = answer (match n.conflict with | some tag => emit d (.biConflictAck p.val ld.val tag) | none => d) n.agent n.line n.data false n.inv)
    ∧ (∃ s : State, ∃ p : Fin 8, ∃ ld : Fin 16, ∃ hpa : Nat, hpa < 2 ^ 52 ∧ s.dev.portUp p.val = true ∧
      (s.dev.ld p.val ld.val).st = .attached ∧
      (s.dev.port p.val).snoops.find? (fun x => x.agent == (s.dev.ld p.val ld.val).agent && x.sent && decide ((s.dev.ld p.val ld.val).base + x.va = hpa / 64 * 64)) = none)
    ∧ (∃ s : State, ∃ p : Fin 8, ∃ k : Fin 32, ∃ x : ParkSlot, s.dev.pwr.unlocked.getLsbD (2 + p.val) = false ∧
      Tab.find (s.dev.port p.val).slots k.val = some x) :=
  ⟨⟨(st svc), ⟨0, 0, 2 ^ 40 + 64, 9, .ok⟩, by decide +kernel⟩,
  ⟨(st svc), ⟨0, 0, 2 ^ 40 + 64, 9, .ok⟩, by decide +kernel⟩,
  ⟨(st { svc with ports := [(0, { portA with snoops := [⟨5, 0x4000000001, true, true, 64, 0, none, false, 0⟩] })] }), ⟨0, 0,
    2 ^ 40 + 64, 9, .ok⟩, ⟨5, 0x4000000001, true, true, 64, 0, none, false, 0⟩, by decide +kernel⟩,
  ⟨(st { svc with ports := [(0, { portA with snoops := [⟨5, 0x4000000001, true, true, 64, 0, none, false, 0⟩] })] }), 0, 0,
    (2 ^ 40 + 127), ⟨5, 0x4000000001, true, true, 64, 0, none, false, 0⟩, _, by decide +kernel, rfl, _, rfl⟩,
  ⟨(st { svc with ports := [(0, { portA with snoops := [⟨5, 0x4000000001, true, true, 64, 0, none, false, 0⟩] })] }), 0, 0,
    (2 ^ 40 + 64), ⟨5, 0x4000000001, true, true, 64, 0, none, false, 0⟩, _, by decide +kernel, rfl, _, rfl⟩,
  ⟨(st { svc with ports := [(0, { portA with snoops := [⟨5, 0x4000000001, true, true, 64, 0, none, false, 0⟩] })] }), 0, 0,
    (2 ^ 40 + 63), by decide +kernel⟩,
  ⟨(st { svc with ports := [(0, { portA with slots := [(31, {})] })] }), 0, 31, {}, by decide +kernel⟩⟩

theorem witness_HomeQueueAndDirectory :
    (∃ s : State, ∃ sl : Fin 16, ∃ ids : List Nat, s.dev.pwr.unlocked.getLsbD 10 = false ∧ (Instr.homeQueueArrival sl ids).wf = true)
    ∧ (∃ s : State, ∃ sl : Fin 16, ∃ i : Nat, ∃ x : Xact, ∃ d : Dev, (s.dev.pwr.unlocked.getLsbD 10 = false ∧ s.dev.xact? i = some x) ∧
      d = arrive s.dev sl.val [i])
    ∧ (∃ s : State, ∃ sl : Fin 16, ∃ i : Nat, ∃ x : Xact, ∃ d : Dev, (s.dev.pwr.unlocked.getLsbD 10 = false ∧ s.dev.xact? i = some x) ∧
      d = arrive s.dev sl.val [i] ∧ s.dev.canArrive sl.val i x = true ∧ s.dev.portDrops x = false)
    ∧ (∃ s : State, ∃ sl : Fin 16, ∃ i : Nat, ∃ x : Xact, ∃ d : Dev, (s.dev.pwr.unlocked.getLsbD 10 = false ∧ s.dev.xact? i = some x) ∧
      d = arrive s.dev sl.val [i] ∧ s.dev.canArrive sl.val i x = true ∧ s.dev.portDrops x = true)
    ∧ (∃ s : State, ∃ sl : Fin 16, ∃ i : Nat, ∃ x : Xact, ∃ d : Dev, (s.dev.pwr.unlocked.getLsbD 10 = false ∧ s.dev.xact? i = some x) ∧
      d = arrive s.dev sl.val [i] ∧ s.dev.canArrive sl.val i x = false)
    ∧ (∃ s : State, ∃ sl : Fin 16, ∃ err : LookupErr, ∃ i : Nat, ∃ x : Xact, s.dev.pwr.unlocked.getLsbD 10 = false ∧ err.order = none ∧
      s.dev.walkTurn sl.val = false ∧ s.dev.pick sl.val = some (i, x) ∧ x.phase = .queued)
    ∧ (∃ s : State, ∃ sl : Fin 16, ∃ err : LookupErr, s.dev.pwr.unlocked.getLsbD 10 = false ∧ err.order = none ∧
      s.dev.walkTurn sl.val = true)
    ∧ (∃ s : State, ∃ sl : Fin 16, ∃ err : LookupErr, ∃ k : OrderStore, ∃ n : BitVec 8, s.dev.pwr.unlocked.getLsbD 10 = false ∧
      err.order = some (k, n) ∧ ((s.dev.pick sl.val).isSome || s.dev.walkTurn sl.val) = true)
    ∧ (∃ s : State, ∃ sl : Fin 16, ∃ err : LookupErr, s.dev.pick sl.val = none ∧ s.dev.walkTurn sl.val = false)
    ∧ (∃ s : State, ∃ sl : Fin 16, ∃ i : Nat, ∃ err : Option (Fin 16 × Ecc), ∃ x : Xact, s.dev.pwr.unlocked.getLsbD 10 = false ∧
      s.dev.xact? i = some x ∧ x.phase = .retry ∧ x.slice = sl.val)
    ∧ (∃ s : State, ∃ sl : Fin 16, ∃ i : Nat, ∃ x : Xact, ∃ d : Dev, (s.dev.pwr.unlocked.getLsbD 10 = false ∧ s.dev.xact? i = some x ∧
      x.phase = .retry ∧ x.slice = sl.val ∧ 64 ≤ x.retries ∧
      (s.dev.atSlice sl.val).all (fun y => !(y.2.phase == .retry && decide (64 ≤ y.2.retries) && decide (dsetOf y.2.req.dpa = dsetOf x.req.dpa)) || decide (x.ord ≤ y.2.ord)) = true ∧
      (s.dev.slice sl.val).guards.any (fun g => decide (g.1 = dsetOf x.req.dpa)) = false) ∧ d = guardEngage s.dev sl.val i)
    ∧ (∃ s : State, ∃ sl : Fin 16, ∃ f : Flush, s.dev.pwr.unlocked.getLsbD 10 = false ∧ (s.dev.slice sl.val).flush = some f ∧
      f.xids = [] ∧ s.dev.flushNext sl.val f.dset (0x8000 - f.next) f.next = none)
    ∧ (∃ s : State, ∃ sl : Fin 16, ∃ f : Flush, ∃ a : Target, ∃ ts : List Target, ∃ t : Nat, s.dev.pwr.unlocked.getLsbD 10 = false ∧
      (s.dev.slice sl.val).flush = some f ∧ f.xids.length < 8 ∧ s.dev.recallRegs sl.val < 16 ∧ s.dev.dbAgents.map (fun a => (⟨a.1, a.2,
      false, false⟩ : Target)) = a :: ts ∧ s.dev.flushNext sl.val f.dset (0x8000 - f.next) f.next = some t) :=
  ⟨⟨(st svc), 15, [], by decide +kernel⟩,
  ⟨(st (req { req := host { op := .readShared, dpa := 2 ^ 34 }, slice := sliceOf (2 ^ 34) })), ⟨sliceOf (2 ^ 34), by decide +kernel⟩,
    7, { req := host { op := .readShared, dpa := 2 ^ 34 }, slice := sliceOf (2 ^ 34) }, _, by decide +kernel, rfl⟩,
  ⟨(st (req { req := host { op := .readShared, dpa := 2 ^ 34 }, slice := sliceOf (2 ^ 34) })), ⟨sliceOf (2 ^ 34), by decide +kernel⟩,
    7, { req := host { op := .readShared, dpa := 2 ^ 34 }, slice := sliceOf (2 ^ 34) }, _, by decide +kernel, rfl, by decide +kernel⟩,
  ⟨(st { req { req := host { op := .write .i, dpa := 2 ^ 34 }, slice := sliceOf (2 ^ 34) } with glob := { svc.glob with dev := .recovery } }),
    ⟨sliceOf (2 ^ 34), by decide +kernel⟩, 7, { req := host { op := .write .i, dpa := 2 ^ 34 }, slice := sliceOf (2 ^ 34) }, _,
    by decide +kernel, rfl, by decide +kernel⟩,
  ⟨(st (req { req := host { op := .readShared, dpa := 2 ^ 34 }, slice := 9 })), 15, 7,
    { req := host { op := .readShared, dpa := 2 ^ 34 }, slice := 9 }, _, by decide +kernel, rfl, by decide +kernel⟩,
  ⟨(st (req { req := host { op := .readShared, dpa := 2 ^ 34 }, slice := sliceOf (2 ^ 34), ord := 1, phase := .queued })),
    ⟨sliceOf (2 ^ 34), by decide +kernel⟩, { tag := none, dir := none }, 7,
    { req := host { op := .readShared, dpa := 2 ^ 34 }, slice := sliceOf (2 ^ 34), ord := 1, phase := .queued }, by decide +kernel⟩,
  ⟨(st { svc with slices := [(15, { walkOrd := some 1 })] }), 15, ⟨none, none, none, .ok, none⟩, by decide +kernel⟩,
  ⟨(st { svc with slices := [(15, { walkOrd := some 1 })] }), 15, ⟨none, none, none, .ok, some (.homeQueue, 255)⟩, .homeQueue, 255,
    by decide +kernel⟩,
  ⟨(st svc), 15, { tag := none, dir := none }, by decide +kernel⟩,
  ⟨(st (req { req := host { op := .readShared, dpa := 2 ^ 34 }, slice := sliceOf (2 ^ 34), ord := 1, phase := .retry, retries := 64 })),
    ⟨sliceOf (2 ^ 34), by decide +kernel⟩, 7, none,
    { req := host { op := .readShared, dpa := 2 ^ 34 }, slice := sliceOf (2 ^ 34), ord := 1, phase := .retry, retries := 64 },
    by decide +kernel⟩,
  ⟨(st (req { req := host { op := .readShared, dpa := 2 ^ 34 }, slice := sliceOf (2 ^ 34), ord := 1, phase := .retry, retries := 64 })),
    ⟨sliceOf (2 ^ 34), by decide +kernel⟩, 7,
    { req := host { op := .readShared, dpa := 2 ^ 34 }, slice := sliceOf (2 ^ 34), ord := 1, phase := .retry, retries := 64 }, _,
    by decide +kernel, rfl⟩,
  ⟨(st { svc with slices := [(15, { flush := some ⟨0, 0x8000, []⟩, flushQueue := [0] })] }), 15, ⟨0, 0x8000, []⟩, by decide +kernel⟩,
  ⟨(st { svc with mem := memA.writeLine 0x100000 (1 <<< 27) false, slices := [(15, { flush := some ⟨0, 0, []⟩ })] }), 15, ⟨0, 0, []⟩,
    ⟨5, 1, false, false⟩, [], 0, by decide +kernel⟩⟩

theorem witness_RecallAndSweepCommands :
    (∃ s : State, ∃ e : Fin 24, ∃ line : Nat, ∃ i : Nat, ∃ x : Xact, ∃ ts : List Target, ∃ ev : Option Nat, (i, x) ∈ s.dev.xacts ∧
      x.recallLine = line ∧ x.phase = .recall ts ev ∧ (ts.any (fun t => t.agent == engAgent e.val)) = true ∧
      (s.dev.quadRuns e.val = true ∨ s.dev.domOn (quadDom (quadOf e.val)) = false))
    ∧ (∃ s : State, ∃ p : Fin 8, ∃ a : BitVec 12, ∃ line : Nat, s.dev.pwr.unlocked.getLsbD (2 + p.val) = false ∧
      (s.dev.port p.val).snoops.any (fun n => n.agent == a && decide (n.line = line) && n.sent) = true)
    ∧ (∃ s : State, ∃ a : BitVec 12, ∃ x : Agent, ∃ d : Dev, (s.dev.agent? a = some x ∧ x.attached = false ∧ x.pointReached = false ∧
      s.dev.writesBefore a = false ∧ s.dev.islandRuns 10 = true ∧ Tab.wf s.dev.agents = true) ∧ d = resignationPoint s.dev a)
    ∧ (∃ s : State, ∃ a : BitVec 12, ∃ x : Agent, ∃ d : Dev, (s.dev.agent? a = some x ∧ x.attached = false ∧ x.pointReached = false ∧
      s.dev.writesBefore a = false ∧ s.dev.islandRuns 10 = true ∧ Tab.wf s.dev.agents = true) ∧ d = resignationPoint s.dev a ∧
      x.hdmDb = false)
    ∧ (∃ s : State, ∃ a : BitVec 12, ∃ x : Agent, ∃ d : Dev, (s.dev.agent? a = some x ∧ x.attached = false ∧ x.pointReached = false ∧
      s.dev.writesBefore a = false ∧ s.dev.islandRuns 10 = true ∧ Tab.wf s.dev.agents = true) ∧ d = resignationPoint s.dev a ∧
      x.hdmDb = true)
    ∧ (∃ s : State, ∃ d : Dev, (s.dev.glob.sweepActive = false ∧ s.dev.uncovered ≠ [] ∧ s.dev.q0Runs = true ∧
      s.dev.islandRuns 10 = true) ∧ d = passStart s.dev)
    ∧ (∃ s : State, ∃ d : Dev, (s.dev.glob.sweepActive = true ∧ s.dev.q0Runs = true ∧ s.dev.islandRuns 10 = true) ∧ d = passEnd s.dev)
    ∧ (∃ s : State, ∃ p : Fin 8, ∃ frame : BitVec 24, ∃ i : Nat, ∃ x : Xact, ∃ data : Line, ∃ poison : Bool, ∃ ok : Bool,
      s.dev.pwr.unlocked.getLsbD (2 + p.val) = false ∧
      s.dev.xacts.find? (fun x => x.2.req.op == .revRead && x.2.req.src == .reverse p.val && decide (x.2.req.va = frame.toNat)) = some (i,
      x) ∧ x.phase = .done data poison ok) :=
  ⟨⟨(st (req { req := host { op := .readShared, dpa := 2 ^ 34 }, slice := sliceOf (2 ^ 34), ord := 1, phase := .recall [⟨engAgent 23, 0, false, false⟩] none })),
    23, (2 ^ 28), 7,
    { req := host { op := .readShared, dpa := 2 ^ 34 }, slice := sliceOf (2 ^ 34), ord := 1, phase := .recall [⟨engAgent 23, 0, false, false⟩] none },
    [⟨engAgent 23, 0, false, false⟩], none, by decide +kernel⟩,
  ⟨(st { svc with ports := [(0, { portA with snoops := [⟨5, 0x4000000001, true, true, 64, 0, none, false, 0⟩] })] }), 0, 5,
    0x4000000001, by decide +kernel⟩,
  ⟨(st { svc with agents := [(5, { epoch := 1, attached := false, cause := 3 })] }), 5, { epoch := 1, attached := false, cause := 3 },
    _, by decide +kernel, rfl⟩,
  ⟨(st { svc with agents := [(5, { epoch := 1, attached := false, cause := 3 })] }), 5, { epoch := 1, attached := false, cause := 3 },
    _, by decide +kernel, rfl, by decide +kernel⟩,
  ⟨(st { svc with agents := [(5, { epoch := 1, attached := false, cause := 3, hdmDb := true })] }), 5,
    { epoch := 1, attached := false, cause := 3, hdmDb := true }, _, by decide +kernel, rfl, by decide +kernel⟩,
  ⟨(st { svc with agents := [(5, { attached := false, hdmDb := true, pointReached := true })] }), _, by decide +kernel, rfl⟩,
  ⟨(st { svc with glob := { svc.glob with sweepActive := true, sweepCovered := 1 } }), _, by decide +kernel, rfl⟩,
  ⟨(st (req { req := { src := .reverse 0, op := .revRead, dpa := 0x4000004, va := 1 }, slice := sliceOf 0x4000004, phase := .done (0x08000000 <<< 32) false true })),
    0, 1, 7,
    { req := { src := .reverse 0, op := .revRead, dpa := 0x4000004, va := 1 }, slice := sliceOf 0x4000004, phase := .done (0x08000000 <<< 32) false true },
    (0x08000000 <<< 32), false, true, by decide +kernel⟩⟩

theorem witness_TileCommands :
    (∃ s : State, ∃ i : Nat, ∃ c : Nat, ∃ w : Nat, ∃ x : Xact, ∃ data : Line, ∃ poison : Bool, s.dev.xact? i = some x ∧
      x.phase = .tile c w data poison 0 ∧ s.dev.pwr.unlocked.getLsbD (17 + tileOfWay w) = false ∧
      s.dev.tileStopped (17 + tileOfWay w) = false)
    ∧ (∃ s : State, ∃ t : Fin 8, ∃ d : Dev, (s.dev.pwr.unlocked.getLsbD 10 = false ∧ s.dev.tileSt t.val = .draining ∧
      s.dev.xacts.any (fun x => x.2.onTile t.val) = false) ∧ d = walkEnd s.dev t.val)
    ∧ (∃ s : State, ∃ t : Fin 8, ∃ b : BitVec 6, ∃ d : Dev, (s.dev.pwr.unlocked.getLsbD 10 = false ∧
      (s.dev.tile t.val).bankWalks.contains b.toNat = true ∧
      s.dev.xacts.any (fun x => x.2.onTile t.val && decide (bankOf x.2.slice (csetOf x.2.req.dpa) = b.toNat)) = false) ∧
      d = clearTags (countWalk (s.dev.updTile t.val (fun x => { x with bankWalks := x.bankWalks.filter (· ≠ b.toNat) })) (b.toNat / 4) 2048) (b.toNat / 4) (fun c w => decide (tileOfWay w = t.val) && decide (bankOf (b.toNat / 4) c = b.toNat)))
    ∧ (∃ s : State, ∃ t : Fin 8, ∃ b : BitVec 6, ∃ d : Dev, (s.dev.pwr.unlocked.getLsbD 10 = false ∧
      (s.dev.tile t.val).bankWalks.contains b.toNat = true ∧
      s.dev.xacts.any (fun x => x.2.onTile t.val && decide (bankOf x.2.slice (csetOf x.2.req.dpa) = b.toNat)) = false) ∧
      d = clearTags (countWalk (s.dev.updTile t.val (fun x => { x with bankWalks := x.bankWalks.filter (· ≠ b.toNat) })) (b.toNat / 4) 2048) (b.toNat / 4) (fun c w => decide (tileOfWay w = t.val) && decide (bankOf (b.toNat / 4) c = b.toNat)) ∧
      (s.dev.tile t.val).retireMap.getLsbD b.toNat = true)
    ∧ (∃ d : Dev, ∃ t : Nat, ∃ b : Nat, b < 64)
    ∧ (∃ d : Dev, ∃ t : Nat, t < 8) :=
  ⟨⟨(st (req { req := host { op := .readShared, dpa := 2 ^ 34 }, slice := sliceOf (2 ^ 34), ord := 1, phase := .tile 3 15 77 true 0 })),
    7, 3, 15, { req := host { op := .readShared, dpa := 2 ^ 34 }, slice := sliceOf (2 ^ 34), ord := 1, phase := .tile 3 15 77 true 0 },
    77, true, by decide +kernel⟩,
  ⟨(st { svc with tiles := [(7, { st := .draining })] }), 7, _, by decide +kernel, rfl⟩,
  ⟨(st { svc with tiles := [(7, { bankWalks := [63] })] }), 7, 63, _, by decide +kernel, rfl⟩,
  ⟨(st { svc with tiles := [(3, { st := .online, retireMap := 0x8000000000000000, bankWalks := [63] })] }), 3, 63, _,
    by decide +kernel, rfl, by decide +kernel⟩,
  ⟨svc, 3, 63, by decide +kernel⟩,
  ⟨svc, 7, by decide +kernel⟩⟩

theorem witness_ControllerReadsAndWrites :
    (∃ s : State, ∃ i : Nat, ∃ err : Ecc, ∃ chk : Ecc, ∃ x : Xact, ∃ d : Dev, (s.dev.xact? i = some x ∧ x.mem = .toMc ∧
      s.dev.mcTakes x = true ∧ s.dev.limit ≤ x.req.dpa) ∧ d = readArrival s.dev i err chk)
    ∧ (∃ s : State, ∃ i : Nat, ∃ err : Ecc, ∃ chk : Ecc, ∃ x : Xact, ∃ d : Dev, (s.dev.xact? i = some x ∧ x.mem = .toMc ∧
      s.dev.mcTakes x = true ∧ x.req.dpa < s.dev.limit ∧ s.dev.wbOf x.line = []) ∧ d = readArrival s.dev i err chk)
    ∧ (∃ s : State, ∃ i : Nat, ∃ err : Ecc, ∃ chk : Ecc, ∃ x : Xact, ∃ d : Dev, (s.dev.xact? i = some x ∧ x.mem = .toMc ∧
      s.dev.mcTakes x = true ∧ x.req.dpa < s.dev.limit ∧ s.dev.wbOf x.line = []) ∧ d = readArrival s.dev i err chk ∧
      (s.dev.chan (chanOf x.req.dpa)).repair = [])
    ∧ (∃ s : State, ∃ i : Nat, ∃ chk : Ecc, ∃ x : Xact, ∃ w : WbEntry, ∃ d : Dev, (s.dev.xact? i = some x ∧ x.mem = .toMc ∧
      s.dev.mcTakes x = true ∧ x.req.dpa < s.dev.limit ∧ s.dev.wbOf x.line = [w] ∧ w.full = true ∧ w.bad = 0 ∧ w.ue = false ∧
      x.req.op ≠ .sweepRead) ∧ d = readArrival s.dev i .ok chk)
    ∧ (∃ s : State, ∃ i : Nat, ∃ n : Nat, ∃ code : Nat, ∃ wrongAddr : Bool, ∃ x : Xact, ∃ d : Dev, ∃ data : Line, ∃ poison : Bool,
      (s.dev.xact? i = some x ∧ x.mem = .channel ∧ s.dev.mcRuns (mcOf x.req.dpa) = true) ∧
      readLine (runRepairs s.dev (chanOf x.req.dpa)) x.line n wrongAddr (whoOf x.req) = (d, data, poison, code) ∧ d.wbOf x.line = [] ∧
      x.req.op ≠ .sweepRead)
    ∧ (∃ d : Dev, ∃ line : Nat, ∃ n : Nat, ∃ wrongAddr : Bool, ∃ who : Who, d.readAs line n wrongAddr = .good)
    ∧ (∃ d : Dev, ∃ line : Nat, ∃ n : Nat, ∃ wrongAddr : Bool, ∃ who : Who, d.readAs line n wrongAddr = .poisoned)
    ∧ (∃ d : Dev, ∃ line : Nat, ∃ n : Nat, ∃ wrongAddr : Bool, ∃ who : Who, ∃ k, d.readAs line n wrongAddr = .corrected k)
    ∧ (∃ d : Dev, ∃ line : Nat, ∃ n : Nat, ∃ wrongAddr : Bool, ∃ who : Who, d.readAs line n wrongAddr = .ue)
    ∧ (∃ s : State, ∃ i : Nat, ∃ x : Xact, ∃ d : Dev, (s.dev.xact? i = some x ∧
      (x.mem = .toMc ∨ x.mem = .waitMerge ∨ x.mem = .channel) ∧ x.req.op ≠ .moverWrite ∧
      s.dev.pwr.unlocked.getLsbD (25 + mcOf x.req.dpa) = false) ∧ d = readTimesOut s.dev i)
    ∧ (∃ s : State, ∃ i : Nat, ∃ x : Xact, ∃ d : Dev, (s.dev.xact? i = some x ∧
      (x.mem = .toMc ∨ x.mem = .waitMerge ∨ x.mem = .channel) ∧ x.req.op ≠ .moverWrite ∧
      s.dev.pwr.unlocked.getLsbD (25 + mcOf x.req.dpa) = false) ∧ d = readTimesOut s.dev i ∧ (∀ m ch, x.req.src ≠ .mover m ch))
    ∧ (∃ s : State, ∃ i : Nat, ∃ x : Xact, ∃ d : Dev, (s.dev.xact? i = some x ∧
      (x.mem = .toMc ∨ x.mem = .waitMerge ∨ x.mem = .channel) ∧ x.req.op ≠ .moverWrite ∧
      s.dev.pwr.unlocked.getLsbD (25 + mcOf x.req.dpa) = false) ∧ d = readTimesOut s.dev i ∧ (∃ m ch, x.req.src = .mover m ch))
    ∧ (∃ s : State, ∃ i : Nat, ∃ x : Xact, s.dev.pwr.unlocked.getLsbD 10 = false ∧ s.dev.xact? i = some x ∧ x.req.op = .moverWrite ∧
      (x.phase = .queued ∨ x.phase = .needCredit ∨ x.phase = .toBuffer))
    ∧ (∃ s : State, ∃ i : Nat, ∃ x : Xact, ∃ c : Bool, s.dev.pwr.unlocked.getLsbD 10 = false ∧ s.dev.xact? i = some x ∧
      x.phase = .accepted c ∧ s.dev.nextAcross x Xact.comesBack = true) :=
  ⟨⟨(st (req { req := host { op := .readShared, dpa := svc.limit }, ord := 1, mem := .toMc })), 7, .ok, .ok,
    { req := host { op := .readShared, dpa := svc.limit }, ord := 1, mem := .toMc }, _, by decide +kernel, rfl⟩,
  ⟨(st (req { req := host { op := .readShared, dpa := 0 }, slice := 0, ord := 1, mem := .toMc })), 7, .ok, .ok,
    { req := host { op := .readShared, dpa := 0 }, slice := 0, ord := 1, mem := .toMc }, _, by decide +kernel, rfl⟩,
  ⟨(st (req { req := host { op := .readShared, dpa := 0 }, slice := 0, ord := 1, mem := .toMc })), 7, .ok, .ok,
    { req := host { op := .readShared, dpa := 0 }, slice := 0, ord := 1, mem := .toMc }, _, by decide +kernel, rfl, by decide +kernel⟩,
  ⟨(st { req { req := host { op := .readShared, dpa := 0 }, slice := 0, ord := 1, mem := .toMc } with mcs := [(0, { wb := [⟨0, 3, BitVec.allOnes 64, false, false, false, 0, false, 0, 1, false⟩] })] }),
    7, .ok, { req := host { op := .readShared, dpa := 0 }, slice := 0, ord := 1, mem := .toMc }, ⟨0, 3, BitVec.allOnes 64, false, false,
    false, 0, false, 0, 1, false⟩, _, by decide +kernel, rfl⟩,
  ⟨(st (req { req := host { op := .readShared, dpa := 0 }, slice := 0, ord := 1, mem := .channel })), 7, 0, _, false,
    { req := host { op := .readShared, dpa := 0 }, slice := 0, ord := 1, mem := .channel }, _, _, _, by decide +kernel, rfl,
    by decide +kernel⟩,
  ⟨svc, 0, 0, false, {}, by decide +kernel⟩,
  ⟨{ svc with mem := Memory.undefined.writeLine 0 5 true }, 0, 0, false, {}, by decide +kernel⟩,
  ⟨svc, 0, 2, false, {}, 2, by decide +kernel⟩,
  ⟨svc, 0, 0, true, {}, by decide +kernel⟩,
  ⟨(st (req { req := host { op := .readShared, dpa := 0 }, slice := 0, ord := 1, mem := .channel })), 7,
    { req := host { op := .readShared, dpa := 0 }, slice := 0, ord := 1, mem := .channel }, _, by decide +kernel, rfl⟩,
  ⟨(st (req { req := host { op := .readShared, dpa := 0 }, slice := 0, ord := 1, mem := .channel })), 7,
    { req := host { op := .readShared, dpa := 0 }, slice := 0, ord := 1, mem := .channel }, _, by decide +kernel, rfl,
    by exact fun _ _ h => nomatch h⟩,
  ⟨(st (req { req := { src := .mover 2 23, op := .sweepRead, dpa := 0 }, slice := 0, ord := 1, mem := .channel })), 7,
    { req := { src := .mover 2 23, op := .sweepRead, dpa := 0 }, slice := 0, ord := 1, mem := .channel }, _, by decide +kernel, rfl, ⟨_,
    _, rfl⟩⟩,
  ⟨(st (req { req := { src := .mover 2 23, op := .moverWrite, dpa := 0 }, slice := 0, ord := 1, phase := .toBuffer })), 7,
    { req := { src := .mover 2 23, op := .moverWrite, dpa := 0 }, slice := 0, ord := 1, phase := .toBuffer }, by decide +kernel⟩,
  ⟨(st (req { req := host { op := .readShared, dpa := 0 }, slice := 0, ord := 1, phase := .accepted true })), 7,
    { req := host { op := .readShared, dpa := 0 }, slice := 0, ord := 1, phase := .accepted true }, true, by decide +kernel⟩⟩

theorem witness_WriteBufferDrains :
    (∃ s : State, ∃ m : Fin 4, ∃ line : Nat, s.dev.pwr.unlocked.getLsbD (25 + m.val) = false)
    ∧ (∃ s : State, ∃ c : Fin 32, ∃ ue : List Nat, s.dev.pwr.unlocked.getLsbD (25 + c.val / 8) = false ∧ s.dev.batchDue c.val = true)
    ∧ (∃ s : State, ∃ m : Fin 4, ∃ line : Nat, ∃ err : Ecc, ∃ e : WbEntry, ∃ rest : List WbEntry, ∃ d : Dev,
      (s.dev.wbOf line = e :: rest ∧ e.draining = true ∧ e.full = true ∧ mcOf (64 * line) = m.val ∧ s.dev.mcRuns m.val = true) ∧
      d = writeTaken s.dev m.val line err)
    ∧ (∃ s : State, ∃ m : Fin 4, ∃ line : Nat, ∃ err : Ecc, ∃ e : WbEntry, ∃ rest : List WbEntry, ∃ d : Dev,
      (s.dev.wbOf line = e :: rest ∧ e.draining = true ∧ e.full = true ∧ mcOf (64 * line) = m.val ∧ s.dev.mcRuns m.val = true) ∧
      d = writeTaken s.dev m.val line err ∧ e.codeOnly = false)
    ∧ (∃ s : State, ∃ m : Fin 4, ∃ line : Nat, ∃ err : Ecc, ∃ e : WbEntry, ∃ rest : List WbEntry, ∃ d : Dev,
      (s.dev.wbOf line = e :: rest ∧ e.draining = true ∧ e.full = true ∧ mcOf (64 * line) = m.val ∧ s.dev.mcRuns m.val = true) ∧
      d = writeTaken s.dev m.val line err ∧ e.codeOnly = true)
    ∧ (∃ s : State, ∃ m : Fin 4, ∃ line : Nat, ∃ err : Ecc, ∃ e : WbEntry, ∃ rest : List WbEntry, ∃ d : Dev,
      (s.dev.wbOf line = e :: rest ∧ e.draining = true ∧ e.full = true ∧ mcOf (64 * line) = m.val ∧ s.dev.mcRuns m.val = true) ∧
      d = writeTaken s.dev m.val line err ∧ (s.dev.chan (chanOf (64 * line))).repair = [] ∧ ∃ a, a / 64 ≠ line)
    ∧ (∃ s : State, ∃ m : Fin 4, ∃ line : Nat, ∃ err : Ecc, ∃ e : WbEntry, ∃ rest : List WbEntry, s.dev.wbOf line = e :: rest ∧
      e.draining = true ∧ mcOf (64 * line) = m.val ∧ s.dev.mcRuns m.val = true)
    ∧ (∃ s : State, ∃ m : Fin 4, ∃ line : Nat, ∃ n : Nat, ∃ chk : Ecc, ∃ e : WbEntry, ∃ rest : List WbEntry, ∃ d : Dev,
      (s.dev.wbOf line = e :: rest ∧ e.draining = true ∧ e.full = false ∧ mcOf (64 * line) = m.val ∧ s.dev.mcRuns m.val = true ∧
      (s.dev.chan (chanOf (64 * line))).repair = [] ∧ (∀ f ∈ e :: rest, f.bad = 0 ∧ f.ue = false) ∧
      (checkRead s.dev line { dpa := some (64 * line) } chk).decodeLine line n = .good) ∧ d = mergeReturn s.dev m.val line n false chk) :=
  ⟨⟨(st svc), 3, 7, by decide +kernel⟩,
  ⟨(st { svc with mcs := [(0, { wb := [⟨0, 3, 1, false, false, true, 0, false, 0, 1, false⟩] })] }), 0, [], by decide +kernel⟩,
  ⟨(st { svc with mcs := [(0, { wb := [⟨0, 3, BitVec.allOnes 64, true, true, true, 0, false, 0, 1, false⟩] })] }), 0, 0, .ok, ⟨0, 3,
    BitVec.allOnes 64, true, true, true, 0, false, 0, 1, false⟩, [], _, by decide +kernel, rfl⟩,
  ⟨(st { svc with mcs := [(0, { wb := [⟨0, 3, BitVec.allOnes 64, true, true, true, 0, false, 0, 1, false⟩] })] }), 0, 0, .ok, ⟨0, 3,
    BitVec.allOnes 64, true, true, true, 0, false, 0, 1, false⟩, [], _, by decide +kernel, rfl, by decide +kernel⟩,
  ⟨(st { svc with mcs := [(0, { wb := [⟨0, 0, BitVec.allOnes 64, true, true, true, 0, true, 0, 1, false⟩] })] }), 0, 0, .ok, ⟨0, 0,
    BitVec.allOnes 64, true, true, true, 0, true, 0, 1, false⟩, [], _, by decide +kernel, rfl, by decide +kernel⟩,
  ⟨(st { svc with mcs := [(0, { wb := [⟨0, 3, BitVec.allOnes 64, true, true, true, 0, false, 0, 1, false⟩] })] }), 0, 0, .ok, ⟨0, 3,
    BitVec.allOnes 64, true, true, true, 0, false, 0, 1, false⟩, [], _, by decide +kernel, rfl, by decide +kernel, 127, by decide +kernel⟩,
  ⟨(st { svc with mcs := [(0, { wb := [⟨0, 3, 1, true, true, true, 0, false, 0, 1, false⟩] })] }), 0, 0, .ue, ⟨0, 3, 1, true, true,
    true, 0, false, 0, 1, false⟩, [], by decide +kernel⟩,
  ⟨(st { svc with mcs := [(0, { wb := [⟨0, 3, 1, true, true, true, 0, false, 0, 1, false⟩] })] }), 0, 0, 0, .ok, ⟨0, 3, 1, true, true,
    true, 0, false, 0, 1, false⟩, [], _, by decide +kernel, rfl⟩⟩

theorem witness_ChannelUpkeep :
    (∃ s : State, ∃ c : Fin 32, s.dev.pwr.unlocked.getLsbD (25 + c.val / 8) = false)
    ∧ (∃ s : State, ∃ c : Fin 32, ∃ v : BitVec 7, s.dev.chanRuns c.val = true)
    ∧ (∃ s : State, ∃ c : Fin 32, ∃ ok : Bool, s.dev.chanRuns c.val = true ∧
      ((s.dev.chan c.val).retrainDue = true ∨ (s.dev.mc (c.val / 8)).driftLimit.toNat ≤ (s.dev.chan c.val).drift.toNat))
    ∧ (∃ s : State, ∃ c : Fin 32, ∃ code : BitVec 3, ∃ hot : Bool, ∃ d : Dev, s.dev.chanRuns c.val = true ∧
      d = (blocks s.dev c.val 100).updChan c.val (fun x => { x with mr4 := code, refreshX2 := hot }))
    ∧ (∃ s : State, ∃ c : Fin 32, ∃ t : Bool, s.dev.pwr.unlocked.getLsbD (25 + c.val / 8) = false ∧
      (if t then 3 ≤ (s.dev.chan c.val).timeouts else 3 ≤ (s.dev.chan c.val).failsInRow)) :=
  ⟨⟨(st svc), 31, by decide +kernel⟩,
  ⟨(st svc), 31, 127, by decide +kernel⟩,
  ⟨(st { svc with chans := [(0, { st := 2, drift := 0x14 })] }), 0, true, by decide +kernel⟩,
  ⟨(st svc), 0, 7, true, _, by decide +kernel, rfl⟩,
  ⟨(st { svc with chans := [(0, { st := 2, timeouts := 3 })] }), 0, true, by decide +kernel⟩⟩

theorem witness_ArithmeticResultsAndFlags :
    (∃ w : Nat, ∃ f : BitVec 6, ∃ d : BitVec w, ∃ s : BitVec w, ∃ n : Nat, 0 < w)
    ∧ (∃ w : Nat, ∃ f : BitVec 6, ∃ d : BitVec w, ∃ s : BitVec w, ∃ n : Nat, 0 < w ∧ 0 < n ∧ n ≤ w)
    ∧ (∃ w : Nat, ∃ f : BitVec 6, ∃ d : BitVec w, ∃ s : BitVec w, ∃ n : Nat, 0 < w ∧ w < n)
    ∧ (∃ w : Nat, ∃ f : BitVec 6, ∃ d : BitVec w, ∃ s : BitVec w, ∃ n : Nat, 0 < w ∧ ∃ k < 16, k ≠ 0 ∧ ∃ r,
      (aluFn k f d s n).1 = some r)
    ∧ (∃ s : State, ∃ x : Env, ∃ fn : Fin 16, ∃ d : Fin 16, ∃ r : Fin 16, s.dev.ready x)
    ∧ (∃ s : State, ∃ x : Env, ∃ fn : Fin 16, ∃ d : Fin 16, ∃ r : Fin 16, s.dev.ready x ∧ d.val % 2 = 0 ∧ r.val % 2 = 0) :=
  ⟨⟨1, 0, 1, 1, 63, by decide +kernel⟩,
  ⟨18, 0, 3, 1, 18, by decide +kernel⟩,
  ⟨18, 0, 3, 1, 19, by decide +kernel⟩,
  ⟨18, 0, 3, 1, 18, by decide +kernel, 15, by decide +kernel, by decide +kernel, 0, by decide +kernel⟩,
  ⟨(st (eng engA)), env, 15, 15, 0, by decide +kernel⟩,
  ⟨(st (eng engA)), env, 1, 14, 0, by decide +kernel⟩⟩

theorem witness_ArithmeticInstructions :
    (∃ s : State, ∃ x : Env, ∃ d : Fin 16, ∃ i : ImmI, s.dev.ready x ∧ i.ok = true)
    ∧ (∃ s : State, ∃ x : Env, ∃ d : Fin 16, ∃ i : ImmI, s.dev.ready x ∧ i.ok = true ∧ d.val % 2 = 0)
    ∧ (∃ s : State, ∃ x : Env, ∃ d : Fin 16, ∃ i : ImmI, s.dev.ready x ∧ i.ext = none ∧ i.imm7.toNat % 32 < 18)
    ∧ (∃ s : State, ∃ x : Env, ∃ d : Fin 16, ∃ i : ImmI, s.dev.ready x ∧ i.ext = none ∧ 18 ≤ i.imm7.toNat % 32)
    ∧ (∃ s : State, ∃ x : Env, ∃ d : Fin 16, ∃ i : ImmI, s.dev.ready x ∧ i.ext = none ∧ d.val % 2 = 0) :=
  ⟨⟨(st (eng engA)), env, 15, ⟨0x40, none⟩, by decide +kernel⟩,
  ⟨(st (eng engA)), env, 14, ⟨0x40, none⟩, by decide +kernel⟩,
  ⟨(st (eng engA)), env, 0, ⟨0x31, none⟩, by decide +kernel⟩,
  ⟨(st (eng engA)), env, 0, ⟨0x12, none⟩, by decide +kernel⟩,
  ⟨(st (eng engA)), env, 0, ⟨0x7F, none⟩, by decide +kernel⟩⟩

theorem witness_AddressRegisterInstructions :
    (∃ s : State, ∃ x : Env, s.dev.ready x ∧ ∃ a : Fin 8, ∃ g : Fin 16, g.val ≤ 13)
    ∧ (∃ s : State, ∃ x : Env, s.dev.ready x)
    ∧ (∃ s : State, ∃ x : Env, s.dev.ready x ∧ ∃ a : Fin 8, ∃ g : Fin 16, g.val % 2 = 0)
    ∧ (∃ s : State, ∃ x : Env, s.dev.ready x ∧ ∃ a : Fin 8, ∃ i : ImmA, i.ok = true)
    ∧ (∃ s : State, ∃ x : Env, s.dev.ready x ∧ ∃ a : Fin 8, ∃ sp : BitVec 2, ∃ i : ImmL, i.ok = true) :=
  ⟨⟨(st (eng engA)), env, by decide +kernel, 7, 13, by decide +kernel⟩,
  ⟨(st (eng engA)), env, by decide +kernel⟩,
  ⟨(st (eng engA)), env, by decide +kernel, 0, 14, by decide +kernel⟩,
  ⟨(st (eng engA)), env, by decide +kernel, 0, ⟨0x80, none⟩, by decide +kernel⟩,
  ⟨(st (eng engA)), env, by decide +kernel, 0, 3, ⟨0x3F, none⟩, by decide +kernel⟩⟩

theorem witness_ControlAndStatusInstructions :
    (∃ s : State, ∃ x : Env, s.dev.ready x)
    ∧ (∃ s : State, ∃ x : Env, s.dev.ready x ∧ let y := s.dev.engine x.e.val; ∃ c : Fin 16, ∃ t : Word, t.toNat < 2 ^ 14)
    ∧ (∃ s : State, ∃ x : Env, s.dev.ready x ∧ let y := s.dev.engine x.e.val; ∃ t : Word, t.toNat < 2 ^ 14)
    ∧ (∃ s : State, ∃ x : Env, s.dev.ready x ∧ let y := s.dev.engine x.e.val; ∃ g : Fin 16, ∃ n : BitVec 8,
      (y.sup = true ∨ statusHidden n.toNat = false))
    ∧ (∃ s : State, ∃ x : Env, s.dev.ready x ∧ let y := s.dev.engine x.e.val; ∃ g : Fin 16, ∃ n : BitVec 8, (y.sup = true ∨ n = 0))
    ∧ (∃ y : Engine, ∃ w : Word, ∃ d : Dev, ∃ e : Nat, ∃ n ∈ [0, 2, 3, 4, 5, 6, 7, 8, 0x0D, 0x0E, 0x0F], ∃ z : Engine,
      z = statusWrite y n w)
    ∧ (∃ y : Engine, ∃ w : Word, ∃ d : Dev, ∃ e : Nat, ∃ n : Nat, ∃ m : Nat, n ≠ m) :=
  ⟨⟨(st (eng engA)), env, by decide +kernel⟩,
  ⟨(st (eng engA)), env, by decide +kernel, 0, 0x3FFF, by decide +kernel⟩,
  ⟨(st (eng engA)), env, by decide +kernel, 0x3FFF, by decide +kernel⟩,
  ⟨(st (eng { engA with sup := false })), env, by decide +kernel, 3, 0, by decide +kernel⟩,
  ⟨(st (eng { engA with sup := false })), env, by decide +kernel, 3, 0, by decide +kernel⟩,
  ⟨{}, 0x3FFFF, svc, 0, 2, by decide +kernel, _, rfl⟩,
  ⟨{}, 0x3FFFF, svc, 4, 0x08, 0x09, by decide +kernel⟩⟩

theorem witness_UserInstructionsSpendBudget :
    (∃ d : Dev, ∃ e : Nat, ∃ pc : BitVec 14, ∃ after : Dev, (after = jumpTo d e pc ∨ ∃ len,
      pc = (d.engine e).pc + BitVec.ofNat 14 len ∧ after = advance d e len))
    ∧ (∃ d : Dev, ∃ e : Nat, ∃ pc : BitVec 14, ∃ after : Dev, (after = jumpTo d e pc ∨ ∃ len,
      pc = (d.engine e).pc + BitVec.ofNat 14 len ∧ after = advance d e len) ∧ let y := d.engine e; let z := after.engine e;
      (y.sup = true ∨ y.budget = 0))
    ∧ (∃ d : Dev, ∃ e : Nat, ∃ pc : BitVec 14, ∃ after : Dev, (after = jumpTo d e pc ∨ ∃ len,
      pc = (d.engine e).pc + BitVec.ofNat 14 len ∧ after = advance d e len) ∧ let y := d.engine e; let z := after.engine e;
      y.sup = false ∧ y.budget ≠ 0)
    ∧ (∃ d : Dev, ∃ e : Nat, ∃ pc : BitVec 14, ∃ after : Dev, (after = jumpTo d e pc ∨ ∃ len,
      pc = (d.engine e).pc + BitVec.ofNat 14 len ∧ after = advance d e len) ∧ let y := d.engine e; let z := after.engine e;
      y.sup = false ∧ y.budget ≠ 0 ∧ z.budget = 0)
    ∧ (∃ d : Dev, ∃ e : Nat, ∃ pc : BitVec 14, ∃ after : Dev, (after = jumpTo d e pc ∨ ∃ len,
      pc = (d.engine e).pc + BitVec.ofNat 14 len ∧ after = advance d e len) ∧ let y := d.engine e; let z := after.engine e; ∃ k, k ≠ e)
    ∧ (∃ s : State, ∃ x : Env, ∃ fn : Fin 16, ∃ d : Fin 16, ∃ r : Fin 16, s.dev.engSt x.e.val = .running ∧
      (s.dev.engine x.e.val).wait = .none ∧ (s.dev.engine x.e.val).fault = none ∧ (s.dev.engine x.e.val).budgetDue = true ∧
      (s.dev.engine x.e.val).sup = false ∧ s.dev.quadRuns x.e.val = true) :=
  ⟨⟨(eng engA), 4, 9, (advance (eng engA) 4 4), Or.inr ⟨4, by decide +kernel, rfl⟩⟩,
  ⟨(eng engA), 4, 9, (jumpTo (eng engA) 4 9), Or.inl rfl, by decide +kernel⟩,
  ⟨(eng { engA with sup := false, budget := 1 }), 4, 9, (jumpTo (eng { engA with sup := false, budget := 1 }) 4 9), Or.inl rfl,
    by decide +kernel⟩,
  ⟨(eng { engA with sup := false, budget := 1 }), 4, 9, (jumpTo (eng { engA with sup := false, budget := 1 }) 4 9), Or.inl rfl,
    by decide +kernel⟩,
  ⟨(eng { engA with sup := false, budget := 1 }), 4, 9, (jumpTo (eng { engA with sup := false, budget := 1 }) 4 9), Or.inl rfl, 23,
    by decide +kernel⟩,
  ⟨(st (eng { engA with sup := false, budgetDue := true })), env, 0, 1, 2, by decide +kernel⟩⟩

theorem witness_TrapEntrySavesState :
    (∃ d : Dev, ∃ e : Nat, ∃ cause : Nat, ∃ tpc : BitVec 14, ∃ tval : Info, ∃ imp : Bool, cause < 19 ∧ let y := d.engine e;
      let t := trap d e cause tpc tval imp; let z := t.engine e; y.intrap = false)
    ∧ (∃ d : Dev, ∃ e : Nat, ∃ cause : Nat, ∃ tpc : BitVec 14, ∃ tval : Info, ∃ imp : Bool, cause < 19 ∧ let y := d.engine e;
      let t := trap d e cause tpc tval imp; let z := t.engine e; y.intrap = true)
    ∧ (∃ d : Dev, ∃ e : Nat, ∃ cause : Nat, ∃ tpc : BitVec 14, ∃ tval : Info, ∃ imp : Bool, cause < 19 ∧ let y := d.engine e;
      let t := trap d e cause tpc tval imp; let z := t.engine e; ∃ k, k ≠ e)
    ∧ (∃ d : Dev, ∃ e : Nat, ∃ cause : Nat, ∃ tpc : BitVec 14, ∃ tval : Info, ∃ imp : Bool, cause < 19) :=
  ⟨⟨(eng engA), 4, 18, 5, 0, true, by decide +kernel, by decide +kernel⟩,
  ⟨(eng { engA with intrap := true }), 4, 0, 5, 0, false, by decide +kernel, by decide +kernel⟩,
  ⟨(eng engA), 4, 3, 5, 0, false, by decide +kernel, 0, by decide +kernel⟩,
  ⟨(eng engA), 4, 3, 5, 0, false, by decide +kernel⟩⟩

theorem witness_IllegalAndPrivilegedWords :
    (∃ s : State, ∃ x : Env, ∃ fn : Fin 16, ∃ d : Fin 16, ∃ r : Fin 16, s.dev.ready x ∧ (d.val % 2 = 1 ∨ r.val % 2 = 1))
    ∧ (∃ s : State, ∃ x : Env, ∃ fn : Fin 16, ∃ d : Fin 16, ∃ r : Fin 16, ∃ w : Word, s.dev.ready { x with raw := none } ∧
      x.raw = some w ∧ undefinedWord w = true)
    ∧ (∃ s : State, ∃ x : Env, ∃ g : Fin 16, ∃ n : BitVec 8, s.dev.ready x ∧ (s.dev.engine x.e.val).sup = false ∧ n ≠ 0)
    ∧ (∃ s : State, ∃ x : Env, ∃ fn : Fin 16, ∃ d : Fin 16, ∃ r : Fin 16, ∃ y : Engine, y = s.dev.engine x.e.val ∧
      s.dev.engSt x.e.val = .running ∧ y.wait = .none ∧ y.fault = none ∧ y.budgetDue = false ∧
      eccWith x.fetch (Tab.get 0 y.imemBad y.pc.toNat) = .ok ∧ y.sup = false ∧ y.pc.toNat < 16 * y.iubase.toNat ∧
      s.dev.quadRuns x.e.val = true ∧ x.raw.any undefinedWord = false) :=
  ⟨⟨(st (eng engA)), env, 0, 1, 0, by decide +kernel⟩,
  ⟨(st (eng engA)), { env with raw := some 0x3FFFF }, 0, 0, 1, 0x3FFFF, by decide +kernel⟩,
  ⟨(st (eng { engA with sup := false })), env, 0, 0x14, by decide +kernel⟩,
  ⟨(st (eng { engA with sup := false, iubase := 1 })), env, 0, 0, 0, _, rfl, by decide +kernel⟩⟩

theorem witness_LoadsAndInstructionFill :
    (∃ s : State, ∃ x : Env, ∃ g : Fin 16, ∃ a : Fin 8, ∃ o : OffM, (s.dev.ready x ∧ o.ok = true) ∧ let e := x.e.val;
      let y := s.dev.engine e; let a0 := y.ra a.val; let a1 := moveAddr a0 o.val; let a2 := moveAddr a0 (o.val * 2);
      s.dev.scratchGood x a1 1)
    ∧ (∃ s : State, ∃ x : Env, ∃ g : Fin 16, ∃ a : Fin 8, ∃ o : OffM, (s.dev.ready x ∧ o.ok = true) ∧ let e := x.e.val;
      let y := s.dev.engine e; let a0 := y.ra a.val; let a1 := moveAddr a0 o.val; let a2 := moveAddr a0 (o.val * 2);
      s.dev.scratchGood x a2 2 ∧ g.val % 2 = 0)
    ∧ (∃ s : State, ∃ x : Env, ∃ g : Fin 16, ∃ a : Fin 8, ∃ o : OffM, (s.dev.ready x ∧ o.ok = true) ∧ let e := x.e.val;
      let y := s.dev.engine e; let a0 := y.ra a.val; let a1 := moveAddr a0 o.val; let a2 := moveAddr a0 (o.val * 2);
      s.dev.scratchGood x a0 1)
    ∧ (∃ s : State, ∃ x : Env, ∃ g : Fin 16, ∃ a : Fin 8, ∃ o : OffM, (s.dev.ready x ∧ o.ok = true) ∧ let e := x.e.val;
      let y := s.dev.engine e; let a0 := y.ra a.val; let a1 := moveAddr a0 o.val; let a2 := moveAddr a0 (o.val * 2);
      s.dev.scratchGood x a0 2 ∧ g.val % 2 = 0)
    ∧ (∃ s : State, ∃ x : Env, ∃ g : Fin 16, ∃ a : Fin 8, ∃ o : OffM, (s.dev.ready x ∧ o.ok = true) ∧ let e := x.e.val;
      let y := s.dev.engine e; let a0 := y.ra a.val; let a1 := moveAddr a0 o.val; let a2 := moveAddr a0 (o.val * 2); ∃ m,
      s.dev.cachedAt x a1 1 m)
    ∧ (∃ s : State, ∃ x : Env, ∃ g : Fin 16, ∃ a : Fin 8, ∃ o : OffM, (s.dev.ready x ∧ o.ok = true) ∧ let e := x.e.val;
      let y := s.dev.engine e; let a0 := y.ra a.val; let a1 := moveAddr a0 o.val; let a2 := moveAddr a0 (o.val * 2); ∃ m,
      s.dev.cachedAt x a2 2 m ∧ g.val % 2 = 0)
    ∧ (∃ s : State, ∃ x : Env, ∃ g : Fin 16, ∃ a : Fin 8, ∃ o : OffM, (s.dev.ready x ∧ o.ok = true) ∧ let e := x.e.val;
      let y := s.dev.engine e; let a0 := y.ra a.val; let a1 := moveAddr a0 o.val; let a2 := moveAddr a0 (o.val * 2); ∃ data : Line,
      ∃ poison : Bool, ∃ k : Nat, k < 32)
    ∧ (∃ s : State, ∃ x : Env, ∃ a : Fin 8, ∃ g : Fin 16, s.dev.ready x ∧ let e := x.e.val; let y := s.dev.engine e;
      let a0 := y.ra a.val; let dest := (y.rg g.val).toNat % 2 ^ 14; ∃ m, (s.dev.cachedAt x a0 1 m ∧ waddr a0 % 32 = 0 ∧ dest % 16 = 0 ∧
      m.poison = false) ∧ ∃ d, d = runIfill s.dev x a.val g.val)
    ∧ (∃ s : State, ∃ x : Env, ∃ a : Fin 8, ∃ g : Fin 16, s.dev.ready x ∧ let e := x.e.val; let y := s.dev.engine e;
      let a0 := y.ra a.val; let dest := (y.rg g.val).toNat % 2 ^ 14; ∃ m, (s.dev.cachedAt x a0 1 m ∧ waddr a0 % 32 = 0 ∧ dest % 16 = 0 ∧
      m.poison = false) ∧ ∃ d, d = runIfill s.dev x a.val g.val ∧ ∃ i, (i < dest ∨ dest + 16 ≤ i))
    ∧ (∃ s : State, ∃ x : Env, ∃ a : Fin 8, ∃ g : Fin 16, s.dev.ready x ∧ let e := x.e.val; let y := s.dev.engine e;
      let a0 := y.ra a.val; let dest := (y.rg g.val).toNat % 2 ^ 14; ∃ m, s.dev.cachedAt x a0 1 m ∧ waddr a0 % 32 = 0 ∧ dest % 16 = 0 ∧
      m.poison = true)
    ∧ (∃ s : State, ∃ x : Env, ∃ a : Fin 8, ∃ g : Fin 16, s.dev.ready x ∧ let e := x.e.val; let y := s.dev.engine e;
      let a0 := y.ra a.val; let dest := (y.rg g.val).toNat % 2 ^ 14; (waddr a0 % 32 ≠ 0 ∨ dest % 16 ≠ 0)) :=
  ⟨⟨(st (eng engA)), env, 0, 1, ⟨0, none⟩, by decide +kernel, by decide +kernel⟩,
  ⟨(st (eng engA)), env, 0, 1, ⟨0, none⟩, by decide +kernel, by decide +kernel⟩,
  ⟨(st (eng engA)), env, 0, 1, ⟨0, none⟩, by decide +kernel, by decide +kernel⟩,
  ⟨(st (eng engA)), env, 0, 1, ⟨0, none⟩, by decide +kernel, by decide +kernel⟩,
  ⟨(st (eng engA)), env, 15, 0, ⟨0, none⟩, by decide +kernel, ⟨2, 0xABCD, false, 1, 0⟩, by decide +kernel⟩,
  ⟨(st (eng engA)), env, 14, 0, ⟨0, none⟩, by decide +kernel, ⟨2, 0xABCD, false, 1, 0⟩, by decide +kernel⟩,
  ⟨(st (eng engA)), env, 0, 0, ⟨0, none⟩, by decide +kernel, 1, true, 31, by decide +kernel⟩,
  ⟨(st (eng engA)), env, 0, 0, by decide +kernel, ⟨2, 0xABCD, false, 1, 0⟩, by decide +kernel, _, rfl⟩,
  ⟨(st (eng engA)), env, 0, 0, by decide +kernel, ⟨2, 0xABCD, false, 1, 0⟩, by decide +kernel, _, rfl, 0x3FFF, by decide +kernel⟩,
  ⟨(st (eng { engA with mview := [⟨2, 0xABCD, true, 1, 0⟩] })), env, 0, 0, by decide +kernel, ⟨2, 0xABCD, true, 1, 0⟩,
    by decide +kernel⟩,
  ⟨(st (eng engA)), env, 2, 1, by decide +kernel, by decide +kernel⟩⟩

theorem witness_RemoteLoadsAndAtomics :
    (∃ s : State, ∃ x : Env, ∃ g : Fin 16, ∃ a : Fin 8, ∃ o : OffM, (s.dev.ready x ∧ o.ok = true) ∧ let e := x.e.val;
      let y := s.dev.engine e; let a1 := moveAddr (y.ra a.val) o.val; let a2 := moveAddr (y.ra a.val) (o.val * 2);
      (s.dev.plainAt e a1 1 ∧ y.cached (waddr a1 / 32) = none ∧ y.lineWaits (waddr a1 / 32) = false ∧ s.dev.recovering e = false) ∧ ∃ d,
      d = runLoad s.dev x .plain g.val a.val o 1 false)
    ∧ (∃ s : State, ∃ x : Env, ∃ g : Fin 16, ∃ a : Fin 8, ∃ o : OffM, (s.dev.ready x ∧ o.ok = true) ∧ let e := x.e.val;
      let y := s.dev.engine e; let a1 := moveAddr (y.ra a.val) o.val; let a2 := moveAddr (y.ra a.val) (o.val * 2); ∃ m,
      s.dev.cachedAt x a2 2 m ∧ g.val % 2 = 0 ∧ waddr a2 % 2 = 0)
    ∧ (∃ s : State, ∃ x : Env, ∃ g : Fin 16, ∃ a : Fin 8, ∃ o : OffM, (s.dev.ready x ∧ o.ok = true) ∧ let e := x.e.val;
      let y := s.dev.engine e; let a1 := moveAddr (y.ra a.val) o.val; let a2 := moveAddr (y.ra a.val) (o.val * 2); s.dev.plainAt e a2 2 ∧
      g.val % 2 = 0 ∧ waddr a2 % 2 = 0 ∧ y.rsv ≠ some (2 * waddr a2))
    ∧ (∃ s : State, ∃ x : Env, ∃ g : Fin 16, ∃ a : Fin 8, ∃ o : OffM, (s.dev.ready x ∧ o.ok = true) ∧ let e := x.e.val;
      let y := s.dev.engine e; let a1 := moveAddr (y.ra a.val) o.val; let a2 := moveAddr (y.ra a.val) (o.val * 2);
      (s.dev.plainAt e a2 2 ∧ g.val % 2 = 0 ∧ waddr a2 % 2 = 0 ∧ y.rsv = some (2 * waddr a2) ∧ s.dev.recovering e = false ∧
      y.lineWaits (waddr a2 / 32) = false) ∧ ∃ d, d = runScp s.dev x g.val a.val o) :=
  ⟨⟨(st (eng { engA with mview := [] })), env, 0, 0, ⟨0, none⟩, by decide +kernel, by decide +kernel, _, rfl⟩,
  ⟨(st (eng engA)), env, 0, 0, ⟨0, none⟩, by decide +kernel, ⟨2, 0xABCD, false, 1, 0⟩, by decide +kernel⟩,
  ⟨(st (eng engA)), env, 0, 0, ⟨0, none⟩, by decide +kernel, by decide +kernel⟩,
  ⟨(st (eng { engA with rsv := some 0x80 })), env, 0, 0, ⟨0, none⟩, by decide +kernel, by decide +kernel, _, rfl⟩⟩

theorem witness_StoresEnterBuffers :
    (∃ s : State, ∃ x : Env, ∃ g : Fin 16, ∃ a : Fin 8, ∃ o : OffM, (s.dev.ready x ∧ o.ok = true ∧
      (s.dev.engine x.e.val).sbFull = false) ∧ let e := x.e.val; let y := s.dev.engine e; let a0 := y.ra a.val;
      let a1 := moveAddr a0 o.val; let a2 := moveAddr a0 (o.val * 2); let w := y.rg g.val; let v := y.rg (g.val + 1);
      s.dev.plainAt e a1 1)
    ∧ (∃ s : State, ∃ x : Env, ∃ g : Fin 16, ∃ a : Fin 8, ∃ o : OffM, (s.dev.ready x ∧ o.ok = true ∧
      (s.dev.engine x.e.val).sbFull = false) ∧ let e := x.e.val; let y := s.dev.engine e; let a0 := y.ra a.val;
      let a1 := moveAddr a0 o.val; let a2 := moveAddr a0 (o.val * 2); let w := y.rg g.val; let v := y.rg (g.val + 1);
      s.dev.plainAt e a2 2 ∧ g.val % 2 = 0)
    ∧ (∃ s : State, ∃ x : Env, ∃ g : Fin 16, ∃ a : Fin 8, ∃ o : OffM, (s.dev.ready x ∧ o.ok = true ∧
      (s.dev.engine x.e.val).sbFull = false) ∧ let e := x.e.val; let y := s.dev.engine e; let a0 := y.ra a.val;
      let a1 := moveAddr a0 o.val; let a2 := moveAddr a0 (o.val * 2); let w := y.rg g.val; let v := y.rg (g.val + 1);
      s.dev.plainAt e a0 1)
    ∧ (∃ s : State, ∃ x : Env, ∃ g : Fin 16, ∃ a : Fin 8, ∃ o : OffM, (s.dev.ready x ∧ o.ok = true ∧
      (s.dev.engine x.e.val).sbFull = false) ∧ let e := x.e.val; let y := s.dev.engine e; let a0 := y.ra a.val;
      let a1 := moveAddr a0 o.val; let a2 := moveAddr a0 (o.val * 2); let w := y.rg g.val; let v := y.rg (g.val + 1);
      s.dev.plainAt e a0 2 ∧ g.val % 2 = 0)
    ∧ (∃ s : State, ∃ x : Env, ∃ g : Fin 16, ∃ a : Fin 8, ∃ o : OffM, (s.dev.ready x ∧ o.ok = true ∧
      (s.dev.engine x.e.val).sbFull = false) ∧ let e := x.e.val; let y := s.dev.engine e; let a0 := y.ra a.val;
      let a1 := moveAddr a0 o.val; let a2 := moveAddr a0 (o.val * 2); let w := y.rg g.val; let v := y.rg (g.val + 1);
      s.dev.scratchGood x a1 1 ∧ ∃ d, d = runStore s.dev x false g.val a.val o 1 false)
    ∧ (∃ s : State, ∃ x : Env, ∃ g : Fin 16, ∃ a : Fin 8, ∃ o : OffM, (s.dev.ready x ∧ o.ok = true ∧
      (s.dev.engine x.e.val).sbFull = false) ∧ let e := x.e.val; let y := s.dev.engine e; let a0 := y.ra a.val;
      let a1 := moveAddr a0 o.val; let a2 := moveAddr a0 (o.val * 2); let w := y.rg g.val; let v := y.rg (g.val + 1);
      s.dev.scratchGood x a1 1 ∧ ∃ d, d = runStore s.dev x false g.val a.val o 1 false ∧ ∃ i, i ≠ waddr a1)
    ∧ (∃ s : State, ∃ x : Env, ∃ g : Fin 16, ∃ a : Fin 8, ∃ o : OffM, s.dev.ready x ∧ o.ok = true ∧
      (s.dev.engine x.e.val).sbFull = false) :=
  ⟨⟨(st (eng engA)), env, 0, 0, ⟨0, none⟩, by decide +kernel, by decide +kernel⟩,
  ⟨(st (eng engA)), env, 0, 0, ⟨0, none⟩, by decide +kernel, by decide +kernel⟩,
  ⟨(st (eng engA)), env, 0, 0, ⟨0, none⟩, by decide +kernel, by decide +kernel⟩,
  ⟨(st (eng engA)), env, 0, 0, ⟨0, none⟩, by decide +kernel, by decide +kernel⟩,
  ⟨(st (eng engA)), env, 0, 1, ⟨0, none⟩, by decide +kernel, by decide +kernel, _, rfl⟩,
  ⟨(st (eng engA)), env, 0, 1, ⟨0, none⟩, by decide +kernel, by decide +kernel, _, rfl, 0, by decide +kernel⟩,
  ⟨(st (eng engA)), env, 0, 1, ⟨0, none⟩, by decide +kernel⟩⟩

theorem witness_MaintenanceInstructions :
    (∃ s : State, ∃ x : Env, ∃ a : Fin 8, (s.dev.ready x ∧ (s.dev.engine x.e.val).sup = true) ∧ let e := x.e.val;
      let y := s.dev.engine e; let a0 := y.ra a.val; ∃ kind : BitVec 2, ∃ coh : Bool, ∃ unlock : Bool, y.sbFull = false ∧ kind ≠ 3 ∧
      (unlock = true → kind ≠ 0) ∧ s.dev.plainAt e a0 1)
    ∧ (∃ s : State, ∃ x : Env, ∃ a : Fin 8, (s.dev.ready x ∧ (s.dev.engine x.e.val).sup = true) ∧ let e := x.e.val;
      let y := s.dev.engine e; let a0 := y.ra a.val; ∃ kind : BitVec 2, ∃ unlock : Bool, ∃ g : Fin 16, y.sbFull = false ∧ kind ≠ 3 ∧
      (unlock = true → kind ≠ 0) ∧ g.val % 2 = 0)
    ∧ (∃ s : State, ∃ x : Env, ∃ a : Fin 8, (s.dev.ready x ∧ (s.dev.engine x.e.val).sup = true) ∧ let e := x.e.val;
      let y := s.dev.engine e; let a0 := y.ra a.val; y.sbFull = false)
    ∧ (∃ s : State, ∃ x : Env, ∃ a : Fin 8, (s.dev.ready x ∧ (s.dev.engine x.e.val).sup = true) ∧ let e := x.e.val;
      let y := s.dev.engine e; let a0 := y.ra a.val; y.sbFull = false ∧ s.dev.scratchGood x a0 1)
    ∧ (∃ s : State, ∃ x : Env, ∃ a : Fin 8, (s.dev.ready x ∧ (s.dev.engine x.e.val).sup = true) ∧ let e := x.e.val;
      let y := s.dev.engine e; let a0 := y.ra a.val; y.sbFull = false ∧ s.dev.scratchGood x a0 3)
    ∧ (∃ s : State, ∃ x : Env, ∃ a : Fin 8, (s.dev.ready x ∧ (s.dev.engine x.e.val).sup = true) ∧ let e := x.e.val;
      let y := s.dev.engine e; let a0 := y.ra a.val; s.dev.scratchGood x a0 6) :=
  ⟨⟨(st (eng engA)), env, 0, by decide +kernel, 2, true, true, by decide +kernel⟩,
  ⟨(st (eng engA)), env, 0, by decide +kernel, 0, false, 14, by decide +kernel⟩,
  ⟨(st (eng engA)), env, 0, by decide +kernel, by decide +kernel⟩,
  ⟨(st (eng engA)), env, 1, by decide +kernel, by decide +kernel⟩,
  ⟨(st (eng engA)), env, 1, by decide +kernel, by decide +kernel⟩,
  ⟨(st (eng engA)), env, 1, by decide +kernel, by decide +kernel⟩⟩

theorem witness_QueueInstructions :
    (∃ s : State, ∃ x : Env, ∃ a : Fin 8, ∃ g : Fin 16, (s.dev.ready x ∧ (s.dev.engine x.e.val).sup = true) ∧ let e := x.e.val;
      let y := s.dev.engine e; let a0 := y.ra a.val; let n := (y.rg g.val).toNat % 64; let len := (y.rg g.val).toNat / 64 % 128;
      let p := s.dev.pair n; spaceOf a0 = 2 ∧ ∃ nb : Bool, waddr a0 + 64 ≤ 0x8000 ∧ p.isOpen = false)
    ∧ (∃ s : State, ∃ x : Env, ∃ a : Fin 8, ∃ g : Fin 16, (s.dev.ready x ∧ (s.dev.engine x.e.val).sup = true) ∧ let e := x.e.val;
      let y := s.dev.engine e; let a0 := y.ra a.val; let n := (y.rg g.val).toNat % 64; let len := (y.rg g.val).toNat / 64 % 128;
      let p := s.dev.pair n; spaceOf a0 = 2 ∧ ∃ nb : Bool, waddr a0 + 64 ≤ 0x8000 ∧ p.isOpen = true ∧ p.unpopped ≠ 0 ∧
      p.waiters.any p.serves = false ∧ p.serves e = true)
    ∧ (∃ s : State, ∃ x : Env, ∃ a : Fin 8, ∃ g : Fin 16, (s.dev.ready x ∧ (s.dev.engine x.e.val).sup = true) ∧ let e := x.e.val;
      let y := s.dev.engine e; let a0 := y.ra a.val; let n := (y.rg g.val).toNat % 64; let len := (y.rg g.val).toNat / 64 % 128;
      let p := s.dev.pair n; spaceOf a0 = 2 ∧ waddr a0 + 64 ≤ 0x8000 ∧ p.isOpen = true ∧
      (p.unpopped = 0 ∨ p.waiters.any p.serves = true ∨ p.serves e = false))
    ∧ (∃ s : State, ∃ x : Env, ∃ a : Fin 8, ∃ g : Fin 16, (s.dev.ready x ∧ (s.dev.engine x.e.val).sup = true) ∧ let e := x.e.val;
      let y := s.dev.engine e; let a0 := y.ra a.val; let n := (y.rg g.val).toNat % 64; let len := (y.rg g.val).toNat / 64 % 128;
      let p := s.dev.pair n; spaceOf a0 = 2 ∧ y.sb = [] ∧ y.nt = [] ∧ (len = 0 ∨ 64 < len))
    ∧ (∃ s : State, ∃ x : Env, ∃ a : Fin 8, ∃ g : Fin 16, (s.dev.ready x ∧ (s.dev.engine x.e.val).sup = true) ∧ let e := x.e.val;
      let y := s.dev.engine e; let a0 := y.ra a.val; let n := (y.rg g.val).toNat % 64; let len := (y.rg g.val).toNat / 64 % 128;
      let p := s.dev.pair n; spaceOf a0 = 2 ∧ y.sb = [] ∧ y.nt = [] ∧ 0 < len ∧ len ≤ 64 ∧ s.dev.scratchGood x a0 len ∧ p.isOpen = false)
    ∧ (∃ s : State, ∃ x : Env, ∃ a : Fin 8, ∃ g : Fin 16, (s.dev.ready x ∧ (s.dev.engine x.e.val).sup = true) ∧ let e := x.e.val;
      let y := s.dev.engine e; let a0 := y.ra a.val; let n := (y.rg g.val).toNat % 64; let len := (y.rg g.val).toNat / 64 % 128;
      let p := s.dev.pair n; spaceOf a0 = 2 ∧ y.sb = [] ∧ y.nt = [] ∧ 0 < len ∧ len ≤ 64 ∧ s.dev.scratchGood x a0 len ∧ p.isOpen = true ∧
      p.poppedBy.contains e = true ∧ p.pool ≠ 0)
    ∧ (∃ s : State, ∃ x : Env, ∃ a : Fin 8, ∃ g : Fin 16, (s.dev.ready x ∧ (s.dev.engine x.e.val).sup = true) ∧ let e := x.e.val;
      let y := s.dev.engine e; let a0 := y.ra a.val; let n := (y.rg g.val).toNat % 64; let len := (y.rg g.val).toNat / 64 % 128;
      let p := s.dev.pair n; spaceOf a0 = 2 ∧ y.sb = [] ∧ y.nt = [] ∧ 0 < len ∧ len ≤ 64 ∧ s.dev.scratchGood x a0 len ∧ p.isOpen = true ∧
      p.poppedBy.contains e = true ∧ p.pool = 0)
    ∧ (∃ d : Dev, ∃ n : Nat, ∃ e : Nat, ∃ a : Info, ∃ g : Nat, n < 64)
    ∧ (∃ d : Dev, ∃ n : Nat, ∃ e : Nat, ∃ a : Info, ∃ g : Nat, n < 64 ∧ let p := d.pair n; let c := p.cmdCons.toNat % 128;
      let len := ((p.slot? c 0).getD 0).toNat % 64 + 1; let t := popTo d n e a g; ∃ i, (i < waddr a ∨ waddr a + len ≤ i))
    ∧ (∃ d : Dev, ∃ n : Nat, ∃ e : Nat, ∃ a : Info, ∃ g : Nat, n < 64 ∧ let p := d.pair n; let c := p.cmdCons.toNat % 128;
      let len := ((p.slot? c 0).getD 0).toNat % 64 + 1; let t := popTo d n e a g; ∃ k, k ≠ n)
    ∧ (∃ d : Dev, ∃ n : Nat, ∃ e : Nat, ∃ a : Info, ∃ g : Nat, ∃ ws : List Word, (d.pair n).differ = none)
    ∧ (∃ d : Dev, ∃ n : Nat, ∃ e : Nat, ∃ a : Info, ∃ g : Nat, ∃ ws : List Word, ∃ i, (d.pair n).differ = some i) :=
  ⟨⟨(st { eng { engA with g := [(0, 63)] } with pairs := [(63, {})] }), env, 1, 0, by decide +kernel, by decide +kernel, true,
    by decide +kernel⟩,
  ⟨(st { eng { engA with g := [(0, 63)] } with pairs := [(63, { st := 2, serve := 0x10, pool := 128, poppedBy := [4], cmdProd := 1, cmd := [(0, 2), (1, 0), (2, 9)] })] }),
    env, 1, 0, by decide +kernel, by decide +kernel, false, by decide +kernel⟩,
  ⟨(st { eng { engA with g := [(0, 63)] } with pairs := [(63, { st := 2, pool := 128, poppedBy := [4], cmdProd := 0, cmd := [] })] }),
    env, 1, 0, by decide +kernel, by decide +kernel⟩,
  ⟨(st { eng { engA with g := [(0, 63 + 64 * 65)] } with pairs := [(63, { st := 2, pool := 128, poppedBy := [4], cmdProd := 0, cmd := [] })] }),
    env, 1, 0, by decide +kernel, by decide +kernel⟩,
  ⟨(st { eng { engA with g := [(0, 63 + 64 * 8)] } with pairs := [(63, {})] }), env, 1, 0, by decide +kernel, by decide +kernel⟩,
  ⟨(st { eng { engA with g := [(0, 63 + 64 * 8)] } with pairs := [(63, { st := 2, pool := 1, poppedBy := [4], cmdProd := 0, cmd := [] })] }),
    env, 1, 0, by decide +kernel, by decide +kernel⟩,
  ⟨(st { eng { engA with g := [(0, 63 + 64 * 1)] } with pairs := [(63, { st := 2, pool := 0, poppedBy := [4], cmdProd := 0, cmd := [] })] }),
    env, 1, 0, by decide +kernel, by decide +kernel⟩,
  ⟨{ svc with pairs := [(63, { st := 2, cmdProd := 1, cmd := [(0, 2), (1, 0), (2, 9)] })] }, 63, 4, 0, 0, by decide +kernel⟩,
  ⟨{ svc with pairs := [(63, { st := 2, cmdProd := 1, cmd := [(0, 2), (1, 0), (2, 9)] })] }, 63, 4, 5, 0, by decide +kernel, 4,
    by decide +kernel⟩,
  ⟨{ svc with pairs := [(63, { st := 2, cmdProd := 1, cmd := [(0, 2), (1, 0), (2, 9)] })] }, 63, 4, 0, 0, by decide +kernel, 0,
    by decide +kernel⟩,
  ⟨svc, 63, 4, 0, 0, [], by decide +kernel⟩,
  ⟨{ svc with pairs := [(63, { differ := some 3 })] }, 63, 4, 0, 0, [], 3, by decide +kernel⟩⟩

theorem witness_SystemInstructions :
    (∃ s : State, ∃ x : Env, s.dev.ready x)
    ∧ (∃ s : State, ∃ x : Env, s.dev.ready x ∧ let e := x.e.val; let y := s.dev.engine e; ∃ arg : BitVec 6, (arg ≠ 0 ∧ arg.toNat < 8 ∧
      y.sb = [] ∧ y.nt = []) ∧ ∃ d, d = runFence s.dev e arg)
    ∧ (∃ s : State, ∃ x : Env, s.dev.ready x ∧ let e := x.e.val; let y := s.dev.engine e; y.sup = true)
    ∧ (∃ s : State, ∃ x : Env, s.dev.ready x ∧ let e := x.e.val; let y := s.dev.engine e; y.sup = true ∧ ∃ d,
      d = haltEngine s.dev e 0 false)
    ∧ (∃ s : State, ∃ x : Env, s.dev.ready x ∧ let e := x.e.val; let y := s.dev.engine e; (y.sup = true ∧ y.sb = [] ∧ y.nt = []) ∧ ∃ d,
      d = runStop s.dev e)
    ∧ (∃ s : State, ∃ x : Env, s.dev.ready x ∧ let e := x.e.val; let y := s.dev.engine e; y.sup = true ∧ s.dev.labsyncOver e = true)
    ∧ (∃ s : State, ∃ x : Env, s.dev.ready x ∧ let e := x.e.val; let y := s.dev.engine e; y.sup = true ∧ s.dev.labsyncOver e = false)
    ∧ (∃ s : State, ∃ x : Env, s.dev.ready x ∧ let e := x.e.val; let y := s.dev.engine e; y.sup = true ∧ ∃ g : Fin 16, y.wake = [])
    ∧ (∃ s : State, ∃ x : Env, s.dev.ready x ∧ let e := x.e.val; let y := s.dev.engine e; y.sup = true ∧ ∃ g : Fin 16, ∃ r : Rec,
      ∃ rest : List Rec, y.wake = r :: rest ∧ ∃ d, d = runEwait s.dev e g.val) :=
  ⟨⟨(st (eng engA)), env, by decide +kernel⟩,
  ⟨(st (eng engA)), env, by decide +kernel, 7, by decide +kernel, _, rfl⟩,
  ⟨(st (eng engA)), env, by decide +kernel, by decide +kernel⟩,
  ⟨(st (eng engA)), env, by decide +kernel, by decide +kernel, _, rfl⟩,
  ⟨(st (eng engA)), env, by decide +kernel, by decide +kernel, _, rfl⟩,
  ⟨(st (eng engA)), env, by decide +kernel, by decide +kernel⟩,
  ⟨(st { eng engA with labis := [(1, 4, 2, 0, 0, 0)] }), env, by decide +kernel, by decide +kernel⟩,
  ⟨(st (eng engA)), env, by decide +kernel, by decide +kernel, 15, by decide +kernel⟩,
  ⟨(st (eng { engA with wake := [⟨3, 0, 1, 2, 9, 0, 8⟩] })), env, by decide +kernel, by decide +kernel, 15, ⟨3, 0, 1, 2, 9, 0, 8⟩, [],
    by decide +kernel, _, rfl⟩⟩

theorem witness_FillsAndAcceptedWrites :
    (∃ s : State, ∃ i : Nat, ∃ x : Xact, ∃ data : Line, ∃ poison : Bool, ∃ err : Bool, s.dev.pwr.unlocked.getLsbD 10 = false ∧
      s.dev.xact? i = some x ∧ s.dev.nextAcross x Xact.comesBack = true ∧ x.mem = .back data poison err ∧ x.phase = .direct)
    ∧ (∃ s : State, ∃ i : Nat, ∃ x : Xact, ∃ data : Line, ∃ poison : Bool, ∃ w : Option Nat, ∃ d : Dev, ∃ old : List SideEntry,
      (s.dev.pwr.unlocked.getLsbD 10 = false ∧ Tab.wf s.dev.xacts = true ∧ s.dev.xact? i = some x ∧
      s.dev.nextAcross x Xact.comesBack = true ∧ x.mem = .back data poison false ∧ x.phase = .miss w false ∧ x.isPf = true ∧
      x.demanded = false) ∧ d = fillReturn s.dev i ∧ old = (s.dev.slice x.slice).side.filter (fun e => !decide (e.line = x.line)))
    ∧ (∃ s : State, ∃ i : Nat, ∃ x : Xact, ∃ d : Dev, (s.dev.xact? i = some x ∧ x.phase = .toBuffer ∧ s.dev.mcTakes x = true ∧
      x.req.dpa < s.dev.limit ∧ x.req.op ≠ .poison ∧ s.dev.leaving (mcDom (mcOf x.req.dpa)) = false ∧
      (s.dev.wbOf x.line).find? (fun e => !e.draining) = none) ∧ d = acceptWrite s.dev i)
    ∧ (∃ s : State, ∃ i : Nat, ∃ x : Xact, ∃ d : Dev, (s.dev.xact? i = some x ∧ x.phase = .toBuffer ∧ s.dev.mcTakes x = true ∧
      x.req.dpa < s.dev.limit ∧ x.req.op ≠ .poison ∧ s.dev.leaving (mcDom (mcOf x.req.dpa)) = false ∧
      (s.dev.wbOf x.line).find? (fun e => !e.draining) = none) ∧ d = acceptWrite s.dev i ∧
      (x.req.mask = BitVec.allOnes 64 ∨ (∀ r ∈ (s.dev.chan (chanOf x.req.dpa)).repair, r.1 ≠ x.line)))
    ∧ (∃ s : State, ∃ i : Nat, ∃ x : Xact, ∃ d : Dev, (s.dev.xact? i = some x ∧ x.phase = .toBuffer ∧ s.dev.mcTakes x = true ∧
      x.req.dpa < s.dev.limit ∧ s.dev.leaving (mcDom (mcOf x.req.dpa)) = true) ∧ d = acceptWrite s.dev i)
    ∧ (∃ s : State, ∃ i : Nat, ∃ x : Xact, ∃ d : Dev, (s.dev.xact? i = some x ∧ x.phase = .toBuffer ∧ s.dev.mcTakes x = true ∧
      s.dev.limit ≤ x.req.dpa) ∧
      d = resolveLine (retryRecalls (finish ((overLimit s.dev x.req).putXact i { x with due := none }) i 0 false false) (x.due.getD x.line)) x.slice x.req.dpa) :=
  ⟨⟨(st (req { req := host { op := .readShared, dpa := 0 }, slice := 0, ord := 1, phase := .direct, mem := .back 3 false true })), 7,
    { req := host { op := .readShared, dpa := 0 }, slice := 0, ord := 1, phase := .direct, mem := .back 3 false true }, 3, false, true,
    by decide +kernel⟩,
  ⟨(st (req { req := host { op := .readShared, dpa := 0 }, slice := 0, ord := 1, phase := .miss none false, isPf := true, mem := .back 3 true false })),
    7,
    { req := host { op := .readShared, dpa := 0 }, slice := 0, ord := 1, phase := .miss none false, isPf := true, mem := .back 3 true false },
    3, true, none, _, _, by decide +kernel, rfl, rfl⟩,
  ⟨(st (req { req := host { op := .write .i, dpa := 0, data := 9, mask := 1 }, ord := 1, phase := .toBuffer })), 7,
    { req := host { op := .write .i, dpa := 0, data := 9, mask := 1 }, ord := 1, phase := .toBuffer }, _, by decide +kernel, rfl⟩,
  ⟨(st (req { req := host { op := .write .i, dpa := 0, data := 9, mask := 1 }, ord := 1, phase := .toBuffer })), 7,
    { req := host { op := .write .i, dpa := 0, data := 9, mask := 1 }, ord := 1, phase := .toBuffer }, _, by decide +kernel, rfl,
    by decide +kernel⟩,
  ⟨(st { req { req := host { op := .write .i, dpa := 0, data := 9, mask := 1 }, ord := 1, phase := .toBuffer } with pwr := { svc.pwr with busy := some ⟨24, false, .mgmt, none⟩ } }),
    7, { req := host { op := .write .i, dpa := 0, data := 9, mask := 1 }, ord := 1, phase := .toBuffer }, _, by decide +kernel, rfl⟩,
  ⟨(st (req { req := host { op := .write .i, dpa := svc.limit }, ord := 1, phase := .toBuffer })), 7,
    { req := host { op := .write .i, dpa := svc.limit }, ord := 1, phase := .toBuffer }, _, by decide +kernel, rfl⟩⟩

theorem witness_MoversAndPatrol :
    (∃ s : State, ∃ m : Fin 3, ∃ ch : Fin 24, ∃ st : Ecc, ∃ op : MoverOp, (s.dev.pwr.unlocked.getLsbD 10 = false ∧
      Tab.find s.dev.movers (24 * (m.val + 1) + ch.val) = some op ∧ op.xid = none ∧ op.wid = none ∧ op.left ≠ 0 ∧
      64 * op.src < s.dev.limit) ∧ ∃ d, d = moverRead s.dev (24 * (m.val + 1) + ch.val) st)
    ∧ (∃ s : State, ∃ ch : Fin 24, ∃ st : Ecc, ∃ op : MoverOp, (s.dev.pwr.unlocked.getLsbD 10 = false ∧
      Tab.find s.dev.movers ch.val = some op ∧ op.xid = none ∧ op.wid = none ∧ op.left ≠ 0 ∧ 64 * op.src < s.dev.limit) ∧ ∃ d,
      d = moverRead s.dev ch.val st)
    ∧ (∃ s : State, ∃ m : Fin 3, ∃ ch : Fin 24, ∃ st : Ecc, ∃ op : MoverOp, s.dev.pwr.unlocked.getLsbD 10 = false ∧
      Tab.find s.dev.movers (24 * (m.val + 1) + ch.val) = some op ∧ op.xid = none ∧ op.wid = none ∧ op.left ≠ 0 ∧
      s.dev.limit ≤ 64 * op.src)
    ∧ (∃ s : State, ∃ ch : Fin 24, ∃ st : Ecc, Tab.find s.dev.movers ch.val = none)
    ∧ (∃ s : State, s.dev.err.patrol = false ∧ s.dev.err.patrolHours ≠ 0 ∧ s.dev.q0Runs = true ∧ s.dev.inService = true)
    ∧ (∃ s : State, ∃ errs : List PatrolErr, ∃ d : Dev, (s.dev.err.patrol = true ∧ s.dev.q0Runs = true ∧ s.dev.islandRuns 10 = true) ∧
      d = s.dev.each (List.range 16) (fun d k => patrolSlice d errs k)) :=
  ⟨⟨(st { svc with movers := [(95, ⟨0, 1, 1, none, none, none, .ok⟩)] }), 2, 23, .ue, ⟨0, 1, 1, none, none, none, .ok⟩,
    by decide +kernel, _, rfl⟩,
  ⟨(st { svc with movers := [(23, ⟨0, 1, 1, none, none, none, .ok⟩)] }), 23, .ue, ⟨0, 1, 1, none, none, none, .ok⟩, by decide +kernel,
    _, rfl⟩,
  ⟨(st { svc with movers := [(95, ⟨svc.limit / 64, 1, 1, none, none, none, .ok⟩)] }), 2, 23, .ue, ⟨svc.limit / 64, 1, 1, none, none,
    none, .ok⟩, by decide +kernel⟩,
  ⟨(st svc), 0, .ok, by decide +kernel⟩,
  ⟨(st svc), by decide +kernel⟩,
  ⟨(st { svc with err := { svc.err with patrol := true } }), [.dir 15 0x7FFF 15 (.ce 0)], _, by decide +kernel, rfl⟩⟩

theorem witness_LabMaintenanceTakesEffect :
    (∃ s : State, ∃ e : Fin 24, ∃ slot : Ecc, ∃ ws : List Word, (s.dev.engine e.val).wait = .labw ws ∧
      labwInvalid (ws.getD 0 0).toNat (ws.getD 5 0).toNat = true)
    ∧ (∃ s : State, ∃ e : Fin 24, ∃ slot : Ecc, ∃ ws : List Word, ∃ l : Nat, ∃ d : Dev, ((s.dev.engine e.val).wait = .labw ws ∧
      labwInvalid (ws.getD 0 0).toNat (ws.getD 5 0).toNat = false) ∧ l = labwTarget e.val (ws.getD 5 0).toNat ∧
      (s.dev.islandRuns (labIsland l) = true ∧ (ws.getD 5 0).getLsbD 0 = false ∧ (ws.getD 5 0).getLsbD 6 = false) ∧
      d = labwArrives s.dev e.val ws)
    ∧ (∃ s : State, ∃ e : Fin 24, ∃ slot : Ecc, (∀ ws, (s.dev.engine e.val).wait ≠ .labw ws) ∧
      (s.dev.labwNames e.val = none ∨ slot ≠ .ue))
    ∧ (∃ s : State, ∃ e : Fin 24, ∃ p : Nat, ∃ k : Nat, s.dev.labwNames e.val = some (p, k))
    ∧ (∃ s : State, ∃ e : Fin 24, ∃ id : Nat, ∃ form : Nat, ∃ vpn : Nat, ∃ view : BitVec 12, ∃ gran : BitVec 2,
      s.dev.labis.find? (fun x => decide (x.1 = id) && decide (x.2.1 = e.val)) = some (id, e.val, form, view, gran, vpn) ∧ ∃ d,
      d = labiEffect s.dev e.val id)
    ∧ (∃ s : State, ∃ e : Fin 24, (s.dev.pwr.unlocked.getLsbD (11 + quadOf e.val) = false ∧ s.dev.labsyncOver e.val = true ∧
      (s.dev.engine e.val).wait = .labsync) ∧ ∃ d, d = labsyncEnds s.dev e.val)
    ∧ (∃ s : State, ∃ e : Fin 24, s.dev.labsyncOver e.val = false) :=
  ⟨⟨(st (eng { engA with wait := .labw [0x20001, 0, 0, 0, 0, 0] })), 4, .ue, [0x20001, 0, 0, 0, 0, 0], by decide +kernel⟩,
  ⟨(st (eng { engA with wait := .labw [1, 5, 0, 0x40, 0x100, 0xE00] })), 4, .ok, [1, 5, 0, 0x40, 0x100, 0xE00], _, _,
    by decide +kernel, rfl, by decide +kernel, rfl⟩,
  ⟨(st (eng engA)), 4, .ue, (fun _ h => nomatch h.symm.trans (by decide +kernel : ((st (eng engA)).dev.engine 4).wait = .none)),
    by decide +kernel⟩,
  ⟨(st { eng { engA with wait := .labw [1, 0, 0, 0, 0, 0x7E] } with ports := [(0, { portA with slots := [(31, {})] })] }), 4, 0, 31,
    by decide +kernel⟩,
  ⟨(st { svc with labis := [(1, 4, 2, 0, 0, 0)] }), 4, 1, 2, 0, 0, 0, by decide +kernel, _, rfl⟩,
  ⟨(st (eng { engA with wait := .labsync })), 4, by decide +kernel, _, rfl⟩,
  ⟨(st { eng engA with labis := [(1, 4, 2, 0, 0, 0)] }), 4, by decide +kernel⟩⟩

theorem witness_StoreBufferCommands :
    (∃ s : State, ∃ e : Fin 24, ∃ b : SbEntry, ∃ w : LineWrite, (s.dev.engSt e.val ≠ .off ∧ s.dev.quadRuns e.val = true ∧
      s.dev.recovering e.val = false ∧ s.dev.nextIssue [] (s.dev.engine e.val).sb = some b ∧ b.kind = .store ∧ b.writes = [w]) ∧ ∃ d,
      d = bufferIssue s.dev e.val true)
    ∧ (∃ s : State, ∃ e : Fin 24, ∃ b : SbEntry, s.dev.engSt e.val ≠ .off ∧ s.dev.quadRuns e.val = true ∧
      s.dev.nextIssue [] (s.dev.engine e.val).sb = some b)
    ∧ (∃ s : State, ∃ e : Fin 24, ∃ parityOk : Bool, s.dev.nextIssue [] (s.dev.engine e.val).sb = none)
    ∧ (∃ s : State, ∃ e : Fin 24, ∃ id : Nat, ∃ len : Nat, (s.dev.pwr.unlocked.getLsbD (11 + quadOf e.val) = false ∧
      (s.dev.engine e.val).wait = .scp id len ∧ s.dev.result id = some true) ∧ ∃ d, d = storeComplete s.dev e.val id)
    ∧ (∃ s : State, ∃ e : Fin 24, ∃ b : SbEntry, (s.dev.pwr.unlocked.getLsbD (11 + quadOf e.val) = false ∧
      (s.dev.engine e.val).wait = .none ∧ b.kind = .store ∧ (s.dev.engine e.val).sb.find? (fun c => decide (c.id = b.id)) = some b ∧
      b.issued = true ∧ (∀ i ∈ b.xids, s.dev.result i = some true)) ∧ ∃ d, d = storeComplete s.dev e.val b.id)
    ∧ (∃ s : State, ∃ e : Fin 24, ∃ b : SbEntry, (s.dev.pwr.unlocked.getLsbD (11 + quadOf e.val) = false ∧
      (s.dev.engine e.val).wait = .none ∧ (s.dev.engine e.val).st = .running ∧ b.kind = .store ∧
      (s.dev.engine e.val).sb.find? (fun c => decide (c.id = b.id)) = some b ∧ b.issued = true ∧ (s.dev.engine e.val).fault = none) ∧
      ∃ d, d = storeTimeout s.dev e.val b.id)
    ∧ (∃ s : State, ∃ o : Origin, ∃ off : BitVec 25, (∀ e, o ≠ .engine e) ∧ ¬ s.dev.answersAt (off.toNat / 4 * 4) ∧
      s.dev.reaches o = true)
    ∧ (∃ s : State, ∃ o : Origin, ∃ off : BitVec 25, ∃ w : Origin × HostAccess, (∀ e, o ≠ .engine e) ∧
      ¬ s.dev.answersAt (off.toNat / 4 * 4) ∧ s.dev.waits.find? (waitsAt o (off.toNat / 4 * 4)) = some w)
    ∧ (∃ s : State, ∃ o : Origin, ∃ off : BitVec 25, ∃ read : Bool, s.dev.answersAt (off.toNat / 4 * 4)) :=
  ⟨⟨(st (eng { engA with sb := [⟨1, .store, 0x40, {}, false, [{ line := 2, data := 9, mask := 3, poison := false }], false, [], none, true, false⟩], nextSb := 2 })),
    4, ⟨1, .store, 0x40, {}, false, [{ line := 2, data := 9, mask := 3, poison := false }], false, [], none, true, false⟩,
    { line := 2, data := 9, mask := 3, poison := false }, by decide +kernel, _, rfl⟩,
  ⟨(st (eng { engA with sb := [⟨1, .store, 0x40, {}, false, [{ line := 2, data := 9, mask := 3, poison := false }], false, [], none, true, false⟩], nextSb := 2 })),
    4, ⟨1, .store, 0x40, {}, false, [{ line := 2, data := 9, mask := 3, poison := false }], false, [], none, true, false⟩,
    by decide +kernel⟩,
  ⟨(st (eng engA)), 4, false, by decide +kernel⟩,
  ⟨(st { req { req := host { op := .readShared, dpa := 2 ^ 34 }, slice := sliceOf (2 ^ 34), ord := 1, phase := .done 0 false true } with engines := [(4, { engA with wait := .scp 7 2 })] }),
    4, 7, 2, by decide +kernel, _, rfl⟩,
  ⟨(st { req { req := host { op := .readShared, dpa := 2 ^ 34 }, slice := sliceOf (2 ^ 34), ord := 1, phase := .done 0 false true } with engines := [(4, { engA with sb := [⟨1, .store, 0x40, {}, false, [{ line := 2, data := 9, mask := 3, poison := false }], true, [7], none, true, false⟩] })] }),
    4, ⟨1, .store, 0x40, {}, false, [{ line := 2, data := 9, mask := 3, poison := false }], true, [7], none, true, false⟩,
    by decide +kernel, _, rfl⟩,
  ⟨(st (eng { engA with sb := [⟨1, .store, 0x40, {}, false, [{ line := 2, data := 9, mask := 3, poison := false }], true, [7], none, true, false⟩] })),
    4, ⟨1, .store, 0x40, {}, false, [{ line := 2, data := 9, mask := 3, poison := false }], true, [7], none, true, false⟩,
    by decide +kernel, _, rfl⟩,
  ⟨(st { svc with pwr := { svc.pwr with on := 0xEFFFFFF } }), (.host 0 0), 0x50001, by decide +kernel⟩,
  ⟨(st { { svc with pwr := { svc.pwr with on := 0xEFFFFFF } } with waits := [(.host 0 0, (.reg 0x50000 7 false 15 none none))] }),
    (.host 0 0), 0x50001, (.host 0 0, (.reg 0x50000 7 false 15 none none)), by decide +kernel⟩,
  ⟨(st svc), (.host 0 0), 0, true, by decide +kernel⟩⟩

theorem witness_EngineWaitsEnd :
    (∃ s : State, ∃ e : Fin 24, ∃ g : Nat, ∃ a : Nat, ∃ i : Nat, ∃ k : Nat, ∃ line : Nat, ∃ len : Nat, ∃ upd : Option Info,
      ∃ addr : Info, ∃ x : Xact, ∃ data : Line, ∃ poison : Bool, (s.dev.pwr.unlocked.getLsbD (11 + quadOf e.val) = false ∧
      (s.dev.engine e.val).wait = .load .plain g a upd addr line [.from_ i k] [i] len ∧ s.dev.xact? i = some x ∧
      x.phase = .done data poison true) ∧ ∃ d, d = loadReturn s.dev e.val)
    ∧ (∃ s : State, ∃ e : Fin 24, ∃ g : Nat, ∃ a : Nat, ∃ i : Nat, ∃ k : Nat, ∃ line : Nat, ∃ len : Nat, ∃ upd : Option Info,
      ∃ addr : Info, ∃ x : Xact, ∃ data : Line, ∃ poison : Bool, (s.dev.pwr.unlocked.getLsbD (11 + quadOf e.val) = false ∧
      (s.dev.engine e.val).wait = .load .plain g a upd addr line [.from_ i k] [i] len ∧ s.dev.xact? i = some x ∧
      x.phase = .done data poison true) ∧ ∃ d, d = loadReturn s.dev e.val ∧ ∃ j, j ≠ g)
    ∧ (∃ s : State, ∃ e : Fin 24, ∃ g : Nat, ∃ a : Nat, ∃ i : Nat, ∃ k : Nat, ∃ line : Nat, ∃ len : Nat, ∃ upd : Option Info,
      ∃ addr : Info, ∃ x : Xact, ∃ data : Line, ∃ poison : Bool, (s.dev.pwr.unlocked.getLsbD (11 + quadOf e.val) = false ∧
      (s.dev.engine e.val).wait = .load .plain g a upd addr line [.from_ i k] [i] len ∧ s.dev.xact? i = some x ∧
      x.phase = .done data poison true) ∧ ∃ d, d = loadReturn s.dev e.val ∧ ∃ v, upd = some v)
    ∧ (∃ s : State, ∃ e : Fin 24, ∃ k : LoadKind, ∃ g : Nat, ∃ a : Nat, ∃ line : Nat, ∃ len : Nat, ∃ upd : Option Info, ∃ addr : Info,
      ∃ ws : List WordSrc, ∃ ids : List Nat, s.dev.pwr.unlocked.getLsbD (11 + quadOf e.val) = false ∧
      (s.dev.engine e.val).wait = .load k g a upd addr line ws ids len)
    ∧ (∃ s : State, ∃ e : Fin 24, ∃ line : Nat, s.dev.pwr.unlocked.getLsbD (11 + quadOf e.val) = false)
    ∧ (∃ s : State, ∃ e : Fin 24, s.dev.pwr.unlocked.getLsbD (11 + quadOf e.val) = false ∧ (∀ i n,
      (s.dev.engine e.val).wait ≠ .scp i n) ∧ (∀ c, (s.dev.engine e.val).call = some c → c.rmw = none))
    ∧ (∃ s : State, ∃ e : Fin 24, ∃ g : Nat, s.dev.pwr.unlocked.getLsbD (11 + quadOf e.val) = false ∧
      (s.dev.engine e.val).wait = .ewait g ∧ (s.dev.engine e.val).rg g ≠ 0)
    ∧ (∃ s : State, ∃ e : Fin 24, ∃ r : Rec, ∃ rest : List Rec, (s.dev.pwr.unlocked.getLsbD (11 + quadOf e.val) = false ∧
      (s.dev.engine e.val).wakeIn = r :: rest ∧ s.dev.wakes e.val = true ∧ (s.dev.engine e.val).wake.length < 16) ∧ (∀ g,
      (s.dev.engine e.val).wait ≠ .ewait g) ∧ ∃ d, d = wakeArrival s.dev e.val true)
    ∧ (∃ s : State, ∃ e : Fin 24, ∃ r : Rec, ∃ rest : List Rec, (s.dev.pwr.unlocked.getLsbD (11 + quadOf e.val) = false ∧
      (s.dev.engine e.val).wakeIn = r :: rest) ∧ ∃ d, d = wakeArrival s.dev e.val false)
    ∧ (∃ s : State, ∃ e : Fin 24, ∃ r : Rec, ∃ rest : List Rec, (s.dev.pwr.unlocked.getLsbD (11 + quadOf e.val) = false ∧
      (s.dev.engine e.val).wakeIn = r :: rest) ∧ ∃ d, d = wakeArrival s.dev e.val false ∧ (r.src < 416 ∨ 424 ≤ r.src))
    ∧ (∃ s : State, ∃ e : Fin 24, ∃ r : Rec, ∃ rest : List Rec, (s.dev.pwr.unlocked.getLsbD (11 + quadOf e.val) = false ∧
      (s.dev.engine e.val).wakeIn = r :: rest) ∧ ∃ d, d = wakeArrival s.dev e.val false ∧ 416 ≤ r.src ∧ r.src < 424)
    ∧ (∃ s : State, ∃ e : Fin 24, ∃ r : Rec, ∃ rest : List Rec, (s.dev.pwr.unlocked.getLsbD (11 + quadOf e.val) = false ∧
      (s.dev.engine e.val).wakeIn = r :: rest) ∧ ∃ d, d = wakeArrival s.dev e.val false ∧ (416 ≤ r.src ∧ r.src < 424) ∧ ∃ k, ∃ q, (k,
      q) ∈ (d.port (r.src - 416)).slots ∧ ∃ x ∈ r :: rest, x.src = r.src ∧ k = bits x.info.toNat 43 39 ∧ q.seq.toNat = x.seq) :=
  ⟨⟨(st { req { req := host { op := .readShared, dpa := 2 ^ 34 }, slice := sliceOf (2 ^ 34), ord := 1, phase := .done 0x50000 true true } with engines := [(4, { engA with wait := .load .plain 3 1 (some 0x44) 0x40 2 [.from_ 7 1] [7] 1 })] }),
    4, 3, 1, 7, 1, 2, 1, (some 0x44), 0x40,
    { req := host { op := .readShared, dpa := 2 ^ 34 }, slice := sliceOf (2 ^ 34), ord := 1, phase := .done 0x50000 true true }, 0x50000,
    true, by decide +kernel, _, rfl⟩,
  ⟨(st { req { req := host { op := .readShared, dpa := 2 ^ 34 }, slice := sliceOf (2 ^ 34), ord := 1, phase := .done 0x50000 true true } with engines := [(4, { engA with wait := .load .plain 3 1 (some 0x44) 0x40 2 [.from_ 7 1] [7] 1 })] }),
    4, 3, 1, 7, 1, 2, 1, (some 0x44), 0x40,
    { req := host { op := .readShared, dpa := 2 ^ 34 }, slice := sliceOf (2 ^ 34), ord := 1, phase := .done 0x50000 true true }, 0x50000,
    true, by decide +kernel, _, rfl, 15, by decide +kernel⟩,
  ⟨(st { req { req := host { op := .readShared, dpa := 2 ^ 34 }, slice := sliceOf (2 ^ 34), ord := 1, phase := .done 0x50000 true true } with engines := [(4, { engA with wait := .load .plain 3 1 (some 0x44) 0x40 2 [.from_ 7 1] [7] 1 })] }),
    4, 3, 1, 7, 1, 2, 1, (some 0x44), 0x40,
    { req := host { op := .readShared, dpa := 2 ^ 34 }, slice := sliceOf (2 ^ 34), ord := 1, phase := .done 0x50000 true true }, 0x50000,
    true, by decide +kernel, _, rfl, 0x44, by decide +kernel⟩,
  ⟨(st (eng { engA with wait := .load .plain 3 1 (some 0x44) 0x40 2 [.from_ 7 1] [7] 1 })), 4, .plain, 3, 1, 2, 1, (some 0x44), 0x40,
    [.from_ 7 1], [7], by decide +kernel⟩,
  ⟨(st (eng engA)), 4, 7, by decide +kernel⟩,
  ⟨(st (eng { engA with rsv := some 4 })), 4, by decide +kernel, by exact (fun _ _ h => nomatch h), by exact (fun _ h => nomatch h)⟩,
  ⟨(st (eng { engA with wait := .ewait 0, st := .waiting })), 4, 0, by decide +kernel⟩,
  ⟨(st (eng { engA with wakeIn := [⟨3, 0, 1, 2, 9, 0, 8⟩] })), 4, ⟨3, 0, 1, 2, 9, 0, 8⟩, [], by decide +kernel,
    (fun _ h => nomatch h.symm.trans (by decide +kernel : ((st (eng { engA with wakeIn := [⟨3, 0, 1, 2, 9, 0, 8⟩] })).dev.engine 4).wait = .none)),
    _, rfl⟩,
  ⟨(st (eng { engA with wakeIn := [⟨3, 0, 1, 2, 9, 0, 8⟩] })), 4, ⟨3, 0, 1, 2, 9, 0, 8⟩, [], by decide +kernel, _, rfl⟩,
  ⟨(st (eng { engA with wakeIn := [⟨3, 0, 1, 2, 9, 0, 8⟩] })), 4, ⟨3, 0, 1, 2, 9, 0, 8⟩, [], by decide +kernel, _, rfl,
    by decide +kernel⟩,
  ⟨(st (eng { engA with wakeIn := [⟨416, 0, 1, 2, 9, 0, 8⟩] })), 4, ⟨416, 0, 1, 2, 9, 0, 8⟩, [], by decide +kernel, _, rfl,
    by decide +kernel⟩,
  ⟨(st { eng { engA with wakeIn := [⟨416, 0, 1, 0, 0, 0, 8⟩] } with ports := [(0, { portA with slots := [(0, { sent := true })] })] }),
    4, ⟨416, 0, 1, 0, 0, 0, 8⟩, [], by decide +kernel, _, rfl, by decide +kernel, 0, {}, by decide +kernel, ⟨416, 0, 1, 0, 0, 0, 8⟩,
    by decide +kernel, by decide +kernel⟩⟩

theorem witness_EngineStartAndBudget :
    (∃ s : State, ∃ e : Fin 24, s.dev.pwr.unlocked.getLsbD (11 + quadOf e.val) = false ∧ s.dev.engSt e.val = .running ∧
      (s.dev.engine e.val).wait = .none ∧ (s.dev.engine e.val).fault = none ∧ (s.dev.engine e.val).budgetDue = true ∧
      (s.dev.engine e.val).sup = false)
    ∧ (∃ s : State, ∃ e : Fin 24, ∃ pc : BitVec 14, (s.dev.engSt e.val = .stopped ∧ s.dev.leaving (quadDom (quadOf e.val)) = false) ∧
      ∃ d, d = startEngine (s.dev.updEngine e.val (fun y => { y with startPc := pc })) e.val pc)
    ∧ (∃ s : State, ∃ e : Fin 24, ∃ pc : BitVec 14, (s.dev.engSt e.val = .stopped ∧ s.dev.leaving (quadDom (quadOf e.val)) = false) ∧
      ∃ d, d = startEngine (s.dev.updEngine e.val (fun y => { y with startPc := pc })) e.val pc ∧ ∃ k, k ≠ e.val)
    ∧ (∃ s : State, ∃ e : Fin 24, ∃ pc : BitVec 14, (s.dev.engSt e.val ≠ .stopped ∨ s.dev.leaving (quadDom (quadOf e.val)) = true)) :=
  ⟨⟨(st (eng { engA with sup := false, budgetDue := true })), 4, by decide +kernel⟩,
  ⟨(st svc), 23, 0x3FFF, by decide +kernel, _, rfl⟩,
  ⟨(st svc), 23, 0x3FFF, by decide +kernel, _, rfl, 5, by decide +kernel⟩,
  ⟨(st (eng engA)), 4, 1, by decide +kernel⟩⟩

theorem witness_CommandQueueCommands :
    (∃ s : State, ∃ q : Fin 8, ∃ m : Fin 16, ∃ n : Fin 64, ∃ v : BitVec 32, s.dev.takesWrite (.host q m) (0x80000 + 0x20 * n.val) ∧
      (s.dev.pair n.val).st = 0 ∧ v.getLsbD 0 = true)
    ∧ (∃ s : State, ∃ n : Fin 64, (s.dev.pwr.unlocked.getLsbD 10 = false ∧ (s.dev.pair n.val).st = 1) ∧ ∃ d, d = openDone s.dev n.val)
    ∧ (∃ s : State, ∃ q : Fin 8, ∃ m : Fin 16, ∃ n : Fin 64, ∃ v : BitVec 32, (s.dev.takesWrite (.host q m) (0x80000 + 0x20 * n.val) ∧
      (s.dev.pair n.val).st ≠ 0 ∧ (s.dev.pair n.val).ownedBy (.host q m) = true ∧ v.getLsbD 0 = false) ∧ ∃ d,
      d = (closePair s.dev n.val 1).updPair n.val (fun p => { p with cplVec := v.extractLsb' 1 6, cplMsi := v.getLsbD 7 }))
    ∧ (∃ s : State, ∃ q : Fin 8, ∃ m : Fin 16, ∃ n : Fin 64, ∃ c : BitVec 7, ∃ k : BitVec 6, ∃ v : BitVec 32, ∃ par : Bool,
      ∃ pe : Option (BitVec 2), ∃ r : Nat, s.dev.takesSlot (.host q m) ∧ (s.dev.pair n.val).slotBar (.host q m) c.toNat = some r)
    ∧ (∃ s : State, ∃ q : Fin 8, ∃ m : Fin 16, ∃ n : Fin 64, ∃ c : BitVec 7, ∃ k : BitVec 6, ∃ v : BitVec 32, ∃ par : Bool,
      ∃ pe : Option (BitVec 2), ∃ p : Pair_, (s.dev.takesSlot (.host q m) ∧ (s.dev.pair n.val).slotBar (.host q m) c.toNat = none) ∧
      p = (s.dev.pair n.val).putSlot c.toNat k.toNat (v.extractLsb' 0 18) par ∧ p.slot? c.toNat 0 = none)
    ∧ (∃ s : State, ∃ q : Fin 8, ∃ m : Fin 16, ∃ n : Fin 64, ∃ c : BitVec 7, ∃ k : BitVec 6, ∃ v : BitVec 32, ∃ par : Bool,
      ∃ p : Pair_, ∃ w0 : Word, ∃ w : Word, (s.dev.takesSlot (.host q m) ∧ (s.dev.pair n.val).slotBar (.host q m) c.toNat = none) ∧
      p = (s.dev.pair n.val).putSlot c.toNat k.toNat (v.extractLsb' 0 18) par ∧ p.slot? c.toNat 0 = some w0 ∧
      p.slot? c.toNat (w0.toNat % 64) = some w ∧ p.badReason c.toNat (w0.toNat % 64) = 0 ∧ p.waiters = [] ∧ p.differ = none)
    ∧ (∃ s : State, ∃ q : Fin 8, ∃ m : Fin 16, ∃ n : Fin 64, ∃ c : BitVec 7, ∃ k : BitVec 6, ∃ v : BitVec 32, ∃ par : Bool,
      ∃ p : Pair_, ∃ w0 : Word, ∃ w : Word, (s.dev.takesSlot (.host q m) ∧ (s.dev.pair n.val).slotBar (.host q m) c.toNat = none) ∧
      p = (s.dev.pair n.val).putSlot c.toNat k.toNat (v.extractLsb' 0 18) par ∧ p.slot? c.toNat 0 = some w0 ∧
      p.slot? c.toNat (w0.toNat % 64) = some w ∧ p.badReason c.toNat (w0.toNat % 64) ≠ 0)
    ∧ (∃ s : State, ∃ q : Fin 8, ∃ m : Fin 16, ∃ n : Fin 64, ∃ c : BitVec 7, ∃ k : BitVec 6, ∃ v : BitVec 32, ∃ en : BitVec 4,
      ∃ par : Bool, ∃ pe : Option (BitVec 2), s.dev.takesSlot (.host q m) ∧ (s.dev.pair n.val).slotBar (.host q m) c.toNat = none ∧
      en ≠ 0 ∧ en ≠ 15)
    ∧ (∃ s : State, ∃ o : Origin, ∃ n : Fin 64, ∃ c : BitVec 7, ∃ k : BitVec 6, ∃ v : BitVec 32, ∃ en : BitVec 4, ∃ par : Bool,
      ∃ pe : Option (BitVec 2), s.dev.reaches o = true ∧ s.dev.islandRuns 10 = false ∧ en ≠ 0) :=
  ⟨⟨(st svc), 0, 0, 63, 0xFF, by decide +kernel⟩,
  ⟨(st { svc with pairs := [(63, { st := 1, cmdProd := 0xFF })] }), 63, by decide +kernel, _, rfl⟩,
  ⟨(st { svc with pairs := [(63, { st := 2 })] }), 0, 0, 63, 0, by decide +kernel, _, rfl⟩,
  ⟨(st svc), 0, 0, 63, 0, 0, 0, false, none, 2, by decide +kernel⟩,
  ⟨(st { svc with pairs := [(63, { st := 2, pool := 128 })] }), 0, 0, 63, 0, 63, 7, false, none, _, by decide +kernel, rfl,
    by decide +kernel⟩,
  ⟨(st { svc with pairs := [(63, { st := 2, pool := 128, cmd := [(0, 1)] })] }), 0, 0, 63, 0, 1, 7, true, _, 1, 7, by decide +kernel,
    rfl, by decide +kernel⟩,
  ⟨(st { svc with pairs := [(63, { st := 2, pool := 128, cmd := [(0, 0x41)] })] }), 0, 0, 63, 0, 1, 7, true, _, 0x41, 7,
    by decide +kernel, rfl, by decide +kernel⟩,
  ⟨(st { svc with pairs := [(63, { st := 2 })] }), 0, 0, 63, 0, 1, 5, 7, true, none, by decide +kernel⟩,
  ⟨(st { { svc with pairs := [(63, { st := 2 })] } with pwr := { svc.pwr with unlocked := 0x400 } }), (.host 0 0), 63, 0, 1, 5, 1,
    true, none, by decide +kernel⟩⟩

theorem witness_CompletionAndEventCommands :
    (∃ s : State, ∃ q : Fin 8, ∃ m : Fin 16, ∃ n : Fin 64, ∃ v : BitVec 32, ∃ p : Pair_, p = s.dev.pair n.val ∧
      (s.dev.takesWrite (.host q m) (0x80014 + 0x20 * n.val) ∧ p.isOpen = true ∧ p.ownedBy (.host q m) = true ∧
      (v.setWidth 8 - p.cplHead).toNat ≤ (p.cplProd - p.cplHead).toNat) ∧ (∀ e < 24, ∀ ws, (s.dev.engine e).wait ≠ .qpush n.val ws) ∧
      p.differ = none)
    ∧ (∃ s : State, ∃ q : Fin 8, ∃ m : Fin 16, ∃ n : Fin 64, ∃ v : BitVec 32, ∃ p : Pair_, p = s.dev.pair n.val ∧
      s.dev.takesWrite (.host q m) (0x80014 + 0x20 * n.val) ∧ p.isOpen = true ∧ p.ownedBy (.host q m) = true ∧
      (p.cplProd - p.cplHead).toNat < (v.setWidth 8 - p.cplHead).toNat ∧ p.differ = none)
    ∧ (∃ s : State, ∃ o : Origin, ∃ q : Fin 9, ∃ v : BitVec 32, s.dev.takesWrite o (0x90808 + 0x10 * q.val) ∧
      (v.setWidth 8 - (s.dev.evq q.val).head).toNat ≤ (s.dev.evq q.val).unread ∧ v.setWidth 8 ≠ (s.dev.evq q.val).head ∧
      (s.dev.evq q.val).run = 0 ∧ (s.dev.evq q.val).differ = none ∧ (q.val = 8 → v.setWidth 8 ≠ (s.dev.evq q.val).tail))
    ∧ (∃ s : State, ∃ o : Origin, ∃ q : Fin 9, ∃ v : BitVec 32, s.dev.takesWrite o (0x90808 + 0x10 * q.val) ∧
      (s.dev.evq q.val).unread < (v.setWidth 8 - (s.dev.evq q.val).head).toNat)
    ∧ (∃ s : State, ∃ n : Fin 64, s.dev.pwr.unlocked.getLsbD 10 = false ∧ n.val < 9 ∧ (s.dev.evq n.val).unread ≠ 0)
    ∧ (∃ s : State, ∃ n : Fin 64, ∃ p : Pair_, s.dev.pwr.unlocked.getLsbD 10 = false ∧ p = s.dev.pair n.val ∧ p.isOpen = true ∧
      p.cplMsi = true ∧ p.cplProd ≠ p.cplHead)
    ∧ (∃ s : State, ∃ k : Nat, ∃ r : Rec, ∃ rest : List Rec, (s.dev.pwr.unlocked.getLsbD 0 = false ∧ s.dev.nextSource = some k ∧
      (s.dev.source k).buf = r :: rest ∧ r.route.toNat % 16 = 8 ∧ r.route.getLsbD 4 = false ∧ r.route.getLsbD 14 = false ∧
      (s.dev.evq 8).unread < 128 ∧ (s.dev.evq 8).differ = none) ∧ ∃ d, d = fabricTransfer s.dev true none)
    ∧ (∃ s : State, ∃ k : Nat, ∃ r : Rec, ∃ rest : List Rec, ∃ d : Dev, ∃ pe : Option Bool, (s.dev.pwr.unlocked.getLsbD 0 = false ∧
      s.dev.nextSource = some k ∧ (s.dev.source k).buf = r :: rest) ∧
      d = ({ s.dev with evt := { s.dev.evt with rotate := (k + 1) % 512 } } : Dev).updSource k (fun x => { x with buf := rest }))
    ∧ (∃ s : State, ∃ k : Nat, ∃ r : Rec, ∃ rest : List Rec, ∃ d : Dev, ∃ pe : Option Bool, (s.dev.pwr.unlocked.getLsbD 0 = false ∧
      s.dev.nextSource = some k ∧ (s.dev.source k).buf = r :: rest) ∧
      d = ({ s.dev with evt := { s.dev.evt with rotate := (k + 1) % 512 } } : Dev).updSource k (fun x => { x with buf := rest }) ∧
      9 ≤ r.route.toNat % 16 ∧ r.route.getLsbD 4 = false ∧ r.route.getLsbD 14 = false)
    ∧ (∃ s : State, ∃ k : Nat, ∃ r : Rec, ∃ rest : List Rec, ∃ d : Dev, ∃ pe : Option Bool, (s.dev.pwr.unlocked.getLsbD 0 = false ∧
      s.dev.nextSource = some k ∧ (s.dev.source k).buf = r :: rest) ∧
      d = ({ s.dev with evt := { s.dev.evt with rotate := (k + 1) % 512 } } : Dev).updSource k (fun x => { x with buf := rest }) ∧
      9 ≤ r.route.toNat % 16 ∧ r.route.getLsbD 4 = true ∧ r.route.getLsbD 14 = false)
    ∧ (∃ s : State, ∃ k : Nat, ∃ r : Rec, ∃ rest : List Rec, ∃ d : Dev, ∃ pe : Option Bool, (s.dev.pwr.unlocked.getLsbD 0 = false ∧
      s.dev.nextSource = some k ∧ (s.dev.source k).buf = r :: rest) ∧
      d = ({ s.dev with evt := { s.dev.evt with rotate := (k + 1) % 512 } } : Dev).updSource k (fun x => { x with buf := rest }) ∧
      9 ≤ r.route.toNat % 16 ∧ r.route.getLsbD 4 = false ∧ r.route.getLsbD 14 = true ∧ r.route.toNat / 2 ^ 15 % 32 < 24)
    ∧ (∃ s : State, ∃ k : Nat, ∃ r : Rec, ∃ rest : List Rec, ∃ d : Dev, ∃ pe : Option Bool, (s.dev.pwr.unlocked.getLsbD 0 = false ∧
      s.dev.nextSource = some k ∧ (s.dev.source k).buf = r :: rest) ∧
      d = ({ s.dev with evt := { s.dev.evt with rotate := (k + 1) % 512 } } : Dev).updSource k (fun x => { x with buf := rest }) ∧ ∃ q,
      q = r.route.toNat % 16 ∧ q < 9 ∧ r.route.getLsbD 4 = false ∧ r.route.getLsbD 14 = false ∧ (s.dev.evq q).unread < 128 ∧
      (s.dev.evq q).differ = none ∧ pe = none)
    ∧ (∃ s : State, ∃ k : Nat, ∃ r : Rec, ∃ rest : List Rec, ∃ d : Dev, ∃ pe : Option Bool, (s.dev.pwr.unlocked.getLsbD 0 = false ∧
      s.dev.nextSource = some k ∧ (s.dev.source k).buf = r :: rest) ∧
      d = ({ s.dev with evt := { s.dev.evt with rotate := (k + 1) % 512 } } : Dev).updSource k (fun x => { x with buf := rest }) ∧ ∃ q,
      (q = r.route.toNat % 16 ∧ q < 9 ∧ r.route.getLsbD 4 = false ∧ r.route.getLsbD 14 = false ∧ (s.dev.evq q).unread < 128 ∧
      (s.dev.evq q).differ = none ∧ pe = none) ∧ ∃ n, n ≠ q)
    ∧ (∃ s : State, ∃ p : Nat, ∃ k : Nat, ∃ q : ParkSlot, ∃ b : Bool, ∃ pe : Option Bool, (s.dev.pwr.unlocked.getLsbD 0 = false ∧
      s.dev.nextSource = some (416 + p) ∧ (s.dev.source (416 + p)).buf = [] ∧ firstMiss (s.dev.missReady p) = some (k, q)) ∧ ∃ d,
      d = fabricTransfer s.dev b pe)
    ∧ (∃ s : State, ∃ p : Nat, ∃ k : Nat, ∃ q : ParkSlot, ∃ b : Bool, ∃ pe : Option Bool, (s.dev.pwr.unlocked.getLsbD 0 = false ∧
      s.dev.nextSource = some (416 + p) ∧ (s.dev.source (416 + p)).buf = [] ∧ firstMiss (s.dev.missReady p) = some (k, q)) ∧ ∃ d,
      d = fabricTransfer s.dev b pe ∧ ∃ x, Tab.find (d.port p).slots k = some x)
    ∧ (∃ s : State, ∃ k : Nat, ∃ r : Rec, ∃ rest : List Rec, ∃ pe : Option Bool, (s.dev.pwr.unlocked.getLsbD 0 = false ∧
      s.dev.nextSource = some k ∧ (s.dev.source k).buf = r :: rest) ∧ ∃ d, d = fabricTransfer s.dev false pe)
    ∧ (∃ s : State, ∃ pe : Option Bool, ∃ b : Bool, s.dev.nextSource = none) :=
  ⟨⟨(st { svc with pairs := [(63, { st := 2, pool := 127, cplProd := 1, cplMsi := true })] }), 0, 0, 63, 1, _, rfl, by decide +kernel,
    (fun e he _ h => nomatch h.symm.trans ((by decide +kernel : ∀ e < 24,
    ((st { svc with pairs := [(63, { st := 2, pool := 127, cplProd := 1, cplMsi := true })] }).dev.engine e).wait = .none) e he)),
    by decide +kernel⟩,
  ⟨(st { svc with pairs := [(63, { st := 2, cplProd := 5, cplHead := 250 })] }), 0, 0, 63, 6,
    { st := 2, cplProd := 5, cplHead := 250 }, by decide +kernel⟩,
  ⟨(st { svc with evqs := [(8, { tail := 2, head := 0xFF })] }), .mgmt, 8, 1, by decide +kernel⟩,
  ⟨(st { svc with evqs := [(8, { tail := 2, head := 0xFF })] }), .mgmt, 8, 3, by decide +kernel⟩,
  ⟨(st { svc with evqs := [(8, { tail := 2, head := 0xFF })] }), 8, by decide +kernel⟩,
  ⟨(st { svc with pairs := [(63, { st := 2, pool := 127, cplProd := 1, cplMsi := true })] }), 63, _, by decide +kernel, rfl,
    by decide +kernel⟩,
  ⟨(st { svc with sources := [(511, { buf := [⟨511, 0, 1, 0, 0, 0, 8⟩] })] }), 511, ⟨511, 0, 1, 0, 0, 0, 8⟩, [], by decide +kernel, _,
    rfl⟩,
  ⟨(st { svc with sources := [(460, { buf := [⟨460, 0, 1, 0, 0, 0, 8⟩] })] }), 460, ⟨460, 0, 1, 0, 0, 0, 8⟩, [], _, none,
    by decide +kernel, rfl⟩,
  ⟨(st { svc with sources := [(460, { buf := [⟨460, 0, 1, 0, 0, 0, 0xF⟩] })] }), 460, ⟨460, 0, 1, 0, 0, 0, 0xF⟩, [], _, none,
    by decide +kernel, rfl, by decide +kernel⟩,
  ⟨(st { svc with sources := [(460, { buf := [⟨460, 0, 1, 0, 0, 0, 0x1F⟩] })] }), 460, ⟨460, 0, 1, 0, 0, 0, 0x1F⟩, [], _, none,
    by decide +kernel, rfl, by decide +kernel⟩,
  ⟨(st { svc with sources := [(460, { buf := [⟨460, 0, 1, 0, 0, 0, 245775⟩] })] }), 460, ⟨460, 0, 1, 0, 0, 0, 245775⟩, [], _, none,
    by decide +kernel, rfl, by decide +kernel⟩,
  ⟨(st { svc with sources := [(460, { buf := [⟨460, 0, 1, 0, 0, 0, 3⟩] })] }), 460, ⟨460, 0, 1, 0, 0, 0, 3⟩, [], _, none,
    by decide +kernel, rfl, 3, by decide +kernel⟩,
  ⟨(st { svc with sources := [(460, { buf := [⟨460, 0, 1, 0, 0, 0, 3⟩] })] }), 460, ⟨460, 0, 1, 0, 0, 0, 3⟩, [], _, none,
    by decide +kernel, rfl, 3, by decide +kernel, 4, by decide +kernel⟩,
  ⟨(st { svc with ports := [(7, { portA with slots := [(31, { engine := 7, seq := 2 })] })], engines := [(7, { st := .running })] }),
    7, 31, { engine := 7, seq := 2 }, true, none, by decide +kernel, _, rfl⟩,
  ⟨(st { svc with ports := [(7, { portA with slots := [(31, { engine := 7, seq := 2 })] })], engines := [(7, { st := .running })] }),
    7, 31, { engine := 7, seq := 2 }, true, none, by decide +kernel, _, rfl, { engine := 7, seq := 2, sent := true }, by decide +kernel⟩,
  ⟨(st { svc with sources := [(511, { buf := [⟨511, 0, 1, 0, 0, 0, 8⟩] })] }), 511, ⟨511, 0, 1, 0, 0, 0, 8⟩, [], none,
    by decide +kernel, _, rfl⟩,
  ⟨(st svc), none, true, by decide +kernel⟩⟩

theorem witness_RegisterWriteRules :
    (∃ s : State, ∃ q : Fin 8, ∃ m : Fin 16, ∃ off : BitVec 25, ∃ v : BitVec 64, ∃ en : BitVec 8, 0 < en.toNat ∧ en.toNat < 16 ∧
      s.dev.glob.dev ≠ .off ∧ s.dev.reaches (.host q m) = true ∧ s.dev.inService = false ∧ acceptedAnywhere (off.toNat / 4 * 4) = false)
    ∧ (∃ s : State, ∃ o : Origin, ∃ off : BitVec 25, ∃ v : BitVec 64, ∃ en : BitVec 8, 0 < en.toNat ∧ en.toNat < 15 ∧
      s.dev.glob.dev ≠ .off ∧ s.dev.reaches o = true ∧ s.dev.writeBar o (off.toNat / 4 * 4) = none ∧
      s.dev.answersAt (off.toNat / 4 * 4) ∧ s.dev.noneAhead o (off.toNat / 4 * 4))
    ∧ (∃ s : State, ∃ o : Origin, ∃ off : BitVec 25, ∃ v : BitVec 64, s.dev.glob.dev ≠ .off ∧ s.dev.reaches o = true ∧
      s.dev.writeBar o (off.toNat / 4 * 4) = none ∧ (¬ s.dev.answersAt (off.toNat / 4 * 4) ∨ ¬ s.dev.noneAhead o (off.toNat / 4 * 4)))
    ∧ (∃ d : Dev, ∃ o : Origin, ∃ a : HostAccess, d.waits = [(o, a)] ∧ d.blockRuns a = true)
    ∧ (∃ d : Dev, ∃ o : Origin, ∃ a : HostAccess, d.waits = [(o, a)] ∧ d.blockRuns a = false)
    ∧ (∃ d : Dev, ∃ p : Fin 8, ∃ m : Fin 16, ∃ off : BitVec 25, ∃ en : BitVec 4, ∃ k : Nat, k = off.toNat / 4 * 4)
    ∧ (∃ d : Dev, ∃ p : Fin 8, ∃ m : Fin 16, ∃ off : BitVec 25, ∃ en : BitVec 4, ∃ k : Nat, k = off.toNat / 4 * 4 ∧ en ≠ 0)
    ∧ (∃ d : Dev, ∃ p : Fin 8, ∃ m : Fin 16, ∃ off : BitVec 25, ∃ en : BitVec 4, ∃ k : Nat, k = off.toNat / 4 * 4 ∧
      d.glob.dev = .service ∧ perFunction k = false ∧ d.answersAt k ∧ d.noneAhead (.host p m) k)
    ∧ (∃ d : Dev, ∃ p : Fin 8, ∃ m : Fin 16, ∃ off : BitVec 25, ∃ en : BitVec 4, ∃ k : Nat, k = off.toNat / 4 * 4 ∧
      d.glob.dev = .service ∧ perFunction k = false ∧ ¬ d.answersAt k)
    ∧ (∃ s : State, ∃ o : Origin, ∃ v : BitVec 64, s.dev.takesWrite o 0x20 ∧ ∃ d, d = busWrite s.dev o 0x20 v.toNat false 15 none none)
    ∧ (∃ s : State, ∃ o : Origin, ∃ v : BitVec 64, s.dev.takesWrite o 0x4C ∧ ∃ d, d = busWrite s.dev o 0x4C v.toNat false 15 none none)
    ∧ (∃ s : State, ∃ o : Origin, ∃ v : BitVec 64, (s.dev.glob.dev ≠ .off ∧ s.dev.reaches o = true ∧ s.dev.writeBar o 0x20300 = none ∧
      s.dev.answersAt 0x20300 ∧ s.dev.noneAhead o 0x20300 ∧ s.dev.glob.lockTables = true) ∧ ∃ d,
      d = busWrite s.dev o 0x20300 v.toNat false 15 none none)
    ∧ (∃ s : State, ∃ o : Origin, ∃ off : BitVec 25, ∃ v : BitVec 64, ∃ en : BitVec 8, 16 ≤ en.toNat) :=
  ⟨⟨(st { svc with glob := { svc.glob with dev := .held } }), 0, 0, 0x20, 1, 15, by decide +kernel⟩,
  ⟨(st svc), .host 0 0, 0x20, 1, 14, by decide +kernel⟩,
  ⟨(st { svc with pwr := { svc.pwr with on := 5 } }), .host 0 0, 0x20300, 1, by decide +kernel⟩,
  ⟨{ svc with waits := [(.host 0 0, (.reg 0x20 7 false 15 none none))] }, (.host 0 0), (.reg 0x20 7 false 15 none none),
    by decide +kernel⟩,
  ⟨{ { svc with pwr := { svc.pwr with on := 1 } } with waits := [(.host 0 0, (.reg 0x50000 7 false 15 none none))] }, (.host 0 0),
    (.reg 0x50000 7 false 15 none none), by decide +kernel⟩,
  ⟨svc, 0, 0, 0x21, 0, _, rfl⟩,
  ⟨svc, 0, 0, 0x21, 1, _, rfl, by decide +kernel⟩,
  ⟨svc, 0, 0, 0x21, 1, _, rfl, by decide +kernel⟩,
  ⟨{ svc with pwr := { svc.pwr with on := 1 } }, 0, 0, 0x50000, 1, _, rfl, by decide +kernel⟩,
  ⟨(st svc), .host 0 0, 5, by decide +kernel, _, rfl⟩,
  ⟨(st { svc with glob := { svc.glob with dev := .held } }), .host 0 0, 3, by decide +kernel, _, rfl⟩,
  ⟨(st { svc with glob := { svc.glob with lockTables := true } }), .host 0 0, 7, by decide +kernel, _, rfl⟩,
  ⟨(st svc), .host 0 0, 0, 0, 16, by decide +kernel⟩⟩

theorem witness_StartingRegisters :
    (∃ s : State, ∃ o : Origin, ∃ v : BitVec 32, s.dev.takesWrite o 0x48 ∧ v.toNat % 2 ^ 16 = 0x5E75)
    ∧ (∃ s : State, ∃ o : Origin, ∃ v : BitVec 32, s.dev.takesWrite o 0x48 ∧ v.toNat % 2 ^ 16 ≠ 0x5E75)
    ∧ (∃ s : State, ∃ o : Origin, ∃ v : BitVec 32, (s.dev.takesWrite o 0x40 ∧ v.getLsbD 0 = true ∧ s.dev.canPark = true) ∧ ∃ d,
      d = writeReg s.dev o 0x40 v)
    ∧ (∃ s : State, ∃ o : Origin, ∃ v : BitVec 32, (s.dev.takesWrite o 0x58 ∧ v.getLsbD 0 = true ∧ s.dev.q0Runs = true ∧
      s.dev.resync.busy = false) ∧ ∃ d, d = writeReg s.dev o 0x58 v)
    ∧ (∃ s : State, ∃ o : Origin, ∃ v : BitVec 32, s.dev.takesWrite o 0x58 ∧ v.getLsbD 0 = true ∧ s.dev.q0Runs = true ∧
      s.dev.resync.busy = true ∧ s.dev.resync.pending = false)
    ∧ (∃ s : State, ∃ o : Origin, ∃ v : BitVec 32, (s.dev.takesWrite o 0xA0020 ∧ v.getLsbD 0 = true ∧ 1 ≤ v.toNat / 4 % 16 ∧
      v.toNat / 4 % 16 ≤ 11) ∧ ∃ d, d = writeReg s.dev o 0xA0020 v)
    ∧ (∃ s : State, ∃ o : Origin, ∃ v : BitVec 32, s.dev.takesWrite o 0x24 ∧ ∃ d, d = writeReg s.dev o 0x24 v)
    ∧ (∃ s : State, ∃ o : Origin, ∃ v : BitVec 32, s.dev.takesWrite o 0xA0038 ∧ ∃ d, d = writeReg s.dev o 0xA0038 v)
    ∧ (∃ s : State, ∃ sl : Fin 16, s.dev.pwr.unlocked.getLsbD 10 = false ∧
      (s.dev.park.st ≠ 1 ∨ s.dev.parkBusy sl.val = true ∨ s.dev.paceMet sl.val = false))
    ∧ (∃ s : State, ∃ sl : Fin 16, ∃ d : Dev, (s.dev.pwr.unlocked.getLsbD 10 = false ∧ s.dev.park.st = 1 ∧
      s.dev.parkBusy sl.val = false ∧ s.dev.glob.resetPhase = .none ∧ (s.dev.slice sl.val).parkNext < 32768 ∧
      s.dev.paceMet sl.val = true ∧ s.dev.q0Runs = true) ∧ d = parkStep s.dev sl.val)
    ∧ (∃ d : Dev, d.park.st = 1 ∧ (∀ k < 16, d.parked k = 32768))
    ∧ (∃ d : Dev, d.park.st = 1 ∧ (∃ k < 16, d.parked k ≠ 32768)) :=
  ⟨⟨(st svc), .host 0 0, 0x5E75, by decide +kernel⟩,
  ⟨(st svc), .host 0 0, 0x5E74, by decide +kernel⟩,
  ⟨(st svc), .host 0 0, 0x1FF, by decide +kernel, _, rfl⟩,
  ⟨(st svc), .host 0 0, 1, by decide +kernel, _, rfl⟩,
  ⟨(st { svc with resync := { svc.resync with busy := true } }), .host 0 0, 1, by decide +kernel⟩,
  ⟨(st svc), .host 0 0, 0x2D, by decide +kernel, _, rfl⟩,
  ⟨(st svc), .host 0 0, 3, by decide +kernel, _, rfl⟩,
  ⟨(st svc), .host 0 0, 1, by decide +kernel, _, rfl⟩,
  ⟨(st svc), 15, by decide +kernel⟩,
  ⟨(st { svc with park := { st := 1 } }), 15, _, by decide +kernel, rfl⟩,
  ⟨{ svc with park := { st := 1 }, slices := (List.range 16).map (fun k => (k, { parkNext := 32768 })) }, by decide +kernel⟩,
  ⟨{ svc with park := { st := 1 } }, by decide +kernel⟩⟩

theorem witness_ServiceRegisters :
    (∃ s : State, ∃ o : Origin, ∃ sl : Fin 16, ∃ v : BitVec 32, s.dev.takesWrite o (0x30000 + 0x1000 * sl.val) ∧
      (s.dev.slice sl.val).ctrl.getLsbD 0 = false ∧ (s.dev.slice sl.val).tagsClean = true ∧ v.getLsbD 0 = true)
    ∧ (∃ s : State, ∃ o : Origin, ∃ sl : Fin 16, ∃ v : BitVec 32, s.dev.takesWrite o (0x30000 + 0x1000 * sl.val) ∧
      (s.dev.slice sl.val).ctrl.getLsbD 0 = false ∧ (s.dev.slice sl.val).tagsClean = false ∧ v.getLsbD 0 = true)
    ∧ (∃ s : State, ∃ o : Origin, ∃ sl : Fin 16, ∃ v : BitVec 32, (s.dev.takesWrite o (0x30000 + 0x1000 * sl.val) ∧
      (s.dev.slice sl.val).ctrl.getLsbD 0 = true ∧ v.getLsbD 0 = false) ∧ ∃ d, d = writeReg s.dev o (0x30000 + 0x1000 * sl.val) v)
    ∧ (∃ s : State, ∃ o : Origin, ∃ p : Fin 8, ∃ v : BitVec 32, s.dev.takesWrite o (0x2000C + 0x40 * p.val))
    ∧ (∃ s : State, ∃ o : Origin, ∃ v : BitVec 32, s.dev.takesWrite o 0xA0008 ∧ v.getLsbD 31 = true)
    ∧ (∃ s : State, ∃ o : Origin, ∃ v : BitVec 32, ∃ x : LogEntry, s.dev.takesWrite o 0xA0008 ∧ v.getLsbD 31 = false ∧
      Tab.find s.dev.err.log (v.toNat % 2 ^ 9) = some x)
    ∧ (∃ s : State, ∃ o : Origin, ∃ v : BitVec 32, s.dev.takesWrite o 0xA0044 ∧ v.getLsbD 0 = true)
    ∧ (∃ s : State, ∃ o : Origin, ∃ b : Fin 28, ∃ v : BitVec 32, s.dev.takesWrite o (0xC0000 + 0x100 * b.val) ∧ v.getLsbD 1 = true)
    ∧ (∃ s : State, ∃ o : Origin, ∃ v : BitVec 32, (s.dev.takesWrite o 0xC2004 ∧ v.getLsbD 0 = true ∧ v.getLsbD 1 = false) ∧ ∃ d,
      d = writeReg s.dev o 0xC2004 v)
    ∧ (∃ s : State, ∃ o : Origin, ∃ v : BitVec 32, (s.dev.takesWrite o 0xC2004 ∧ v.getLsbD 1 = true) ∧ ∃ d,
      d = writeReg s.dev o 0xC2004 v)
    ∧ (∃ s : State, ∃ b : Fin 28, (s.dev.pmc b.val).fresh = [])
    ∧ (∃ s : State, ∃ b : Fin 28, ∃ t : Nat, ∃ v : BitVec 9, ∃ rest : List (Nat × BitVec 9), (s.dev.pmc b.val).fresh = (t, v) :: rest) :=
  ⟨⟨(st { svc with slices := [(15, { tagsClean := true })] }), .host 0 0, 15, 1, by decide +kernel⟩,
  ⟨(st svc), .host 0 0, 15, 1, by decide +kernel⟩,
  ⟨(st { svc with slices := [(15, { ctrl := 0x17, tagsClean := true })] }), .host 0 0, 15, 0, by decide +kernel, _, rfl⟩,
  ⟨(st { svc with ports := [(0, { portA with hstatus := 0xF })] }), .host 0 0, 0, 5, by decide +kernel⟩,
  ⟨(st svc), .host 0 0, 0x80000000, by decide +kernel⟩,
  ⟨(st { svc with err := { svc.err with log := [(511, ⟨1, 2, false, false, 0, 5, 1, 1, 0, 0, 1, 0, 0, 0, 0⟩)] } }), .host 0 0, 511, ⟨1,
    2, false, false, 0, 5, 1, 1, 0, 0, 1, 0, 0, 0, 0⟩, by decide +kernel⟩,
  ⟨(st svc), .host 0 0, 1, by decide +kernel⟩,
  ⟨(st svc), .host 0 0, 27, 3, by decide +kernel⟩,
  ⟨(st svc), .host 0 0, 1, by decide +kernel, _, rfl⟩,
  ⟨(st svc), .host 0 0, 2, by decide +kernel, _, rfl⟩,
  ⟨(st svc), 27, by decide +kernel⟩,
  ⟨(st { svc with pmcs := [(27, { fresh := [(3, 256), (4, 1)] })] }), 27, 3, 256, [(4, 1)], by decide +kernel⟩⟩

theorem witness_RangeRoutines :
    (∃ s : State, ∃ k : CallCtx, ∃ r : Range, ∃ ws : List Word, ∃ q : Option (Nat × BitVec 10), ws = s.dev.bodyOf k ∧ r = rangeOf ws ∧
      let lines (c : Nat) : List CallStep := [if r.phys then .cmos c r.coh false (r.base / 64) (r.len / 64) else .range r.base (r.base + r.len),
      .finish]; ∃ named : List Nat, named = (List.range 16).filter (fun i => (b1 ws 0).testBit i) ∧ s.dev.takesCall k 1 1 q ∧
      (∀ i ∈ named, (s.dev.slice i).ctrl.getLsbD 0 = false))
    ∧ (∃ s : State, ∃ k : CallCtx, ∃ r : Range, ∃ ws : List Word, ∃ q : Option (Nat × BitVec 10), ws = s.dev.bodyOf k ∧
      r = rangeOf ws ∧
      let lines (c : Nat) : List CallStep := [if r.phys then .cmos c r.coh false (r.base / 64) (r.len / 64) else .range r.base (r.base + r.len),
      .finish]; ∃ named : List Nat, named = (List.range 16).filter (fun i => (b1 ws 0).testBit i) ∧ s.dev.takesCall k 1 1 q ∧
      (∃ i ∈ named, (s.dev.slice i).ctrl.getLsbD 0 = true))
    ∧ (∃ s : State, ∃ k : CallCtx, ∃ r : Range, ∃ ws : List Word, ∃ q : Option (Nat × BitVec 10), ws = s.dev.bodyOf k ∧
      r = rangeOf ws ∧
      let lines (c : Nat) : List CallStep := [if r.phys then .cmos c r.coh false (r.base / 64) (r.len / 64) else .range r.base (r.base + r.len),
      .finish]; s.dev.takesCall k 2 7 q ∧ s.dev.rangeOk r = true)
    ∧ (∃ s : State, ∃ k : CallCtx, ∃ r : Range, ∃ ws : List Word, ∃ q : Option (Nat × BitVec 10), ws = s.dev.bodyOf k ∧
      r = rangeOf ws ∧
      let lines (c : Nat) : List CallStep := [if r.phys then .cmos c r.coh false (r.base / 64) (r.len / 64) else .range r.base (r.base + r.len),
      .finish]; s.dev.takesCall k 3 7 q ∧ s.dev.rangeOk r = true)
    ∧ (∃ s : State, ∃ k : CallCtx, ∃ r : Range, ∃ ws : List Word, ∃ q : Option (Nat × BitVec 10), ws = s.dev.bodyOf k ∧
      r = rangeOf ws ∧
      let lines (c : Nat) : List CallStep := [if r.phys then .cmos c r.coh false (r.base / 64) (r.len / 64) else .range r.base (r.base + r.len),
      .finish]; s.dev.takesCall k 4 7 q ∧ s.dev.rangeOk r = true)
    ∧ (∃ s : State, ∃ k : CallCtx, ∃ r : Range, ∃ ws : List Word, ∃ q : Option (Nat × BitVec 10), ws = s.dev.bodyOf k ∧
      r = rangeOf ws ∧
      let lines (c : Nat) : List CallStep := [if r.phys then .cmos c r.coh false (r.base / 64) (r.len / 64) else .range r.base (r.base + r.len),
      .finish]; s.dev.takesCall k 2 7 q ∧ s.dev.rangeOk r = false)
    ∧ (∃ s : State, ∃ k : CallCtx, ∃ r : Range, ∃ ws : List Word, ∃ q : Option (Nat × BitVec 10), ws = s.dev.bodyOf k ∧
      r = rangeOf ws ∧
      let lines (c : Nat) : List CallStep := [if r.phys then .cmos c r.coh false (r.base / 64) (r.len / 64) else .range r.base (r.base + r.len),
      .finish]; s.dev.callFor k.e.val 2 = some q ∧ restZero ws 7 = false)
    ∧ (∃ s : State, ∃ k : CallCtx, ∃ r : Range, ∃ ws : List Word, ∃ q : Option (Nat × BitVec 10), ws = s.dev.bodyOf k ∧
      r = rangeOf ws ∧
      let lines (c : Nat) : List CallStep := [if r.phys then .cmos c r.coh false (r.base / 64) (r.len / 64) else .range r.base (r.base + r.len),
      .finish]; s.dev.callFor k.e.val 2 = none)
    ∧ (∃ s : State, ∃ k : CallCtx, ∃ r : Range, ∃ ws : List Word, ∃ q : Option (Nat × BitVec 10), ws = s.dev.bodyOf k ∧
      r = rangeOf ws ∧
      let lines (c : Nat) : List CallStep := [if r.phys then .cmos c r.coh false (r.base / 64) (r.len / 64) else .range r.base (r.base + r.len),
      .finish]; s.dev.takesCall k 5 5 q ∧ b1 ws 0 % 4 ≠ 3 ∧ b1 ws 2 < 2 ^ 13 ∧ b1 ws 3 < 2 ^ 13)
    ∧ (∃ s : State, ∃ k : CallCtx, ∃ r : Range, ∃ ws : List Word, ∃ q : Option (Nat × BitVec 10), ws = s.dev.bodyOf k ∧
      r = rangeOf ws ∧
      let lines (c : Nat) : List CallStep := [if r.phys then .cmos c r.coh false (r.base / 64) (r.len / 64) else .range r.base (r.base + r.len),
      .finish]; s.dev.takesCall k 6 8 q ∧ s.dev.rangeOk r = true ∧ r.coh = false ∧ bitAt (b1 ws 7) 4 = false)
    ∧ (∃ s : State, ∃ k : CallCtx, ∃ r : Range, ∃ ws : List Word, ∃ q : Option (Nat × BitVec 10), ws = s.dev.bodyOf k ∧
      r = rangeOf ws ∧
      let lines (c : Nat) : List CallStep := [if r.phys then .cmos c r.coh false (r.base / 64) (r.len / 64) else .range r.base (r.base + r.len),
      .finish]; s.dev.takesCall k 6 8 q ∧ bitAt (b1 ws 7) 4 = true ∧ (ws.take 7).all (· == 0) = true)
    ∧ (∃ s : State, ∃ k : CallCtx, ∃ r : Range, ∃ ws : List Word, ∃ q : Option (Nat × BitVec 10), ws = s.dev.bodyOf k ∧
      r = rangeOf ws ∧
      let lines (c : Nat) : List CallStep := [if r.phys then .cmos c r.coh false (r.base / 64) (r.len / 64) else .range r.base (r.base + r.len),
      .finish]; s.dev.takesCall k 7 7 q ∧ s.dev.rangeOk r = true ∧ r.coh = false)
    ∧ (∃ s : State, ∃ k : CallCtx, ∃ r : Range, ∃ ws : List Word, ∃ q : Option (Nat × BitVec 10), ws = s.dev.bodyOf k ∧
      r = rangeOf ws ∧
      let lines (c : Nat) : List CallStep := [if r.phys then .cmos c r.coh false (r.base / 64) (r.len / 64) else .range r.base (r.base + r.len),
      .finish]; ∃ c : BitVec 8, (c.toNat = 0 ∨ 0x18 < c.toNat) ∧ s.dev.callFor k.e.val c.toNat = some q)
    ∧ (∃ s : State, ∃ k : CallCtx, ∃ r : Range, ∃ ws : List Word, ∃ q : Option (Nat × BitVec 10), ws = s.dev.bodyOf k ∧ r = rangeOf ws) :=
  ⟨⟨(st (callA 1 [0x8001])), ⟨4, []⟩, _, _, (some (0, 3)), rfl, rfl, _, rfl, by decide +kernel⟩,
  ⟨(st { callA 1 [0x8001] with slices := [(15, { ctrl := 1 })] }), ⟨4, []⟩, _, _, (some (0, 3)), rfl, rfl, _, rfl, by decide +kernel⟩,
  ⟨(st (callA 2 [0x1001, 64, 0, 0, 128, 0, 0])), ⟨4, []⟩, _, _, (some (0, 3)), rfl, rfl, by decide +kernel⟩,
  ⟨(st (callA 3 [0x1001, 64, 0, 0, 128, 0, 0])), ⟨4, []⟩, _, _, (some (0, 3)), rfl, rfl, by decide +kernel⟩,
  ⟨(st (callA 4 [0x1001, 64, 0, 0, 128, 0, 0])), ⟨4, []⟩, _, _, (some (0, 3)), rfl, rfl, by decide +kernel⟩,
  ⟨(st (callA 2 [0, 1])), ⟨4, []⟩, _, _, (some (0, 3)), rfl, rfl, by decide +kernel⟩,
  ⟨(st (callA 2 [0, 0, 0, 0, 64, 0, 0, 1])), ⟨4, []⟩, _, _, (some (0, 3)), rfl, rfl, by decide +kernel⟩,
  ⟨(st (callA 1)), ⟨4, []⟩, _, _, (some (0, 3)), rfl, rfl, by decide +kernel⟩,
  ⟨(st (callA 5 [2, 0xFFFF, 5, 0x1FFF, 3])), ⟨4, []⟩, _, _, (some (0, 3)), rfl, rfl, by decide +kernel⟩,
  ⟨(st (callA 6 [0x1001, 512, 0, 0, 512, 0, 0, 0xF])), ⟨4, []⟩, _, _, (some (0, 3)), rfl, rfl, by decide +kernel⟩,
  ⟨(st (callA 6 [0, 0, 0, 0, 0, 0, 0, 0x1F])), ⟨4, []⟩, _, _, (some (0, 3)), rfl, rfl, by decide +kernel⟩,
  ⟨(st (callA 7 [0x1001, 64, 0, 0, 128, 0, 0])), ⟨4, []⟩, _, _, (some (0, 3)), rfl, rfl, by decide +kernel⟩,
  ⟨(st (callA 0x19 [1])), ⟨4, []⟩, _, _, (some (0, 3)), rfl, rfl, 0x19, by decide +kernel⟩,
  ⟨(st (callA 2 [0x1001, 64, 0, 0, 128, 0, 0])), ⟨4, []⟩, _, _, (some (0, 3)), rfl, rfl⟩⟩

theorem witness_ViewRoutines :
    (∃ s : State, ∃ k : CallCtx, ∃ ws : List Word, ∃ q : Option (Nat × BitVec 10), ws = s.dev.bodyOf k ∧
      let v : BitVec 12 := (ws.getD 0 0).extractLsb' 0 12; let go : List CallStep := [.lockViews [v], .viewGo]; let p := b1 ws 0 % 8;
      let m := b1 ws 0 / 8 % 16; let g := b1 ws 0 / 128 % 8; s.dev.takesCall k 8 2 q ∧ (b1 ws 1 % 4 = 1 ∨ b1 ws 1 % 4 = 2) ∧
      b1 ws 1 / 4 % 4 ≠ 3)
    ∧ (∃ s : State, ∃ k : CallCtx, ∃ ws : List Word, ∃ q : Option (Nat × BitVec 10), ws = s.dev.bodyOf k ∧
      let v : BitVec 12 := (ws.getD 0 0).extractLsb' 0 12; let go : List CallStep := [.lockViews [v], .viewGo]; let p := b1 ws 0 % 8;
      let m := b1 ws 0 / 8 % 16; let g := b1 ws 0 / 128 % 8; s.dev.takesCall k 8 2 q ∧
      (b1 ws 1 % 4 = 0 ∨ b1 ws 1 % 4 = 3 ∨ b1 ws 1 / 4 % 4 = 3))
    ∧ (∃ s : State, ∃ k : CallCtx, ∃ ws : List Word, ∃ q : Option (Nat × BitVec 10), ws = s.dev.bodyOf k ∧
      let v : BitVec 12 := (ws.getD 0 0).extractLsb' 0 12; let go : List CallStep := [.lockViews [v], .viewGo]; let p := b1 ws 0 % 8;
      let m := b1 ws 0 / 8 % 16; let g := b1 ws 0 / 128 % 8; s.dev.takesCall k 9 1 q)
    ∧ (∃ s : State, ∃ k : CallCtx, ∃ ws : List Word, ∃ q : Option (Nat × BitVec 10), ws = s.dev.bodyOf k ∧
      let v : BitVec 12 := (ws.getD 0 0).extractLsb' 0 12; let go : List CallStep := [.lockViews [v], .viewGo]; let p := b1 ws 0 % 8;
      let m := b1 ws 0 / 8 % 16; let g := b1 ws 0 / 128 % 8; ∃ w : BitVec 12, s.dev.takesCall k 0xA 2 q ∧
      w = (ws.getD 1 0).extractLsb' 0 12)
    ∧ (∃ s : State, ∃ k : CallCtx, ∃ ws : List Word, ∃ q : Option (Nat × BitVec 10), ws = s.dev.bodyOf k ∧
      let v : BitVec 12 := (ws.getD 0 0).extractLsb' 0 12; let go : List CallStep := [.lockViews [v], .viewGo]; let p := b1 ws 0 % 8;
      let m := b1 ws 0 / 8 % 16; let g := b1 ws 0 / 128 % 8; s.dev.takesCall k 0xB 10 q)
    ∧ (∃ s : State, ∃ k : CallCtx, ∃ ws : List Word, ∃ q : Option (Nat × BitVec 10), ws = s.dev.bodyOf k ∧
      let v : BitVec 12 := (ws.getD 0 0).extractLsb' 0 12; let go : List CallStep := [.lockViews [v], .viewGo]; let p := b1 ws 0 % 8;
      let m := b1 ws 0 / 8 % 16; let g := b1 ws 0 / 128 % 8; s.dev.takesCall k 0xC 6 q)
    ∧ (∃ s : State, ∃ k : CallCtx, ∃ ws : List Word, ∃ q : Option (Nat × BitVec 10), ws = s.dev.bodyOf k ∧
      let v : BitVec 12 := (ws.getD 0 0).extractLsb' 0 12; let go : List CallStep := [.lockViews [v], .viewGo]; let p := b1 ws 0 % 8;
      let m := b1 ws 0 / 8 % 16; let g := b1 ws 0 / 128 % 8; ∃ n : Nat, ∃ vs : List (BitVec 12), n = b1 ws 4 % 16 ∧
      vs = (List.range n).map (fun i => (ws.getD (5 + i) 0).extractLsb' 0 12) ∧ s.dev.takesCall k 0xD (5 + n) q ∧ 0 < n ∧ n ≤ 8 ∧
      65536 * b2 ws 2 < s.dev.limit)
    ∧ (∃ s : State, ∃ k : CallCtx, ∃ ws : List Word, ∃ q : Option (Nat × BitVec 10), ws = s.dev.bodyOf k ∧
      let v : BitVec 12 := (ws.getD 0 0).extractLsb' 0 12; let go : List CallStep := [.lockViews [v], .viewGo]; let p := b1 ws 0 % 8;
      let m := b1 ws 0 / 8 % 16; let g := b1 ws 0 / 128 % 8; ∃ n : Nat, ∃ vs : List (BitVec 12), n = b1 ws 4 % 16 ∧
      vs = (List.range n).map (fun i => (ws.getD (5 + i) 0).extractLsb' 0 12) ∧ s.dev.takesCall k 0xD (5 + n) q ∧
      (n = 0 ∨ 8 < n ∨ s.dev.limit ≤ 65536 * b2 ws 2))
    ∧ (∃ s : State, ∃ k : CallCtx, ∃ ws : List Word, ∃ q : Option (Nat × BitVec 10), ws = s.dev.bodyOf k ∧
      let v : BitVec 12 := (ws.getD 0 0).extractLsb' 0 12; let go : List CallStep := [.lockViews [v], .viewGo]; let p := b1 ws 0 % 8;
      let m := b1 ws 0 / 8 % 16; let g := b1 ws 0 / 128 % 8; ∃ b : BitVec 12, s.dev.takesCall k 0x17 18 q ∧ b1 ws 0 / 1024 = 0 ∧
      Tab.find s.dev.binds (16 * p + m) = some b)
    ∧ (∃ s : State, ∃ k : CallCtx, ∃ ws : List Word, ∃ q : Option (Nat × BitVec 10), ws = s.dev.bodyOf k ∧
      let v : BitVec 12 := (ws.getD 0 0).extractLsb' 0 12; let go : List CallStep := [.lockViews [v], .viewGo]; let p := b1 ws 0 % 8;
      let m := b1 ws 0 / 8 % 16; let g := b1 ws 0 / 128 % 8; s.dev.takesCall k 0x17 18 q ∧ Tab.find s.dev.binds (16 * p + m) = none)
    ∧ (∃ s : State, ∃ k : CallCtx, ∃ ws : List Word, ∃ q : Option (Nat × BitVec 10), ws = s.dev.bodyOf k ∧
      let v : BitVec 12 := (ws.getD 0 0).extractLsb' 0 12; let go : List CallStep := [.lockViews [v], .viewGo]; let p := b1 ws 0 % 8;
      let m := b1 ws 0 / 8 % 16; let g := b1 ws 0 / 128 % 8; ∃ x : DcExtent, s.dev.takesCall k 0x18 4 q ∧ b1 ws 0 / 1024 = 0 ∧
      (s.dev.ld p m).extents.find? (fun x => x.accepted && decide (x.region = g) && decide (x.base = b3 ws 1)) = some x)
    ∧ (∃ s : State, ∃ k : CallCtx, ∃ ws : List Word, ∃ q : Option (Nat × BitVec 10), ws = s.dev.bodyOf k ∧
      let v : BitVec 12 := (ws.getD 0 0).extractLsb' 0 12; let go : List CallStep := [.lockViews [v], .viewGo]; let p := b1 ws 0 % 8;
      let m := b1 ws 0 / 8 % 16; let g := b1 ws 0 / 128 % 8; s.dev.takesCall k 0x18 4 q ∧
      (s.dev.ld p m).extents.find? (fun x => x.accepted && decide (x.region = g) && decide (x.base = b3 ws 1)) = none)
    ∧ (∃ d : Dev, ∃ c : Call, ∃ x : BitVec 32, d.bindHeld c.port c.ld = false ∧ c.keep = false ∧ d.desc? c.view = some x)
    ∧ (∃ d : Dev, ∃ c : Call, ∃ x : BitVec 32, (d.bindHeld c.port c.ld = false ∧ c.keep = false ∧ d.desc? c.view = some x) ∧ ∃ i,
      i ≠ 16 * c.port + c.ld)
    ∧ (∃ d : Dev, ∃ c : Call, d.bindHeld c.port c.ld = false ∧ c.keep = true ∧ Tab.wf d.binds = true)
    ∧ (∃ d : Dev, ∃ c : Call, (d.bindHeld c.port c.ld = false ∧ c.keep = true ∧ Tab.wf d.binds = true) ∧ ∃ i, i ≠ 16 * c.port + c.ld)
    ∧ (∃ d : Dev, ∃ c : Call, d.bindHeld c.port c.ld = true)
    ∧ (∃ d : Dev, ∃ c : Call, descLevels (d.pairAt (d.descDpa c.view)).1 ≠ 0) :=
  ⟨⟨(st (callA 8 [9, 6])), ⟨4, []⟩, _, (some (0, 3)), rfl, by decide +kernel⟩,
  ⟨(st (callA 8 [9, 3])), ⟨4, []⟩, _, (some (0, 3)), rfl, by decide +kernel⟩,
  ⟨(st (callA 9 [9])), ⟨4, []⟩, _, (some (0, 3)), rfl, by decide +kernel⟩,
  ⟨(st (callA 0xA [0xFF, 9])), ⟨4, []⟩, _, (some (0, 3)), rfl, _, by decide +kernel, rfl⟩,
  ⟨(st (callA 0xB [9, 0, 1, 0, 2, 0, 0x7FF, 3, 0, 1])), ⟨4, []⟩, _, (some (0, 3)), rfl, by decide +kernel⟩,
  ⟨(st (callA 0xC [9, 0, 1, 0, 2, 0])), ⟨4, []⟩, _, (some (0, 3)), rfl, by decide +kernel⟩,
  ⟨(st (callA 0xD [7, 0, 8, 0, 2, 9, 5])), ⟨4, []⟩, _, (some (0, 3)), rfl, _, _, rfl, rfl, by decide +kernel⟩,
  ⟨(st (callA 0xD [7, 0, 8, 0, 0])), ⟨4, []⟩, _, (some (0, 3)), rfl, _, _, rfl, rfl, by decide +kernel, Or.inl rfl⟩,
  ⟨(st (callA 0x17 [0x380, 0, 1, 0, 2, 0, 0x7FF, 3, 0, 1, 1, 2])), ⟨4, []⟩, _, (some (0, 3)), rfl, 1, by decide +kernel⟩,
  ⟨(st (callA 0x17 [0x3FF, 0, 1, 0, 2, 0, 0x7FF, 3, 0, 1])), ⟨4, []⟩, _, (some (0, 3)), rfl, by decide +kernel⟩,
  ⟨(st { callA 0x18 [0x380, 65536, 0, 0] with ports := [(0, { portA with lds := [(0, { ldA with extents := [{ region := 7, base := 65536, pages := 1, tag := 9, accepted := true, view := 1 }] })] })] }),
    ⟨4, []⟩, _, (some (0, 3)), rfl, { region := 7, base := 65536, pages := 1, tag := 9, accepted := true, view := 1 }, by decide +kernel⟩,
  ⟨(st (callA 0x18 [0x380, 65536, 0, 0])), ⟨4, []⟩, _, (some (0, 3)), rfl, by decide +kernel⟩,
  ⟨svc, { port := 7, ld := 15, view := 1 }, 0x01000014, by decide +kernel⟩,
  ⟨svc, { port := 7, ld := 15, view := 1 }, 0x01000014, by decide +kernel, 0, by decide +kernel⟩,
  ⟨svc, { port := 7, ld := 15, keep := true }, by decide +kernel⟩,
  ⟨svc, { port := 7, ld := 15, keep := true }, by decide +kernel, 0, by decide +kernel⟩,
  ⟨svc, {}, by decide +kernel⟩,
  ⟨svc, { port := 7, ld := 15, view := 1 }, by decide +kernel⟩⟩

theorem witness_TileAndProgramRoutines :
    (∃ s : State, ∃ k : CallCtx, ∃ ws : List Word, ∃ q : Option (Nat × BitVec 10), ws = s.dev.bodyOf k ∧ let y := s.dev.engine k.e.val;
      ∃ a : BitVec 12, ∃ ep : BitVec 4, s.dev.takesCall k 0xE 2 q ∧ a = (ws.getD 0 0).extractLsb' 0 12 ∧
      ep = (ws.getD 1 0).extractLsb' 0 4 ∧ ∃ x : Agent, s.dev.agent? a = some x ∧ x.attached = true ∧ x.epoch = ep)
    ∧ (∃ s : State, ∃ k : CallCtx, ∃ ws : List Word, ∃ q : Option (Nat × BitVec 10), ws = s.dev.bodyOf k ∧
      let y := s.dev.engine k.e.val; ∃ a : BitVec 12, ∃ ep : BitVec 4, s.dev.takesCall k 0xE 2 q ∧ a = (ws.getD 0 0).extractLsb' 0 12 ∧
      ep = (ws.getD 1 0).extractLsb' 0 4 ∧ (∀ x : Agent, s.dev.agent? a = some x → x.attached = false ∨ x.epoch ≠ ep))
    ∧ (∃ s : State, ∃ k : CallCtx, ∃ ws : List Word, ∃ q : Option (Nat × BitVec 10), ws = s.dev.bodyOf k ∧
      let y := s.dev.engine k.e.val; ∃ c : Call,
      c = { mode := b1 ws 0 % 8, base := b1 ws 1 % 64, steps := [.tileGo], reply := q, body := ws } ∧ s.dev.takesCall k 0xF 1 q)
    ∧ (∃ s : State, ∃ k : CallCtx, ∃ ws : List Word, ∃ q : Option (Nat × BitVec 10), ws = s.dev.bodyOf k ∧
      let y := s.dev.engine k.e.val; ∃ c : Call,
      c = { mode := b1 ws 0 % 8, base := b1 ws 1 % 64, steps := [.tileGo], reply := q, body := ws } ∧ s.dev.takesCall k 0x10 1 q)
    ∧ (∃ s : State, ∃ k : CallCtx, ∃ ws : List Word, ∃ q : Option (Nat × BitVec 10), ws = s.dev.bodyOf k ∧
      let y := s.dev.engine k.e.val; ∃ c : Call,
      c = { mode := b1 ws 0 % 8, base := b1 ws 1 % 64, steps := [.tileGo], reply := q, body := ws } ∧ s.dev.takesCall k 0x11 1 q)
    ∧ (∃ s : State, ∃ k : CallCtx, ∃ ws : List Word, ∃ q : Option (Nat × BitVec 10), ws = s.dev.bodyOf k ∧
      let y := s.dev.engine k.e.val; ∃ c : Call,
      c = { mode := b1 ws 0 % 8, base := b1 ws 1 % 64, steps := [.tileGo], reply := q, body := ws } ∧ s.dev.takesCall k 0x12 2 q)
    ∧ (∃ s : State, ∃ k : CallCtx, ∃ ws : List Word, ∃ q : Option (Nat × BitVec 10), ws = s.dev.bodyOf k ∧
      let y := s.dev.engine k.e.val; s.dev.takesCall k 0x13 1 q ∧ s.dev.canPark = true)
    ∧ (∃ s : State, ∃ k : CallCtx, ∃ ws : List Word, ∃ q : Option (Nat × BitVec 10), ws = s.dev.bodyOf k ∧
      let y := s.dev.engine k.e.val; s.dev.takesCall k 0x13 1 q ∧ s.dev.canPark = false)
    ∧ (∃ s : State, ∃ k : CallCtx, ∃ ws : List Word, ∃ q : Option (Nat × BitVec 10), ws = s.dev.bodyOf k ∧
      let y := s.dev.engine k.e.val; ∃ r : Range, s.dev.takesCall k 0x14 7 q ∧ r = rangeOf ws ∧
      s.dev.oneEngine { code := 0x14, reply := q } = true ∧ s.dev.rangeOk r = true ∧ r.coh = false ∧ y.prog = none)
    ∧ (∃ s : State, ∃ k : CallCtx, ∃ ws : List Word, ∃ q : Option (Nat × BitVec 10), ws = s.dev.bodyOf k ∧
      let y := s.dev.engine k.e.val; ∃ v : BitVec 12, ∃ b : Pair, ∃ p : Prog, s.dev.takesCall k 0x15 12 q ∧
      v = (ws.getD 1 0).extractLsb' 0 12 ∧ b = BitVec.ofNat 36 (b2 ws 2) ∧ s.dev.oneEngine { code := 0x15, reply := q } = true ∧
      y.prog = some p ∧ (ws.getD 0 0).toNat = k.e.val + 32 * p.count.toNat ∧ b ≠ 0)
    ∧ (∃ s : State, ∃ k : CallCtx, ∃ ws : List Word, ∃ q : Option (Nat × BitVec 10), ws = s.dev.bodyOf k ∧
      let y := s.dev.engine k.e.val; ∃ p : Prog, s.dev.takesCall k 0x16 1 q ∧ y.prog = some p ∧
      (ws.getD 0 0).toNat = k.e.val + 32 * p.count.toNat)
    ∧ (∃ s : State, ∃ k : CallCtx, ∃ ws : List Word, ∃ q : Option (Nat × BitVec 10), ws = s.dev.bodyOf k ∧
      let y := s.dev.engine k.e.val; s.dev.takesCall k 0x16 1 q ∧ y.prog = none)
    ∧ (∃ d : Dev, ∃ c : Call, d.tileMoving c.mode = false ∧ c.code = 0xF ∧ d.tileSt c.mode = .online)
    ∧ (∃ d : Dev, ∃ c : Call, d.tileMoving c.mode = false ∧ c.code = 0x10 ∧ d.tileSt c.mode = .offline)
    ∧ (∃ d : Dev, ∃ c : Call, d.tileMoving c.mode = false ∧ c.code = 0x11 ∧ d.tileSt c.mode = .online)
    ∧ (∃ d : Dev, ∃ c : Call, d.tileMoving c.mode = false ∧ c.code = 0x12 ∧ d.tileSt c.mode = .online ∧
      (d.tile c.mode).bankWalks.contains c.base = false) :=
  ⟨⟨(st (callA 0xE [5, 1])), ⟨4, []⟩, _, (some (0, 3)), rfl, _, _, by decide +kernel, rfl, rfl,
    { epoch := 1, hdmDb := true, view := 1 }, by decide +kernel⟩,
  ⟨(st (callA 0xE [5, 2])), ⟨4, []⟩, _, (some (0, 3)), rfl, _, _, by decide +kernel, rfl, rfl,
    fun x h => by cases (show some _ = some x from h); decide⟩,
  ⟨(st (callA 0xF [7])), ⟨4, []⟩, _, (some (0, 3)), rfl, _, rfl, by decide +kernel⟩,
  ⟨(st (callA 0x10 [7])), ⟨4, []⟩, _, (some (0, 3)), rfl, _, rfl, by decide +kernel⟩,
  ⟨(st (callA 0x11 [7])), ⟨4, []⟩, _, (some (0, 3)), rfl, _, rfl, by decide +kernel⟩,
  ⟨(st (callA 0x12 [7, 63])), ⟨4, []⟩, _, (some (0, 3)), rfl, _, rfl, by decide +kernel⟩,
  ⟨(st (callA 0x13 [255])), ⟨4, []⟩, _, (some (0, 3)), rfl, by decide +kernel⟩,
  ⟨(st { callA 0x13 [255] with park := { st := 2 } }), ⟨4, []⟩, _, (some (0, 3)), rfl, by decide +kernel⟩,
  ⟨(st (callA 0x14 [0x1001, 64, 0, 0, 128, 0, 0])), ⟨4, []⟩, _, (some (0, 3)), rfl, _, by decide +kernel, rfl, by decide +kernel⟩,
  ⟨(st (progA 0x15 [0x1FE4, 9, 5, 0, 1, 2, 3, 4, 5, 6, 7, 8])), ⟨4, []⟩, _, (some (0, 3)), rfl, _, _, ⟨255, 0, 64, 0⟩,
    by decide +kernel, rfl, rfl, by decide +kernel⟩,
  ⟨(st (progA 0x16 [0x1FE4])), ⟨4, []⟩, _, (some (0, 3)), rfl, ⟨255, 0, 64, 0⟩, by decide +kernel⟩,
  ⟨(st (callA 0x16 [4])), ⟨4, []⟩, _, (some (0, 3)), rfl, by decide +kernel⟩,
  ⟨{ svc with tiles := [(7, { st := .online })] }, { code := 0xF, mode := 7, base := 63 }, by decide +kernel⟩,
  ⟨{ svc with tiles := [(7, { st := .offline })] }, { code := 0x10, mode := 7, base := 63 }, by decide +kernel⟩,
  ⟨{ svc with tiles := [(7, { st := .online })] }, { code := 0x11, mode := 7, base := 63 }, by decide +kernel⟩,
  ⟨{ svc with tiles := [(7, { st := .online })] }, { code := 0x12, mode := 7, base := 63 }, by decide +kernel⟩⟩

theorem witness_ProgramServices :
    (∃ s : State, ∃ e : Fin 24, ∃ c : Call, ((s.dev.engine e.val).inService 0 = true ∧ s.dev.quadRuns e.val = true ∧
      s.dev.missWaits e.val = false ∧ (s.dev.engine e.val).call = some c) ∧ ∃ d, d = svcExit s.dev e.val)
    ∧ (∃ s : State, ∃ e : Fin 24, (s.dev.engine e.val).inService 1 = true ∧ s.dev.quadRuns e.val = true ∧
      s.dev.missWaits e.val = false ∧
      cmoIllegal (((s.dev.engine e.val).rg 0).extractLsb' 0 2) (((s.dev.engine e.val).rg 0).getLsbD 2) (((s.dev.engine e.val).rg 0).getLsbD 3) (((s.dev.engine e.val).rg 0).getLsbD 4) 0 = true)
    ∧ (∃ s : State, ∃ e : Fin 24, ∃ d : Dev, ∃ l : Loc, ((s.dev.engine e.val).inService 1 = true ∧ s.dev.quadRuns e.val = true ∧
      s.dev.missWaits e.val = false ∧ (s.dev.engine e.val).sbFull = false ∧
      cmoIllegal (((s.dev.engine e.val).rg 0).extractLsb' 0 2) false (((s.dev.engine e.val).rg 0).getLsbD 3) (((s.dev.engine e.val).rg 0).getLsbD 4) 0 = false ∧
      ((s.dev.engine e.val).rg 0).getLsbD 2 = false) ∧ svcLine s.dev e.val = (d, .here l))
    ∧ (∃ s : State, ∃ e : Fin 24, ∃ d : Dev, ((s.dev.engine e.val).inService 1 = true ∧ s.dev.quadRuns e.val = true ∧
      s.dev.missWaits e.val = false ∧ (s.dev.engine e.val).sbFull = false ∧
      cmoIllegal (((s.dev.engine e.val).rg 0).extractLsb' 0 2) false (((s.dev.engine e.val).rg 0).getLsbD 3) (((s.dev.engine e.val).rg 0).getLsbD 4) 0 = false ∧
      ((s.dev.engine e.val).rg 0).getLsbD 2 = false) ∧ svcLine s.dev e.val = (d, .fails))
    ∧ (∃ s : State, ∃ e : Fin 24, ∃ d : Dev, ((s.dev.engine e.val).inService 1 = true ∧ s.dev.quadRuns e.val = true ∧
      s.dev.missWaits e.val = false ∧ (s.dev.engine e.val).sbFull = false ∧
      cmoIllegal (((s.dev.engine e.val).rg 0).extractLsb' 0 2) false (((s.dev.engine e.val).rg 0).getLsbD 3) (((s.dev.engine e.val).rg 0).getLsbD 4) 0 = false ∧
      ((s.dev.engine e.val).rg 0).getLsbD 2 = false) ∧ svcLine s.dev e.val = (d, .held))
    ∧ (∃ s : State, ∃ e : Fin 24, ((s.dev.engine e.val).inService 2 = true ∧ s.dev.quadRuns e.val = true ∧
      s.dev.missWaits e.val = false ∧ (s.dev.engine e.val).sbFull = false ∧ ((s.dev.engine e.val).rg 0).getLsbD 0 = true) ∧ ∃ vpn,
      vpn = 2 * waddr ((s.dev.engine e.val).ra 7) / 2 ^ granShift (s.dev.granOf (s.dev.engine e.val).cview).toNat)
    ∧ (∃ s : State, ∃ e : Fin 24, (s.dev.engine e.val).inService 3 = true ∧ s.dev.quadRuns e.val = true ∧
      s.dev.missWaits e.val = false ∧ s.dev.labsyncOver e.val = true) :=
  ⟨⟨(st (eng { engA with running := some 1, intrap := true, tcause := 3, tval := 0, call := some {}, cview := 1 })), 4, {},
    by decide +kernel, _, rfl⟩,
  ⟨(st (eng { engA with running := some 1, intrap := true, tcause := 3, tval := 1, call := some {}, cview := 1, g := [(0, 3)] })), 4,
    by decide +kernel⟩,
  ⟨(st (eng { engA with running := some 1, intrap := true, tcause := 3, tval := 1, call := some {}, cview := 1, g := [(0, 2)], a := [] })),
    4, _, ⟨2 ^ 34, { entry := some (9, 1) }⟩, by decide +kernel, (Prod.eta _).symm.trans (congrArg (Prod.mk _) (by decide +kernel))⟩,
  ⟨(st (eng { engA with running := some 1, intrap := true, tcause := 3, tval := 1, call := some {}, cview := 1, g := [(0, 2)], a := [(7, info (2 ^ 52))] })),
    4, _, by decide +kernel, rfl⟩,
  ⟨(st { eng { engA with running := some 1, intrap := true, tcause := 3, tval := 1, call := some {}, cview := 1, g := [(0, 2)], a := [] } with mem := ((Memory.undefined.writeLine 0 (0x01000014 <<< 32) false).writeLine 640 0x00040000 false) }),
    4, _, by decide +kernel, (Prod.eta _).symm.trans (congrArg (Prod.mk _) (by decide +kernel))⟩,
  ⟨(st (eng { engA with running := some 1, intrap := true, tcause := 3, tval := 2, call := some {}, cview := 1, g := [(0, 1)] })), 4,
    by decide +kernel, _, rfl⟩,
  ⟨(st (eng { engA with running := some 1, intrap := true, tcause := 3, tval := 3, call := some {}, cview := 1 })), 4,
    by decide +kernel⟩⟩

theorem witness_MailboxReports :
    (∃ s : State, ∃ b : Mbx, s.dev.mailboxOpen b = true)
    ∧ (∃ s : State, ∃ b : Mbx, s.dev.mailboxOpen b = true ∧ let p := b.port.val; let m := b.ld.val; let l := s.dev.ld p m;
      ∃ op : BitVec 16, mailboxOps.contains op.toNat = false)
    ∧ (∃ s : State, ∃ b : Mbx, s.dev.mailboxOpen b = true ∧ let p := b.port.val; let m := b.ld.val; let l := s.dev.ld p m; ∃ t : State,
      t.dev.mailboxOpen b = false) :=
  ⟨⟨(st svc), ⟨0, 0⟩, by decide +kernel⟩,
  ⟨(st svc), ⟨0, 0⟩, by decide +kernel, 0xFFFF, by decide +kernel⟩,
  ⟨(st svc), ⟨0, 0⟩, by decide +kernel, State.reset, by decide +kernel⟩⟩

theorem witness_MailboxChanges :
    (∃ s : State, ∃ b : Mbx, s.dev.mailboxOpen b = true ∧ let p := b.port.val; let m := b.ld.val; let l := s.dev.ld p m; ∃ n : Nat,
      n ≤ l.records.length)
    ∧ (∃ s : State, ∃ b : Mbx, s.dev.mailboxOpen b = true ∧ let p := b.port.val; let m := b.ld.val; let l := s.dev.ld p m; ∃ n : Nat,
      l.records.length < n)
    ∧ (∃ s : State, ∃ b : Mbx, s.dev.mailboxOpen b = true)
    ∧ (∃ s : State, ∃ b : Mbx, s.dev.mailboxOpen b = true ∧ let p := b.port.val; let m := b.ld.val; let l := s.dev.ld p m;
      ∃ v : BitVec 64, ∃ d, d = setStamp s.dev v)
    ∧ (∃ s : State, ∃ b : Mbx, s.dev.mailboxOpen b = true ∧ let p := b.port.val; let m := b.ld.val; let l := s.dev.ld p m;
      (s.dev.glob.fwRunning = true ∧ s.dev.q0Runs = true) ∧ ∃ va : Nat, ∃ dpa : Nat, s.dev.inService = true ∧
      s.dev.ldDpa p m va = some dpa)
    ∧ (∃ s : State, ∃ b : Mbx, s.dev.mailboxOpen b = true ∧ let p := b.port.val; let m := b.ld.val; let l := s.dev.ld p m;
      (s.dev.glob.fwRunning = true ∧ s.dev.q0Runs = true) ∧ ∃ va : Nat, s.dev.ldDpa p m va = none)
    ∧ (∃ s : State, ∃ b : Mbx, s.dev.mailboxOpen b = true ∧ let p := b.port.val; let m := b.ld.val; let l := s.dev.ld p m;
      (s.dev.glob.fwRunning = true ∧ s.dev.q0Runs = true) ∧ ∃ x : Extent, ∃ y : DcExtent,
      l.extents.find? (fun y => y.accepted && decide (y.base = x.base) && decide (y.pages = x.pages)) = some y)
    ∧ (∃ s : State, ∃ b : Mbx, s.dev.mailboxOpen b = true ∧ let p := b.port.val; let m := b.ld.val; let l := s.dev.ld p m;
      (s.dev.glob.fwRunning = true ∧ s.dev.q0Runs = true) ∧ ∃ x : Extent,
      l.extents.find? (fun y => y.accepted && decide (y.base = x.base) && decide (y.pages = x.pages)) = none)
    ∧ (∃ s : State, ∃ b : Mbx, s.dev.mailboxOpen b = true ∧ let p := b.port.val; let m := b.ld.val; let l := s.dev.ld p m;
      ∃ xs : List Extent, ∃ d, d = dcResponse s.dev p m xs) :=
  ⟨⟨(st { svc with ports := [(0, { portA with lds := [(0, { ldA with records := [⟨3, 0, 1, 2, 9, 0, 8⟩], extents := [⟨7, 65536, 1, 9, true, 1⟩] })] })] }),
    ⟨0, 0⟩, by decide +kernel, 1, by decide +kernel⟩,
  ⟨(st { svc with ports := [(0, { portA with lds := [(0, { ldA with records := [⟨3, 0, 1, 2, 9, 0, 8⟩], extents := [⟨7, 65536, 1, 9, true, 1⟩] })] })] }),
    ⟨0, 0⟩, by decide +kernel, 2, by decide +kernel⟩,
  ⟨(st svc), ⟨0, 0⟩, by decide +kernel⟩,
  ⟨(st svc), ⟨0, 0⟩, by decide +kernel, 1, _, rfl⟩,
  ⟨(st svc), ⟨0, 0⟩, by decide +kernel, by decide +kernel, 0, 17179869184, by decide +kernel⟩,
  ⟨(st { svc with glob := { svc.glob with tableBase := 1 } }), ⟨0, 0⟩, by decide +kernel, by decide +kernel, 0, by decide +kernel⟩,
  ⟨(st { svc with ports := [(0, { portA with lds := [(0, { ldA with records := [⟨3, 0, 1, 2, 9, 0, 8⟩], extents := [⟨7, 65536, 1, 9, true, 1⟩] })] })] }),
    ⟨0, 0⟩, by decide +kernel, by decide +kernel, ⟨65536, 1⟩, ⟨7, 65536, 1, 9, true, 1⟩, by decide +kernel⟩,
  ⟨(st { svc with ports := [(0, { portA with lds := [(0, { ldA with records := [⟨3, 0, 1, 2, 9, 0, 8⟩], extents := [⟨7, 65536, 1, 9, true, 1⟩] })] })] }),
    ⟨0, 0⟩, by decide +kernel, by decide +kernel, ⟨65536, 2⟩, by decide +kernel⟩,
  ⟨(st { svc with ports := [(0, { portA with lds := [(0, { ldA with records := [⟨3, 0, 1, 2, 9, 0, 8⟩], extents := [⟨7, 65536, 1, 9, true, 1⟩] })] })] }),
    ⟨0, 0⟩, by decide +kernel, [⟨65536, 1⟩], _, rfl⟩⟩

theorem witness_FirmwareCommands :
    (∃ s : State, ∃ b : Mbx, ∃ img : FwImage, (s.dev.mailboxOpen b = true ∧ s.dev.glob.fwRunning = true ∧ s.dev.q0Runs = true ∧
      s.dev.sec.committedNotBooted = false ∧ s.dev.sec.staging = none ∧ s.dev.sec.committing = none ∧ headerOk img = true ∧
      s.dev.sec.floor ≤ img.svn) ∧ ∃ d,
      d = s.dev.setSec (fun x => { x.setSlot (!x.namedSlot) {} with staging := some { slot := !x.namedSlot, img := img, old := (x.slot (!x.namedSlot)).digest, origin := BitVec.ofNat 16 (originField (.host b.port b.ld)) } }))
    ∧ (∃ s : State, ∃ b : Mbx, ∃ img : FwImage, (s.dev.mailboxOpen b = true ∧ s.dev.glob.fwRunning = true ∧ s.dev.q0Runs = true ∧
      s.dev.sec.committedNotBooted = false ∧ s.dev.sec.staging = none ∧ s.dev.sec.committing = none ∧ headerOk img = true ∧
      img.svn < s.dev.sec.floor) ∧ ∃ d, d = authFail s.dev 0 5 {} (originField (.host b.port b.ld)) false img.digest)
    ∧ (∃ s : State, ∃ b : Mbx, ∃ img : FwImage, s.dev.mailboxOpen b = true ∧ s.dev.glob.fwRunning = true ∧ s.dev.q0Runs = true ∧
      s.dev.sec.committedNotBooted = false ∧ s.dev.sec.staging = none ∧ s.dev.sec.committing = none ∧ headerOk img = false)
    ∧ (∃ s : State, ∃ b : Mbx, ∃ img : FwImage, s.dev.mailboxOpen b = true ∧ s.dev.glob.fwRunning = true ∧ s.dev.q0Runs = true ∧
      (s.dev.sec.committedNotBooted = true ∨ s.dev.sec.staging.isSome = true ∨ s.dev.sec.committing.isSome = true))
    ∧ (∃ s : State, ∃ t : Staging, (s.dev.sec.staging = some t ∧ s.dev.sec.signerHeld t.img = true ∧ s.dev.q0Runs = true) ∧ ∃ d,
      d = stageVerified s.dev true)
    ∧ (∃ s : State, ∃ t : Staging, ∃ ok : Bool, s.dev.sec.staging = some t ∧ (ok && s.dev.sec.signerHeld t.img) = false ∧
      s.dev.q0Runs = true)
    ∧ (∃ s : State, ∃ b : Mbx, s.dev.mailboxOpen b = true ∧ s.dev.glob.fwRunning = true ∧ s.dev.q0Runs = true ∧
      s.dev.sec.committedNotBooted = false ∧ s.dev.sec.staging = none ∧ s.dev.sec.committing = none ∧
      (s.dev.sec.slot (!s.dev.sec.namedSlot)).valid = true)
    ∧ (∃ s : State, ∃ w : Bool, ∃ o : BitVec 16, (s.dev.sec.committing = some (w, o) ∧ s.dev.q0Runs = true) ∧ ∃ d,
      d = fwCommitEntry (s.dev.setSec (fun x => { x.writeCommit w with committing := none, committedNotBooted := true })) 3 o.toNat) :=
  ⟨⟨(st svc), ⟨0, 0⟩, ⟨4096, 1, 0, false, 0⟩, by decide +kernel, _, rfl⟩,
  ⟨(st { svc with sec := { svc.sec with floor := 1 } }), ⟨0, 0⟩, ⟨4096, 1, 0, false, 0⟩, by decide +kernel, _, rfl⟩,
  ⟨(st svc), ⟨0, 0⟩, ⟨2 ^ 21 + 1, 1, 0, false, 0⟩, by decide +kernel⟩,
  ⟨(st { svc with sec := { svc.sec with committedNotBooted := true } }), ⟨0, 0⟩, ⟨4096, 1, 0, true, 0⟩, by decide +kernel⟩,
  ⟨(st { svc with sec := { svc.sec with staging := some ⟨true, ⟨4096, 1, 0, false, 0⟩, 0, 256⟩ } }), ⟨true, ⟨4096, 1, 0, false, 0⟩, 0,
    256⟩, by decide +kernel, _, rfl⟩,
  ⟨(st { svc with sec := { svc.sec with staging := some ⟨true, ⟨4096, 1, 0, true, 0⟩, 0, 256⟩ } }), ⟨true, ⟨4096, 1, 0, true, 0⟩, 0,
    256⟩, true, by decide +kernel⟩,
  ⟨(st { svc with sec := { svc.sec with slotB := { img := some ⟨4096, 1, 0, false, 0⟩, valid := true } } }), ⟨0, 0⟩, by decide +kernel⟩,
  ⟨(st { svc with sec := { svc.sec with committing := some (true, 0) } }), true, 0, by decide +kernel, _, rfl⟩⟩

theorem witness_PackageCommands :
    (∃ s : State, ∃ b : Mbx, ∃ e : BitVec 8, ∃ sig : Bool, s.dev.packageWay (some b) = true ∧ s.dev.sec.delivery = .idle)
    ∧ (∃ s : State, ∃ e : BitVec 8, ∃ sig : Bool, s.dev.packageWay none = true ∧ s.dev.sec.delivery = .idle)
    ∧ (∃ s : State, ∃ b : Mbx, ∃ e : BitVec 8, ∃ k : BitVec 8, ∃ sig : Bool, ∃ who : Option Mbx, s.dev.packageWay (some b) = true ∧
      s.dev.sec.delivery = .receiving who k ∧ who ≠ some b)
    ∧ (∃ s : State, ∃ e : BitVec 8, ∃ k : BitVec 8, ∃ sig : Bool, s.dev.packageWay none = true ∧
      s.dev.sec.delivery = .receiving none k ∧ k ≠ e)
    ∧ (∃ s : State, ∃ b : Mbx, ∃ e : BitVec 8, ∃ sig : Bool, s.dev.packageWay (some b) = true ∧ s.dev.sec.delivery = .checking)
    ∧ (∃ s : State, ∃ p : Package, ∃ q : Signed, ∃ b : Mbx, ∃ e : BitVec 8, ∃ k : BitVec 8, ∃ sig : Bool,
      s.dev.packageWay (some b) = true ∧ (Instr.packageDeliver (some b) e (some (p, q)) sig).wf = true ∧
      s.dev.sec.delivery = .receiving (some b) k)
    ∧ (∃ s : State, ∃ p : Package, ∃ q : Signed, ∃ b : Option Mbx, ∃ rest : List (SReq × Signed),
      s.dev.sec.requests = (.authorize b p true, q) :: rest ∧ (s.dev.sec.durable = none ∧ s.dev.q0Runs = true ∧
      (s.dev.glob.dev = .service ∨ s.dev.glob.dev = .held) ∧ s.dev.sec.installerKey ≠ none) ∧ s.dev.authVerifies p q = true ∧
      packageChecked p = true ∧ s.dev.sec.lastGen < p.generation ∧
      s.dev.sec.nonces.any (fun n => n.handle == q.handle && n.value == q.nonce) = true)
    ∧ (∃ s : State, ∃ p : Package, ∃ q : Signed, ∃ b : Mbx, ∃ sig : Bool, ∃ rest : List (SReq × Signed),
      s.dev.sec.requests = (.authorize (some b) p sig, q) :: rest ∧ (s.dev.sec.durable = none ∧ s.dev.q0Runs = true ∧
      (s.dev.glob.dev = .service ∨ s.dev.glob.dev = .held) ∧ s.dev.sec.delivery = .checking ∧
      s.dev.sec.nonces.any (fun n => n.handle == q.handle && n.value == q.nonce) = false) ∧ ∃ d, d = signatureVerified s.dev)
    ∧ (∃ s : State, ∃ p : Package, ∃ o : BitVec 16, (s.dev.sec.delivery = .writing p o ∧ s.dev.glob.dev ≠ .held ∧
      s.dev.q0Runs = true) ∧ ∃ d, d = packageCommitted s.dev true)
    ∧ (∃ s : State, ∃ p : Package, ∃ o : BitVec 16, (s.dev.sec.delivery = .writing p o ∧ s.dev.glob.dev ≠ .held ∧
      s.dev.q0Runs = true) ∧ ∃ d, d = packageCommitted s.dev true ∧ ∃ b, originMbx o = some b)
    ∧ (∃ s : State, ∃ p : Package, ∃ o : BitVec 16, (s.dev.sec.delivery = .writing p o ∧ s.dev.q0Runs = true) ∧ ∃ d,
      d = commitFails s.dev o)
    ∧ (∃ s : State, ∃ p : Package, ∃ o : BitVec 16, (s.dev.sec.delivery = .writing p o ∧ s.dev.q0Runs = true) ∧ ∃ d,
      d = commitFails s.dev o ∧ ∃ b, originMbx o = some b)
    ∧ (∃ s : State, ∃ b : Mbx, ∃ n : BitVec 256, s.dev.packageWay (some b) = true ∧ ∃ r, r = issueNonce s.dev n) :=
  ⟨⟨(st svc), ⟨0, 0⟩, 0, true, by decide +kernel⟩,
  ⟨(st svc), 8, true, by decide +kernel⟩,
  ⟨(st { svc with sec := { svc.sec with delivery := .receiving none 9 } }), ⟨0, 0⟩, 9, 9, true, none, by decide +kernel⟩,
  ⟨(st { svc with sec := { svc.sec with delivery := .receiving none 9 } }), 8, 9, true, by decide +kernel⟩,
  ⟨(st { svc with sec := { svc.sec with delivery := .checking } }), ⟨0, 0⟩, 0, true, by decide +kernel⟩,
  ⟨(st { svc with sec := { svc.sec with delivery := .receiving (some ⟨0, 0⟩) 0 } }), pkgA, (signA 0x93 1 0), ⟨0, 0⟩, 0, 0, true,
    by decide +kernel⟩,
  ⟨(st { svc with sec := { svc.sec with delivery := .checking, installer := some 1, nonces := [⟨3, 77⟩], requests := [(.authorize none pkgA true, signA 0x93 1 0)] } }),
    pkgA, (signA 0x93 1 0), none, [], rfl, by decide +kernel,
    show ((1 : BitVec 512) == 1 && sha512 (svc.signText 77 0x93 2 1 0) == sha512 (svc.signText 77 0x93 2 1 0)) = true from (by simp),
    by decide +kernel⟩,
  ⟨(st { svc with sec := { { svc.sec with delivery := .checking, installer := some 1, nonces := [⟨3, 77⟩], requests := [(.authorize (some ⟨0, 0⟩) pkgA true, signA 0x93 1 0)] } with nonces := [] } }),
    pkgA, (signA 0x93 1 0), ⟨0, 0⟩, true, [], rfl, by decide +kernel, _, rfl⟩,
  ⟨(st { svc with sec := { svc.sec with delivery := .writing pkgA 0 } }), pkgA, 0, by decide +kernel, _, rfl⟩,
  ⟨(st { svc with sec := { svc.sec with delivery := .writing pkgA 0 } }), pkgA, 0, by decide +kernel, _, rfl, ⟨0, 0⟩, by decide +kernel⟩,
  ⟨(st { svc with sec := { svc.sec with delivery := .writing pkgA 0 } }), pkgA, 0, by decide +kernel, _, rfl⟩,
  ⟨(st { svc with sec := { svc.sec with delivery := .writing pkgA 0 } }), pkgA, 0, by decide +kernel, _, rfl, ⟨0, 0⟩, by decide +kernel⟩,
  ⟨(st svc), ⟨0, 0⟩, 99, by decide +kernel, _, rfl⟩⟩

theorem witness_FmDoeAndSpdmCommands :
    (∃ s : State, ∃ p : Fin 8, s.dev.portUp p.val = true ∧ s.dev.glob.resetPhase = .none)
    ∧ (∃ s : State, ∃ p : Fin 8, (s.dev.portUp p.val = true ∧ s.dev.glob.resetPhase = .none) ∧ ∃ sh : List (BitVec 8), sh.length = 16 ∧
      ∃ d, d = setShares s.dev p.val sh)
    ∧ (∃ s : State, ∃ p : Fin 8, (s.dev.portUp p.val = true ∧ s.dev.glob.resetPhase = .none) ∧ ∃ sh : List (BitVec 8), sh.length = 16 ∧
      ∃ d, d = setShares s.dev p.val sh ∧ ∃ m, s.dev.ldsOf p.val ≤ m)
    ∧ (∃ s : State, ∃ p : Fin 8, (s.dev.portUp p.val = true ∧ s.dev.glob.resetPhase = .none) ∧ ∃ sh : List (BitVec 8), sh.length = 16 ∧
      ∃ d, d = setShares s.dev p.val sh ∧ ∃ n, n ≠ p.val)
    ∧ (∃ s : State, ∃ p : Fin 8, ∃ i : BitVec 8, s.dev.doeOpen p.val = true)
    ∧ (∃ s : State, ∃ b : Mbx, s.dev.doeOpen b.port.val = true ∧ s.dev.ldPresent b.port.val b.ld.val = true)
    ∧ (∃ s : State, (s.dev.spdmWay .mctp = true ∧ s.dev.sec.spdm = []) ∧ ∃ d1, ∃ d2, ∃ d3, ∃ d4, d1 = spdmRequest s.dev ⟨.mctp, 0x84,
      [], false⟩ ∧ d2 = spdmRequest s.dev ⟨.mctp, 0xE1, [], false⟩ ∧ d3 = spdmRequest s.dev ⟨.mctp, 0xE3, [], false⟩ ∧
      d4 = spdmRequest s.dev ⟨.mctp, 0x81, [], false⟩)
    ∧ (∃ s : State, ∃ slot : BitVec 4, (s.dev.spdmWay .mctp = true ∧ s.dev.sec.spdm = []) ∧ ∃ d, d = spdmRequest s.dev ⟨.mctp, 0x82,
      [slot.toNat], false⟩)
    ∧ (∃ s : State, ∃ f : SpdmSrc, ∃ slot : BitVec 4, ∃ n : BitVec 256, s.dev.spdmWay f = true ∧ s.dev.sec.spdm = [] ∧ slot.toNat < 2)
    ∧ (∃ s : State, ∃ i : BitVec 8, ∃ slot : BitVec 4, (s.dev.spdmWay .mctp = true ∧ s.dev.sec.spdm = [] ∧ i.toNat ≤ 9) ∧ ∃ d,
      d = spdmRequest s.dev ⟨.mctp, 0xE0, [i.toNat, slot.toNat, 0], false⟩)
    ∧ (∃ s : State, ∃ c : Nat, ∃ args : List Nat, (s.dev.q0Runs = true ∧ s.dev.sec.spdm = [⟨.mctp, c, args, true⟩]) ∧ ∃ d,
      d = spdmSigned s.dev) :=
  ⟨⟨(st svc), 0, by decide +kernel⟩,
  ⟨(st svc), 0, by decide +kernel, (List.replicate 16 3), by decide +kernel, _, rfl⟩,
  ⟨(st svc), 0, by decide +kernel, (List.replicate 16 3), by decide +kernel, _, rfl, 15, by decide +kernel⟩,
  ⟨(st svc), 0, by decide +kernel, (List.replicate 16 3), by decide +kernel, _, rfl, 7, by decide +kernel⟩,
  ⟨(st svc), 0, 0, by decide +kernel⟩,
  ⟨(st svc), ⟨0, 0⟩, by decide +kernel⟩,
  ⟨(st svc), by decide +kernel, _, _, _, _, rfl, rfl, rfl, rfl⟩,
  ⟨(st svc), 2, by decide +kernel, _, rfl⟩,
  ⟨(st svc), .mctp, 1, 5, by decide +kernel⟩,
  ⟨(st svc), 9, 0, by decide +kernel, _, rfl⟩,
  ⟨(st { svc with sec := { svc.sec with spdm := [⟨.mctp, 0x83, [1, 5], true⟩] } }), 0x83, [1, 5], by decide +kernel, _, rfl⟩⟩

theorem witness_SignedRequestCommands :
    (∃ s : State, ∃ n : BitVec 256, (s.dev.glob.fwRunning = true ∧ s.dev.q0Runs = true ∧ s.dev.glob.resetPhase = .none) ∧ ∃ r,
      r = issueNonce s.dev n)
    ∧ (∃ s : State, ∃ q : Signed, ∃ key : BitVec 512, ∃ bank : BitVec 4, ∃ t : Fin 8, ∃ es : List BistEntry, ∃ f : BitVec 7,
      ∃ ok : Option (BitVec 512), ∃ b : BitVec 6, ∃ w : Bool, s.dev.glob.fwRunning = true ∧ s.dev.q0Runs = true ∧
      s.dev.glob.resetPhase = .none)
    ∧ (∃ s : State, ∃ r : SReq, ∃ y : Durable, ∃ q : Signed, ∃ rest : List (SReq × Signed), r.change = some y ∧
      s.dev.sec.requests = (r, q) :: rest ∧ (s.dev.sec.durable = none ∧ s.dev.q0Runs = true ∧
      s.dev.sec.nonces.any (fun n => n.handle == q.handle && n.value == q.nonce) = true) ∧ s.dev.verifies r q = true ∧
      r.allowedIn s.dev.glob.dev = true ∧ (∀ f, r = .floorRaise f → s.dev.sec.floor < f ∧ s.dev.sec.floorFuse < f ∧ f.toNat ≤ 64))
    ∧ (∃ s : State, ∃ r : SReq, ∃ q : Signed, ∃ rest : List (SReq × Signed), ∃ current : Bool, ∃ ok : Bool, ∃ who : Signer,
      r.change ≠ none ∧ s.dev.sec.requests = (r, q) :: rest ∧ (s.dev.sec.durable = none ∧ s.dev.q0Runs = true) ∧
      current = s.dev.sec.nonces.any (fun n => n.handle == q.handle && n.value == q.nonce) ∧ ok = s.dev.verifies r q ∧
      s.dev.refusal r current ok ≠ 0 ∧ who = (if ok then { role := r.role, keyid := keyId (s.dev.roleKey r.role) } else {}) ∧ ∃ d,
      d = authFail (s.dev.setSec (fun x => { x with nonces := x.nonces.filter (fun n => n.handle != q.handle), requests := rest })) r.code (s.dev.refusal r current ok) who (originField .mgmt) true (signedDigest q (s.dev.requestText r q)))
    ∧ (∃ d : Dev, ∃ r : SReq, ∃ sig : Bool, d.roleKey r.role = none)
    ∧ (∃ d : Dev, ∃ r : SReq, ∃ sig : Bool, d.roleKey r.role ≠ none)
    ∧ (∃ d : Dev, ∃ r : SReq, ∃ sig : Bool, d.roleKey r.role ≠ none ∧ r.allowedIn d.glob.dev = false) :=
  ⟨⟨(st svc), 9, by decide +kernel, _, rfl⟩,
  ⟨(st svc), (signA 0 0 0), 1, 15, 7, [], 1, none, 63, false, by decide +kernel⟩,
  ⟨(st { svc with sec := { svc.sec with requests := [(.fwauth (some 5), signA 0x91 0 5)], installer := some 1, nonces := [⟨3, 77⟩] } }),
    (.fwauth (some 5)), (.keySet false (some 5)), (signA 0x91 0 5), [], by decide +kernel, rfl, by decide +kernel,
    show ((1 : BitVec 512) == 1 && sha512 (svc.signText 77 0x91 2 0 5) == sha512 (svc.signText 77 0x91 2 0 5)) = true from (by simp),
    by decide +kernel, fun _ h => nomatch h⟩,
  ⟨(st { svc with sec := { svc.sec with requests := [(.fwauth (some 5), signA 0x91 0 5)], installer := some 1, nonces := [⟨2, 77⟩] } }),
    (.fwauth (some 5)), (signA 0x91 0 5), [], _, _, _, by decide +kernel, rfl, by decide +kernel, rfl, rfl, by decide +kernel, rfl, _,
    rfl⟩,
  ⟨svc, (.fwauth none), true, by decide +kernel⟩,
  ⟨{ svc with sec := { svc.sec with installer := some 1 } }, (.fwauth none), true, by decide +kernel⟩,
  ⟨{ svc with glob := { svc.glob with dev := .test }, sec := { svc.sec with installer := some 1 } }, (.fwauth none), true,
    by decide +kernel⟩⟩

theorem witness_DurableAndMirroredState :
    (∃ s : State, ∃ f : BitVec 7, (s.dev.sec.durable = some (.floor f) ∧ s.dev.q0Runs = true ∧
      s.dev.sec.mirrored ≤ s.dev.sec.nextSeq) ∧ ∃ d, d = durableWritten s.dev true)
    ∧ (∃ s : State, ∃ k : BitVec 512, (s.dev.sec.durable = some (.keySet true (some k)) ∧ s.dev.q0Runs = true ∧
      s.dev.sec.mirrored ≤ s.dev.sec.nextSeq) ∧ ∃ d, d = durableWritten s.dev true)
    ∧ (∃ s : State, ∃ x : Durable, (s.dev.sec.durable = some x ∧ s.dev.durableHeld x = false ∧ s.dev.q0Runs = true) ∧ ∃ d,
      d = durableWritten s.dev false)
    ∧ (∃ s : State, ∃ n : Nat, s.dev.q0Runs = true ∧ ∃ d, d = s.dev.setSec (fun x => x.mirrorNext n))
    ∧ (∃ s : State, ∃ n : Nat, s.dev.q0Runs = true ∧ ∃ d, d = s.dev.setSec (fun x => x.mirrorNext n) ∧ n = 0)
    ∧ (∃ s : State, ∃ n : Nat, s.dev.q0Runs = true ∧ ∃ d, d = s.dev.setSec (fun x => x.mirrorNext n) ∧
      s.dev.sec.mirrored ≤ s.dev.sec.nextSeq ∧ (∀ i e, Tab.find s.dev.sec.journal i = some e → e.seq ≤ s.dev.sec.nextSeq))
    ∧ (∃ s : State, ∃ n : Nat, s.dev.q0Runs = true)
    ∧ (∃ s : State, (s.dev.resync.busy = true ∧ s.dev.q0Runs = true ∧ s.dev.glob.resetPhase = .none ∧ s.dev.resync.pending = false) ∧
      ∃ d, d = snapshotDone s.dev)
    ∧ (∃ s : State, (s.dev.resync.busy = true ∧ s.dev.q0Runs = true ∧ s.dev.glob.resetPhase = .none ∧ s.dev.resync.pending = false) ∧
      ∃ d, d = snapshotDone s.dev ∧ s.dev.resync.seq ≠ BitVec.allOnes 17)
    ∧ (∃ s : State, (s.dev.resync.busy = true ∧ s.dev.q0Runs = true ∧ s.dev.glob.resetPhase = .none ∧ s.dev.resync.pending = true) ∧
      ∃ d, d = snapshotDone s.dev) :=
  ⟨⟨(st { svc with sec := { svc.sec with durable := some (.floor 64) } }), 64, by decide +kernel, _, rfl⟩,
  ⟨(st { svc with sec := { svc.sec with durable := some (.keySet true (some 5)) } }), 5, by decide +kernel, _, rfl⟩,
  ⟨(st { svc with sec := { svc.sec with durable := some (.floor 64) } }), (.floor 64), by decide +kernel, _, rfl⟩,
  ⟨(st { svc with sec := { svc.sec with journal := [(4, { seq := 4, time := 0, role := 1, action := 12, origin := 0, target := 0, gen := 0, keyid := 0, flags := 0, old := 0, new := 0 })], mirrored := 3, nextSeq := 4 } }),
    9, by decide +kernel, _, rfl⟩,
  ⟨(st { svc with sec := { svc.sec with journal := [(4, { seq := 4, time := 0, role := 1, action := 12, origin := 0, target := 0, gen := 0, keyid := 0, flags := 0, old := 0, new := 0 })], mirrored := 3, nextSeq := 4 } }),
    0, by decide +kernel, _, rfl, by decide +kernel⟩,
  ⟨(st { svc with sec := { svc.sec with journal := [(4, { seq := 4, time := 0, role := 1, action := 12, origin := 0, target := 0, gen := 0, keyid := 0, flags := 0, old := 0, new := 0 })], mirrored := 3, nextSeq := 4 } }),
    9, by decide +kernel, _, rfl, by decide +kernel, by intro i e h; simp [st, Tab.find] at h; obtain ⟨_, rfl⟩ := h; decide⟩,
  ⟨(st svc), 1, by decide +kernel⟩,
  ⟨(st { svc with resync := { svc.resync with busy := true } }), by decide +kernel, _, rfl⟩,
  ⟨(st { svc with resync := { svc.resync with busy := true } }), by decide +kernel, _, rfl, by decide +kernel⟩,
  ⟨(st { svc with resync := { svc.resync with busy := true, pending := true } }), by decide +kernel, _, rfl⟩⟩

theorem witness_TestAndManagementPorts :
    (∃ s : State, (s.dev.domOn 1 = true ∧ s.dev.glob.rstHigh = true) ∧ ∃ a : BitVec 7, s.dev.mgt.dynAddr = none)
    ∧ (∃ s : State, (s.dev.domOn 1 = true ∧ s.dev.glob.rstHigh = true) ∧ ∃ a : BitVec 7, s.dev.mgt.dynAddr = none ∧ ∃ x,
      x ≠ s.dev.i3cStatic)
    ∧ (∃ s : State, (s.dev.domOn 1 = true ∧ s.dev.glob.rstHigh = true) ∧ ∃ a : BitVec 7, s.dev.mgt.dynAddr ≠ none)
    ∧ (∃ s : State, s.dev.domOn 1 = true ∧ s.dev.glob.rstHigh = true)
    ∧ (∃ s : State, ∃ a : BitVec 7, s.dev.glob.rstHigh = false)
    ∧ (∃ s : State, s.dev.glob.supplies = true)
    ∧ (∃ s : State, s.dev.glob.supplies = true ∧ let loaded (n : Nat) : Dev := { s.dev with mgt := { s.dev.mgt with jtag := n } };
      ∃ c : BitVec 64, ∃ d : Dev, d = samplePreload s.dev c)
    ∧ (∃ s : State, s.dev.glob.supplies = true ∧ let loaded (n : Nat) : Dev := { s.dev with mgt := { s.dev.mgt with jtag := n } };
      s.dev.glob.rstHigh = false)
    ∧ (∃ s : State, s.dev.glob.supplies = true ∧ let loaded (n : Nat) : Dev := { s.dev with mgt := { s.dev.mgt with jtag := n } };
      s.dev.glob.rstHigh = true)
    ∧ (∃ d : Dev, ∃ k : Fin 3, d.glob.supplies = true ∧ d.glob.rstHigh = false ∧ 3 ≤ d.mgt.jtag)
    ∧ (∃ d : Dev, ∃ k : Fin 3, d.glob.supplies = true ∧ d.glob.rstHigh = true)
    ∧ (∃ d : Dev, ∃ k : Fin 3, d.glob.supplies = true ∧ d.glob.rstHigh = false ∧ d.mgt.jtag < 3) :=
  ⟨⟨(st svc), by decide +kernel, 0x7F, by decide +kernel⟩,
  ⟨(st svc), by decide +kernel, 0x7F, by decide +kernel, 0x51, by decide +kernel⟩,
  ⟨(st { svc with mgt := { svc.mgt with dynAddr := some 9 } }), by decide +kernel, 0x7F, by decide +kernel⟩,
  ⟨(st svc), by decide +kernel⟩,
  ⟨(st ({ svc with glob := { svc.glob with supplies := true, rstHigh := false }, mgt := { svc.mgt with jtag := 1 } })), 9,
    by decide +kernel⟩,
  ⟨(st svc), by decide +kernel⟩,
  ⟨(st svc), by decide +kernel, 1, _, rfl⟩,
  ⟨(st { svc with glob := { svc.glob with rstHigh := false } }), by decide +kernel, by decide +kernel⟩,
  ⟨(st svc), by decide +kernel, by decide +kernel⟩,
  ⟨{ svc with glob := { svc.glob with supplies := true, rstHigh := false }, mgt := { svc.mgt with jtag := 3 } }, 2, by decide +kernel⟩,
  ⟨{ svc with glob := { svc.glob with supplies := true, rstHigh := true }, mgt := { svc.mgt with jtag := 3 } }, 2, by decide +kernel⟩,
  ⟨{ svc with glob := { svc.glob with supplies := true, rstHigh := false }, mgt := { svc.mgt with jtag := 1 } }, 0, by decide +kernel⟩⟩

end Sys2Proof.Tests
end

section
/-! Proofs of the statements on engine instructions (09_fuvos_engines.md): what a ready engine runs, the immediate and the
address register instructions, completing in user mode, and trap entry. -/

open Sys2Proof

namespace Sys2Proof.Machine

-- what a ready engine runs

/-- R277: a good word is fetched as it stands. -/
theorem fetchCheck_of_good {d : Dev} {e i : Nat} {c : Ecc} (h : eccWith c (Tab.get 0 (d.engine e).imemBad i) = .ok) (ok : Dev → Dev) :
    fetchCheck d e i c ok = ok d := by
  rw [fetchCheck, h]

/-- R249: where no undefined word was fetched, the row's own encoding was. -/
theorem fetchedWord_of_defined {x : Env} (h : x.raw.any undefinedWord = false) (row : Word) : fetchedWord x row = row := by
  unfold fetchedWord
  split
  case h_1 w hw => exact if_neg (by simpa [hw] using h)
  case h_2 => rfl

/-- R268: nothing comes before the instruction of a ready engine but its own ILLEGAL and PRIV. -/
theorem runInstr_of_ready {d : Dev} {x : Env} (h : d.ready x) (row : Word) (illegal priv : Bool) (body : Dev → Dev) :
    runInstr d x row illegal priv body =
      if illegal then trapHere d x.e.val 1 (row.setWidth 54)
      else if priv && !(d.engine x.e.val).sup then trapHere d x.e.val 2 (row.setWidth 54)
      else body d := by
  obtain ⟨hst, hwait, hfault, hbudget, hfetch, hbound, hquad, hext, hraw⟩ := h
  have hdue : ((d.engine x.e.val).budgetDue && !(d.engine x.e.val).sup) = false := by
    cases hb : (d.engine x.e.val).budgetDue
    · rfl
    · simp [hbudget hb]
  have hin : (!(d.engine x.e.val).sup && decide ((d.engine x.e.val).pc.toNat < 16 * (d.engine x.e.val).iubase.toNat)) = false := by
    cases hs : (d.engine x.e.val).sup
    · simpa [hs] using hbound
    · rfl
  simp only [runInstr, fetchedWord_of_defined hraw, hst, hwait, hquad, hfault, hdue, fetchCheck_of_good hfetch,
    fetchCheck_of_good hext, hin]
  simp

/-- A legal local instruction of a ready engine rewrites the engine and completes. -/
theorem runLocal_of_ready {s : State} {x : Env} {f g : Engine → Engine} {illegal : Bool} (h : s.dev.ready x)
    (hlegal : illegal = false) (hfg : ∀ y, f y = g y) (word : Word) (len : Nat) :
    runLocal x word illegal false len f s = .next (s.turned (advance (s.dev.updEngine x.e.val g) x.e.val len)) := by
  obtain rfl : f = g := funext hfg
  rw [runLocal, onDevice_turned, runInstr_of_ready h, hlegal]
  rfl

/-- An illegal local instruction of a ready engine traps with its own word. -/
theorem runLocal_illegal_of_ready {s : State} {x : Env} {illegal : Bool} (h : s.dev.ready x) (hill : illegal = true) (word : Word)
    (len : Nat) (f : Engine → Engine) :
    runLocal x word illegal false len f s = .next (s.turned (trapHere s.dev x.e.val 1 (word.setWidth 54))) := by
  rw [runLocal, onDevice_turned, runInstr_of_ready h, hill]
  rfl

/-- An even register names a pair. -/
theorem odd_eq_false {k : Nat} (h : k % 2 = 0) : odd k = false := by simp [odd, h]

-- immediates (R252)

/-- ADD as its sum and the flags of ALU function 1. -/
theorem addFlags_noCarry {w : Nat} (f : BitVec 6) (a b : BitVec w) (n : Nat) :
    addFlags f a b false = (a + b, (aluFn 1 f a b n).2) := by
  refine Prod.ext ?_ rfl
  apply BitVec.eq_of_toNat_eq
  simp [addFlags, carryIn, BitVec.toNat_add]

/-- ALU functions 8 to 11 are the four shift types. -/
theorem aluFn_shift {w t : Nat} (ht : t < 4) (f : BitVec 6) (d s : BitVec w) (n : Nat) :
    aluFn (8 + t) f d s n = (some (shiftFlags t f d n).1, (shiftFlags t f d n).2) := by
  match t, ht with
  | 0, _ => rfl
  | 1, _ => rfl
  | 2, _ => rfl
  | 3, _ => rfl

theorem shType_eq (i : ImmI) : shType i = i.imm7.toNat / 32 := by
  have := i.imm7.isLt
  simp only [shType, bits]
  omega

theorem shAmount_eq (i : ImmI) : shAmount i = i.imm7.toNat % 32 := by
  simp [shAmount, bits]

theorem shType_lt (i : ImmI) : shType i < 4 := by
  have := i.imm7.isLt
  rw [shType_eq]
  omega

/-- The shift SHI writes back is that of its ALU function. -/
theorem takeWord_shift (i : ImmI) (k : Nat) (y : Engine) :
    y.takeWord k (shiftFlags (shType i) y.flags (y.rg k) (shAmount i)) =
      (let t := aluFn (8 + i.imm7.toNat / 32) y.flags (y.rg k) (y.rg k) (i.imm7.toNat % 32)
       { (match t.1 with | some v => y.setG k v | none => y) with flags := t.2 }) := by
  rw [← shType_eq, ← shAmount_eq, aluFn_shift (shType_lt i)]
  rfl

/-- The shift SHIP writes back is that of its ALU function. -/
theorem takePair_shift (i : ImmI) (k : Nat) (y : Engine) :
    y.takePair k (shiftFlags (shType i) y.flags (y.rp k) (shAmount i)) =
      (let t := aluFn (8 + i.imm7.toNat / 32) y.flags (y.rp k) (y.rp k) (i.imm7.toNat % 32)
       { (match t.1 with | some v => y.setP k v | none => y) with flags := t.2 }) := by
  rw [← shType_eq, ← shAmount_eq, aluFn_shift (shType_lt i)]
  rfl

theorem ImmI.x_eq_false {i : ImmI} (h : i.ext = none) : i.x = false := by simp [ImmI.x, h]

/-- Settles O26: each form is a local instruction, legal under its hypotheses. -/
theorem arithmeticInstructions : Obligations.ArithmeticInstructions := by
  unfold Obligations.ArithmeticInstructions
  refine ⟨fun s x d i hr hok => ?_, fun s x d i hr hok hd => ?_, fun s x d i hr hx hn => ?_, fun s x d i hr hx hn => ?_,
    fun s x d i hr hx hd => ?_, fun m w => ⟨rfl, rfl⟩⟩
  case refine_1 =>
    have hlegal : (!i.ok) = false := by simp [hok]
    exact ⟨runLocal_of_ready hr hlegal (fun _ => rfl) _ _,
      runLocal_of_ready hr hlegal (fun _ => by rw [addFlags_noCarry _ _ _ 0]; rfl) _ _,
      runLocal_of_ready hr hlegal (fun _ => rfl) _ _, runLocal_of_ready hr hlegal (fun _ => rfl) _ _,
      runLocal_of_ready hr hlegal (fun _ => rfl) _ _, runLocal_of_ready hr hlegal (fun _ => rfl) _ _⟩
  case refine_2 =>
    have hlegal : (!i.ok || odd d.val) = false := by simp [hok, odd_eq_false hd]
    exact ⟨runLocal_of_ready hr hlegal (fun _ => rfl) _ _,
      runLocal_of_ready hr hlegal (fun _ => by rw [addFlags_noCarry _ _ _ 0]; rfl) _ _,
      runLocal_of_ready hr hlegal (fun _ => rfl) _ _⟩
  case refine_3 =>
    have hlegal : (i.x || decide (18 ≤ shAmount i)) = false := by simp [ImmI.x_eq_false hx, shAmount_eq, hn]
    exact runLocal_of_ready hr hlegal (takeWord_shift i d.val) _ _
  case refine_4 =>
    have hill : (i.x || decide (18 ≤ shAmount i)) = true := by simp [shAmount_eq, hn]
    exact runLocal_illegal_of_ready hr hill _ _ _
  case refine_5 =>
    have hlegal : (i.x || odd d.val) = false := by simp [ImmI.x_eq_false hx, odd_eq_false hd]
    exact runLocal_of_ready hr hlegal (takePair_shift i d.val) _ _

-- address registers (R242, R255)

theorem frameIn_eq (y : Engine) (g : Nat) :
    y.frameIn g = (y.rg (g + 1)).toNat % 2 ^ 8 * 2 ^ 16 + (y.rg g).toNat % 2 ^ 16 := by
  simp [Engine.frameIn, bits]

/-- R242: moving an address never changes its space code. -/
@[simp] theorem spaceOf_moveAddr (v : Info) (k : Int) : spaceOf (moveAddr v k) = spaceOf v := by
  unfold spaceOf moveAddr
  rw [BitVec.extractLsb'_append_eq_of_le (by decide)]
  simp

/-- R242: moving an address wraps modulo 2^52. -/
theorem waddr_moveAddr (v : Info) (k : Int) : (waddr (moveAddr v k) : Int) = ((waddr v : Int) + k) % 2 ^ 52 := by
  have happ : (moveAddr v k).extractLsb' 0 52 = v.extractLsb' 0 52 + BitVec.ofInt 52 k := by
    unfold moveAddr
    rw [BitVec.extractLsb'_append_eq_of_add_le (by decide)]
    simp
  unfold waddr
  rw [happ, BitVec.toNat_add, Int.natCast_emod, Int.natCast_add, BitVec.toNat_ofInt]
  have : 0 ≤ k % (2 ^ 52 : Nat) := Int.emod_nonneg _ (by decide)
  rw [Int.toNat_of_nonneg this]
  simp

/-- Settles O27: each form is a local instruction, legal under its hypotheses. -/
theorem addressRegisterInstructions : Obligations.AddressRegisterInstructions := by
  unfold Obligations.AddressRegisterInstructions
  refine ⟨fun s x hr => ?_, fun v k => ⟨spaceOf_moveAddr v k, waddr_moveAddr v k⟩⟩
  have hthree : ∀ g : Fin 16, g.val ≤ 13 → decide (13 < g.val) = false := fun g hg => by simp [hg]
  refine ⟨fun a g hg => ?aput, fun a g hg => ?aget, fun a m => ?amov, fun a g => ?aaddw, fun a g hg => ?aaddp, fun a m => ?acmp,
    fun a n => ?aspc, fun a g hg => ?afrm, fun a g hg => ?atbl, fun a i hi => ?aaddi, fun a sp i hi => ?ali⟩
  case aput => exact runLocal_of_ready hr (hthree g hg) (fun _ => rfl) _ _
  case aget => exact runLocal_of_ready hr (hthree g hg) (fun _ => rfl) _ _
  case amov => exact runLocal_of_ready hr rfl (fun _ => rfl) _ _
  case aaddw => exact runLocal_of_ready hr rfl (fun _ => rfl) _ _
  case aaddp => exact runLocal_of_ready hr (odd_eq_false hg) (fun _ => rfl) _ _
  case acmp => exact runLocal_of_ready hr rfl (fun _ => rfl) _ _
  case aspc => exact runLocal_of_ready hr rfl (fun _ => rfl) _ _
  case afrm => exact runLocal_of_ready hr (odd_eq_false hg) (fun y => by rw [frameIn_eq]; rfl) _ _
  case atbl => exact runLocal_of_ready hr (odd_eq_false hg) (fun y => by rw [frameIn_eq]) _ _
  case aaddi => exact runLocal_of_ready hr (by simp [hi]) (fun _ => rfl) _ _
  case ali => exact runLocal_of_ready hr (by simp [hi]) (fun _ => rfl) _ _

-- completing in user mode (R248)

/-- What spending the budget leaves alone. -/
@[simp] theorem Engine.spend_frame (y : Engine) :
    y.spend.g = y.g ∧ y.spend.a = y.a ∧ y.spend.flags = y.flags ∧ y.spend.sup = y.sup ∧ y.spend.sb = y.sb := by
  unfold Engine.spend
  split <;> simp

theorem Engine.spend_of_idle {y : Engine} (h : y.sup = true ∨ y.budget = 0) : y.spend = y :=
  if_pos (by simpa using h)

theorem Engine.spend_of_user {y : Engine} (hs : y.sup = false) (hb : y.budget ≠ 0) :
    y.spend = { y with budget := y.budget - 1, budgetDue := y.budgetDue || y.budget == 1 } :=
  if_neg (by simpa [hs] using hb)

/-- R248: in user mode a due BUDGET trap comes before the instruction. -/
theorem runInstr_of_budgetDue {d : Dev} {x : Env} (hst : d.engSt x.e.val = .running) (hwait : (d.engine x.e.val).wait = .none)
    (hquad : d.quadRuns x.e.val = true) (hfault : (d.engine x.e.val).fault = none) (hdue : (d.engine x.e.val).budgetDue = true)
    (hsup : (d.engine x.e.val).sup = false) (row : Word) (illegal priv : Bool) (body : Dev → Dev) :
    runInstr d x row illegal priv body =
      trap (d.updEngine x.e.val (fun y => { y with budgetDue := false })) x.e.val 17 (d.engine x.e.val).pc 0 := by
  simp [runInstr, hst, hwait, hquad, hfault, hdue, hsup]

/-- R248: a user instruction that spends the last of the budget makes the BUDGET trap due. -/
theorem Engine.spend_due {y : Engine} (hs : y.sup = false) (hb : y.budget ≠ 0) (hz : y.spend.budget = 0) :
    y.spend.budgetDue = true := by
  rw [Engine.spend_of_user hs hb] at hz ⊢
  have hone : y.budget = 1 := by
    dsimp only at hz
    bv_omega
  simp [hone]

/-- Completing in place is a jump to the next instruction. -/
theorem advance_eq_jumpTo (d : Dev) (e len : Nat) : advance d e len = jumpTo d e ((d.engine e).pc + BitVec.ofNat 14 len) := rfl

/-- R240: zero in both halves is a budget of zero. -/
theorem statusWrite_budget_zero (y : Engine) : (statusWrite (statusWrite y 0x0E 0) 0x0F 0).budget = 0 := by
  have hlow : (y.budget.extractLsb' 18 18 ++ 0#18).extractLsb' 0 18 = 0#18 := by
    rw [BitVec.extractLsb'_append_eq_of_add_le (by decide)]
    simp
  show 0#18 ++ (y.budget.extractLsb' 18 18 ++ 0#18).extractLsb' 0 18 = 0#36
  rw [hlow]
  rfl

/-- Settles O29: completing is a jump, whose engine has spent its budget; a due trap is taken first. -/
theorem userInstructionsSpendBudget : Obligations.UserInstructionsSpendBudget := by
  unfold Obligations.UserInstructionsSpendBudget
  refine ⟨fun d e pc after hafter => ?_, fun s x fn dst src hst hwait hfault hdue hsup hquad => ?_,
    fun y => ⟨statusWrite_budget_zero y, rfl⟩⟩
  · obtain rfl : after = jumpTo d e pc := by
      rcases hafter with h | ⟨len, rfl, h⟩
      · exact h
      · exact h.trans (advance_eq_jumpTo d e len)
    have hother : ∀ k, k ≠ e → (jumpTo d e pc).engine k = d.engine k := fun k hk => Dev.engine_updEngine_other d _ hk
    simp only [jumpTo_engine, Engine.spend_frame, true_and]
    exact ⟨fun h => by simp [Engine.spend_of_idle h],
      fun hs hb => ⟨by rw [Engine.spend_of_user hs hb], Engine.spend_due hs hb⟩, hother⟩
  · show runLocal x _ _ _ _ _ s = _
    rw [runLocal, onDevice_turned, runInstr_of_budgetDue hst hwait hquad hfault hdue hsup]

-- trap entry (R267, R269, R271)

/-- A line's drain takes the line out of the combining buffer. -/
theorem Engine.drainLine_nt (y : Engine) (line : Nat) : (y.drainLine line).nt = y.nt.filter (fun l => !decide (l.line = line)) := by
  unfold Engine.drainLine
  split
  case h_1 => rfl
  case h_2 hnone =>
    refine (List.filter_eq_self.mpr fun l hl => ?_).symm
    simpa using List.find?_eq_none.mp hnone l hl

/-- A line's drain writes the combining buffer, the store buffer behind its entries, and the next entry's number. -/
theorem Engine.drainLine_eq (y : Engine) (line : Nat) :
    ∃ nt bs n, y.drainLine line = { y with nt := nt, sb := y.sb ++ bs, nextSb := n } := by
  unfold Engine.drainLine
  split
  case h_1 => exact ⟨_, _, _, rfl⟩
  case h_2 => exact ⟨y.nt, [], y.nextSb, by simp⟩

theorem Engine.foldl_drainLine_nt (ls : List Nat) (y : Engine) :
    (ls.foldl Engine.drainLine y).nt = y.nt.filter (fun l => !decide (l.line ∈ ls)) := by
  induction ls generalizing y with
  | nil => simp
  | cons a ls ih =>
    rw [List.foldl_cons, ih, Engine.drainLine_nt, List.filter_filter]
    refine List.filter_congr fun l _ => ?_
    simp [Bool.and_comm]

theorem Engine.foldl_drainLine_eq (ls : List Nat) (y : Engine) :
    ∃ nt bs n, ls.foldl Engine.drainLine y = { y with nt := nt, sb := y.sb ++ bs, nextSb := n } := by
  induction ls generalizing y with
  | nil => exact ⟨y.nt, [], y.nextSb, by simp⟩
  | cons a ls ih =>
    obtain ⟨nt, bs, n, h⟩ := Engine.drainLine_eq y a
    obtain ⟨nt', bs', n', h'⟩ := ih (y.drainLine a)
    exact ⟨nt', bs ++ bs', n', by rw [List.foldl_cons, h', h, List.append_assoc]⟩

/-- R269: the drain empties the combining buffer, its entries go behind those of the store buffer, and the rest of the engine stays. -/
theorem Engine.drainNt_eq (y : Engine) : ∃ bs n, y.drainNt = { y with nt := [], sb := y.sb ++ bs, nextSb := n } := by
  obtain ⟨nt, bs, n, h⟩ := Engine.foldl_drainLine_eq (y.nt.map (·.line)) y
  have hnt := Engine.foldl_drainLine_nt (y.nt.map (·.line)) y
  have hempty : nt = [] := by
    rw [h] at hnt
    refine hnt.trans (List.filter_eq_nil_iff.mpr fun l hl => ?_)
    simpa using ⟨l, hl, rfl⟩
  exact ⟨bs, n, by rw [Engine.drainNt, h, hempty]⟩

@[simp] theorem raise_engine (d : Dev) (src cls sev : Nat) (i : Info) (k : Nat) : (raise d src cls sev i).engine k = d.engine k := by
  simp [Dev.engine]

@[simp] theorem markHandlers_engine (d : Dev) (e k : Nat) : (markHandlers d e).engine k = d.engine k :=
  Dev.each_keeps (fun c => c.engine k = d.engine k) d _ _ rfl (fun _ _ _ hc => hc)

@[simp] theorem abandonSnapshot_engine (d : Dev) (k : Nat) : (abandonSnapshot d).engine k = d.engine k := by
  unfold abandonSnapshot
  split <;> rfl

/-- R271: a double trap halts the engine with its cause, and keeps its PC and registers. -/
theorem haltEngine_double (d : Dev) (e : Nat) {cause : Nat} (hc : cause < 19) :
    let z := (haltEngine d e cause true).engine e
    z.st = .halted ∧ z.double = true ∧ z.lastCause.toNat = cause ∧ z.pc = (d.engine e).pc ∧ z.g = (d.engine e).g := by
  obtain ⟨bs, n, hdrain⟩ := (d.engine e).drainNt_eq
  have hcause : (BitVec.ofNat 5 cause).toNat = cause := by
    rw [BitVec.toNat_ofNat]
    omega
  by_cases hq : e < 4 <;> simp [haltEngine, hq, hdrain, hcause]

theorem haltEngine_engine_other (d : Dev) {e k : Nat} (cause : Nat) (double : Bool) (hk : k ≠ e) :
    (haltEngine d e cause double).engine k = d.engine k := by
  by_cases hq : e < 4 <;> simp [haltEngine, hq, Dev.engine_updEngine_other _ _ hk]

/-- R271: a trap inside a trap halts. -/
theorem trap_of_intrap {d : Dev} {e : Nat} (h : (d.engine e).intrap = true) (cause : Nat) (tpc : BitVec 14) (tval : Info) (imp : Bool) :
    trap d e cause tpc tval imp = haltEngine d e cause true := if_pos h

theorem trap_engine_other (d : Dev) {e k : Nat} (cause : Nat) (tpc : BitVec 14) (tval : Info) (imp : Bool) (hk : k ≠ e) :
    (trap d e cause tpc tval imp).engine k = d.engine k := by
  unfold trap
  split
  case isTrue => exact haltEngine_engine_other d cause true hk
  case isFalse => exact Dev.engine_updEngine_other d _ hk

/-- TSTAT's three bits. -/
theorem tstat_bits : ∀ sup trans guard : Bool,
    let t := BitVec.ofNat 3 (b2n sup + fld 1 (b2n trans) + fld 2 (b2n guard))
    t[0] = sup ∧ t[1] = trans ∧ t[2] = guard := by
  decide

/-- TCAUSE holds the cause, and in bit 5 that the trap is imprecise. -/
theorem tcause_toNat {cause : Nat} (hc : cause < 19) (imp : Bool) :
    (BitVec.ofNat 6 (cause + fld 5 (b2n imp))).toNat = cause + (if imp then 32 else 0) := by
  rw [BitVec.toNat_ofNat]
  cases imp
  · simp only [fld, b2n, Bool.false_eq_true, if_false]
    omega
  · simp only [fld, b2n, if_true]
    omega

/-- Settles O30: outside a trap the entry rewrites the engine with its combining buffer drained; inside one the engine halts. -/
theorem trapEntrySavesState : Obligations.TrapEntrySavesState := by
  unfold Obligations.TrapEntrySavesState
  refine fun d e cause tpc tval imp hc => ⟨fun hin => ?_, fun hin => ?_, fun k hk => trap_engine_other d cause tpc tval imp hk,
    trap_mem d e cause tpc tval imp⟩
  · obtain ⟨bs, n, hdrain⟩ := (d.engine e).drainNt_eq
    obtain ⟨hsup, htrans, hguard⟩ := tstat_bits (d.engine e).sup (d.engine e).trans (d.engine e).guard
    simp [trap, hin, hdrain, hsup, htrans, hguard, tcause_toNat hc]
  · rw [trap_of_intrap hin]
    exact haltEngine_double d e hc

end Sys2Proof.Machine
end

section
/-! Proofs of the statements on the machine as a whole: which commands stop, a sound queue, and the canonical form of main memory. -/

open Sys2Proof

namespace Sys2Proof.Machine

-- which commands stop (log entry 106)

/-- A meaning that checks its operands answers the state its effect leaves, where it answers one. -/
theorem checked_next {ok : Prop} [Decidable ok] {s t : State} {f : Dev → Dev}
    (h : (if ok then onDevice s f else .fault .illFormed) = .next t) : s.turned (f s.dev) = t := by
  by_cases hok : ok
  · rw [if_pos hok] at h
    exact Host.Outcome.next.inj h
  · simp [hok] at h

/-- What a command answers: a next state with the queue's rest, where an event can be it, and else the one fault. -/
def AnswersAs (wf : Bool) (s : State) (a : Answer) : Prop :=
  if wf then ∃ t, a = .next t ∧ t.pending = s.pending else a = .fault .illFormed

theorem answersAs_of_check {wf : Bool} {ok : Prop} [Decidable ok] {s : State} {f : Dev → Dev} (hok : wf = true ↔ ok) :
    AnswersAs wf s (if ok then onDevice s f else .fault .illFormed) := by
  unfold AnswersAs
  by_cases h : ok
  · rw [if_pos (hok.mpr h), if_pos h]
    exact ⟨_, rfl, rfl⟩
  · rw [if_neg (by simp [hok, h]), if_neg h]

/-- Every arm of `exec` runs on the device, behind the checks of its row where it has some. -/
theorem exec_answersAs (s : State) (c : Instr) : AnswersAs c.wf s (exec c s) := by
  cases c
  case memRd | memRdData | memInv | memInvNt | memClnEvct | memWr | memWrPtl | memSpecRd | biConflict | birspI | birspS | linkUp
      | hdmDecoderCommit | homeQueueArrival | tileSelfTestDone | memoryTrainingDone | packageDeliver | moderationTimeout
      | setLdAllocations | registerWrite | thermalSample =>
    exact answersAs_of_check (by simp [Instr.wf])
  all_goals exact ⟨_, rfl, rfl⟩

/-- Settles O4: a command answers by its row's checks alone. -/
theorem onlyIllFormedCommandsStop : Obligations.OnlyIllFormedCommandsStop := by
  unfold Obligations.OnlyIllFormedCommandsStop
  intro s c
  have h := exec_answersAs s c
  unfold AnswersAs at h
  split at h
  next hwf =>
    obtain ⟨t, ht, hp⟩ := h
    exact ⟨fun _ => ⟨t, ht, hp⟩, by simp [ht, hwf]⟩
  next hwf => exact ⟨fun h => absurd h hwf, by simp [h, hwf]⟩

@[simp] theorem tick_pending (s : State) : (tick s).pending = s.pending := by unfold tick; rfl

/-- A step of a sound queue answers a next state, and takes the front of the queue. -/
theorem step_of_sound {s : State} (h : s.sound) : ∃ t, step s = .next t ∧ t.sound ∧ t.pending = s.pending.tail := by
  cases hp : s.pending with
  | nil =>
    exact ⟨tick s, by rw [step, hp], by simp [State.sound, hp], by simp [hp]⟩
  | cons c rest =>
    obtain ⟨hc, hrest⟩ : c.wf = true ∧ ∀ x ∈ rest, x.wf = true := by simpa [State.sound, hp] using h
    obtain ⟨t, ht, htp⟩ := (onlyIllFormedCommandsStop { s with pending := rest } c).1 hc
    exact ⟨t, by rw [step, hp]; exact ht, by rw [State.sound, htp]; exact hrest, htp⟩

/-- Settles O3: soundness is an invariant of the step, so a run of any length goes on. -/
theorem soundQueueNeverStops : Obligations.SoundQueueNeverStops := by
  unfold Obligations.SoundQueueNeverStops
  refine ⟨fun s h => step_of_sound h, fun s k h => ?_⟩
  induction k generalizing s with
  | zero => rfl
  | succ k ih =>
    obtain ⟨t, ht, hsound, -⟩ := step_of_sound h
    rw [safeFor, ht]
    exact ih t hsound

-- main memory (08_memory_path.md)

@[simp] theorem takeAccess_mem (d : Dev) (x : Origin × HostAccess) : (takeAccess d x).mem = d.mem := by
  unfold takeAccess
  split <;> simp

@[simp] theorem takeWaits_mem (d : Dev) : (takeWaits d).mem = d.mem := by simp [takeWaits]

@[simp] theorem pllBack_mem (d : Dev) (i : Nat) : (pllBack d i).mem = d.mem := by simp [pllBack]

@[simp] theorem samplePreload_mem (d : Dev) (cells : BitVec 64) : (samplePreload d cells).mem = d.mem := by
  unfold samplePreload
  split <;> simp

/-- The effect of a command keeps the canonical form: the writers of `Laws/MemWf` do, and the rest leaves memory alone. -/
theorem exec_memWf {s t : State} {c : Instr} (h : exec c s = .next t) (hw : s.dev.mem.wf = true) : t.dev.mem.wf = true := by
  cases c
  case memRd | memRdData | memInv | memInvNt | memClnEvct | memWr | memWrPtl | memSpecRd | biConflict | birspI | birspS | linkUp
      | hdmDecoderCommit | homeQueueArrival | tileSelfTestDone | memoryTrainingDone | moderationTimeout
      | setLdAllocations | registerWrite | thermalSample | packageDeliver =>
    obtain rfl := checked_next h
    simp [hw]
  case supplyLoss | channelWriteTaken =>
    obtain rfl : s.turned _ = t := Host.Outcome.next.inj h
    simp only [State.turned_dev, settle_mem]
    split <;> simp [hw]
  case labwAtLab e slot =>
    obtain rfl : s.turned _ = t := Host.Outcome.next.inj h
    simp only [State.turned_dev, settle_mem]
    repeat' split
    all_goals simp [hw]
  all_goals
    obtain rfl : s.turned _ = t := Host.Outcome.next.inj h
    simp [hw, beginCall_mem]

/-- Settles O5: a tick leaves memory alone, and every command keeps its form. -/
theorem everyStepKeepsMemoryForm : Obligations.EveryStepKeepsMemoryForm := by
  unfold Obligations.EveryStepKeepsMemoryForm
  intro s t hw h
  unfold step at h
  split at h
  · obtain rfl := Host.Outcome.next.inj h
    simpa [tick] using hw
  · exact exec_memWf h hw

end Sys2Proof.Machine
end

section
/-! Proof of the statement on what goes on by itself after a command (`settle`): what it leaves alone of PARK, operation by operation
as `Laws/Still` does it for the rest, and that a quiet device is left whole. -/

open Sys2Proof

namespace Sys2Proof.Machine

set_option maxRecDepth 2000

-- PARK under the operations of work under way (R323, R327)

/-- What work under way leaves alone of PARK, but for its end: the state, the pace and the agents resigned. -/
def Dev.parkRegs (d : Dev) : BitVec 2 × BitVec 8 × Bool := (d.park.st, d.park.pace, d.park.resigned)
@[simp] theorem Dev.each_parkRegs {α : Type} (d : Dev) (l : List α) (f : Dev → α → Dev) (h : ∀ d a, (f d a).parkRegs = d.parkRegs) :
    (d.each l f).parkRegs = d.parkRegs :=
  Dev.each_keeps (fun x => x.parkRegs = d.parkRegs) d l f rfl (fun x a _ hx => (h x a).trans hx)

@[simp] theorem foldl_parkRegs {α : Type} (d : Dev) (l : List α) (f : Dev → α → Dev) (h : ∀ d a, (f d a).parkRegs = d.parkRegs) :
    (l.foldl f d).parkRegs = d.parkRegs := Dev.each_parkRegs d l f h

theorem foldl_fst_parkRegs {α β : Type} (l : List α) (f : Dev × β → α → Dev × β) (h : ∀ p a, (f p a).1.parkRegs = p.1.parkRegs) (p : Dev × β) :
    (l.foldl f p).1.parkRegs = p.1.parkRegs := by
  induction l generalizing p with
  | nil => rfl
  | cons a l ih => exact (ih (f p a)).trans (h p a)
@[simp] theorem Dev.ite_parkRegs (c : Prop) [Decidable c] (a b : Dev) : (if c then a else b).parkRegs = if c then a.parkRegs else b.parkRegs := by
  split <;> rfl
@[simp] theorem Dev.setGlob_parkRegs (d : Dev) (f : Glob → Glob) : (d.setGlob f).parkRegs = d.parkRegs := rfl
@[simp] theorem Dev.setPwr_parkRegs (d : Dev) (f : Pwr → Pwr) : (d.setPwr f).parkRegs = d.parkRegs := rfl
@[simp] theorem loseCells_parkRegs (d : Dev) (t : Nat) : (loseCells d t).parkRegs = d.parkRegs := rfl
@[simp] theorem Dev.movers_parkRegs (d : Dev) (m : Tab MoverOp) : ({ d with movers := m } : Dev).parkRegs = d.parkRegs := rfl
@[simp] theorem Dev.nextId_parkRegs (d : Dev) (n : Nat) : ({ d with nextId := n } : Dev).parkRegs = d.parkRegs := rfl
@[simp] theorem Dev.recalled_parkRegs (d : Dev) (n : Nat) :
    ({ d with park := { d.park with recalled := n } } : Dev).parkRegs = d.parkRegs := rfl
@[simp] theorem Dev.updAgent_parkRegs (d : Dev) (a f) : (d.updAgent a f).parkRegs = d.parkRegs := rfl

@[simp] theorem Dev.updPort_parkRegs (d : Dev) (n : Nat) (f : Port → Port) : (Dev.updPort d n f).parkRegs = d.parkRegs := by simp [Dev.parkRegs]

@[simp] theorem Dev.updLd_parkRegs (d : Dev) (p m : Nat) (f : Ld → Ld) : (Dev.updLd d p m f).parkRegs = d.parkRegs := by simp [Dev.parkRegs]

@[simp] theorem Dev.updSlice_parkRegs (d : Dev) (n : Nat) (f : Slice → Slice) : (Dev.updSlice d n f).parkRegs = d.parkRegs := by simp [Dev.parkRegs]

@[simp] theorem Dev.updTile_parkRegs (d : Dev) (n : Nat) (f : Tile → Tile) : (Dev.updTile d n f).parkRegs = d.parkRegs := by simp [Dev.parkRegs]

@[simp] theorem Dev.updEngine_parkRegs (d : Dev) (n : Nat) (f : Engine → Engine) : (Dev.updEngine d n f).parkRegs = d.parkRegs := by simp [Dev.parkRegs]

@[simp] theorem Dev.updPair_parkRegs (d : Dev) (n : Nat) (f : Pair_ → Pair_) : (Dev.updPair d n f).parkRegs = d.parkRegs := by simp [Dev.parkRegs]

@[simp] theorem Dev.updSource_parkRegs (d : Dev) (n : Nat) (f : Source → Source) : (Dev.updSource d n f).parkRegs = d.parkRegs := by simp [Dev.parkRegs]

@[simp] theorem Dev.putXact_parkRegs (d : Dev) (i : Nat) (x : Xact) : (Dev.putXact d i x).parkRegs = d.parkRegs := by simp [Dev.parkRegs]

@[simp] theorem Dev.dropXact_parkRegs (d : Dev) (i : Nat) : (Dev.dropXact d i).parkRegs = d.parkRegs := by simp [Dev.parkRegs]

@[simp] theorem Dev.setErr_parkRegs (d : Dev) (f : Err → Err) : (Dev.setErr d f).parkRegs = d.parkRegs := by simp [Dev.parkRegs]

@[simp] theorem emit_parkRegs (d : Dev) (m : Msg) : (emit d m).parkRegs = d.parkRegs := by simp [Dev.parkRegs]

@[simp] theorem Dev.updXact_parkRegs (d : Dev) (i : Nat) (f : Xact → Xact) : (d.updXact i f).parkRegs = d.parkRegs := by
  unfold Dev.updXact
  split <;> rfl

@[simp] theorem raise_parkRegs (d : Dev) (src cls sev : Nat) (i : Info) : (raise d src cls sev i).parkRegs = d.parkRegs := by simp [Dev.parkRegs]

@[simp] theorem dropLog_parkRegs (d : Dev) : (dropLog d).parkRegs = d.parkRegs := by simp [Dev.parkRegs]

@[simp] theorem logErr_parkRegs (d : Dev) (f : Fail) : (logErr d f).parkRegs = d.parkRegs := by simp [Dev.parkRegs]

@[simp] theorem freeEntry_parkRegs (d : Dev) (i : Nat) : (freeEntry d i).parkRegs = d.parkRegs := by simp [Dev.parkRegs]

@[simp] theorem fireFlip_parkRegs (d : Dev) (path inst dpa : Nat) : (fireFlip d path inst dpa).parkRegs = d.parkRegs := by simp [Dev.parkRegs]

@[simp] theorem flipWrite_parkRegs (d : Dev) (path inst dpa w : Nat) (chk : Bool) : ((flipWrite d path inst dpa w chk).1).parkRegs = d.parkRegs := by simp [Dev.parkRegs]

@[simp] theorem sendMsix_parkRegs (d : Dev) (p m vec : Nat) : (sendMsix d p m vec).parkRegs = d.parkRegs := by simp [Dev.parkRegs]

@[simp] theorem journal_parkRegs (d : Dev) (c : Change) : (journal d c).parkRegs = d.parkRegs := by simp [Dev.parkRegs]

@[simp] theorem journalCall_parkRegs (d : Dev) (o : Origin) (code arg : Nat) (body results : List Word) :
    (journalCall d o code arg body results).parkRegs = d.parkRegs := by simp [Dev.parkRegs]

@[simp] theorem putScratch_parkRegs (d : Dev) (e i : Nat) (w : Word) : (putScratch d e i w).parkRegs = d.parkRegs := by simp [Dev.parkRegs]

@[simp] theorem putImem_parkRegs (d : Dev) (e i : Nat) (w : Word) : (putImem d e i w).parkRegs = d.parkRegs := by simp [Dev.parkRegs]

@[simp] theorem count_parkRegs (d : Dev) (b code n : Nat) (c : Counted) : (count d b code n c).parkRegs = d.parkRegs := by simp [Dev.parkRegs]

@[simp] theorem advance_parkRegs (d : Dev) (e n : Nat) : (advance d e n).parkRegs = d.parkRegs := by simp [Dev.parkRegs]

@[simp] theorem Dev.putSent_parkRegs (d : Dev) (i : Nat) (x : Xact) : (Dev.putSent d i x).parkRegs = d.parkRegs := rfl

@[simp] theorem Dev.start_parkRegs (d : Dev) (x : Xact) : (Dev.start d x).1.parkRegs = d.parkRegs := rfl

@[simp] theorem powerBusy_parkRegs (d : Dev) (dom : Nat) (on : Bool) (reason : Nat) :
    (powerBusy d dom on reason).parkRegs = d.parkRegs := by
  simp [powerBusy]

@[simp] theorem freeLine_parkRegs (d : Dev) (dpa : Nat) : (freeLine d dpa).parkRegs = d.parkRegs := by
  simp [freeLine]

@[simp] theorem popFails_parkRegs (d : Dev) (e : Nat) : (popFails d e).parkRegs = d.parkRegs := by
  unfold popFails
  split <;> simp

@[simp] theorem pushFails_parkRegs (d : Dev) (e n : Nat) : (pushFails d e n).parkRegs = d.parkRegs := by
  unfold pushFails
  split <;> simp

@[simp] theorem closePair_parkRegs (d : Dev) (n cause : Nat) : (closePair d n cause).parkRegs = d.parkRegs := by
  simp [closePair]

@[simp] theorem pairMismatch_parkRegs (d : Dev) (n idx : Nat) : (pairMismatch d n idx).parkRegs = d.parkRegs := by
  simp [pairMismatch]

@[simp] theorem pairUpdated_parkRegs (d : Dev) (n : Nat) : (pairUpdated d n).parkRegs = d.parkRegs := by
  unfold pairUpdated
  split <;> simp

@[simp] theorem pairInterrupt_parkRegs (d : Dev) (n : Nat) : (pairInterrupt d n).parkRegs = d.parkRegs := by
  simp [pairInterrupt]

@[simp] theorem pushRecord_parkRegs (d : Dev) (n : Nat) (ws : List Word) : (pushRecord d n ws).parkRegs = d.parkRegs := by
  simp [pushRecord]

@[simp] theorem pushPacket_parkRegs (d : Dev) (n : Nat) (ws : List Word) : (pushPacket d n ws).parkRegs = d.parkRegs := by
  simp [pushPacket]

@[simp] theorem ackConflicts_parkRegs (d : Dev) (p : Nat) : (ackConflicts d p).parkRegs = d.parkRegs := by
  unfold ackConflicts
  dsimp only
  apply Dev.each_parkRegs
  intro d a
  repeat' split
  all_goals simp

@[simp] theorem respondData_parkRegs (d : Dev) (r : Req) (t0 : Nat) (data : Line) (poison : Bool) (m : Option Meta) :
    (respondData d r t0 data poison m).parkRegs = d.parkRegs := by
  unfold respondData
  split <;> simp

@[simp] theorem respondCmp_parkRegs (d : Dev) (r : Req) (own : Bool) : (respondCmp d r own).parkRegs = d.parkRegs := by
  unfold respondCmp
  split <;> simp

@[simp] theorem Dev.setLab_parkRegs (d : Dev) (l : Nat) (t : Tab LabEntry) : (Dev.setLab d l t).parkRegs = d.parkRegs := by
  unfold Dev.setLab
  split <;> rfl

@[simp] theorem labInstall_parkRegs (d : Dev) (l : Nat) (view : BitVec 12) (gran : BitVec 2) (vpn : Nat) (pte : Pte) (lock : Bool) :
    (labInstall d l view gran vpn pte lock).1.parkRegs = d.parkRegs := by
  unfold labInstall
  dsimp only
  split
  · simp
  · simp only [Dev.setLab_parkRegs, Dev.nextId_parkRegs, flipWrite_parkRegs]

@[simp] theorem putTag_parkRegs (d : Dev) (s cset way : Nat) (e : TagEntry) : (putTag d s cset way e).parkRegs = d.parkRegs := by
  simp [putTag]

@[simp] theorem victimWay_parkRegs (d : Dev) (s cset : Nat) : (victimWay d s cset).1.parkRegs = d.parkRegs := by
  unfold victimWay
  dsimp only
  split <;> simp

@[simp] theorem lockedNote_parkRegs (d : Dev) (s first n : Nat) : (lockedNote d s first n).parkRegs = d.parkRegs := by
  simp [lockedNote]

@[simp] theorem lockedCount_parkRegs (d : Dev) (s n : Nat) : (lockedCount d s n).parkRegs = d.parkRegs := by
  simp [lockedCount]

@[simp] theorem lockedInval_parkRegs (d : Dev) (s : Nat) (sectors : List Nat) : (lockedInval d s sectors).parkRegs = d.parkRegs := by
  unfold lockedInval
  split <;> simp

@[simp] theorem tileStore_parkRegs (d : Dev) (s dpa way : Nat) (data : Line) (mask : Mask) :
    (tileStore d s dpa way data mask).parkRegs = d.parkRegs := by
  simp [tileStore]

@[simp] theorem writeUpdate_parkRegs (d : Dev) (s dpa : Nat) (data : Line) (mask : Mask) (poison : Bool) :
    (writeUpdate d s dpa data mask poison).parkRegs = d.parkRegs := by
  unfold writeUpdate
  repeat' split
  all_goals simp

@[simp] theorem install_parkRegs (d : Dev) (s dpa way : Nat) (data : Line) (poison old : Bool) :
    (install d s dpa way data poison old).parkRegs = d.parkRegs := by
  simp [install]

@[simp] theorem dropSide_parkRegs (d : Dev) (s line : Nat) : (dropSide d s line).parkRegs = d.parkRegs := by
  simp [dropSide]

@[simp] theorem markNoAlloc_parkRegs (d : Dev) (i : Nat) : (markNoAlloc d i).parkRegs = d.parkRegs := by
  unfold markNoAlloc
  repeat' split
  all_goals simp

@[simp] theorem markWhere_parkRegs (d : Dev) (s : Nat) (f : Xact → Bool) : (markWhere d s f).parkRegs = d.parkRegs := by
  simp [markWhere]

@[simp] theorem invalSub_parkRegs (d : Dev) (s dpa : Nat) (unlock : Bool) : (invalSub d s dpa unlock).1.parkRegs = d.parkRegs := by
  unfold invalSub
  dsimp only
  repeat' split
  all_goals simp

@[simp] theorem invalWay_parkRegs (d : Dev) (s cset way : Nat) (unlock : Bool) :
    (invalWay d s cset way unlock).1.parkRegs = d.parkRegs := by
  unfold invalWay
  dsimp only
  repeat' split
  all_goals simp

@[simp] theorem putDir_parkRegs (d : Dev) (s dset way : Nat) (e : DirEntry) : (putDir d s dset way e).parkRegs = d.parkRegs := by
  simp [putDir]

@[simp] theorem giveResult_parkRegs (d : Dev) (i : Nat) (x : Xact) (data : Line) (poison ok : Bool) :
    (giveResult d i x data poison ok).parkRegs = d.parkRegs := by
  unfold giveResult
  split <;> simp

@[simp] theorem finish_parkRegs (d : Dev) (i : Nat) (data : Line) (poison ok : Bool) :
    (finish d i data poison ok).parkRegs = d.parkRegs := by
  unfold finish
  dsimp only
  repeat' split
  all_goals simp

@[simp] theorem sendSnoop_parkRegs (d : Dev) (p : Nat) (s : Snoop) (vpn : Nat) : (sendSnoop d p s vpn).parkRegs = d.parkRegs := by
  simp [sendSnoop]

@[simp] theorem portRecall_parkRegs (d : Dev) (p : Nat) (a : BitVec 12) (line : Nat) (data : Bool) :
    (portRecall d p a line data).parkRegs = d.parkRegs := by
  unfold portRecall
  dsimp only
  repeat' split
  all_goals simp

@[simp] theorem sendRecall_parkRegs (d : Dev) (s line : Nat) (t : Target) : (sendRecall d s line t).parkRegs = d.parkRegs := by
  unfold sendRecall
  repeat' split
  all_goals simp

@[simp] theorem startRecall_parkRegs (d : Dev) (i : Nat) (line : Nat) (ts : List Target) (dw : Option Nat) (evict : Option Nat) :
    (startRecall d i line ts dw evict).parkRegs = d.parkRegs := by
  unfold startRecall
  repeat' split
  all_goals simp

@[simp] theorem chooseWay_parkRegs (d : Dev) (s dpa : Nat) : (chooseWay d s dpa).1.parkRegs = d.parkRegs := by
  unfold chooseWay
  have hv := victimWay_parkRegs d s (csetOf dpa)
  generalize victimWay d s (csetOf dpa) = r at hv ⊢
  obtain ⟨d', w⟩ := r
  split
  · rfl
  · cases w <;> simpa using hv

@[simp] theorem readDirect_parkRegs (d : Dev) (i : Nat) (x : Xact) : (readDirect d i x).parkRegs = d.parkRegs := by
  simp [readDirect]

@[simp] theorem bindMiss_parkRegs (d : Dev) (i : Nat) (x : Xact) : (bindMiss d i x).parkRegs = d.parkRegs := by
  simp [bindMiss]

@[simp] theorem joinPrefetch_parkRegs (d : Dev) (i j : Nat) (x : Xact) : (joinPrefetch d i j x).parkRegs = d.parkRegs := by
  simp [joinPrefetch]

@[simp] theorem readTile_parkRegs (d : Dev) (i : Nat) (x : Xact) (w : Nat) : (readTile d i x w).parkRegs = d.parkRegs := by
  simp [readTile]

@[simp] theorem readSide_parkRegs (d : Dev) (i : Nat) (x : Xact) (e : SideEntry) : (readSide d i x e).parkRegs = d.parkRegs := by
  unfold readSide
  dsimp only
  have hc := chooseWay_parkRegs (dropSide (count (count d (8 + x.slice) 0x11 1 x.req.counted) (8 + x.slice) 0x13 1 x.req.counted)
    x.slice e.line) x.slice x.req.dpa
  generalize chooseWay _ _ _ = r at hc ⊢
  obtain ⟨d', w⟩ := r
  cases w <;> simpa using hc

@[simp] theorem readStage_parkRegs (d : Dev) (i : Nat) : (readStage d i).parkRegs = d.parkRegs := by
  unfold readStage
  dsimp only
  repeat' split
  all_goals simp

@[simp] theorem dataRead_parkRegs (d : Dev) (i : Nat) : (dataRead d i).parkRegs = d.parkRegs := by
  unfold dataRead
  repeat' split
  all_goals simp

@[simp] theorem dropPrefetched_parkRegs (d : Dev) (s line : Nat) : (dropPrefetched d s line).parkRegs = d.parkRegs := by
  simp [dropPrefetched]

@[simp] theorem writeStage_parkRegs (d : Dev) (i : Nat) : (writeStage d i).parkRegs = d.parkRegs := by
  unfold writeStage
  repeat' split
  all_goals simp

@[simp] theorem cmoInval_parkRegs (d : Dev) (x : Xact) : (cmoInval d x).1.parkRegs = d.parkRegs := by
  unfold cmoInval
  dsimp only
  repeat' split
  all_goals simp

@[simp] theorem poisonWrite_parkRegs (d : Dev) (s dpa : Nat) (who : BitVec 12) : (poisonWrite d s dpa who).parkRegs = d.parkRegs := by
  simp [poisonWrite]

@[simp] theorem dirNote_parkRegs (d : Dev) (s sub dset : Nat) (way : Option Nat) (agent : BitVec 12) :
    (dirNote d s sub dset way agent).parkRegs = d.parkRegs := by
  simp [dirNote]

@[simp] theorem loseLine_parkRegs (d : Dev) (s dpa : Nat) (a : BitVec 12) (ep : BitVec 4) : (loseLine d s dpa a ep).parkRegs = d.parkRegs := by
  unfold loseLine
  dsimp only
  repeat' split
  all_goals simp

@[simp] theorem resolveEntry_parkRegs (d : Dev) (s dset way : Nat) : (resolveEntry d s dset way).1.parkRegs = d.parkRegs := by
  unfold resolveEntry
  dsimp only
  repeat' split
  all_goals simp

@[simp] theorem resolveLine_parkRegs (d : Dev) (s dpa : Nat) : (resolveLine d s dpa).parkRegs = d.parkRegs := by
  unfold resolveLine
  split <;> simp

@[simp] theorem markWay_parkRegs (d : Dev) (s cset way : Nat) : (markWay d s cset way).parkRegs = d.parkRegs := by
  simp [markWay]

@[simp] theorem swMarks_parkRegs (d : Dev) (x : Xact) : (swMarks d x).parkRegs = d.parkRegs := by
  unfold swMarks
  split <;> simp

@[simp] theorem cmoEnd_parkRegs (d : Dev) (i : Nat) : (cmoEnd d i).parkRegs = d.parkRegs := by
  unfold cmoEnd
  dsimp only
  repeat' split
  all_goals simp

@[simp] theorem cmoStage_parkRegs (d : Dev) (i : Nat) : (cmoStage d i).parkRegs = d.parkRegs := by
  unfold cmoStage
  split <;> simp

@[simp] theorem preloadStage_parkRegs (d : Dev) (i : Nat) (lgrp : BitVec 4) : (preloadStage d i lgrp).parkRegs = d.parkRegs := by
  unfold preloadStage
  dsimp only
  split
  · rfl
  next x _ =>
    have hc := chooseWay_parkRegs d x.slice x.req.dpa
    generalize chooseWay d x.slice x.req.dpa = r at hc ⊢
    obtain ⟨d', w⟩ := r
    repeat' split
    all_goals simp_all

@[simp] theorem prefetchIssue_parkRegs (d : Dev) (i : Nat) : (prefetchIssue d i).parkRegs = d.parkRegs := by
  unfold prefetchIssue
  split <;> simp

@[simp] theorem dataStage_parkRegs (d : Dev) (i : Nat) : (dataStage d i).parkRegs = d.parkRegs := by
  unfold dataStage
  repeat' split
  all_goals simp

@[simp] theorem moveDir_parkRegs (d : Dev) (s dset way : Nat) (old new : DirEntry) :
    (moveDir d s dset way old new).parkRegs = d.parkRegs := by
  simp [moveDir]

@[simp] theorem applyDir_parkRegs (d : Dev) (i : Nat) : (applyDir d i).parkRegs = d.parkRegs := by
  unfold applyDir
  dsimp only
  repeat' split
  all_goals simp

@[simp] theorem allocDir_parkRegs (d : Dev) (i : Nat) (way : Nat) : (allocDir d i way).parkRegs = d.parkRegs := by
  unfold allocDir
  split <;> simp

@[simp] theorem toRetry_parkRegs (d : Dev) (i : Nat) : (toRetry d i).parkRegs = d.parkRegs := by
  simp [toRetry]

@[simp] theorem relookup_parkRegs (d : Dev) (i : Nat) : (relookup d i).parkRegs = d.parkRegs := by
  simp [relookup]

@[simp] theorem evicted_parkRegs (d : Dev) (i : Nat) (x : Xact) (w : Nat) : (evicted d i x w).parkRegs = d.parkRegs := by
  simp [evicted]

@[simp] theorem recallDone_parkRegs (d : Dev) (i : Nat) : (recallDone d i).parkRegs = d.parkRegs := by
  unfold recallDone
  repeat' split
  all_goals simp

@[simp] theorem chanEvent_parkRegs (d : Dev) (c cause cls sev dpa symbols : Nat) :
    (chanEvent d c cause cls sev dpa symbols).parkRegs = d.parkRegs := by
  simp [chanEvent]

@[simp] theorem overLimit_parkRegs (d : Dev) (r : Req) : (overLimit d r).parkRegs = d.parkRegs := by
  simp [overLimit]

@[simp] theorem startDrain_parkRegs (d : Dev) (t cause : Nat) (retiring : Bool) :
    (startDrain d t cause retiring).parkRegs = d.parkRegs := by
  simp [startDrain]

@[simp] theorem retireBank_parkRegs (d : Dev) (t b : Nat) : (retireBank d t b).parkRegs = d.parkRegs := by
  simp [retireBank]

@[simp] theorem goOnline_parkRegs (d : Dev) (t : Nat) : (goOnline d t).parkRegs = d.parkRegs := by
  simp [goOnline]

@[simp] theorem labiIssue_parkRegs (d : Dev) (e form : Nat) (view : BitVec 12) (gran : BitVec 2) (vpn : Nat) :
    (labiIssue d e form view gran vpn).1.parkRegs = d.parkRegs := rfl

@[simp] theorem Dev.setCall_parkRegs (d : Dev) (e : Nat) (c : Option Call) : (Dev.setCall d e c).parkRegs = d.parkRegs := by
  unfold Dev.setCall
  split <;> rfl

@[simp] theorem callReq_parkRegs (d : Dev) (e line : Nat) (op : Op) (data : Line) (mask : Mask) (device : Bool) :
    (callReq d e line op data mask device).1.parkRegs = d.parkRegs := by
  simp [callReq]

@[simp] theorem preloadReq_parkRegs (d : Dev) (e sector : Nat) (g : BitVec 4) (device stream : Bool) :
    (preloadReq d e sector g device stream).1.parkRegs = d.parkRegs := by
  simp [preloadReq]

@[simp] theorem mvInstall_parkRegs (d : Dev) (e line : Nat) (data : Line) (poison : Bool) :
    (mvInstall d e line data poison).parkRegs = d.parkRegs := by
  simp [mvInstall]

@[simp] theorem mvCheck_parkRegs (d : Dev) (e line : Nat) (c : Ecc) : (mvCheck d e line c).parkRegs = d.parkRegs := by
  unfold mvCheck
  repeat' split
  all_goals simp

@[simp] theorem cacheLine_parkRegs (d : Dev) (e i : Nat) : (cacheLine d e i).parkRegs = d.parkRegs := by
  unfold cacheLine
  repeat' split
  all_goals simp

@[simp] theorem reserve_parkRegs (d : Dev) (e dpa : Nat) : (reserve d e dpa).parkRegs = d.parkRegs := by
  simp [reserve]

@[simp] theorem rmwTake_parkRegs (d : Dev) (e : Nat) (c : Call) (dpa : Nat) (k : Rmw) (line : Line) (bad : Bool) :
    (rmwTake d e c dpa k line bad).1.parkRegs = d.parkRegs := by
  unfold rmwTake
  dsimp only
  split <;> simp

@[simp] theorem mvEvict_parkRegs (d : Dev) (e line : Nat) : (mvEvict d e line).parkRegs = d.parkRegs := by
  unfold mvEvict
  split <;> simp

@[simp] theorem callFaultAt_parkRegs (d : Dev) (e dpa : Nat) : (callFaultAt d e dpa).parkRegs = d.parkRegs := by
  simp [callFaultAt]

@[simp] theorem callFault_parkRegs (d : Dev) (e : Nat) (x : Xact) : (callFault d e x).parkRegs = d.parkRegs := by
  simp [callFault]

@[simp] theorem rmwReq_parkRegs (d : Dev) (e : Nat) (c : Call) (dpa : Nat) (k : Rmw) : (rmwReq d e c dpa k).1.parkRegs = d.parkRegs := by
  unfold rmwReq
  dsimp only
  split <;> simp

@[simp] theorem reapOne_parkRegs (d : Dev) (e : Nat) (c : Call) (i : Nat) (x : Xact) (data : Line) (poison ok : Bool) :
    (reapOne d e c i x data poison ok).1.parkRegs = d.parkRegs := by
  unfold reapOne
  repeat' split
  all_goals simp

@[simp] theorem reap_parkRegs (d : Dev) (e : Nat) (c : Call) : (reap d e c).1.parkRegs = d.parkRegs := by
  unfold reap
  rw [foldl_fst_parkRegs]
  intro p a
  repeat' split
  all_goals simp

@[simp] theorem callWaits_parkRegs (d : Dev) (e : Nat) (waits : Bool) : (callWaits d e waits).parkRegs = d.parkRegs := by
  simp [callWaits]

@[simp] theorem issueMany_parkRegs (d : Dev) (c : Call) (n : Nat) (f : Dev → Nat → Dev × Nat) (hf : ∀ d a, (f d a).1.parkRegs = d.parkRegs) :
    (issueMany d c n f).1.parkRegs = d.parkRegs := by
  unfold issueMany
  rw [foldl_fst_parkRegs]
  intro p a
  simp [hf]

@[simp] theorem endCall_parkRegs (d : Dev) (e : Nat) (c : Call) : (endCall d e c).parkRegs = d.parkRegs := by
  unfold endCall
  repeat' split
  all_goals simp

@[simp] theorem dcEvent_parkRegs (d : Dev) (src p m region base : Nat) (accepted : Bool) :
    (dcEvent d src p m region base accepted).parkRegs = d.parkRegs := by
  simp [dcEvent]

@[simp] theorem mailboxDone_parkRegs (d : Dev) (p m op code : Nat) (payload : List Nat) :
    (mailboxDone d p m op code payload).parkRegs = d.parkRegs := by
  simp [mailboxDone]

@[simp] theorem viewBindGo_parkRegs (d : Dev) (c : Call) : (viewBindGo d c).1.parkRegs = d.parkRegs := by
  unfold viewBindGo
  dsimp only
  repeat' split
  all_goals rfl

@[simp] theorem viewGo_parkRegs (d : Dev) (c : Call) : (viewGo d c).1.parkRegs = d.parkRegs := by
  unfold viewGo
  repeat' split
  all_goals simp

@[simp] theorem loadProgram_parkRegs (d : Dev) (e : Nat) (ps : List (BitVec 32)) : (loadProgram d e ps).parkRegs = d.parkRegs := by
  simp [loadProgram]

@[simp] theorem progGo_parkRegs (d : Dev) (e : Nat) (c : Call) : (progGo d e c).1.parkRegs = d.parkRegs := by
  unfold progGo
  repeat' split
  all_goals simp

@[simp] theorem tileOfflineGo_parkRegs (t : Nat) (d : Dev) (c : Call) : (tileOfflineGo t d c).1.parkRegs = d.parkRegs := by
  unfold tileOfflineGo
  split <;> simp

@[simp] theorem tileOnlineGo_parkRegs (t : Nat) (d : Dev) (c : Call) : (tileOnlineGo t d c).1.parkRegs = d.parkRegs := by
  unfold tileOnlineGo
  split <;> simp

@[simp] theorem tileRetireGo_parkRegs (t : Nat) (d : Dev) (c : Call) : (tileRetireGo t d c).1.parkRegs = d.parkRegs := by
  unfold tileRetireGo
  split <;> simp

@[simp] theorem bankRetireGo_parkRegs (t b : Nat) (d : Dev) (c : Call) : (bankRetireGo t b d c).1.parkRegs = d.parkRegs := by
  unfold bankRetireGo
  repeat' split
  all_goals simp

@[simp] theorem tileGo_parkRegs (d : Dev) (c : Call) : (tileGo d c).1.parkRegs = d.parkRegs := by
  unfold tileGo
  dsimp only
  repeat' split
  all_goals simp

@[simp] theorem countWalk_parkRegs (d : Dev) (s n : Nat) : (countWalk d s n).parkRegs = d.parkRegs := by
  simp [countWalk]

@[simp] theorem runStep_parkRegs (d : Dev) (e : Nat) (c : Call) : (runStep d e c).1.parkRegs = d.parkRegs := by
  unfold runStep
  dsimp only
  repeat' split
  all_goals simp

@[simp] theorem haltMover_parkRegs (d : Dev) (key reason : Nat) (op : MoverOp) :
    (haltMover d key reason op).parkRegs = d.parkRegs := by
  unfold haltMover
  dsimp only
  split
  · rw [Dev.updEngine_parkRegs, Dev.movers_parkRegs]
    split <;> split <;> simp
  · rw [Dev.movers_parkRegs]
    split <;> split <;> simp

@[simp] theorem putMover_parkRegs (d : Dev) (key : Nat) (op : MoverOp) : (putMover d key op).parkRegs = d.parkRegs := by
  simp [putMover]

@[simp] theorem countSwept_parkRegs (d : Dev) (ch : Nat) (op : MoverOp) (code : Nat) :
    (countSwept d ch op code).parkRegs = d.parkRegs := by
  unfold countSwept
  split <;> simp

@[simp] theorem settleMover_parkRegs (d : Dev) (key : Nat) : (settleMover d key).parkRegs = d.parkRegs := by
  unfold settleMover
  dsimp only
  repeat' split
  all_goals simp only [Dev.movers_parkRegs, Dev.start_parkRegs, Dev.dropXact_parkRegs, haltMover_parkRegs, putMover_parkRegs, countSwept_parkRegs]

@[simp] theorem backToUser_parkRegs (d : Dev) (e : Nat) : (backToUser d e).parkRegs = d.parkRegs := by
  simp [backToUser]

@[simp] theorem endRun_parkRegs (d : Dev) (e status : Nat) (ws : List Word) : (endRun d e status ws).parkRegs = d.parkRegs := by
  unfold endRun
  split <;> simp

@[simp] theorem labwPut_parkRegs (d : Dev) (l : Nat) (view : BitVec 12) (gran : BitVec 2) (vpn : Nat) (p : Pte) (lock : Bool) :
    (labwPut d l view gran vpn p lock).1.parkRegs = d.parkRegs := by
  unfold labwPut
  dsimp only
  split <;> simp

@[simp] theorem setLabres_parkRegs (d : Dev) (e n : Nat) : (setLabres d e n).parkRegs = d.parkRegs := by
  simp [setLabres]

@[simp] theorem handlerPut_parkRegs (d : Dev) (e l : Nat) (view : BitVec 12) (g n : Nat) (p : Pte) :
    (handlerPut d e l view g n p).parkRegs = d.parkRegs := by
  simp [handlerPut]

@[simp] theorem runMiss_parkRegs (d : Dev) (e : Nat) (view : BitVec 12) : (runMiss d e view).parkRegs = d.parkRegs := by
  unfold runMiss
  dsimp only
  split <;> simp

@[simp] theorem settleRun_parkRegs (d : Dev) (e : Nat) : (settleRun d e).parkRegs = d.parkRegs := by
  unfold settleRun
  dsimp only
  split <;> simp

@[simp] theorem settleFault_parkRegs (d : Dev) (e : Nat) : (settleFault d e).parkRegs = d.parkRegs := by
  unfold settleFault
  dsimp only
  split <;> simp

@[simp] theorem settleRecalls_parkRegs (d : Dev) : (settleRecalls d).parkRegs = d.parkRegs := by
  simp [settleRecalls]

theorem parkFinish_parkRegs {d : Dev} (h : d.park.st ≠ 1) : (parkFinish d).parkRegs = d.parkRegs := by
  unfold parkFinish
  rw [if_neg (fun hc => h hc.1)]

/-- R327: the end of PARK is all that its registers can meet. -/
theorem parkFinish_ends {d : Dev} (h : d.park.st = 1) :
    (parkFinish d).parkRegs = d.parkRegs ∨ (parkFinish d).parkRegs = (2, d.park.pace, d.park.resigned) := by
  unfold parkFinish
  split
  · exact .inr (by rw [raise_parkRegs]; rfl)
  · exact .inl rfl

@[simp] theorem stepLoads_parkRegs (d : Dev) (e : Nat) (c : Call) : (stepLoads d e c).1.parkRegs = d.parkRegs := by
  unfold stepLoads
  dsimp only
  repeat' split
  all_goals simp

@[simp] theorem runCall_parkRegs (e n : Nat) (d : Dev) : (runCall e n d).parkRegs = d.parkRegs := by
  induction n generalizing d with
  | zero => rfl
  | succ n ih =>
    unfold runCall
    dsimp only
    split
    · rfl
    next c _ =>
      have hr := reap_parkRegs d e c
      generalize reap d e c = r at hr ⊢
      obtain ⟨d1, c1⟩ := r
      have hl := stepLoads_parkRegs d1 e c1
      generalize stepLoads d1 e c1 = l at hl ⊢
      obtain ⟨d2, c2, more⟩ := l
      dsimp only at hr hl
      by_cases hm : d1.missWaits e = true
      · simp [hm, hr]
      · simp only [hm, Bool.false_eq_true, if_false]
        cases more
        case true => simp [hr, hl]
        case false =>
          dsimp only
          rw [Dev.ite_parkRegs, ih]
          split <;> split <;> simp [hr, hl]

@[simp] theorem flushRecall_parkRegs (d : Dev) (s t : Nat) (f : Flush) (ts : List Target) :
    (flushRecall d s t f ts).parkRegs = d.parkRegs := by
  simp [flushRecall]

@[simp] theorem orphan_parkRegs (d : Dev) (i : Nat) : (orphan d i).parkRegs = d.parkRegs := by
  unfold orphan
  repeat' split
  all_goals simp

/-- Of PARK, `settle` moves what `parkFinish` moves. -/
theorem settle_parkRegs (d : Dev) : (settle d).parkRegs = d.parkRegs ∨ (settle d).parkRegs = (parkFinish (settleRecalls d)).parkRegs := by
  unfold settle
  simp only
  rw [Dev.each_parkRegs, Dev.each_parkRegs, Dev.each_parkRegs]
  · split
    · exact .inr (Dev.each_parkRegs _ _ _ settleMover_parkRegs)
    · exact .inl rfl
  · exact settleRun_parkRegs
  · exact settleFault_parkRegs
  · intro d e
    split
    · rfl
    · exact runCall_parkRegs e _ d

theorem settle_park_pace_resigned (d : Dev) :
    (settle d).park.pace = d.park.pace ∧ (settle d).park.resigned = d.park.resigned := by
  have hr := settleRecalls_parkRegs d
  rcases settle_parkRegs d with h | h
  · simp_all [Dev.parkRegs]
  · by_cases hst : (settleRecalls d).park.st = 1
    · rcases parkFinish_ends hst with hf | hf <;> simp_all [Dev.parkRegs]
    · have hf := parkFinish_parkRegs hst
      simp_all [Dev.parkRegs]

theorem settle_park_st_of_ne {d : Dev} (hst : d.park.st ≠ 1) : (settle d).park.st = d.park.st := by
  have hr := settleRecalls_parkRegs d
  rcases settle_parkRegs d with h | h
  · simp_all [Dev.parkRegs]
  · have hf := parkFinish_parkRegs (d := settleRecalls d) (by simp_all [Dev.parkRegs])
    simp_all [Dev.parkRegs]

theorem settle_park_st {d : Dev} (hst : d.park.st = 1) : (settle d).park.st = 1 ∨ (settle d).park.st = 2 := by
  have hr := settleRecalls_parkRegs d
  rcases settle_parkRegs d with h | h
  · simp_all [Dev.parkRegs]
  · rcases parkFinish_ends (d := settleRecalls d) (by simp_all [Dev.parkRegs]) with hf | hf <;> simp_all [Dev.parkRegs]

-- a device with nothing under way

theorem settleRecalls_of_none {d : Dev} (h : ∀ x ∈ d.xacts, ∀ ev, x.2.phase ≠ .recall [] ev) : settleRecalls d = d := by
  unfold settleRecalls
  rw [List.filter_eq_nil_iff.mpr ?_]
  · rfl
  · intro x hx
    split
    next ev hp => exact absurd hp (h x hx ev)
    next => simp

theorem parkFinish_of_ne {d : Dev} (h : d.park.st ≠ 1) : parkFinish d = d := if_neg (fun hc => h hc.1)

theorem settleRun_of_none {d : Dev} {e : Nat} (h : (d.engine e).running = none) : settleRun d e = d := by
  simp [settleRun, h]

theorem settleFault_of_none {d : Dev} {e : Nat} (h : (d.engine e).call = none) : settleFault d e = d := by
  simp [settleFault, h]

theorem runCall_of_none {d : Dev} {e : Nat} (n : Nat) (h : d.callOf e = none) : runCall e n d = d := by
  cases n with
  | zero => rfl
  | succ n => simp [runCall, h]

theorem settle_of_quiet {d : Dev} (h : d.quiet) : settle d = d := by
  obtain ⟨hmovers, hq0, hpark, hxacts, hengines⟩ := h
  have hcall : ∀ e < 25, d.callOf e = none := fun e he => by
    unfold Dev.callOf
    split
    · simp [hq0]
    next hne => exact (hengines e (by unfold q0Call at hne; omega)).1
  have hcore : (if d.islandRuns 10 then (parkFinish (settleRecalls d)).each ((parkFinish (settleRecalls d)).movers.map (·.1)) settleMover
      else d) = d := by
    rw [settleRecalls_of_none hxacts, parkFinish_of_ne hpark, hmovers]
    split <;> rfl
  unfold settle
  simp only
  rw [hcore, Dev.each_same d _ settleRun, Dev.each_same d _ settleFault, Dev.each_same]
  · intro e he
    split
    · rfl
    · exact runCall_of_none _ (hcall e (List.mem_range.mp he))
  · intro e he
    exact settleFault_of_none (hengines e (List.mem_range.mp (List.mem_of_mem_filter he))).1
  · intro e he
    exact settleRun_of_none (hengines e (List.mem_range.mp (List.mem_of_mem_filter he))).2

theorem Glob.eq_of_butLost {g g' : Glob} (h : { g with linesLost := 0 } = { g' with linesLost := 0 }) :
    { g with linesLost := g'.linesLost } = g' :=
  congrArg (fun x : Glob => { x with linesLost := g'.linesLost }) h

/-- Settles O7: `settle_still` and `settle_parkRegs` give what stays, and nothing under way leaves nothing to do. -/
theorem workUnderWay : Obligations.WorkUnderWay := by
  unfold Obligations.WorkUnderWay
  refine ⟨fun d => ?_, fun d h => settle_of_quiet h⟩
  have hstill := settle_still d
  simp only [Dev.still, Prod.mk.injEq] at hstill
  obtain ⟨hglob, hmem, hagents, hepochs, hmcs, hchans, hevqs, hresync, hmgt, hon, hfloor⟩ := hstill
  obtain ⟨hpace, hresigned⟩ := settle_park_pace_resigned d
  exact ⟨Glob.eq_of_butLost hglob, hmem, fun a => congrFun hagents a.toNat, hepochs, hmcs, hchans, hevqs, hresync, hmgt, hon, hfloor, hpace, hresigned,
    settle_park_st_of_ne, settle_park_st⟩

end Sys2Proof.Machine
end

section
/-! Proof of the statement on the table of device states: what each operation does to the device state, then what each command does. -/

open Sys2Proof

namespace Sys2Proof.Machine

-- operations that leave the device state alone

theorem dev_of_still {d d' : Dev} (h : d'.still = d.still) : d'.glob.dev = d.glob.dev := congrArg (fun x => x.1.dev) h

@[simp] theorem Dev.each_dev {α : Type} (d : Dev) (l : List α) (f : Dev → α → Dev) (h : ∀ d a, (f d a).glob.dev = d.glob.dev) :
    (d.each l f).glob.dev = d.glob.dev :=
  Dev.each_keeps (fun x => x.glob.dev = d.glob.dev) d l f rfl (fun x a _ hx => (h x a).trans hx)

@[simp] theorem foldl_dev {α : Type} (d : Dev) (l : List α) (f : Dev → α → Dev) (h : ∀ d a, (f d a).glob.dev = d.glob.dev) :
    (l.foldl f d).glob.dev = d.glob.dev := Dev.each_dev d l f h

@[simp] theorem Dev.ite_dev (c : Prop) [Decidable c] (a b : Dev) :
    (if c then a else b).glob.dev = if c then a.glob.dev else b.glob.dev := by
  split <;> rfl

@[simp] theorem Dev.drawn_dev (d : Dev) : d.drawn.glob.dev = d.glob.dev := rfl

@[simp] theorem Dev.updXact_dev (d : Dev) (i : Nat) (f : Xact → Xact) : (d.updXact i f).glob.dev = d.glob.dev := dev_of_still (by simp)

@[simp] theorem Dev.putSent_dev (d : Dev) (i : Nat) (x : Xact) : (Dev.putSent d i x).glob.dev = d.glob.dev := dev_of_still (by simp)

@[simp] theorem Dev.start_dev (d : Dev) (x : Xact) : (Dev.start d x).1.glob.dev = d.glob.dev := dev_of_still (by simp)

@[simp] theorem powerBusy_dev (d : Dev) (dom : Nat) (on : Bool) (reason : Nat) :
    (powerBusy d dom on reason).glob.dev = d.glob.dev := dev_of_still (by simp)

@[simp] theorem closePair_dev (d : Dev) (n cause : Nat) : (closePair d n cause).glob.dev = d.glob.dev := dev_of_still (by simp)

@[simp] theorem pairUpdated_dev (d : Dev) (n : Nat) : (pairUpdated d n).glob.dev = d.glob.dev := dev_of_still (by simp)

@[simp] theorem pairInterrupt_dev (d : Dev) (n : Nat) : (pairInterrupt d n).glob.dev = d.glob.dev := dev_of_still (by simp)

@[simp] theorem pushPacket_dev (d : Dev) (n : Nat) (ws : List Word) : (pushPacket d n ws).glob.dev = d.glob.dev := dev_of_still (by simp)

@[simp] theorem ackConflicts_dev (d : Dev) (p : Nat) : (ackConflicts d p).glob.dev = d.glob.dev := dev_of_still (by simp)

@[simp] theorem respondData_dev (d : Dev) (r : Req) (t0 : Nat) (data : Line) (poison : Bool) (m : Option Meta) :
    (respondData d r t0 data poison m).glob.dev = d.glob.dev := dev_of_still (by simp)

@[simp] theorem respondCmp_dev (d : Dev) (r : Req) (own : Bool) : (respondCmp d r own).glob.dev = d.glob.dev := dev_of_still (by simp)

@[simp] theorem Dev.setLab_dev (d : Dev) (l : Nat) (t : Tab LabEntry) : (Dev.setLab d l t).glob.dev = d.glob.dev := dev_of_still (by simp)

@[simp] theorem putTag_dev (d : Dev) (s cset way : Nat) (e : TagEntry) : (putTag d s cset way e).glob.dev = d.glob.dev := dev_of_still (by simp)

@[simp] theorem lockedInval_dev (d : Dev) (s : Nat) (sectors : List Nat) : (lockedInval d s sectors).glob.dev = d.glob.dev := dev_of_still (by simp)

@[simp] theorem install_dev (d : Dev) (s dpa way : Nat) (data : Line) (poison old : Bool) :
    (install d s dpa way data poison old).glob.dev = d.glob.dev := dev_of_still (by simp)

@[simp] theorem dropSide_dev (d : Dev) (s line : Nat) : (dropSide d s line).glob.dev = d.glob.dev := dev_of_still (by simp)

@[simp] theorem markNoAlloc_dev (d : Dev) (i : Nat) : (markNoAlloc d i).glob.dev = d.glob.dev := dev_of_still (by simp)

@[simp] theorem markWhere_dev (d : Dev) (s : Nat) (f : Xact → Bool) : (markWhere d s f).glob.dev = d.glob.dev := dev_of_still (by simp)

@[simp] theorem putDir_dev (d : Dev) (s dset way : Nat) (e : DirEntry) : (putDir d s dset way e).glob.dev = d.glob.dev := dev_of_still (by simp)

@[simp] theorem finish_dev (d : Dev) (i : Nat) (data : Line) (poison ok : Bool) :
    (finish d i data poison ok).glob.dev = d.glob.dev := dev_of_still (by simp)

@[simp] theorem sendSnoop_dev (d : Dev) (p : Nat) (s : Snoop) (vpn : Nat) : (sendSnoop d p s vpn).glob.dev = d.glob.dev := dev_of_still (by simp)

@[simp] theorem portRecall_dev (d : Dev) (p : Nat) (a : BitVec 12) (line : Nat) (data : Bool) :
    (portRecall d p a line data).glob.dev = d.glob.dev := dev_of_still (by simp)

@[simp] theorem startRecall_dev (d : Dev) (i : Nat) (line : Nat) (ts : List Target) (dw : Option Nat) (evict : Option Nat) :
    (startRecall d i line ts dw evict).glob.dev = d.glob.dev := dev_of_still (by simp)

@[simp] theorem readStage_dev (d : Dev) (i : Nat) : (readStage d i).glob.dev = d.glob.dev := dev_of_still (by simp)

@[simp] theorem writeStage_dev (d : Dev) (i : Nat) : (writeStage d i).glob.dev = d.glob.dev := dev_of_still (by simp)

@[simp] theorem dirNote_dev (d : Dev) (s sub dset : Nat) (way : Option Nat) (agent : BitVec 12) :
    (dirNote d s sub dset way agent).glob.dev = d.glob.dev := dev_of_still (by simp)

@[simp] theorem loseLine_dev (d : Dev) (s dpa : Nat) (a : BitVec 12) (ep : BitVec 4) : (loseLine d s dpa a ep).glob.dev = d.glob.dev := dev_of_still (by simp)

@[simp] theorem resolveEntry_dev (d : Dev) (s dset way : Nat) : (resolveEntry d s dset way).1.glob.dev = d.glob.dev := dev_of_still (by simp)

@[simp] theorem resolveLine_dev (d : Dev) (s dpa : Nat) : (resolveLine d s dpa).glob.dev = d.glob.dev := dev_of_still (by simp)

@[simp] theorem cmoEnd_dev (d : Dev) (i : Nat) : (cmoEnd d i).glob.dev = d.glob.dev := dev_of_still (by simp)

@[simp] theorem preloadStage_dev (d : Dev) (i : Nat) (lgrp : BitVec 4) : (preloadStage d i lgrp).glob.dev = d.glob.dev := dev_of_still (by simp)

@[simp] theorem dataStage_dev (d : Dev) (i : Nat) : (dataStage d i).glob.dev = d.glob.dev := dev_of_still (by simp)

@[simp] theorem applyDir_dev (d : Dev) (i : Nat) : (applyDir d i).glob.dev = d.glob.dev := dev_of_still (by simp)

@[simp] theorem allocDir_dev (d : Dev) (i : Nat) (way : Nat) : (allocDir d i way).glob.dev = d.glob.dev := dev_of_still (by simp)

@[simp] theorem toRetry_dev (d : Dev) (i : Nat) : (toRetry d i).glob.dev = d.glob.dev := dev_of_still (by simp)

@[simp] theorem relookup_dev (d : Dev) (i : Nat) : (relookup d i).glob.dev = d.glob.dev := dev_of_still (by simp)

@[simp] theorem recallDone_dev (d : Dev) (i : Nat) : (recallDone d i).glob.dev = d.glob.dev := dev_of_still (by simp)

@[simp] theorem chanEvent_dev (d : Dev) (c cause cls sev dpa symbols : Nat) :
    (chanEvent d c cause cls sev dpa symbols).glob.dev = d.glob.dev := dev_of_still (by simp)

@[simp] theorem overLimit_dev (d : Dev) (r : Req) : (overLimit d r).glob.dev = d.glob.dev := dev_of_still (by simp)

@[simp] theorem startDrain_dev (d : Dev) (t cause : Nat) (retiring : Bool) :
    (startDrain d t cause retiring).glob.dev = d.glob.dev := dev_of_still (by simp)

@[simp] theorem goOnline_dev (d : Dev) (t : Nat) : (goOnline d t).glob.dev = d.glob.dev := dev_of_still (by simp)

@[simp] theorem labiIssue_dev (d : Dev) (e form : Nat) (view : BitVec 12) (gran : BitVec 2) (vpn : Nat) :
    (labiIssue d e form view gran vpn).1.glob.dev = d.glob.dev := dev_of_still (by simp)

@[simp] theorem Dev.setCall_dev (d : Dev) (e : Nat) (c : Option Call) : (Dev.setCall d e c).glob.dev = d.glob.dev := dev_of_still (by simp)

@[simp] theorem mvCheck_dev (d : Dev) (e line : Nat) (c : Ecc) : (mvCheck d e line c).glob.dev = d.glob.dev := dev_of_still (by simp)

@[simp] theorem cacheLine_dev (d : Dev) (e i : Nat) : (cacheLine d e i).glob.dev = d.glob.dev := dev_of_still (by simp)

@[simp] theorem mvEvict_dev (d : Dev) (e line : Nat) : (mvEvict d e line).glob.dev = d.glob.dev := dev_of_still (by simp)

@[simp] theorem callFaultAt_dev (d : Dev) (e dpa : Nat) : (callFaultAt d e dpa).glob.dev = d.glob.dev := dev_of_still (by simp)

@[simp] theorem callFault_dev (d : Dev) (e : Nat) (x : Xact) : (callFault d e x).glob.dev = d.glob.dev := dev_of_still (by simp)

@[simp] theorem rmwReq_dev (d : Dev) (e : Nat) (c : Call) (dpa : Nat) (k : Rmw) : (rmwReq d e c dpa k).1.glob.dev = d.glob.dev := dev_of_still (by simp)

@[simp] theorem dcEvent_dev (d : Dev) (src p m region base : Nat) (accepted : Bool) :
    (dcEvent d src p m region base accepted).glob.dev = d.glob.dev := dev_of_still (by simp)

@[simp] theorem mailboxDone_dev (d : Dev) (p m op code : Nat) (payload : List Nat) :
    (mailboxDone d p m op code payload).glob.dev = d.glob.dev := dev_of_still (by simp)

@[simp] theorem countWalk_dev (d : Dev) (s n : Nat) : (countWalk d s n).glob.dev = d.glob.dev := dev_of_still (by simp)

@[simp] theorem haltMover_dev (d : Dev) (key reason : Nat) (op : MoverOp) :
    (haltMover d key reason op).glob.dev = d.glob.dev := dev_of_still (by simp)

@[simp] theorem backToUser_dev (d : Dev) (e : Nat) : (backToUser d e).glob.dev = d.glob.dev := dev_of_still (by simp)

@[simp] theorem endRun_dev (d : Dev) (e status : Nat) (ws : List Word) : (endRun d e status ws).glob.dev = d.glob.dev := dev_of_still (by simp)

@[simp] theorem labwPut_dev (d : Dev) (l : Nat) (view : BitVec 12) (gran : BitVec 2) (vpn : Nat) (p : Pte) (lock : Bool) :
    (labwPut d l view gran vpn p lock).1.glob.dev = d.glob.dev := dev_of_still (by simp)

@[simp] theorem setLabres_dev (d : Dev) (e n : Nat) : (setLabres d e n).glob.dev = d.glob.dev := dev_of_still (by simp)

@[simp] theorem handlerPut_dev (d : Dev) (e l : Nat) (view : BitVec 12) (g n : Nat) (p : Pte) :
    (handlerPut d e l view g n p).glob.dev = d.glob.dev := dev_of_still (by simp)

@[simp] theorem settle_dev (d : Dev) : (settle d).glob.dev = d.glob.dev := dev_of_still (by simp)

@[simp] theorem flushRecall_dev (d : Dev) (s t : Nat) (f : Flush) (ts : List Target) :
    (flushRecall d s t f ts).glob.dev = d.glob.dev := dev_of_still (by simp)

@[simp] theorem orphan_dev (d : Dev) (i : Nat) : (orphan d i).glob.dev = d.glob.dev := dev_of_still (by simp)

@[simp] theorem markHandlers_dev (d : Dev) (e : Nat) : (markHandlers d e).glob.dev = d.glob.dev := by
  simp [markHandlers]

@[simp] theorem abandonSnapshot_dev (d : Dev) : (abandonSnapshot d).glob.dev = d.glob.dev := by
  simp [abandonSnapshot]

@[simp] theorem haltEngine_dev (d : Dev) (e cause : Nat) (double : Bool) : (haltEngine d e cause double).glob.dev = d.glob.dev := by
  simp [haltEngine]

@[simp] theorem trap_dev (d : Dev) (e cause : Nat) (tpc : BitVec 14) (tval : Info) (imprecise : Bool) :
    (trap d e cause tpc tval imprecise).glob.dev = d.glob.dev := by
  simp [trap]

@[simp] theorem trapHere_dev (d : Dev) (e cause : Nat) (tval : Info) : (trapHere d e cause tval).glob.dev = d.glob.dev := by
  simp [trapHere]

@[simp] theorem fetchCheck_dev (d : Dev) (e i : Nat) (c : Ecc) (ok : Dev → Dev) (hok : ∀ d, (ok d).glob.dev = d.glob.dev) :
    (fetchCheck d e i c ok).glob.dev = d.glob.dev := by
  unfold fetchCheck
  repeat' split
  all_goals simp_all

@[simp] theorem runInstr_dev (d : Dev) (x : Env) (row : Word) (illegal priv : Bool) (body : Dev → Dev) (hbody : ∀ d, (body d).glob.dev = d.glob.dev) :
    (runInstr d x row illegal priv body).glob.dev = d.glob.dev := by
  unfold runInstr
  dsimp only
  repeat' split
  all_goals simp_all

@[simp] theorem scratchCheck_dev (d : Dev) (e i : Nat) (c : Ecc) (ok : Dev → Dev) (hok : ∀ d, (ok d).glob.dev = d.glob.dev) :
    (scratchCheck d e i c ok).glob.dev = d.glob.dev := by
  unfold scratchCheck
  repeat' split
  all_goals simp_all

@[simp] theorem queueAccess_dev (d : Dev) (n reason : Nat) (o : Origin) (evq : Bool) :
    (queueAccess d n reason o evq).glob.dev = d.glob.dev := by
  simp [queueAccess]

@[simp] theorem closePortPairs_dev (d : Dev) (port cause : Nat) : (closePortPairs d port cause).glob.dev = d.glob.dev := by
  simp [closePortPairs]

@[simp] theorem pairDiffers_dev (d : Dev) (n : Nat) (i : Option (BitVec 2)) : (pairDiffers d n i).glob.dev = d.glob.dev := by
  simp [pairDiffers]

@[simp] theorem openPair_dev (d : Dev) (n port ld : Nat) (value : BitVec 32) : (openPair d n port ld value).glob.dev = d.glob.dev := by
  simp [openPair]

@[simp] theorem openDone_dev (d : Dev) (n : Nat) : (openDone d n).glob.dev = d.glob.dev := by
  simp [openDone]

@[simp] theorem popTo_dev (d : Dev) (n e : Nat) (a : Info) (g : Nat) : (popTo d n e a g).glob.dev = d.glob.dev := by
  simp [popTo]

@[simp] theorem popPacket_dev (d : Dev) (n e : Nat) (a : Info) (g : Nat) : (popPacket d n e a g).glob.dev = d.glob.dev := by
  simp [popPacket]

@[simp] theorem serveWaiter_dev (d : Dev) (n : Nat) : (serveWaiter d n).glob.dev = d.glob.dev := by
  unfold serveWaiter
  dsimp only
  repeat' split
  all_goals simp

@[simp] theorem serveWaiters_dev (d : Dev) (n : Nat) : (serveWaiters d n).glob.dev = d.glob.dev := by
  simp [serveWaiters]

@[simp] theorem tryCommit_dev (d : Dev) (n : Nat) : (tryCommit d n).glob.dev = d.glob.dev := by
  unfold tryCommit
  dsimp only
  split <;> simp

@[simp] theorem endPopped_dev (d : Dev) (e n : Nat) (ws : List Word) : (endPopped d e n ws).glob.dev = d.glob.dev := by
  simp [endPopped]

@[simp] theorem moveCplHead_dev (d : Dev) (n : Nat) (v : BitVec 8) : (moveCplHead d n v).glob.dev = d.glob.dev := by
  unfold moveCplHead
  dsimp only
  rw [Dev.each_dev]
  · simp
  · intro d e
    repeat' split
    all_goals simp

@[simp] theorem evqInterrupt_dev (d : Dev) (q : Nat) : (evqInterrupt d q).glob.dev = d.glob.dev := by
  simp [evqInterrupt]

@[simp] theorem ldCopy_dev (d : Dev) (q : Nat) (r : Rec) : (ldCopy d q r).glob.dev = d.glob.dev := by
  simp [ldCopy]

@[simp] theorem evqMismatch_dev (d : Dev) (q : Nat) (headBad : Bool) : (evqMismatch d q headBad).glob.dev = d.glob.dev := by
  simp [evqMismatch]

@[simp] theorem evqDiffers_dev (d : Dev) (q : Nat) (h : Option Bool) : (evqDiffers d q h).glob.dev = d.glob.dev := by
  simp [evqDiffers]

@[simp] theorem toEvq_dev (d : Dev) (q : Nat) (r : Rec) (ptrErr : Option Bool) : (toEvq d q r ptrErr).glob.dev = d.glob.dev := by
  unfold toEvq
  dsimp only
  repeat' split
  all_goals simp

@[simp] theorem moveEvqHead_dev (d : Dev) (o : Origin) (q : Nat) (v : BitVec 8) (ptrErr : Option Bool) :
    (moveEvqHead d o q v ptrErr).glob.dev = d.glob.dev := by
  unfold moveEvqHead
  dsimp only
  repeat' split
  all_goals simp

@[simp] theorem takeWake_dev (d : Dev) (e : Nat) : (takeWake d e).glob.dev = d.glob.dev := by
  unfold takeWake
  split <;> simp

@[simp] theorem unsend_dev (d : Dev) (e : Nat) (r : Rec) : (unsend d e r).glob.dev = d.glob.dev := by
  simp [unsend]

@[simp] theorem dropWake_dev (d : Dev) (e : Nat) (r : Rec) : (dropWake d e r).glob.dev = d.glob.dev := by
  simp [dropWake]

@[simp] theorem toWake_dev (d : Dev) (e : Nat) (r : Rec) : (toWake d e r).glob.dev = d.glob.dev := by
  unfold toWake
  dsimp only
  repeat' split
  all_goals simp

@[simp] theorem deliver_dev (d : Dev) (r : Rec) (ptrErr : Option Bool) : (deliver d r ptrErr).glob.dev = d.glob.dev := by
  simp [deliver]

@[simp] theorem fabricTransfer_dev (d : Dev) (parityOk : Bool) (ptrErr : Option Bool) :
    (fabricTransfer d parityOk ptrErr).glob.dev = d.glob.dev := by
  unfold fabricTransfer
  dsimp only
  repeat' split
  all_goals simp

@[simp] theorem resyncStart_dev (d : Dev) (who : Word) : (resyncStart d who).glob.dev = d.glob.dev := by
  simp [resyncStart]

@[simp] theorem resyncRequest_dev (d : Dev) (o : Origin) : (resyncRequest d o).glob.dev = d.glob.dev := by
  simp [resyncRequest]

@[simp] theorem loseCells_dev (d : Dev) (t : Nat) : (loseCells d t).glob.dev = d.glob.dev := by
  simp [loseCells]

@[simp] theorem cutTest_dev (d : Dev) (t : Nat) : (cutTest d t).glob.dev = d.glob.dev := by
  simp [cutTest]

@[simp] theorem cutTests_dev (d : Dev) : (cutTests d).glob.dev = d.glob.dev := by
  simp [cutTests]

@[simp] theorem rlogPut_dev (d : Dev) (i : Nat) (w : Word) : (rlogPut d i w).glob.dev = d.glob.dev := by
  simp [rlogPut]

@[simp] theorem recordFatal_dev (d : Dev) (cause : Nat) (i : Info) : (recordFatal d cause i).glob.dev = d.glob.dev := by
  simp [recordFatal]

@[simp] theorem failRequest_dev (d : Dev) (r : Req) (t0 kind : Nat) : (failRequest d r t0 kind).glob.dev = d.glob.dev := by
  unfold failRequest
  split <;> simp

@[simp] theorem labLookup_dev (d : Dev) (l : Nat) (view : BitVec 12) (gran : BitVec 2) (va : Nat) (c : Ecc) :
    (labLookup d l view gran va c).1.glob.dev = d.glob.dev := by
  unfold labLookup
  repeat' split
  all_goals simp

@[simp] theorem parkRequest_dev (d : Dev) (p : Nat) (r : Req) :
    (parkRequest d p r).1.glob.dev = d.glob.dev := by
  unfold parkRequest
  dsimp only
  repeat' split
  all_goals simp

@[simp] theorem translateHost_dev (d : Dev) (p : Nat) (x : Xact) (c : Ecc) : (translateHost d p x c).glob.dev = d.glob.dev := by
  unfold translateHost
  dsimp only
  repeat' split
  all_goals simp

@[simp] theorem freeSlot_dev (d : Dev) (p k : Nat) : (freeSlot d p k).glob.dev = d.glob.dev := by
  simp [freeSlot]

@[simp] theorem failSlot_dev (d : Dev) (p k : Nat) : (failSlot d p k).glob.dev = d.glob.dev := by
  simp [failSlot]

@[simp] theorem relook_dev (d : Dev) (p : Nat) (since : Nat) (i : Nat) (x : Xact) : (relook d p since i x).glob.dev = d.glob.dev := by
  have h := labLookup_dev d p x.req.view x.req.gran x.req.va .ok
  unfold relook
  dsimp only
  generalize labLookup d p x.req.view x.req.gran x.req.va .ok = r at h ⊢
  obtain ⟨d1, l⟩ := r
  repeat' split
  all_goals simp_all

@[simp] theorem endSlot_dev (d : Dev) (p k : Nat) : (endSlot d p k).glob.dev = d.glob.dev := by
  simp [endSlot]

@[simp] theorem slotTimeout_dev (d : Dev) (p k : Nat) : (slotTimeout d p k).glob.dev = d.glob.dev := by
  unfold slotTimeout
  split <;> simp

@[simp] theorem checkTags_dev (d : Dev) (s cset : Nat) (err : Option (Fin 16 × Ecc × Ecc)) (who : Who) :
    (checkTags d s cset err who).glob.dev = d.glob.dev := by
  unfold checkTags
  dsimp only
  apply Dev.each_dev
  intro d a
  repeat' split
  all_goals simp

@[simp] theorem noteUnknown_dev (d : Dev) (s dset : Nat) : (noteUnknown d s dset).glob.dev = d.glob.dev := by
  simp [noteUnknown]

@[simp] theorem ldBind_dev (d : Dev) (p m : Nat) (a : BitVec 12) (ep : BitVec 4) (attach db : Bool) :
    (ldBind d p m a ep attach db).glob.dev = d.glob.dev := by
  simp [ldBind]

@[simp] theorem withdrawOffers_dev (d : Dev) (p m : Nat) : (withdrawOffers d p m).glob.dev = d.glob.dev := by
  simp [withdrawOffers]

@[simp] theorem resign_dev (d : Dev) (a : BitVec 12) (cause : Nat) : (resign d a cause).glob.dev = d.glob.dev := by
  unfold resign
  dsimp only
  split
  · rfl
  · split
    · rfl
    · split
      · split <;> split <;> simp
      · rw [foldl_dev]
        · split <;> split <;> simp
        · intro d s
          split
          · exact foldl_dev _ _ _ (by simp)
          · rfl

@[simp] theorem dirVictim_dev (d : Dev) (s dset : Nat) : (dirVictim d s dset).1.glob.dev = d.glob.dev := by
  unfold dirVictim
  dsimp only
  split <;> simp

@[simp] theorem rebuildAge_dev (d : Dev) (s dset : Nat) (w : Option (Fin 16)) : (rebuildAge d s dset w).glob.dev = d.glob.dev := by
  unfold rebuildAge
  split <;> simp

@[simp] theorem queuePrefetch_dev (d : Dev) (s : Nat) (r : Req) (dpa : Nat) : (queuePrefetch d s r dpa).glob.dev = d.glob.dev := by
  simp [queuePrefetch]

@[simp] theorem detect_dev (d : Dev) (s : Nat) (r : Req) : (detect d s r).glob.dev = d.glob.dev := by
  simp [detect]

@[simp] theorem readAhead_dev (d : Dev) (i : Nat) : (readAhead d i).glob.dev = d.glob.dev := by
  unfold readAhead
  split <;> simp

@[simp] theorem lookupUnk_dev (d : Dev) (i : Nat) (x : Xact) : (lookupUnk d i x).glob.dev = d.glob.dev := by
  unfold lookupUnk
  dsimp only
  repeat' split
  all_goals simp

@[simp] theorem dropAhead_dev (d : Dev) (i : Nat) : (dropAhead d i).glob.dev = d.glob.dev := by
  simp [dropAhead]

@[simp] theorem passRecalls_dev (d : Dev) (x : Xact) : (passRecalls d x).glob.dev = d.glob.dev := by
  simp [passRecalls]

@[simp] theorem markDue_dev (d : Dev) (a : BitVec 12) (line : Nat) : (markDue d a line).glob.dev = d.glob.dev := by
  simp [markDue]

@[simp] theorem recallLost_dev (d : Dev) (i : Nat) (x : Xact) (line : Nat) (t : Target) :
    (recallLost d i x line t).glob.dev = d.glob.dev := by
  unfold recallLost
  dsimp only
  repeat' split
  all_goals simp

@[simp] theorem answerOne_dev (d : Dev) (a : BitVec 12) (line : Nat) (kept lost dataOnly : Bool) (i : Nat) :
    (answerOne d a line kept lost dataOnly i).glob.dev = d.glob.dev := by
  unfold answerOne
  repeat' split
  all_goals simp

@[simp] theorem answerNow_dev (d : Dev) (a : BitVec 12) (line : Nat) (kept lost dataOnly : Bool) :
    (answerNow d a line kept lost dataOnly).glob.dev = d.glob.dev := by
  simp [answerNow]

@[simp] theorem answer_dev (d : Dev) (a : BitVec 12) (line : Nat) (kept lost dataOnly : Bool) :
    (answer d a line kept lost dataOnly).glob.dev = d.glob.dev := by
  simp [answer]

@[simp] theorem takeAnswers_dev (d : Dev) : (takeAnswers d).glob.dev = d.glob.dev := by
  simp [takeAnswers]

@[simp] theorem answerAll_dev (d : Dev) (a : BitVec 12) : (answerAll d a).glob.dev = d.glob.dev := by
  simp [answerAll]

@[simp] theorem retryRecalls_dev (d : Dev) (line : Nat) : (retryRecalls d line).glob.dev = d.glob.dev := by
  simp [retryRecalls]

@[simp] theorem mergeReads_dev (d : Dev) (data : Line) (poison : Bool) (l : List (Nat × Xact)) (n : Nat) :
    (mergeReads d data poison l n).glob.dev = d.glob.dev := by
  induction n generalizing d l with
  | zero => cases l <;> simp [mergeReads]
  | succ n ih =>
    cases l with
    | nil => simp [mergeReads]
    | cons a l =>
      simp only [mergeReads]
      split
      · rw [ih]
        simp
      · rfl

@[simp] theorem demandFill_dev (d : Dev) (i : Nat) (x : Xact) (way : Option Nat) (noAlloc : Bool) (data : Line) (poison err : Bool) :
    (demandFill d i x way noAlloc data poison err).glob.dev = d.glob.dev := by
  unfold demandFill
  repeat' split
  all_goals simp

@[simp] theorem fillReturn_dev (d : Dev) (i : Nat) : (fillReturn d i).glob.dev = d.glob.dev := by
  unfold fillReturn
  repeat' split
  all_goals simp

@[simp] theorem orderMarks_dev (d : Dev) (s : Nat) (x : Xact) : (orderMarks d s x).glob.dev = d.glob.dev := by
  unfold orderMarks
  split <;> simp

@[simp] theorem arriveOne_dev (d : Dev) (s : Nat) (i : Nat) : (arriveOne d s i).glob.dev = d.glob.dev := by
  unfold arriveOne
  split <;> simp

@[simp] theorem arrive_dev (d : Dev) (s : Nat) (ids : List Nat) : (arrive d s ids).glob.dev = d.glob.dev := by
  simp [arrive]

@[simp] theorem passOver_dev (d : Dev) (s : Nat) (who : Option Nat) :
    (passOver d s who).glob.dev = d.glob.dev := by
  simp [passOver]

@[simp] theorem checkSide_dev (d : Dev) (s : Nat) (x : Xact) (err : Ecc) : (checkSide d s x err).glob.dev = d.glob.dev := by
  simp [checkSide]

@[simp] theorem guardEngage_dev (d : Dev) (s i : Nat) : (guardEngage d s i).glob.dev = d.glob.dev := by
  unfold guardEngage
  split <;> simp

@[simp] theorem checkFill_dev (d : Dev) (c csec : Nat) : (checkFill d c csec).glob.dev = d.glob.dev := by
  simp [checkFill]

@[simp] theorem checkRead_dev (d : Dev) (line : Nat) (r : Counted) (chk : Ecc) : (checkRead d line r chk).glob.dev = d.glob.dev := by
  unfold checkRead
  dsimp only
  repeat' split
  all_goals simp

@[simp] theorem repairLater_dev (d : Dev) (line : Nat) (data : Line) (poison : Bool) :
    (repairLater d line data poison).glob.dev = d.glob.dev := by
  simp [repairLater]

@[simp] theorem dropRepair_dev (d : Dev) (line : Nat) : (dropRepair d line).glob.dev = d.glob.dev := by
  simp [dropRepair]

@[simp] theorem checkEntries_dev (d : Dev) (line : Nat) (c : Ecc) : (checkEntries d line c).glob.dev = d.glob.dev := by
  simp [checkEntries]

@[simp] theorem readLine_dev (d : Dev) (line symbols : Nat) (wrongAddr : Bool) (who : Who) :
    (readLine d line symbols wrongAddr who).1.glob.dev = d.glob.dev := by
  unfold readLine
  split <;> simp

@[simp] theorem moverWriteLate_dev (d : Dev) (i : Nat) (x : Xact) : (moverWriteLate d i x).glob.dev = d.glob.dev := by
  unfold moverWriteLate
  split <;> simp

@[simp] theorem readTimesOut_dev (d : Dev) (i : Nat) : (readTimesOut d i).glob.dev = d.glob.dev := by
  unfold readTimesOut
  split <;> simp

@[simp] theorem takeEntry_dev (d : Dev) (i : Nat) (x : Xact) (bad : Nat) : (takeEntry d i x bad).glob.dev = d.glob.dev := by
  unfold takeEntry
  split <;> simp

@[simp] theorem ackWrite_dev (d : Dev) (i : Nat) : (ackWrite d i).glob.dev = d.glob.dev := by
  unfold ackWrite
  repeat' split
  all_goals simp

@[simp] theorem ageEntry_dev (d : Dev) (m line : Nat) : (ageEntry d m line).glob.dev = d.glob.dev := by
  simp [ageEntry]

@[simp] theorem wbUeFound_dev (d : Dev) (m : Nat) (e : WbEntry) : (wbUeFound d m e).glob.dev = d.glob.dev := by
  simp [wbUeFound]

@[simp] theorem drainEntry_dev (d : Dev) (m : Nat) (dataUe : List Nat) (e : WbEntry) :
    (drainEntry d m dataUe e).glob.dev = d.glob.dev := by
  simp [drainEntry]

@[simp] theorem endBatches_dev (d : Dev) (m : Nat) : (endBatches d m).glob.dev = d.glob.dev := by
  simp [endBatches]

@[simp] theorem drainAll_dev (d : Dev) (m : Nat) : (drainAll d m).glob.dev = d.glob.dev := by
  simp [drainAll]

@[simp] theorem mergeRead_dev (d : Dev) (line symbols : Nat) (wrongAddr : Bool) :
    (mergeRead d line symbols wrongAddr).1.glob.dev = d.glob.dev := by
  unfold mergeRead
  split <;> simp

@[simp] theorem mergeWaiters_dev (d : Dev) (line : Nat) : (mergeWaiters d line).glob.dev = d.glob.dev := by
  unfold mergeWaiters
  dsimp only
  split
  · rw [Dev.each_dev]
    · simp
    · intro d i
      split <;> simp
  · simp

@[simp] theorem endDrains_dev (d : Dev) : (endDrains d).glob.dev = d.glob.dev := by
  simp [endDrains]

@[simp] theorem blocks_dev (d : Dev) (c ns : Nat) : (blocks d c ns).glob.dev = d.glob.dev := by
  simp [blocks]

@[simp] theorem zqLatch_dev (d : Dev) (c : Nat) : (zqLatch d c).glob.dev = d.glob.dev := by
  simp [zqLatch]

@[simp] theorem retrainDq_dev (d : Dev) (c : Nat) (ok : Bool) : (retrainDq d c ok).glob.dev = d.glob.dev := by
  simp [retrainDq]

@[simp] theorem readMr4_dev (d : Dev) (c : Nat) (code : BitVec 3) (hot : Bool) : (readMr4 d c code hot).glob.dev = d.glob.dev := by
  simp [readMr4]

@[simp] theorem flipFirst_dev (d : Dev) (s : Nat) (f : Nat → Nat → Bool) : (flipFirst d s f).glob.dev = d.glob.dev := by
  unfold flipFirst
  repeat' split
  all_goals simp

@[simp] theorem clearTags_dev (d : Dev) (s : Nat) (f : Nat → Nat → Bool) : (clearTags d s f).glob.dev = d.glob.dev := by
  simp [clearTags]

@[simp] theorem walkEnd_dev (d : Dev) (t : Nat) : (walkEnd d t).glob.dev = d.glob.dev := by
  simp [walkEnd]

@[simp] theorem bankWalkEnd_dev (d : Dev) (t b : Nat) : (bankWalkEnd d t b).glob.dev = d.glob.dev := by
  simp [bankWalkEnd]

@[simp] theorem tileReturn_dev (d : Dev) (i : Nat) (err : Ecc) : (tileReturn d i err).glob.dev = d.glob.dev := by
  unfold tileReturn
  dsimp only
  repeat' split
  all_goals simp

@[simp] theorem noAnswer_dev (d : Dev) (t : Nat) : (noAnswer d t).glob.dev = d.glob.dev := by
  simp [noAnswer]

@[simp] theorem drainThrough_dev (d : Dev) (l : Nat) (x : LabEntry) : (drainThrough d l x).glob.dev = d.glob.dev := by
  simp [drainThrough]

@[simp] theorem labiEffect_dev (d : Dev) (e id : Nat) : (labiEffect d e id).glob.dev = d.glob.dev := by
  unfold labiEffect
  split <;> simp

@[simp] theorem moverRead_dev (d : Dev) (key : Nat) (staging : Ecc) : (moverRead d key staging).glob.dev = d.glob.dev := by
  unfold moverRead
  split <;> simp

@[simp] theorem labwSlot_dev (d : Dev) (e p k : Nat) (put : Option (BitVec 12 × BitVec 2 × Nat × Pte × Bool)) :
    (labwSlot d e p k put).1.glob.dev = d.glob.dev := by
  unfold labwSlot
  repeat' split
  all_goals simp

@[simp] theorem handlerRead_dev (d : Dev) (e line : Nat) : (handlerRead d e line).glob.dev = d.glob.dev := by
  simp [handlerRead]

@[simp] theorem missReads_dev (d : Dev) (e : Nat) (view : BitVec 12) (va : Nat) :
    (missReads d e view va).glob.dev = d.glob.dev := by
  simp [missReads]

@[simp] theorem handleMiss_dev (d : Dev) (e : Nat) (r : Rec) : (handleMiss d e r).glob.dev = d.glob.dev := by
  unfold handleMiss
  dsimp only
  split <;> simp

@[simp] theorem handlerTurn_dev (d : Dev) (e : Nat) : (handlerTurn d e).glob.dev = d.glob.dev := by
  unfold handlerTurn
  dsimp only
  repeat' split
  all_goals simp

@[simp] theorem portAnswer_dev (d : Dev) (h : M2S) (l : Ld) (op : Op) : (portAnswer d h l op).glob.dev = d.glob.dev := by
  simp [portAnswer]

@[simp] theorem resignedRequest_dev (d : Dev) (h : M2S) (l : Ld) (op : Op) : (resignedRequest d h l op).glob.dev = d.glob.dev := by
  simp [resignedRequest]

@[simp] theorem recoveryRequest_dev (d : Dev) (h : M2S) (l : Ld) (op : Op) : (recoveryRequest d h l op).glob.dev = d.glob.dev := by
  simp [recoveryRequest]

@[simp] theorem matchedWrite_dev (d : Dev) (h : M2S) (x : Xact) (s : Snoop) (l : Ld) :
    (matchedWrite d h x s l).glob.dev = d.glob.dev := by
  unfold matchedWrite
  dsimp only
  split <;> simp

@[simp] theorem hostRequest_dev (d : Dev) (h : M2S) (opOf : Bool → Op) (data : Line) (mask : Mask) (poison : Bool) :
    (hostRequest d h opOf data mask poison).glob.dev = d.glob.dev := by
  unfold hostRequest
  dsimp only
  repeat' split
  all_goals simp

@[simp] theorem setRas_dev (d : Dev) (p : Nat) (ld : Option Nat) (bit : Nat) (correctable : Bool) :
    (setRas d p ld bit correctable).glob.dev = d.glob.dev := by
  unfold setRas
  dsimp only
  split <;> simp

@[simp] theorem protocol_dev (d : Dev) (p : Nat) (ld : Option Nat) (bit : Nat) (correctable : Bool) (birsp : Option (BitVec 12)) :
    (protocol d p ld bit correctable birsp).glob.dev = d.glob.dev := by
  simp [protocol]

@[simp] theorem protocolError_dev (d : Dev) (p m : Nat) (a : BitVec 12) : (protocolError d p m a).glob.dev = d.glob.dev := by
  simp [protocolError]

@[simp] theorem birspCounted_dev (d : Dev) (p : Nat) (l : Ld) (line : Option Nat) :
    (birspCounted d p l line).glob.dev = d.glob.dev := by
  simp [birspCounted]

@[simp] theorem birsp_dev (d : Dev) (p m hpa : Nat) (kept : Bool) : (birsp d p m hpa kept).glob.dev = d.glob.dev := by
  unfold birsp
  dsimp only
  repeat' split
  all_goals simp

@[simp] theorem biConflict_dev (d : Dev) (h : M2S) : (biConflict d h).glob.dev = d.glob.dev := by
  unfold biConflict
  dsimp only
  repeat' split
  all_goals simp

@[simp] theorem unreachable_dev (d : Dev) (s : Snoop) : (unreachable d s).glob.dev = d.glob.dev := by
  unfold unreachable
  simp_all

@[simp] theorem reverseReturn_dev (d : Dev) (p frame : Nat) : (reverseReturn d p frame).glob.dev = d.glob.dev := by
  unfold reverseReturn
  repeat' split
  all_goals simp

@[simp] theorem engineRecall_dev (d : Dev) (e line : Nat) : (engineRecall d e line).glob.dev = d.glob.dev := by
  simp [engineRecall]

@[simp] theorem snoopTimeout_dev (d : Dev) (p : Nat) (a : BitVec 12) (line : Nat) : (snoopTimeout d p a line).glob.dev = d.glob.dev := by
  unfold snoopTimeout
  repeat' split
  all_goals simp_all

@[simp] theorem endResignation_dev (d : Dev) (a : BitVec 12) : (endResignation d a).glob.dev = d.glob.dev := by
  unfold endResignation
  split <;> simp

@[simp] theorem resignationPoint_dev (d : Dev) (a : BitVec 12) : (resignationPoint d a).glob.dev = d.glob.dev := by
  unfold resignationPoint
  split <;> simp

@[simp] theorem passStart_dev (d : Dev) : (passStart d).glob.dev = d.glob.dev := by
  simp [passStart]

@[simp] theorem flushEnd_dev (d : Dev) (s dset : Nat) : (flushEnd d s dset).glob.dev = d.glob.dev := by
  simp [flushEnd]

@[simp] theorem flushStep_dev (d : Dev) (s : Nat) : (flushStep d s).glob.dev = d.glob.dev := by
  unfold flushStep
  repeat' split
  all_goals simp

@[simp] theorem patrolStart_dev (d : Dev) : (patrolStart d).glob.dev = d.glob.dev := by
  simp [patrolStart]

@[simp] theorem patrolRead_dev (d : Dev) (errs : List PatrolErr) (s c w j : Nat) : (patrolRead d errs s c w j).glob.dev = d.glob.dev := by
  unfold patrolRead
  dsimp only
  split <;> simp

@[simp] theorem startTrain_dev (d : Dev) (p : Nat) : (startTrain d p).glob.dev = d.glob.dev := by
  simp [startTrain]

@[simp] theorem linkDown_dev (d : Dev) (p code : Nat) : (linkDown d p code).glob.dev = d.glob.dev := by
  unfold linkDown
  repeat' split
  all_goals simp_all

@[simp] theorem perstLow_dev (d : Dev) (p : Nat) : (perstLow d p).glob.dev = d.glob.dev := by
  simp [perstLow]

@[simp] theorem raiseDegraded_dev (d : Dev) (p : Nat) :
    (raiseDegraded d p).glob.dev = d.glob.dev := by
  simp [raiseDegraded]

@[simp] theorem reachL0_dev (d : Dev) (p : Nat) (width rate : BitVec 2) (flit256 lopt : Bool) :
    (reachL0 d p width rate flit256 lopt).glob.dev = d.glob.dev := by
  simp [reachL0]

@[simp] theorem replayed_dev (d : Dev) (p : Nat) (err : Option ProtoErr) : (replayed d p err).glob.dev = d.glob.dev := by
  unfold replayed
  split <;> simp

@[simp] theorem pllOut_dev (d : Dev) (i : Nat) :
    (pllOut d i).glob.dev = d.glob.dev := by
  simp [pllOut]

@[simp] theorem pllIn_dev (d : Dev) (i : Nat) :
    (pllIn d i).glob.dev = d.glob.dev := by
  simp [pllIn]

@[simp] theorem refclkGone_dev (d : Dev) (p : Nat) : (refclkGone d p).glob.dev = d.glob.dev := by
  simp [refclkGone]

@[simp] theorem refclkBack_dev (d : Dev) (p : Nat) : (refclkBack d p).glob.dev = d.glob.dev := by
  simp [refclkBack]

@[simp] theorem pllLost_dev (d : Dev) (i : Nat) : (pllLost d i).glob.dev = d.glob.dev := by
  simp [pllLost]

@[simp] theorem attach_dev (d : Dev) (p m : Nat) : (attach d p m).glob.dev = d.glob.dev := by
  simp [attach]

@[simp] theorem commit_dev (d : Dev) (p m base size : Nat) : (commit d p m base size).glob.dev = d.glob.dev := by
  unfold commit
  repeat' split
  all_goals simp

@[simp] theorem detach_dev (d : Dev) (p m : Nat) : (detach d p m).glob.dev = d.glob.dev := by
  unfold detach
  dsimp only
  repeat' split
  all_goals simp_all

@[simp] theorem memOn_dev (d : Dev) (p m : Nat) : (memOn d p m).glob.dev = d.glob.dev := by
  simp [memOn]

@[simp] theorem uncommit_dev (d : Dev) (p m : Nat) : (uncommit d p m).glob.dev = d.glob.dev := by
  simp [uncommit]

@[simp] theorem localDone_dev (d : Dev) (e len : Nat) (f : Engine → Engine) : (localDone d e len f).glob.dev = d.glob.dev := by
  simp [localDone]

@[simp] theorem branchTo_dev (d : Dev) (e : Nat) (taken : Bool) (off : BitVec 8) (len : Nat) :
    (branchTo d e taken off len).glob.dev = d.glob.dev := by
  simp [branchTo]

@[simp] theorem powerRequest_dev (d : Dev) (o : Origin) (dom : Nat) (on : Bool) : (powerRequest d o dom on).glob.dev = d.glob.dev := by
  simp [powerRequest]

@[simp] theorem evictMview_dev (d : Dev) (e : Nat) : (evictMview d e).glob.dev = d.glob.dev := by
  simp [evictMview]

@[simp] theorem selfRefresh_dev (d : Dev) (m : Nat) : (selfRefresh d m).glob.dev = d.glob.dev := by
  simp [selfRefresh]

@[simp] theorem offPrepare_dev (d : Dev) (dom : Nat) : (offPrepare d dom).glob.dev = d.glob.dev := by
  simp [offPrepare]

@[simp] theorem powerCheck_dev (d : Dev) : (powerCheck d).glob.dev = d.glob.dev := by
  unfold powerCheck
  dsimp only
  repeat' split
  all_goals simp

@[simp] theorem setDomain_dev (d : Dev) (dom : Nat) (on : Bool) : (setDomain d dom on).glob.dev = d.glob.dev := by
  simp [setDomain]

@[simp] theorem pmcLose_dev (d : Dev) (b : Nat) : (pmcLose d b).glob.dev = d.glob.dev := by
  simp [pmcLose]

@[simp] theorem powerDone_dev (d : Dev) (dom : Nat) (on : Bool) : (powerDone d dom on).glob.dev = d.glob.dev := by
  simp [powerDone]

@[simp] theorem startEngine_dev (d : Dev) (e : Nat) (pc : BitVec 14) : (startEngine d e pc).glob.dev = d.glob.dev := by
  simp [startEngine]

@[simp] theorem startQuad_dev (d : Dev) (q : Nat) : (startQuad d q).glob.dev = d.glob.dev := by
  simp [startQuad]

@[simp] theorem onStart_dev (d : Dev) (dom : Nat) : (onStart d dom).glob.dev = d.glob.dev := by
  simp [onStart]

@[simp] theorem onDone_dev (d : Dev) : (onDone d).glob.dev = d.glob.dev := by
  unfold onDone
  split <;> simp

@[simp] theorem takeReading_dev (d : Dev) (i : Nat) (r : Option Int) : (takeReading d i r).glob.dev = d.glob.dev := by
  unfold takeReading
  repeat' split
  all_goals simp

@[simp] theorem thermPin_dev (d : Dev) (i tj : Nat) : (thermPin d i tj).glob.dev = d.glob.dev := by
  simp [thermPin]

@[simp] theorem throttle_dev (d : Dev) (i tj : Nat) : (throttle d i tj).glob.dev = d.glob.dev := by
  simp [throttle]

@[simp] theorem rlogFrom_dev (d : Dev) (i : Nat) (ws : List Word) : (rlogFrom d i ws).glob.dev = d.glob.dev := by
  simp [rlogFrom]

@[simp] theorem resetLog_dev (d : Dev) (src : ResetSrc) : (resetLog d src).glob.dev = d.glob.dev := by
  simp [resetLog]

@[simp] theorem beginReset_dev (d : Dev) (src : ResetSrc) (role origin : Nat) : (beginReset d src role origin).glob.dev = d.glob.dev := by
  simp [beginReset]

@[simp] theorem pinLow_dev (d : Dev) : (pinLow d).glob.dev = d.glob.dev := by
  simp [pinLow]

@[simp] theorem startBegin_dev (d : Dev) : (startBegin d).glob.dev = d.glob.dev := by
  simp [startBegin]

@[simp] theorem fwCommitEntry_dev (d : Dev) (role origin : Nat) : (fwCommitEntry d role origin).glob.dev = d.glob.dev := by
  simp [fwCommitEntry]

@[simp] theorem authFail_dev (d : Dev) (code reason : Nat) (by_ : Signer) (origin : Nat) (mgmt : Bool) (bytes : BitVec 512) :
    (authFail d code reason by_ origin mgmt bytes).glob.dev = d.glob.dev := by
  simp [authFail]

@[simp] theorem releasePorts_dev (d : Dev) : (releasePorts d).glob.dev = d.glob.dev := by
  simp [releasePorts]

@[simp] theorem domainsOn_dev (d : Dev) (l : List Nat) : (domainsOn d l).glob.dev = d.glob.dev := by
  simp [domainsOn]

@[simp] theorem waitForImage_dev (d : Dev) : (waitForImage d).glob.dev = d.glob.dev := by
  simp [waitForImage]

@[simp] theorem bootRom_dev (d : Dev) : (bootRom d).glob.dev = d.glob.dev := by
  simp [bootRom]

@[simp] theorem loadSeed_dev (d : Dev) : (loadSeed d).glob.dev = d.glob.dev := by
  simp [loadSeed]

@[simp] theorem deriveAlias_dev (d : Dev) : (deriveAlias d).glob.dev = d.glob.dev := by
  simp [deriveAlias]

@[simp] theorem loadFuses_dev (d : Dev) : (loadFuses d).glob.dev = d.glob.dev := by
  simp [loadFuses]

@[simp] theorem runFirmware_dev (d : Dev) (b : Bool) : (runFirmware d b).glob.dev = d.glob.dev := by
  simp [runFirmware]

@[simp] theorem fwVerified_dev (d : Dev) (b ok : Bool) : (fwVerified d b ok).glob.dev = d.glob.dev := by
  simp [fwVerified]

@[simp] theorem fwStaged_dev (d : Dev) (origin : Nat) (b : Bool) (old : BitVec 256) (img : FwImage) :
    (fwStaged d origin b old img).glob.dev = d.glob.dev := by
  simp [fwStaged]

@[simp] theorem mctpImage_dev (d : Dev) (img : FwImage) (sigOk : Bool) : (mctpImage d img sigOk).glob.dev = d.glob.dev := by
  simp [mctpImage]

@[simp] theorem applyPort_dev (d : Dev) (p : Package) (n : Nat) : (applyPort d p n).glob.dev = d.glob.dev := by
  simp [applyPort]

@[simp] theorem startTest_dev (d : Dev) (quarter : Bool) (t : Nat) : (startTest d quarter t).glob.dev = d.glob.dev := by
  simp [startTest]

@[simp] theorem tilesOnline_dev (d : Dev) : (tilesOnline d).glob.dev = d.glob.dev := by
  simp [tilesOnline]

@[simp] theorem leaveOff_dev (d : Dev) (ports : BitVec 8) (quads : BitVec 5) : (leaveOff d ports quads).glob.dev = d.glob.dev := by
  simp [leaveOff]

@[simp] theorem repairBank_dev (d : Dev) (t b : Nat) (es : List BistEntry) : (repairBank d t b es).glob.dev = d.glob.dev := by
  simp [repairBank]

@[simp] theorem bistDone_dev (d : Dev) (t result : Nat) : (bistDone d t result).glob.dev = d.glob.dev := by
  simp [bistDone]

@[simp] theorem testEnds_dev (d : Dev) (t : Nat) (r : BistOutcome) : (testEnds d t r).glob.dev = d.glob.dev := by
  simp [testEnds]

@[simp] theorem tagsInvalid_dev (d : Dev) (s : Nat) : (tagsInvalid d s).glob.dev = d.glob.dev := by
  simp [tagsInvalid]

@[simp] theorem parkStart_dev (d : Dev) (pace : BitVec 8) : (parkStart d pace).glob.dev = d.glob.dev := by
  simp [parkStart]

@[simp] theorem parkGo_dev (d : Dev) (o : Origin) (pace : BitVec 8) : (parkGo d o pace).glob.dev = d.glob.dev := by
  simp [parkGo]

@[simp] theorem parkRecallReq_dev (d : Dev) (s line : Nat) : (parkRecallReq d s line).glob.dev = d.glob.dev := by
  simp [parkRecallReq]

@[simp] theorem parkStep_dev (d : Dev) (s : Nat) : (parkStep d s).glob.dev = d.glob.dev := by
  simp [parkStep]

@[simp] theorem regDropped_dev (d : Dev) (o : Origin) (off reason : Nat) (read : Bool) :
    (regDropped d o off reason read).glob.dev = d.glob.dev := by
  unfold regDropped
  split <;> simp

@[simp] theorem narrowWrite_dev (d : Dev) (o : Origin) (off : Nat) : (narrowWrite d o off).glob.dev = d.glob.dev := by
  simp [narrowWrite]

@[simp] theorem writeGlbLock_dev (d : Dev) (o : Origin) (v : Nat) : (writeGlbLock d o v).glob.dev = d.glob.dev := by
  simp [writeGlbLock]

@[simp] theorem writeErrLock_dev (d : Dev) (o : Origin) (v : Nat) : (writeErrLock d o v).glob.dev = d.glob.dev := by
  simp [writeErrLock]

@[simp] theorem glbWrite_dev (d : Dev) (o : Origin) (r v : Nat) : (glbWrite d o r v).glob.dev = d.glob.dev := by
  unfold glbWrite
  split <;> simp

@[simp] theorem prtWrite_dev (d : Dev) (p r v : Nat) : (prtWrite d p r v).glob.dev = d.glob.dev := by
  simp [prtWrite]

@[simp] theorem labWrite_dev (d : Dev) (r v : Nat) : (labWrite d r v).glob.dev = d.glob.dev := by
  unfold labWrite
  repeat' split
  all_goals simp

@[simp] theorem slcCtrl_dev (d : Dev) (s v : Nat) : (slcCtrl d s v).glob.dev = d.glob.dev := by
  simp [slcCtrl]

@[simp] theorem dirWrite_dev (d : Dev) (r v : Nat) : (dirWrite d r v).glob.dev = d.glob.dev := by
  unfold dirWrite
  split <;> simp

@[simp] theorem memWrite_dev (d : Dev) (m r v : Nat) : (memWrite d m r v).glob.dev = d.glob.dev := by
  unfold memWrite
  split <;> simp

@[simp] theorem queCtrl_dev (d : Dev) (o : Origin) (n v : Nat) : (queCtrl d o n v).glob.dev = d.glob.dev := by
  unfold queCtrl
  split <;> simp

@[simp] theorem queHead_dev (d : Dev) (o : Origin) (n v : Nat) (pe : Option (BitVec 2)) : (queHead d o n v pe).glob.dev = d.glob.dev := by
  unfold queHead
  repeat' split
  all_goals simp_all

@[simp] theorem queWrite_dev (d : Dev) (o : Origin) (r v : Nat) (pe : Option (BitVec 2)) :
    (queWrite d o r v pe).glob.dev = d.glob.dev := by
  unfold queWrite
  dsimp only
  repeat' split
  all_goals simp_all

@[simp] theorem evtWrite_dev (d : Dev) (o : Origin) (r v : Nat) (pe : Option Bool) : (evtWrite d o r v pe).glob.dev = d.glob.dev := by
  unfold evtWrite
  repeat' split
  all_goals simp

@[simp] theorem flipCtrl_dev (d : Dev) (v : Nat) : (flipCtrl d v).glob.dev = d.glob.dev := by
  simp [flipCtrl]

@[simp] theorem logFree_dev (d : Dev) (v : Nat) : (logFree d v).glob.dev = d.glob.dev := by
  simp [logFree]

@[simp] theorem errWrite_dev (d : Dev) (o : Origin) (r v : Nat) : (errWrite d o r v).glob.dev = d.glob.dev := by
  unfold errWrite
  split <;> simp

@[simp] theorem pwrWrite_dev (d : Dev) (o : Origin) (r v : Nat) : (pwrWrite d o r v).glob.dev = d.glob.dev := by
  unfold pwrWrite
  split <;> simp

@[simp] theorem pmcGrun_dev (d : Dev) (v : Nat) : (pmcGrun d v).glob.dev = d.glob.dev := by
  simp [pmcGrun]

@[simp] theorem pmcCounter_dev (d : Dev) (b k : Nat) (hi : Bool) (v : Nat) : (pmcCounter d b k hi v).glob.dev = d.glob.dev := by
  simp [pmcCounter]

@[simp] theorem pmcWrite_dev (d : Dev) (r v : Nat) : (pmcWrite d r v).glob.dev = d.glob.dev := by
  unfold pmcWrite
  dsimp only
  repeat' split
  all_goals simp

@[simp] theorem msixWrite_dev (d : Dev) (p m r v : Nat) : (msixWrite d p m r v).glob.dev = d.glob.dev := by
  simp [msixWrite]

@[simp] theorem decoderWrite_dev (d : Dev) (p m v : Nat) :
    (decoderWrite d p m v).glob.dev = d.glob.dev := by
  simp [decoderWrite]

@[simp] theorem fnWrite_dev (d : Dev) (o : Origin) (off v : Nat) : (fnWrite d o off v).glob.dev = d.glob.dev := by
  unfold fnWrite
  split <;> simp

@[simp] theorem regEffect_dev (d : Dev) (o : Origin) (off v : Nat) (pe : Option (BitVec 2)) (ev : Option Bool) :
    (regEffect d o off v pe ev).glob.dev = d.glob.dev := by
  unfold regEffect
  repeat' split
  all_goals simp

@[simp] theorem regWrite32_dev (d : Dev) (o : Origin) (off v : Nat) (pe : Option (BitVec 2)) (ev : Option Bool) :
    (regWrite32 d o off v pe ev).glob.dev = d.glob.dev := by
  simp [regWrite32]

@[simp] theorem regWrite64_dev (d : Dev) (o : Origin) (off v : Nat) : (regWrite64 d o off v).glob.dev = d.glob.dev := by
  simp [regWrite64]

@[simp] theorem gated_dev (d : Dev) (o : Origin) (off : Nat) (f : Dev → Dev) (hf : ∀ d, (f d).glob.dev = d.glob.dev) :
    (gated d o off f).glob.dev = d.glob.dev := by
  unfold gated
  repeat' split
  all_goals simp_all

@[simp] theorem dwordWrite_dev (d : Dev) (o : Origin) (off v en : Nat) (pe : Option (BitVec 2)) (ev : Option Bool) :
    (dwordWrite d o off v en pe ev).glob.dev = d.glob.dev := by
  simp [dwordWrite]

@[simp] theorem busWriteNow_dev (d : Dev) (o : Origin) (off v : Nat) (size8 : Bool) (en : Nat) (pe : Option (BitVec 2)) (ev : Option Bool) :
    (busWriteNow d o off v size8 en pe ev).glob.dev = d.glob.dev := by
  simp [busWriteNow]

@[simp] theorem busWrite_dev (d : Dev) (o : Origin) (off v : Nat) (size8 : Bool) (en : Nat) (pe : Option (BitVec 2)) (ev : Option Bool) :
    (busWrite d o off v size8 en pe ev).glob.dev = d.glob.dev := by
  simp [busWrite]

@[simp] theorem writeReg_dev (d : Dev) (o : Origin) (off : Nat) (v : BitVec 32) : (writeReg d o off v).glob.dev = d.glob.dev := by
  simp [writeReg]

@[simp] theorem pmcOverflow_dev (d : Dev) (b : Nat) : (pmcOverflow d b).glob.dev = d.glob.dev := by
  unfold pmcOverflow
  split <;> simp

@[simp] theorem locate_dev (d : Dev) (e : Nat) (c : Ecc) (k : Acc) (atomic : Bool) (wa : Nat) :
    (locate d e c k atomic wa).1.glob.dev = d.glob.dev := by
  have h := labLookup_dev d (8 + quadOf e) (d.engine e).cview (d.granOf (d.engine e).cview) (2 * wa) c
  unfold locate
  dsimp only
  generalize labLookup d (8 + quadOf e) (d.engine e).cview (d.granOf (d.engine e).cview) (2 * wa) c = r at h ⊢
  obtain ⟨d1, l⟩ := r
  repeat' split
  all_goals simp_all

@[simp] theorem endLoad_dev (d : Dev) (e : Nat) (k : LoadKind) (g a : Nat) (upd : Option Info) (dpa : Nat) (ws : List Word) (len : Nat) :
    (endLoad d e k g a upd dpa ws len).glob.dev = d.glob.dev := by
  unfold endLoad
  split <;> simp

@[simp] theorem takeLoad_dev (d : Dev) (e : Nat) (k : LoadKind) (g a : Nat) (upd : Option Info) (addr : Info) (dpa : Nat) (ws : List Word) (len : Nat) :
    (takeLoad d e k g a upd addr dpa ws len).glob.dev = d.glob.dev := by
  unfold takeLoad
  split <;> simp

@[simp] theorem loadWords_dev (d : Dev) (e : Nat) (l : List Loc) (ids : List (Nat × Nat)) : (loadWords d e l ids).1.glob.dev = d.glob.dev := by
  induction l generalizing d ids with
  | nil => rfl
  | cons a l ih =>
    simp only [loadWords]
    repeat' split
    all_goals simp [ih]

@[simp] theorem locateAll_dev (d : Dev) (e : Nat) (c : Ecc) (k : Acc) (atomic : Bool) (l : List Info) :
    (locateAll d e c k atomic l).1.glob.dev = d.glob.dev := by
  induction l generalizing d c with
  | nil => rfl
  | cons a l ih =>
    simp only [locateAll]
    rw [ih]
    exact locate_dev _ _ _ _ _ _

@[simp] theorem loadFrom_dev (d : Dev) (x : Env) (k : LoadKind) (g a : Nat) (upd : Option Info) (addr : Info) (ls : List Loc) (len : Nat) :
    (loadFrom d x k g a upd addr ls len).glob.dev = d.glob.dev := by
  unfold loadFrom
  dsimp only
  repeat' split
  all_goals simp

@[simp] theorem loadMem_dev (d : Dev) (x : Env) (acc : Acc) (k : LoadKind) (g a : Nat) (upd : Option Info) (addr : Info) (n len : Nat) :
    (loadMem d x acc k g a upd addr n len).glob.dev = d.glob.dev := by
  unfold loadMem
  dsimp only
  split <;> simp

@[simp] theorem endRegLoad_dev (d : Dev) (e off g : Nat) (pair : Bool) (a : Nat) (upd : Option Info) (len : Nat) :
    (endRegLoad d e off g pair a upd len).glob.dev = d.glob.dev := by
  simp [endRegLoad]

@[simp] theorem loadReg_dev (d : Dev) (e g a : Nat) (upd : Option Info) (addr : Info) (pair : Bool) (len : Nat) :
    (loadReg d e g a upd addr pair len).glob.dev = d.glob.dev := by
  simp [loadReg]

@[simp] theorem imemCheck_dev (d : Dev) (e i : Nat) (c : Ecc) (addr : Info) (ok : Dev → Dev) (hok : ∀ d, (ok d).glob.dev = d.glob.dev) :
    (imemCheck d e i c addr ok).glob.dev = d.glob.dev := by
  unfold imemCheck
  repeat' split
  all_goals simp_all

@[simp] theorem readLocal_dev (d : Dev) (e : Nat) (cs : List Ecc) (k : Dev → List Word → Dev) (hk : ∀ d ws, (k d ws).glob.dev = d.glob.dev)
    (acc : List Word) (l : List Info) : (readLocal d e cs k acc l).glob.dev = d.glob.dev := by
  induction l generalizing d cs acc with
  | nil => simp [readLocal, hk]
  | cons a l ih =>
    simp only [readLocal]
    split
    · exact scratchCheck_dev _ _ _ _ _ (fun d => ih d _ _)
    · exact imemCheck_dev _ _ _ _ _ _ (fun d => ih d _ _)

@[simp] theorem loadLocal_dev (d : Dev) (x : Env) (k : LoadKind) (g a : Nat) (upd : Option Info) (addr : Info) (n len : Nat) :
    (loadLocal d x k g a upd addr n len).glob.dev = d.glob.dev := by
  unfold loadLocal
  dsimp only
  split <;> simp

@[simp] theorem putLocal_dev (d : Dev) (e : Nat) (a : Info) (w : Word) : (putLocal d e a w).glob.dev = d.glob.dev := by
  simp [putLocal]

@[simp] theorem loadTile_dev (d : Dev) (e : Nat) (k : LoadKind) (g a : Nat) (upd : Option Info) (addr : Info) (n len : Nat) :
    (loadTile d e k g a upd addr n len).glob.dev = d.glob.dev := by
  simp [loadTile]

@[simp] theorem runLoad_dev (d : Dev) (x : Env) (k : LoadKind) (g a : Nat) (o : OffM) (n : Nat) (update : Bool) :
    (runLoad d x k g a o n update).glob.dev = d.glob.dev := by
  unfold runLoad
  dsimp only
  split <;> simp

@[simp] theorem storeTo_dev (d : Dev) (e a : Nat) (upd : Option Info) (addr : Info) (ls : List Loc) (ws : List Word) (len : Nat) :
    (storeTo d e a upd addr ls ws len).glob.dev = d.glob.dev := by
  simp [storeTo]

@[simp] theorem storeMem_dev (d : Dev) (x : Env) (nt : Bool) (a : Nat) (upd : Option Info) (addr : Info) (ws : List Word) (len : Nat) :
    (storeMem d x nt a upd addr ws len).glob.dev = d.glob.dev := by
  unfold storeMem
  dsimp only
  split <;> simp

@[simp] theorem bufferOther_dev (d : Dev) (e a : Nat) (upd : Option Info) (addr : Info) (k : SbKind) (len : Nat) :
    (bufferOther d e a upd addr k len).glob.dev = d.glob.dev := by
  simp [bufferOther]

@[simp] theorem storeReg_dev (d : Dev) (e a : Nat) (upd : Option Info) (addr : Info) (ws : List Word) (len : Nat) :
    (storeReg d e a upd addr ws len).glob.dev = d.glob.dev := by
  simp [storeReg]

@[simp] theorem storeLocal_dev (d : Dev) (e a : Nat) (upd : Option Info) (addr : Info) (ws : List Word) (len : Nat) :
    (storeLocal d e a upd addr ws len).glob.dev = d.glob.dev := by
  unfold storeLocal
  split <;> simp

@[simp] theorem storeTile_dev (d : Dev) (e a : Nat) (upd : Option Info) (addr : Info) (ws : List Word) (len : Nat) :
    (storeTile d e a upd addr ws len).glob.dev = d.glob.dev := by
  simp [storeTile]

@[simp] theorem runStore_dev (d : Dev) (x : Env) (nt : Bool) (g a : Nat) (o : OffM) (n : Nat) (update : Bool) :
    (runStore d x nt g a o n update).glob.dev = d.glob.dev := by
  unfold runStore
  dsimp only
  split <;> simp

@[simp] theorem runLrp_dev (d : Dev) (x : Env) (g a : Nat) (o : OffM) : (runLrp d x g a o).glob.dev = d.glob.dev := by
  unfold runLrp
  dsimp only
  split <;> simp

@[simp] theorem endScp_dev (d : Dev) (e : Nat) (ok : Bool) (len : Nat) : (endScp d e ok len).glob.dev = d.glob.dev := by
  simp [endScp]

@[simp] theorem scpTo_dev (d : Dev) (e g : Nat) (ls : List Loc) (len : Nat) : (scpTo d e g ls len).glob.dev = d.glob.dev := by
  unfold scpTo
  dsimp only
  repeat' split
  all_goals simp

@[simp] theorem runScp_dev (d : Dev) (x : Env) (g a : Nat) (o : OffM) : (runScp d x g a o).glob.dev = d.glob.dev := by
  unfold runScp
  dsimp only
  repeat' split
  all_goals simp

@[simp] theorem endFence_dev (d : Dev) (e : Nat) (failed : Bool) : (endFence d e failed).glob.dev = d.glob.dev := by
  simp [endFence]

@[simp] theorem endStop_dev (d : Dev) (e : Nat) : (endStop d e).glob.dev = d.glob.dev := by
  simp [endStop]

@[simp] theorem endSvcCmo_dev (d : Dev) (e id : Nat) : (endSvcCmo d e id).glob.dev = d.glob.dev := by
  simp [endSvcCmo]

@[simp] theorem bufferSettle_dev (d : Dev) (e : Nat) : (bufferSettle d e).glob.dev = d.glob.dev := by
  unfold bufferSettle
  dsimp only
  split <;> simp

@[simp] theorem dropEntry_dev (d : Dev) (e id : Nat) : (dropEntry d e id).glob.dev = d.glob.dev := by
  simp [dropEntry]

@[simp] theorem faultWaiting_dev (d : Dev) (e : Nat) : (faultWaiting d e).glob.dev = d.glob.dev := by
  unfold faultWaiting
  dsimp only
  split <;> simp

@[simp] theorem storeFails_dev (d : Dev) (e : Nat) (b : SbEntry) : (storeFails d e b).glob.dev = d.glob.dev := by
  simp [storeFails]

@[simp] theorem endEntry_dev (d : Dev) (e : Nat) (b : SbEntry) (ok : Bool) : (endEntry d e b ok).glob.dev = d.glob.dev := by
  simp [endEntry]

@[simp] theorem issued_dev (d : Dev) (e id : Nat) (xids : List Nat) : (issued d e id xids).glob.dev = d.glob.dev := by
  simp [issued]

@[simp] theorem startWrites_dev (d : Dev) (e : Nat) (b : SbEntry) (l : List LineWrite) : (startWrites d e b l).1.glob.dev = d.glob.dev := by
  induction l generalizing d with
  | nil => rfl
  | cons a l ih => simp [startWrites, ih]

@[simp] theorem windowWrite_dev (d : Dev) (off : Nat) (v : BitVec 32) : (windowWrite d off v).glob.dev = d.glob.dev := by
  simp [windowWrite]

@[simp] theorem putCells_dev (d : Dev) (a : Nat) (v : Pair) (pair : Bool) : (putCells d a v pair).glob.dev = d.glob.dev := by
  simp [putCells]

@[simp] theorem issueEntry_dev (d : Dev) (e : Nat) (b : SbEntry) : (issueEntry d e b).glob.dev = d.glob.dev := by
  unfold issueEntry
  repeat' split
  all_goals simp

@[simp] theorem bufferIssue_dev (d : Dev) (e : Nat) (parityOk : Bool) : (bufferIssue d e parityOk).glob.dev = d.glob.dev := by
  unfold bufferIssue
  repeat' split
  all_goals simp

@[simp] theorem beyondLimit_dev (d : Dev) (e dpa : Nat) : (beyondLimit d e dpa).glob.dev = d.glob.dev := by
  simp [beyondLimit]

@[simp] theorem completeEntry_dev (d : Dev) (e : Nat) (b : SbEntry) : (completeEntry d e b).glob.dev = d.glob.dev := by
  unfold completeEntry
  repeat' split
  all_goals simp

@[simp] theorem scpAnswer_dev (d : Dev) (e id len : Nat) : (scpAnswer d e id len).glob.dev = d.glob.dev := by
  unfold scpAnswer
  repeat' split
  all_goals simp

@[simp] theorem storeComplete_dev (d : Dev) (e id : Nat) : (storeComplete d e id).glob.dev = d.glob.dev := by
  unfold storeComplete
  repeat' split
  all_goals simp

@[simp] theorem callLate_dev (d : Dev) (e i : Nat) (c : Call) :
    (callLate d e i c).1.glob.dev = d.glob.dev := by
  unfold callLate
  dsimp only
  repeat' split
  all_goals simp

@[simp] theorem callTimeout_dev (d : Dev) (e id : Nat) :
    (callTimeout d e id).glob.dev = d.glob.dev := by
  unfold callTimeout
  dsimp only
  repeat' split
  all_goals simp

@[simp] theorem storeTimeout_dev (d : Dev) (e id : Nat) : (storeTimeout d e id).glob.dev = d.glob.dev := by
  unfold storeTimeout
  repeat' split
  all_goals simp

@[simp] theorem loadReturn_dev (d : Dev) (e : Nat) : (loadReturn d e).glob.dev = d.glob.dev := by
  unfold loadReturn
  split <;> simp

@[simp] theorem loadTimeout_dev (d : Dev) (e : Nat) : (loadTimeout d e).glob.dev = d.glob.dev := by
  unfold loadTimeout
  split <;> simp

@[simp] theorem accessTimeout_dev (d : Dev) (o : Origin) (off : Nat) (read : Bool) :
    (accessTimeout d o off read).glob.dev = d.glob.dev := by
  unfold accessTimeout
  dsimp only
  repeat' split
  all_goals simp

@[simp] theorem expire_dev (d : Dev) (e : Nat) : (expire d e).glob.dev = d.glob.dev := by
  unfold expire
  split <;> simp

@[simp] theorem waitLimit_dev (d : Dev) (e : Nat) : (waitLimit d e).glob.dev = d.glob.dev := by
  unfold waitLimit
  split <;> simp

@[simp] theorem wakeArrival_dev (d : Dev) (e : Nat) (parityOk : Bool) : (wakeArrival d e parityOk).glob.dev = d.glob.dev := by
  unfold wakeArrival
  split <;> simp

@[simp] theorem budgetTrap_dev (d : Dev) (e : Nat) : (budgetTrap d e).glob.dev = d.glob.dev := by
  simp [budgetTrap]

@[simp] theorem runFence_dev (d : Dev) (e : Nat) (arg : BitVec 6) : (runFence d e arg).glob.dev = d.glob.dev := by
  simp [runFence]

@[simp] theorem runTrap_dev (d : Dev) (e : Nat) (arg : BitVec 6) : (runTrap d e arg).glob.dev = d.glob.dev := by
  simp [runTrap]

@[simp] theorem returnTrap_dev (d : Dev) (e : Nat) : (returnTrap d e).glob.dev = d.glob.dev := by
  simp [returnTrap]

@[simp] theorem runStop_dev (d : Dev) (e : Nat) : (runStop d e).glob.dev = d.glob.dev := by
  simp [runStop]

@[simp] theorem clearEffects_dev (d : Dev) (e : Nat) : (clearEffects d e).glob.dev = d.glob.dev := by
  simp [clearEffects]

@[simp] theorem runLabsync_dev (d : Dev) (e : Nat) : (runLabsync d e).glob.dev = d.glob.dev := by
  simp [runLabsync]

@[simp] theorem runEwait_dev (d : Dev) (e g : Nat) : (runEwait d e g).glob.dev = d.glob.dev := by
  simp [runEwait]

@[simp] theorem readDesc_dev (d : Dev) (x : Env) (addr : Info) (n : Nat) (k : Dev → List Word → Dev) (hk : ∀ d a, (k d a).glob.dev = d.glob.dev) :
    (readDesc d x addr n k).glob.dev = d.glob.dev := by
  unfold readDesc
  repeat' split
  all_goals simp_all

@[simp] theorem enterOp_dev (d : Dev) (e : Nat) (b : SbEntry) : (enterOp d e b).glob.dev = d.glob.dev := by
  simp [enterOp]

@[simp] theorem runLabi_dev (d : Dev) (x : Env) (form : BitVec 2) (addr : Info) : (runLabi d x form addr).glob.dev = d.glob.dev := by
  unfold runLabi
  repeat' split
  all_goals simp_all

@[simp] theorem runCmo_dev (d : Dev) (x : Env) (kind : BitVec 2) (sw : Bool) (a : Nat) (coh unlock : Bool) (g : Nat) :
    (runCmo d x kind sw a coh unlock g).glob.dev = d.glob.dev := by
  unfold runCmo
  dsimp only
  repeat' split
  all_goals simp

@[simp] theorem runZero_dev (d : Dev) (x : Env) (a : Nat) : (runZero d x a).glob.dev = d.glob.dev := by
  unfold runZero
  dsimp only
  repeat' split
  all_goals simp

@[simp] theorem runQpop_dev (d : Dev) (x : Env) (nb : Bool) (a g : Nat) : (runQpop d x nb a g).glob.dev = d.glob.dev := by
  unfold runQpop
  dsimp only
  repeat' split
  all_goals simp

@[simp] theorem pushOrWait_dev (d : Dev) (e n : Nat) (ws : List Word) : (pushOrWait d e n ws).glob.dev = d.glob.dev := by
  simp [pushOrWait]

@[simp] theorem runQpush_dev (d : Dev) (x : Env) (a g : Nat) : (runQpush d x a g).glob.dev = d.glob.dev := by
  unfold runQpush
  simp_all

@[simp] theorem runIfill_dev (d : Dev) (x : Env) (a g : Nat) : (runIfill d x a g).glob.dev = d.glob.dev := by
  unfold runIfill
  dsimp only
  repeat' split
  all_goals simp

@[simp] theorem endLabw_dev (d : Dev) (e r : Nat) : (endLabw d e r).glob.dev = d.glob.dev := by
  simp [endLabw]

@[simp] theorem labwArrives_dev (d : Dev) (e : Nat) (ws : List Word) : (labwArrives d e ws).glob.dev = d.glob.dev := by
  unfold labwArrives
  dsimp only
  repeat' split
  all_goals simp

@[simp] theorem labsyncEnds_dev (d : Dev) (e : Nat) : (labsyncEnds d e).glob.dev = d.glob.dev := by
  unfold labsyncEnds
  dsimp only
  repeat' split
  all_goals simp

@[simp] theorem slotWriteNow_dev (d : Dev) (o : Origin) (n cell slot : Nat) (v : BitVec 32) (en : BitVec 4) (parityOk : Bool) (ptrErr : Option (BitVec 2)) :
    (slotWriteNow d o n cell slot v en parityOk ptrErr).glob.dev = d.glob.dev := by
  unfold slotWriteNow
  dsimp only
  repeat' split
  all_goals simp

@[simp] theorem slotWrite_dev (d : Dev) (o : Origin) (n cell slot : Nat) (v : BitVec 32) (en : BitVec 4) (parityOk : Bool) (ptrErr : Option (BitVec 2)) :
    (slotWrite d o n cell slot v en parityOk ptrErr).glob.dev = d.glob.dev := by
  simp [slotWrite]

@[simp] theorem moderate_dev (d : Dev) (isEvq : Bool) (n : Nat) : (moderate d isEvq n).glob.dev = d.glob.dev := by
  simp [moderate]

@[simp] theorem service_dev (d : Dev) (e n : Nat) (f : Dev → Dev) (hf : ∀ d, (f d).glob.dev = d.glob.dev) :
    (service d e n f).glob.dev = d.glob.dev := by
  unfold service
  repeat' split
  all_goals simp_all

@[simp] theorem svcReturn_dev (d : Dev) (e : Nat) (status : Word) : (svcReturn d e status).glob.dev = d.glob.dev := by
  simp [svcReturn]

@[simp] theorem svcExit_dev (d : Dev) (e : Nat) : (svcExit d e).glob.dev = d.glob.dev := by
  simp [svcExit]

@[simp] theorem svcLine_dev (d : Dev) (e : Nat) : (svcLine d e).1.glob.dev = d.glob.dev := by
  have h := labLookup_dev d (8 + quadOf e) (d.engine e).cview (d.granOf (d.engine e).cview) (2 * waddr ((d.engine e).ra 7)) .ok
  unfold svcLine
  dsimp only
  generalize labLookup d (8 + quadOf e) _ _ _ _ = r at h ⊢
  obtain ⟨d1, l⟩ := r
  repeat' split
  all_goals simp_all

@[simp] theorem svcCmo_dev (d : Dev) (e : Nat) : (svcCmo d e).glob.dev = d.glob.dev := by
  have h := svcLine_dev d e
  unfold svcCmo
  dsimp only
  generalize svcLine d e = r at h ⊢
  obtain ⟨d1, l⟩ := r
  repeat' split
  all_goals simp_all

@[simp] theorem svcLabi_dev (d : Dev) (e : Nat) : (svcLabi d e).glob.dev = d.glob.dev := by
  simp [svcLabi]

@[simp] theorem svcLabsync_dev (d : Dev) (e : Nat) : (svcLabsync d e).glob.dev = d.glob.dev := by
  simp [svcLabsync]

@[simp] theorem beginCall_dev (d : Dev) (k : CallCtx) (code : Nat) (n : List Word → Nat) (f : List Word → Dev → Call → Dev × Call)
    (hf : ∀ ws d c, (f ws d c).1.glob.dev = d.glob.dev) : (beginCall d k code n f).glob.dev = d.glob.dev := by
  unfold beginCall
  dsimp only
  repeat' split
  all_goals simp_all

@[simp] theorem beginRange_dev (d : Dev) (k : CallCtx) (code n : Nat) (noCoh : Bool) :
    (beginRange d k code n noCoh).glob.dev = d.glob.dev := by
  unfold beginRange
  apply beginCall_dev
  intro ws d c
  dsimp only
  split <;> rfl

@[simp] theorem invalAllGo_dev (ws : List Word) (d : Dev) (c : Call) : (invalAllGo ws d c).1.glob.dev = d.glob.dev := by
  unfold invalAllGo
  dsimp only
  split <;> simp

@[simp] theorem maintSetwayGo_dev (ws : List Word) (d : Dev) (c : Call) : (maintSetwayGo ws d c).1.glob.dev = d.glob.dev := by
  unfold maintSetwayGo
  dsimp only
  split <;> simp

@[simp] theorem lockPreloadGo_dev (ws : List Word) (d : Dev) (c : Call) : (lockPreloadGo ws d c).1.glob.dev = d.glob.dev := by
  unfold lockPreloadGo
  dsimp only
  repeat' split
  all_goals simp

@[simp] theorem viewCreateArgs_dev (ws : List Word) (d : Dev) (c : Call) : (viewCreateArgs ws d c).1.glob.dev = d.glob.dev := by
  unfold viewCreateArgs
  dsimp only
  split <;> simp

@[simp] theorem viewBindArgs_dev (ws : List Word) (d : Dev) (c : Call) : (viewBindArgs ws d c).1.glob.dev = d.glob.dev := by
  simp [viewBindArgs]

@[simp] theorem viewRemapGo_dev (ws : List Word) (d : Dev) (c : Call) : (viewRemapGo ws d c).1.glob.dev = d.glob.dev := by
  unfold viewRemapGo
  dsimp only
  split <;> simp

@[simp] theorem resignGo_dev (ws : List Word) (d : Dev) (c : Call) : (resignGo ws d c).1.glob.dev = d.glob.dev := by
  unfold resignGo
  dsimp only
  repeat' split
  all_goals simp_all

@[simp] theorem tileCall_dev (ws : List Word) (d : Dev) (c : Call) : (tileCall ws d c).1.glob.dev = d.glob.dev := by
  simp [tileCall]

@[simp] theorem parkCall_dev (ws : List Word) (d : Dev) (c : Call) : (parkCall ws d c).1.glob.dev = d.glob.dev := by
  unfold parkCall
  split <;> simp

@[simp] theorem progLoadGo_dev (e : Nat) (ws : List Word) (d : Dev) (c : Call) : (progLoadGo e ws d c).1.glob.dev = d.glob.dev := by
  unfold progLoadGo
  dsimp only
  repeat' split
  all_goals simp

@[simp] theorem progRunGo_dev (e : Nat) (ws : List Word) (d : Dev) (c : Call) : (progRunGo e ws d c).1.glob.dev = d.glob.dev := by
  unfold progRunGo
  dsimp only
  repeat' split
  all_goals simp

@[simp] theorem progFreeGo_dev (e : Nat) (ws : List Word) (d : Dev) (c : Call) : (progFreeGo e ws d c).1.glob.dev = d.glob.dev := by
  unfold progFreeGo
  split <;> simp

@[simp] theorem dcAddArgs_dev (ws : List Word) (d : Dev) (c : Call) : (dcAddArgs ws d c).1.glob.dev = d.glob.dev := by
  unfold dcAddArgs
  dsimp only
  repeat' split
  all_goals simp

@[simp] theorem dcReleaseGo_dev (ws : List Word) (d : Dev) (c : Call) : (dcReleaseGo ws d c).1.glob.dev = d.glob.dev := by
  unfold dcReleaseGo
  dsimp only
  repeat' split
  all_goals simp

@[simp] theorem mbx_dev (d : Dev) (b : Mbx) (op : Nat) (f : Dev → Dev × Nat × List Nat) (hf : ∀ d, (f d).1.glob.dev = d.glob.dev) :
    (mbx d b op f).glob.dev = d.glob.dev := by
  unfold mbx
  repeat' split
  all_goals simp_all

@[simp] theorem mbxRead_dev (d : Dev) (b : Mbx) (op : Nat) (payload : Dev → List Nat) :
    (mbxRead d b op payload).glob.dev = d.glob.dev := by
  simp [mbxRead]

@[simp] theorem mbxQ0_dev (d : Dev) (b : Mbx) (f : Dev → Dev) (hf : ∀ d, (f d).glob.dev = d.glob.dev) : (mbxQ0 d b f).glob.dev = d.glob.dev := by
  unfold mbxQ0
  repeat' split
  all_goals simp_all

@[simp] theorem clearRecords_dev (d : Dev) (b : Mbx) (n : Nat) : (clearRecords d b n).1.glob.dev = d.glob.dev := by
  unfold clearRecords
  split <;> simp

@[simp] theorem rewriteLine_dev (d : Dev) (b : Mbx) (op va : Nat) (data : Line) (poison : Bool) :
    (rewriteLine d b op va data poison).glob.dev = d.glob.dev := by
  unfold rewriteLine
  apply mbxQ0_dev
  intro d
  dsimp only
  generalize (if d.inService then d.ldDpa b.port.val b.ld.val va else none) = o
  cases o <;> simp

@[simp] theorem setStamp_dev (d : Dev) (t : BitVec 64) : (setStamp d t).glob.dev = d.glob.dev := by
  simp [setStamp]

@[simp] theorem transferFw_dev (d : Dev) (b : Mbx) (img : FwImage) : (transferFw d b img).glob.dev = d.glob.dev := by
  simp [transferFw]

@[simp] theorem stageVerified_dev (d : Dev) (ok : Bool) : (stageVerified d ok).glob.dev = d.glob.dev := by
  unfold stageVerified
  split <;> simp

@[simp] theorem activateFw_dev (d : Dev) (b : Mbx) (online : Bool) : (activateFw d b online).glob.dev = d.glob.dev := by
  simp [activateFw]

@[simp] theorem commitWritten_dev (d : Dev) : (commitWritten d).glob.dev = d.glob.dev := by
  unfold commitWritten
  split <;> simp

@[simp] theorem dcResponse_dev (d : Dev) (p m : Nat) (xs : List Extent) : (dcResponse d p m xs).glob.dev = d.glob.dev := by
  simp [dcResponse]

@[simp] theorem dcReleaseHost_dev (d : Dev) (b : Mbx) (x : Extent) : (dcReleaseHost d b x).glob.dev = d.glob.dev := by
  unfold dcReleaseHost
  apply mbxQ0_dev
  intro d
  dsimp only
  split <;> simp

@[simp] theorem issueNonce_dev (d : Dev) (value : BitVec 256) : (issueNonce d value).1.glob.dev = d.glob.dev := by
  simp [issueNonce]

@[simp] theorem packageRefused_dev (d : Dev) (reason origin : Nat) (mgmt : Bool) (p : Package) (q : Signed) :
    (packageRefused d reason origin mgmt p q).glob.dev = d.glob.dev := by
  simp [packageRefused]

@[simp] theorem replyTo_dev (d : Dev) (b : Option Mbx) (op code : Nat) (payload : List Nat) :
    (replyTo d b op code payload).glob.dev = d.glob.dev := by
  unfold replyTo
  split <;> simp

@[simp] theorem authorizeQueued_dev (d : Dev) (b : Option Mbx) (p : Package) (q : Signed) (pkgSigOk : Bool) :
    (authorizeQueued d b p q pkgSigOk).glob.dev = d.glob.dev := by
  simp [authorizeQueued]

@[simp] theorem deliverPiece_dev (d : Dev) (b : Option Mbx) (eid : BitVec 8) (last : Option (Package × Signed)) (pkgSigOk : Bool) :
    (deliverPiece d b eid last pkgSigOk).glob.dev = d.glob.dev := by
  unfold deliverPiece
  repeat' split
  all_goals simp

@[simp] theorem packageDelivered_dev (d : Dev) (b : Option Mbx) (eid : BitVec 8) (last : Option (Package × Signed)) (pkgSigOk : Bool) :
    (packageDelivered d b eid last pkgSigOk).glob.dev = d.glob.dev := by
  unfold packageDelivered
  repeat' split
  all_goals simp

@[simp] theorem packageFails_dev (d : Dev) (b : Option Mbx) :
    (packageFails d b).glob.dev = d.glob.dev := by
  simp [packageFails]

@[simp] theorem packageVerified_dev (d : Dev) (b : Option Mbx) (p : Package) (q : Signed) (pkgSigOk current : Bool) :
    (packageVerified d b p q pkgSigOk current).glob.dev = d.glob.dev := by
  unfold packageVerified
  dsimp only
  repeat' split
  all_goals simp

@[simp] theorem fmAnswer_dev (d : Dev) (p : Nat) (f : Dev → Dev × List Nat) (hf : ∀ d, (f d).1.glob.dev = d.glob.dev) :
    (fmAnswer d p f).glob.dev = d.glob.dev := by
  unfold fmAnswer
  repeat' split
  all_goals simp_all

@[simp] theorem setShares_dev (d : Dev) (p : Nat) (shares : List (BitVec 8)) : (setShares d p shares).glob.dev = d.glob.dev := by
  simp [setShares]

@[simp] theorem doeDone_dev (d : Dev) (p m ty : Nat) (payload : List Nat) : (doeDone d p m ty payload).glob.dev = d.glob.dev := by
  simp [doeDone]

@[simp] theorem spdmSend_dev (d : Dev) (q : SpdmReq) : (spdmSend d q).glob.dev = d.glob.dev := by
  unfold spdmSend
  split <;> simp

@[simp] theorem spdmPump_dev (l : List SpdmReq) (d : Dev) : (spdmPump l d).glob.dev = d.glob.dev := by
  induction l generalizing d with
  | nil => simp [spdmPump]
  | cons q l ih =>
    simp only [spdmPump]
    split <;> simp [ih]

@[simp] theorem spdmRequest_dev (d : Dev) (q : SpdmReq) : (spdmRequest d q).glob.dev = d.glob.dev := by
  simp [spdmRequest]

@[simp] theorem spdmSigned_dev (d : Dev) : (spdmSigned d).glob.dev = d.glob.dev := by
  unfold spdmSigned
  split <;> simp

@[simp] theorem nonceGiven_dev (d : Dev) (value : BitVec 256) : (nonceGiven d value).glob.dev = d.glob.dev := by
  simp [nonceGiven]

@[simp] theorem signedRequest_dev (d : Dev) (r : SReq) (q : Signed) : (signedRequest d r q).glob.dev = d.glob.dev := by
  simp [signedRequest]

@[simp] theorem requestTaken_dev (d : Dev) (r : SReq) (q : Signed) (current : Bool) :
    (requestTaken d r q current).glob.dev = d.glob.dev := by
  unfold requestTaken
  split <;> simp

@[simp] theorem signatureVerified_dev (d : Dev) : (signatureVerified d).glob.dev = d.glob.dev := by
  unfold signatureVerified
  split <;> simp

@[simp] theorem fuseChanged_dev (d : Dev) (bank : Nat) : (fuseChanged d bank).glob.dev = d.glob.dev := by
  simp [fuseChanged]

@[simp] theorem planFuses_dev (d : Dev) (t : Nat) (es : List BistEntry) : (planFuses d t es).glob.dev = d.glob.dev := by
  simp [planFuses]

@[simp] theorem clearRetired_dev (d : Dev) (t b : Nat) (whole : Bool) : (clearRetired d t b whole).glob.dev = d.glob.dev := by
  simp [clearRetired]

@[simp] theorem flashFails_dev (d : Dev) : (flashFails d).glob.dev = d.glob.dev := by
  simp [flashFails]

@[simp] theorem dropAuthority_dev (d : Dev) : (dropAuthority d).glob.dev = d.glob.dev := by
  simp [dropAuthority]

@[simp] theorem durableChange_dev (d : Dev) (x : Durable) (d' : Dev) : ((durableChange d x).2 d').glob.dev = d'.glob.dev := by
  unfold durableChange
  split <;> simp

@[simp] theorem durableWritten_dev (d : Dev) (ok : Bool) : (durableWritten d ok).glob.dev = d.glob.dev := by
  unfold durableWritten
  repeat' split
  all_goals simp

@[simp] theorem mirror_dev (d : Dev) (count : Nat) (ok : Bool) : (mirror d count ok).glob.dev = d.glob.dev := by
  simp [mirror]

@[simp] theorem testAnswer_dev (d : Dev) (status : Nat) : (testAnswer d status).glob.dev = d.glob.dev := by
  simp [testAnswer]

@[simp] theorem tileTestAsked_dev (d : Dev) (t : Nat) : (tileTestAsked d t).glob.dev = d.glob.dev := by
  simp [tileTestAsked]

@[simp] theorem hubTestAsked_dev (d : Dev) : (hubTestAsked d).glob.dev = d.glob.dev := by
  simp [hubTestAsked]

@[simp] theorem retrainAsked_dev (d : Dev) (c : Nat) (kind : TrainKind) : (retrainAsked d c kind).glob.dev = d.glob.dev := by
  unfold retrainAsked
  repeat' split
  all_goals simp

@[simp] theorem i3cAssign_dev (d : Dev) (a : BitVec 7) : (i3cAssign d a).glob.dev = d.glob.dev := by
  simp [i3cAssign]

@[simp] theorem i3cAnswer_dev (d : Dev) (v : Nat) : (i3cAnswer d v).glob.dev = d.glob.dev := by
  simp [i3cAnswer]

@[simp] theorem jtagLoad_dev (d : Dev) (n : Nat) : (jtagLoad d n).glob.dev = d.glob.dev := by
  simp [jtagLoad]

@[simp] theorem snapshotDone_dev (d : Dev) : (snapshotDone d).glob.dev = d.glob.dev := by
  simp [snapshotDone]

@[simp] theorem loseRecords_dev (d : Dev) (dom : Nat) : (loseRecords d dom).glob.dev = d.glob.dev := by
  simp [loseRecords]

@[simp] theorem commitFails_dev (d : Dev) (origin : BitVec 16) : (commitFails d origin).glob.dev = d.glob.dev := by
  simp [commitFails]

@[simp] theorem takeAccess_dev (d : Dev) (x : Origin × HostAccess) : (takeAccess d x).glob.dev = d.glob.dev := by
  unfold takeAccess
  split <;> simp

@[simp] theorem takeWaits_dev (d : Dev) : (takeWaits d).glob.dev = d.glob.dev := by
  simp [takeWaits]

@[simp] theorem pllBack_dev (d : Dev) (i : Nat) : (pllBack d i).glob.dev = d.glob.dev := by
  simp [pllBack]

@[simp] theorem samplePreload_dev (d : Dev) (cells : BitVec 64) : (samplePreload d cells).glob.dev = d.glob.dev := by
  simp [samplePreload]

@[simp] theorem storeLine_dev (d : Dev) (line : Nat) (data : Line) (poison codeOnly : Bool) :
    (storeLine d line data poison codeOnly).glob.dev = d.glob.dev := by
  simp [storeLine]

@[simp] theorem runRepairs_dev (d : Dev) (c : Nat) : (runRepairs d c).glob.dev = d.glob.dev := by
  simp [runRepairs]

@[simp] theorem finishRepairs_dev (d : Dev) (m : Nat) : (finishRepairs d m).glob.dev = d.glob.dev := by
  simp [finishRepairs]

@[simp] theorem repairBefore_dev (d : Dev) (line : Nat) (whole : Bool) :
    (repairBefore d line whole).glob.dev = d.glob.dev := by
  simp [repairBefore]

@[simp] theorem acceptWrite_dev (d : Dev) (i : Nat) :
    (acceptWrite d i).glob.dev = d.glob.dev := by
  unfold acceptWrite
  split <;> simp

@[simp] theorem readArrival_dev (d : Dev) (i : Nat) (err chk : Ecc) :
    (readArrival d i err chk).glob.dev = d.glob.dev := by
  unfold readArrival
  dsimp only
  repeat' split
  all_goals simp

@[simp] theorem channelReturn_dev (d : Dev) (i symbols : Nat) (wrongAddr : Bool) :
    (channelReturn d i symbols wrongAddr).glob.dev = d.glob.dev := by
  unfold channelReturn
  dsimp only
  repeat' split
  all_goals simp

@[simp] theorem mergeReturn_dev (d : Dev) (m line symbols : Nat) (wrongAddr : Bool) (chk : Ecc) :
    (mergeReturn d m line symbols wrongAddr chk).glob.dev = d.glob.dev := by
  unfold mergeReturn
  split <;> simp

@[simp] theorem writeTaken_dev (d : Dev) (m line : Nat) (err : Ecc) :
    (writeTaken d m line err).glob.dev = d.glob.dev := by
  unfold writeTaken
  split <;> simp

@[simp] theorem loseDomain_dev (d : Dev) (dom : Nat) : (loseDomain d dom).glob.dev = d.glob.dev := by
  simp [loseDomain]

@[simp] theorem offDone_dev (d : Dev) : (offDone d).glob.dev = d.glob.dev := by
  unfold offDone
  split <;> simp

@[simp] theorem trainMemory_dev (d : Dev) (p : Package) : (trainMemory d p).glob.dev = d.glob.dev := by
  simp [trainMemory]

-- the device state (01_architecture.md)

@[simp] theorem setState_dev (d : Dev) (new : DevState) : (setState d new).glob.dev = new := by
  unfold setState
  dsimp only
  split <;> simp

/-- The device stays in its state, or a fatal error takes it to RECOVERY (R27). -/
def KeptOrRecovery (d d' : Dev) : Prop := d'.glob.dev = d.glob.dev ∨ d'.glob.dev = .recovery

theorem KeptOrRecovery.refl (d : Dev) : KeptOrRecovery d d := .inl rfl

theorem KeptOrRecovery.trans {a b c : Dev} (h : KeptOrRecovery a b) (h' : KeptOrRecovery b c) : KeptOrRecovery a c := by
  unfold KeptOrRecovery at *
  rcases h' with h' | h'
  · rwa [h']
  · exact .inr h'

/-- Before it, an operation that keeps the state makes no difference. -/
theorem KeptOrRecovery.of_eq_left {a b c : Dev} (hb : b.glob.dev = a.glob.dev) (h : KeptOrRecovery b c) : KeptOrRecovery a c :=
  KeptOrRecovery.trans (.inl hb) h

theorem KeptOrRecovery.of_eq_right {a b c : Dev} (h : KeptOrRecovery a b) (hc : c.glob.dev = b.glob.dev) : KeptOrRecovery a c :=
  KeptOrRecovery.trans h (.inl hc)

theorem KeptOrRecovery.each {α : Type} (d : Dev) (l : List α) (f : Dev → α → Dev) (h : ∀ d a, KeptOrRecovery d (f d a)) :
    KeptOrRecovery d (d.each l f) :=
  Dev.each_keeps (KeptOrRecovery d) d l f (.refl d) (fun d a _ hd => hd.trans (h d a))

theorem enterRecovery_state (d : Dev) (cause : Nat) (i : Info) : KeptOrRecovery d (enterRecovery d cause i) := by
  unfold enterRecovery
  split
  · exact .inl (by simp)
  · split
    · exact .inl rfl
    · exact .inl (by simp)
    · exact .inr (by simp)

theorem markUnk_state (d : Dev) (s dset way : Nat) (who : Who) : KeptOrRecovery d (markUnk d s dset way who) := by
  unfold markUnk
  dsimp only
  split
  · exact .refl d
  · split
    · exact .inl (by simp)
    · split
      · exact .inl (by simp)
      · exact KeptOrRecovery.of_eq_left (by simp) (enterRecovery_state _ _ _)

theorem checkDir_state (d : Dev) (s dset : Nat) (err : Option (Fin 16 × Ecc)) (who : Who) :
    KeptOrRecovery d (checkDir d s dset err who) := by
  unfold checkDir
  split
  · exact .refl d
  · refine KeptOrRecovery.each _ _ _ fun d w => ?_
    dsimp only
    split
    · exact .refl d
    · exact .inl (by simp)
    · exact markUnk_state _ _ _ _ _

theorem allocStage_state (d : Dev) (i : Nat) : KeptOrRecovery d (allocStage d i) := by
  unfold allocStage
  dsimp only
  split
  · exact .refl d
  next x _ =>
    have hc := checkDir_state d x.slice (dsetOf x.req.dpa) none (whoOf x.req)
    generalize checkDir d x.slice (dsetOf x.req.dpa) none (whoOf x.req) = c at hc ⊢
    refine hc.of_eq_right ?_
    have hv := dirVictim_dev c x.slice (dsetOf x.req.dpa)
    generalize dirVictim c x.slice (dsetOf x.req.dpa) = v at hv ⊢
    obtain ⟨d1, w⟩ := v
    dsimp only at hv
    repeat' split
    all_goals simp_all

theorem dirStage_state (d : Dev) (i : Nat) : KeptOrRecovery d (dirStage d i) := by
  unfold dirStage
  dsimp only
  split
  · exact .refl d
  · split
    · refine .inl ?_
      split
      · split <;> simp
      · split <;> simp
    · split
      · exact allocStage_state d i
      · exact .inl (by simp)

theorem lookup_state (d : Dev) (i : Nat) (err : LookupErr) : KeptOrRecovery d (lookup d i err) := by
  unfold lookup
  split
  · exact .refl d
  next x hx =>
    extract_lets s dset d1 d2 d3 d4
    have h2 : d2.glob.dev = d.glob.dev := by
      simp only [d2, d1]
      split <;> split <;> simp
    split
    · exact .inl (by simp [h2])
    · split
      · exact .inl (by simp [h2])
      · have h4 : KeptOrRecovery d d4 := by
          have hc := (checkDir_state d2 s dset err.dir (whoOf x.req)).of_eq_left h2
          have h3 : KeptOrRecovery d d3 := hc.of_eq_right (by simp [d3])
          refine h3.of_eq_right ?_
          simp only [d4]
          split <;> simp
        split
        · exact h4.of_eq_right (by simp)
        · refine h4.trans ?_
          have hr : ∀ r : Dev × Bool, r.1.glob.dev = d4.glob.dev → KeptOrRecovery d4 (match r with
              | (d, true) => d.putXact i { x with phase := .queued, cleared := true }
              | (d, false) => if x.req.op == .scp && !d.scpHolds x then finish d i 0 false false else dirStage d i) := by
            rintro ⟨d5, found⟩ h5
            refine KeptOrRecovery.of_eq_left h5 ?_
            cases found
            · dsimp only
              split
              · exact .inl (by simp)
              · exact dirStage_state d5 i
            · exact .inl (by simp)
          refine hr _ ?_
          split <;> simp

theorem walkSet_state (d : Dev) (s dset : Nat) (err : Option (Fin 16 × Ecc)) : KeptOrRecovery d (walkSet d s dset err) := by
  unfold walkSet
  refine (checkDir_state d s dset err {}).of_eq_right (Dev.each_dev _ _ _ fun d w => ?_)
  dsimp only
  split <;> simp

theorem walkIssue_state (d : Dev) (s : Nat) (err : Option (Fin 16 × Ecc)) : KeptOrRecovery d (walkIssue d s err) := by
  unfold walkIssue
  dsimp only
  refine KeptOrRecovery.of_eq_right (b := walkSet (countWalk (passOver d s none) s 1) s (d.slice s).walked err) ?_ (by simp)
  exact KeptOrRecovery.of_eq_left (by simp) (walkSet_state _ _ _ _)

theorem issueOne_state (d : Dev) (s : Nat) (err : LookupErr) : KeptOrRecovery d (issueOne d s err) := by
  unfold issueOne
  split
  · exact walkIssue_state d s err.dir
  · split
    · exact .refl d
    next i x _ =>
      refine KeptOrRecovery.of_eq_left (passOver_dev d s (some i)) ?_
      dsimp only
      split
      · split <;> exact .inl (by simp)
      · exact .inl (by simp)
      · exact (checkDir_state _ _ _ _ _).trans (allocStage_state _ _)
      · exact KeptOrRecovery.of_eq_left (by simp) (lookup_state _ _ err)

theorem issue_state (d : Dev) (s : Nat) (err : LookupErr) : KeptOrRecovery d (issue d s err) := by
  unfold issue
  split
  · exact issueOne_state d s err
  · split
    · exact .refl d
    · exact enterRecovery_state _ _ _

theorem retryIssue_state (d : Dev) (s i : Nat) (err : Option (Fin 16 × Ecc)) : KeptOrRecovery d (retryIssue d s i err) := by
  unfold retryIssue
  split
  · exact .refl d
  · split
    · exact KeptOrRecovery.of_eq_left (by simp) ((checkDir_state _ _ _ _ _).trans (allocStage_state _ _))
    · exact .refl d

theorem walkRest_state (d : Dev) (s : Nat) : KeptOrRecovery d (walkRest d s) := by
  unfold walkRest
  dsimp only
  exact KeptOrRecovery.of_eq_left (countWalk_dev d s (32768 - (d.slice s).walked))
    (KeptOrRecovery.each _ (List.filter _ _) _ fun d k => walkSet_state d s k none)

theorem passEnd_state (d : Dev) : KeptOrRecovery d (passEnd d) := by
  unfold passEnd
  split
  · exact .refl d
  · exact (KeptOrRecovery.each d (List.range 16) walkRest walkRest_state).of_eq_right (by simp)

theorem patrolSlice_state (d : Dev) (errs : List PatrolErr) (s : Nat) : KeptOrRecovery d (patrolSlice d errs s) := by
  unfold patrolSlice
  have hread : ∀ (l : List (Nat × TagEntry)) (d : Dev), (d.each l (fun d k =>
      if d.usable s (k.1 / 16) (k.1 % 16) then
        d.each ((List.range 8).filter (fun j => (d.tag s (k.1 / 16) (k.1 % 16)).valid.getLsbD j))
          (fun d j => patrolRead d errs s (k.1 / 16) (k.1 % 16) j)
      else d)).glob.dev = d.glob.dev := fun l d => Dev.each_dev _ _ _ fun d k => by split <;> simp
  refine KeptOrRecovery.of_eq_right ?_ (hread _ _)
  refine KeptOrRecovery.of_eq_left ?_ (KeptOrRecovery.each _ _ _ fun d k => KeptOrRecovery.each _ _ _ fun d e => checkDir_state d s k e {})
  simp

theorem patrolEnd_state (d : Dev) (errs : List PatrolErr) : KeptOrRecovery d (patrolEnd d errs) := by
  unfold patrolEnd
  split
  · exact .refl d
  · exact (KeptOrRecovery.each d (List.range 16) (fun d s => patrolSlice d errs s) fun d s => patrolSlice_state d errs s).of_eq_right
      (by simp)

theorem sample_state (d : Dev) (readings : List (Option Int)) : KeptOrRecovery d (sample d readings) := by
  have hshut : ∀ (d : Dev) (i tj : Nat), KeptOrRecovery d (shutdown d i tj) := fun d i tj => by
    unfold shutdown
    split
    · exact .refl d
    · exact KeptOrRecovery.of_eq_left (by simp) (enterRecovery_state _ _ _)
  unfold sample
  extract_lets d1
  refine KeptOrRecovery.of_eq_left (b := d1) (by simp [d1]) ?_
  split
  · exact .refl _
  next i tj _ =>
    extract_lets d2
    exact KeptOrRecovery.of_eq_right (b := shutdown d2 i tj) (KeptOrRecovery.of_eq_left (b := d2) (by simp [d2]) (hshut d2 i tj)) (by simp)

theorem writeAddrUe_state (d : Dev) (m line : Nat) : KeptOrRecovery d (writeAddrUe d m line) := by
  unfold writeAddrUe
  split
  · exact .refl d
  · split
    · exact .refl d
    · exact KeptOrRecovery.of_eq_left (by simp) (enterRecovery_state _ _ _)

theorem batchStart_state (d : Dev) (c : Nat) (dataUe : List Nat) (addrUe : Option (BitVec 8)) :
    KeptOrRecovery d (batchStart d c dataUe addrUe) := by
  unfold batchStart
  split
  · exact .refl d
  · dsimp only
    split
    · exact KeptOrRecovery.of_eq_left (by simp) (enterRecovery_state _ _ _)
    · exact .inl (by simp)

theorem failChannel_state (d : Dev) (c : Nat) (timeouts : Bool) : KeptOrRecovery d (failChannel d c timeouts) := by
  unfold failChannel
  extract_lets x d1
  by_cases hfew : if timeouts then x.timeouts < 3 else x.failsInRow < 3
  · rw [if_pos hfew]
    exact .refl d
  · rw [if_neg hfew]
    exact KeptOrRecovery.of_eq_left (b := chanEvent d1 c 7 3 3 0 0) (by simp [d1]) (enterRecovery_state _ _ _)

theorem fuseLoaded_state (d : Dev) (bad : Option (BitVec 4)) : KeptOrRecovery d (fuseLoaded d bad) := by
  unfold fuseLoaded
  split
  · exact .refl d
  · split
    · exact enterRecovery_state _ _ _
    · exact .inl (by simp)

-- the start-up (14_startup_bist_reset.md)

/-- The parts of the start-up that end its tests and its training leave START for HELD alone. -/
def KeptOrHeld (d d' : Dev) : Prop := d'.glob.dev = d.glob.dev ∨ d'.glob.dev = .held

theorem startProgress_state (d : Dev) : KeptOrHeld d (startProgress d) := by
  unfold startProgress KeptOrHeld
  dsimp only
  repeat' split
  all_goals simp

theorem KeptOrHeld.of_eq_left {a b c : Dev} (hb : b.glob.dev = a.glob.dev) (h : KeptOrHeld b c) : KeptOrHeld a c := by
  unfold KeptOrHeld at *
  rwa [hb] at h

theorem stepNine_state (d : Dev) : KeptOrHeld d (stepNine d) := by
  unfold stepNine
  extract_lets d1 d2 d3
  have h2 : d2.glob.dev = d.glob.dev := by
    simp only [d2, d1]
    split
    · split <;> simp
    · simp
  split
  · exact KeptOrHeld.of_eq_left h2 (startProgress_state _)
  · exact KeptOrHeld.of_eq_left (by simpa [d3] using h2) (startProgress_state _)

theorem tileTested_state (d : Dev) (t : Nat) (r : BistOutcome) :
    (tileTested d t r).glob.dev = d.glob.dev ∨ (d.glob.dev = .start ∧ (tileTested d t r).glob.dev = .held) := by
  unfold tileTested
  split
  · exact .inl rfl
  · extract_lets d1
    have h1 : d1.glob.dev = d.glob.dev := by
      simp only [d1]
      split <;> simp
    split
    next hstart =>
      have hd : d.glob.dev = .start := by simp_all
      split
      · exact .inl h1
      · rcases KeptOrHeld.of_eq_left (by simpa using h1) (startProgress_state (d1.each d1.nextPair fun d t => startTest d false t)) with h | h
        · exact .inl h
        · exact .inr ⟨hd, h⟩
    · exact .inl h1

theorem pkgCheck_state (d : Dev) (sigOk : Bool) :
    (pkgCheck d sigOk).glob.dev = d.glob.dev ∨ (d.glob.dev = .start ∧ (pkgCheck d sigOk).glob.dev = .held) := by
  unfold pkgCheck
  split
  · exact .inl rfl
  next hgate =>
    have hd : d.glob.dev = .start := by simp_all
    extract_lets cause d1 d2 d3 d4 d5 
    have h5 : d5.glob.dev = d.glob.dev := by
      simp only [d5, d4, d3, d2, d1]
      split
      · split <;> simp
      · simp
    split
    · rcases KeptOrHeld.of_eq_left (by simpa using h5) (stepNine_state (d5.setGlob fun g => { g with step := 6, hubTested := true })) with h | h
      · exact .inl h
      · exact .inr ⟨hd, h⟩
    · exact .inl (by simpa using h5)

theorem memoryTrained_state (d : Dev) (p : Package) (full : Bool) : KeptOrHeld d (memoryTrained d p full) := by
  unfold memoryTrained
  exact KeptOrHeld.of_eq_left (by simp) (startProgress_state _)

theorem trained_state (d : Dev) (c : Nat) (full : Bool) (rate : Option (BitVec 3)) (pop : Population) :
    KeptOrRecovery d (trained d c full rate pop) ∨ (d.glob.dev = .start ∧ (trained d c full rate pop).glob.dev = .held) := by
  unfold trained
  split
  · exact .inl (.refl d)
  next p _ =>
    split
    · exact .inl (.refl d)
    next hgate =>
      have hd : d.glob.dev = .start := by simp_all
      split
      · exact .inl (KeptOrRecovery.of_eq_left (by simp) (enterRecovery_state _ _ _))
      · split
        · exact .inl (.refl d)
        · extract_lets m d1 d2 d3
          have h3 : d3.glob.dev = d.glob.dev := by
            simp only [d3, d2, d1, m]
            split <;> simp
          split
          · rcases KeptOrHeld.of_eq_left h3 (memoryTrained_state d3 p full) with h | h
            · exact .inl (.inl h)
            · exact .inr ⟨hd, h⟩
          · exact .inl (.inl h3)

theorem hubDone_state (d : Dev) (ports : BitVec 8) (quads : BitVec 5) (core mc : Bool) :
    KeptOrRecovery d (hubDone d ports quads core mc) ∨ (d.glob.dev = .start
      ∧ ((hubDone d ports quads core mc).glob.dev = .held ∨ (hubDone d ports quads core mc).glob.dev = .test)) := by
  unfold hubDone
  extract_lets test r d1 d2 d3 d4
  split
  · exact .inl (.refl d)
  next hgate =>
    have h3 : d3.glob.dev = d.glob.dev := by
      simp only [d3, d2, d1]
      split <;> simp
    split
    · exact .inl (KeptOrRecovery.of_eq_left h3 (enterRecovery_state _ _ _))
    · split
      · exact .inl (.inl h3)
      · have hd : d.glob.dev = .start := by simp_all
        split
        · exact .inr ⟨hd, .inr (by simp)⟩
        · rcases KeptOrHeld.of_eq_left (by simpa [d4] using h3) (stepNine_state d4) with h | h
          · exact .inl (.inl h)
          · exact .inr ⟨hd, .inl h⟩

theorem finalSteps_state (d : Dev) :
    (finalSteps d).glob.dev = d.glob.dev
      ∨ (d.glob.dev = .start ∧ ((finalSteps d).glob.dev = .held ∨ (finalSteps d).glob.dev = .service)) := by
  unfold finalSteps
  split
  · exact .inl rfl
  next p _ =>
    by_cases hgate : (d.glob.dev != .start || !d.glob.pkgUsable || d.glob.resetPhase != .none || !d.memReady
        || decide (d.glob.step ≠ (if d.glob.quick then 7 else 12))) = true
    · exact .inl (by rw [if_pos hgate])
    · rw [if_neg hgate]
      have hd : d.glob.dev = .start := by
        simp only [Bool.or_eq_true, bne_iff_ne, not_or, not_not] at hgate
        exact hgate.1.1.1.1
      dsimp only
      split
      · exact .inr ⟨hd, .inl (by simp [holdInconsistent])⟩
      · exact .inr ⟨hd, .inr (by simp)⟩

theorem packageCommitted_state (d : Dev) (ok : Bool) :
    (packageCommitted d ok).glob.dev = d.glob.dev ∨ (d.glob.dev = .held ∧ (packageCommitted d ok).glob.dev = .start) := by
  unfold packageCommitted
  split
  · split
    · exact .inl rfl
    · split
      · exact .inl (by simp)
      · extract_lets old held d1 d2 d3 d4
        have h1 : d1.glob.dev = d.glob.dev := by
          simp only [d1]
          split <;> simp
        have h4 : d4.glob.dev = d.glob.dev := by simp [d4, d3, d2, h1]
        split
        next hheld =>
          refine .inr ⟨by simpa [held] using hheld, ?_⟩
          simp only [heldReturn]
          split <;> simp
        · exact .inl h4
  · exact .inl rfl

theorem pinHigh_state (d : Dev) (straps : BitVec 4) :
    (pinHigh d straps).glob.dev = d.glob.dev ∨ (d.glob.dev = .off ∧ (pinHigh d straps).glob.dev = .start) := by
  unfold pinHigh
  dsimp only
  split
  next h => exact .inr ⟨by simpa using h, by simp⟩
  · exact .inl (by simp)

theorem resetDomains_dev (d : Dev) (clean : Bool) : (resetDomains d clean).glob.dev = .start := rfl

theorem drainEnd_state (d : Dev) (clean : Bool) :
    (drainEnd d clean).glob.dev = d.glob.dev ∨ (d.glob.resetPhase = .draining ∧ (drainEnd d clean).glob.dev = .start) := by
  unfold drainEnd
  split
  · exact .inl rfl
  next h =>
    refine .inr ⟨by simpa using h, ?_⟩
    extract_lets clean1 d1 u d2 d3 d4 old d5
    split
    next => exact resetDomains_dev d4 clean1
    · simp

-- the table of device states (R26, R27)

/-- What the table of device states lets command `c` do. -/
def MovesAs (c : Instr) (d d' : Dev) : Prop :=
  ((d.glob.dev = .recovery ∨ d.glob.dev = .test) → d'.glob.dev = d.glob.dev ∨ d'.glob.dev = .recovery
      ∨ (d'.glob.dev = .off ∧ c = .supplyLoss)
      ∨ (d'.glob.dev = .start ∧ d.glob.resetPhase = .draining ∧ ∃ b, c = .fullResetDrainEnd b))
    ∧ (d'.glob.dev = .service → d.glob.dev = .service ∨ (d.glob.dev = .start ∧ c = .startFinalSteps))
    ∧ (d'.glob.dev = .test → d.glob.dev = .test ∨ (d.glob.dev = .start ∧ ∃ p q a b, c = .hubSelfTestDone p q a b))

theorem KeptOrRecovery.movesAs {d d' : Dev} (c : Instr) (h : KeptOrRecovery d d') : MovesAs c d d' := by
  rcases h with h | h
  · exact ⟨fun _ => .inl h, fun hs => .inl (h ▸ hs), fun ht => .inl (h ▸ ht)⟩
  · exact ⟨fun _ => .inr (.inl h), by simp [h], by simp [h]⟩

theorem movesAs_of_dev {c : Instr} {d d' : Dev} (h : d'.glob.dev = d.glob.dev) : MovesAs c d d' :=
  KeptOrRecovery.movesAs c (.inl h)

/-- A move between states of the start-up, or out of HELD or OFF, is no move of the table's RECOVERY, TEST and SERVICE. -/
theorem movesAs_of_other {c : Instr} {d d' : Dev} (hd : d.glob.dev ≠ .recovery ∧ d.glob.dev ≠ .test)
    (hd' : d'.glob.dev ≠ .service ∧ d'.glob.dev ≠ .test) : MovesAs c d d' :=
  ⟨fun h => absurd h (by simp [hd]), fun h => absurd h hd'.1, fun h => absurd h hd'.2⟩

@[simp] theorem movesAs_settle (c : Instr) (d d' : Dev) : MovesAs c d (settle d') ↔ MovesAs c d d' := by
  simp [MovesAs]

/-- What goes on by itself after a command moves no device state. -/
theorem movesAs_of_next {s t : State} {c : Instr} {d : Dev} (h : (.next (s.turned d) : Answer) = .next t) (hd : MovesAs c s.dev d) :
    MovesAs c s.dev t.dev := by
  obtain rfl := Host.Outcome.next.inj h
  simpa using hd

/-- What every command may do: the commands that move the device state by the lemmas of their operations, the rest not at all. -/
theorem exec_movesAs {s t : State} {c : Instr} (h : exec c s = .next t) : MovesAs c s.dev t.dev := by
  cases c
  case memRd | memRdData | memInv | memInvNt | memClnEvct | memWr | memWrPtl | memSpecRd | biConflict | birspI | birspS | linkUp
      | hdmDecoderCommit | homeQueueArrival | moderationTimeout | setLdAllocations | registerWrite | packageDeliver =>
    obtain rfl := checked_next h
    exact movesAs_of_next rfl (movesAs_of_dev (by simp))
  case thermalSample readings =>
    obtain rfl := checked_next h
    refine movesAs_of_next rfl ?_
    split
    · exact movesAs_of_dev rfl
    · exact (sample_state _ _).movesAs _
  case memoryTrainingDone ch full rate pop =>
    obtain rfl := checked_next h
    refine movesAs_of_next rfl ?_
    rcases trained_state s.dev ch.val full rate pop with h | ⟨hd, h⟩
    · exact h.movesAs _
    · exact movesAs_of_other (by simp [hd]) (by simp [h])
  case tileSelfTestDone ti r =>
    obtain rfl := checked_next h
    refine movesAs_of_next rfl ?_
    rcases tileTested_state s.dev ti.val r with h | ⟨hd, h⟩
    · exact movesAs_of_dev h
    · exact movesAs_of_other (by simp [hd]) (by simp [h])
  case homeQueueIssue n err =>
    refine movesAs_of_next h ?_
    dsimp only
    split
    · exact movesAs_of_dev rfl
    · exact (issue_state _ _ _).movesAs _
  case dirRetry n id err =>
    refine movesAs_of_next h ?_
    dsimp only
    split
    · exact movesAs_of_dev rfl
    · exact (retryIssue_state _ _ _ _).movesAs _
  case wbBatchStart ch ue ae =>
    refine movesAs_of_next h ?_
    dsimp only
    split
    · exact movesAs_of_dev rfl
    · exact (batchStart_state _ _ _ _).movesAs _
  case channelFailed ch timeouts =>
    refine movesAs_of_next h ?_
    dsimp only
    split
    · exact movesAs_of_dev rfl
    · exact (failChannel_state _ _ _).movesAs _
  case channelWriteTaken m line err ue =>
    refine movesAs_of_next h ?_
    dsimp only
    split
    · exact (writeAddrUe_state _ _ _).movesAs _
    · exact movesAs_of_dev (by simp)
  case labwAtLab e slot =>
    refine movesAs_of_next h ?_
    dsimp only
    split
    · exact (enterRecovery_state _ _ _).movesAs _
    · split <;> exact movesAs_of_dev (by simp)
  case sweepPassEnd =>
    exact movesAs_of_next h ((passEnd_state _).movesAs _)
  case patrolPassEnd errs =>
    exact movesAs_of_next h ((patrolEnd_state _ _).movesAs _)
  case fuseLoadDone bad =>
    exact movesAs_of_next h ((fuseLoaded_state _ _).movesAs _)
  case packageCheckDone ok =>
    refine movesAs_of_next h ?_
    rcases pkgCheck_state s.dev ok with h | ⟨hd, h⟩
    · exact movesAs_of_dev h
    · exact movesAs_of_other (by simp [hd]) (by simp [h])
  case hubSelfTestDone p q a b =>
    refine movesAs_of_next h ?_
    rcases hubDone_state s.dev p q a b with h | ⟨hd, h | h⟩
    · exact h.movesAs _
    · exact movesAs_of_other (by simp [hd]) (by simp [h])
    · exact ⟨by simp [hd], by simp [h], fun _ => .inr ⟨hd, p, q, a, b, rfl⟩⟩
  case startFinalSteps =>
    refine movesAs_of_next h ?_
    rcases finalSteps_state s.dev with h | ⟨hd, h | h⟩
    · exact movesAs_of_dev h
    · exact movesAs_of_other (by simp [hd]) (by simp [h])
    · exact ⟨by simp [hd], fun _ => .inr ⟨hd, rfl⟩, by simp [h]⟩
  case packageCommit ok =>
    refine movesAs_of_next h ?_
    rcases packageCommitted_state s.dev ok with h | ⟨hd, h⟩
    · exact movesAs_of_dev h
    · exact movesAs_of_other (by simp [hd]) (by simp [h])
  case devRstNRelease straps =>
    refine movesAs_of_next h ?_
    dsimp only
    split
    · exact movesAs_of_dev rfl
    · rcases pinHigh_state s.dev straps with h | ⟨hd, h⟩
      · exact movesAs_of_dev h
      · exact movesAs_of_other (by simp [hd]) (by simp [h])
  case fullResetDrainEnd clean =>
    refine movesAs_of_next h ?_
    rcases drainEnd_state s.dev clean with h | ⟨hd, h⟩
    · exact movesAs_of_dev h
    · exact ⟨fun _ => .inr (.inr (.inr ⟨h, hd, clean, rfl⟩)), by simp [h], by simp [h]⟩
  case supplyLoss =>
    refine movesAs_of_next h ?_
    dsimp only
    split
    · exact movesAs_of_dev rfl
    · have h : (supplyLost (cutTests s.dev)).glob.dev = .off := rfl
      exact ⟨fun _ => .inr (.inr (.inl ⟨h, rfl⟩)), by simp [h], by simp [h]⟩
  all_goals
    obtain rfl : s.turned _ = t := Host.Outcome.next.inj h
    simp only [State.turned_dev, movesAs_settle]
    exact movesAs_of_dev (by simp [beginCall_dev])

/-- Settles O2: no command moves the device state but as the table of device states lets it. -/
theorem onlyFullResetLeavesRecoveryAndTest : Obligations.OnlyFullResetLeavesRecoveryAndTest := by
  unfold Obligations.OnlyFullResetLeavesRecoveryAndTest
  intro s t c h
  exact exec_movesAs h

end Sys2Proof.Machine
end

section
/-! How a command answers, and what the answers to hosts leave alone. -/

open Sys2Proof

namespace Sys2Proof.Machine

/-- A meaning on a clock island that runs. -/
theorem onIsland_running {i : Nat} {s : State} {f : Dev → Dev} (h : s.dev.pwr.unlocked.getLsbD i = false) :
    onIsland i s f = .next (s.turned (f s.dev)) := by
  rw [onIsland, onDevice_turned, h]
  rfl

/-- A meaning that checks its operands, where they are right. -/
theorem checked_turned {ok : Prop} [Decidable ok] {s : State} {f : Dev → Dev} (h : ok) :
    (if ok then onDevice s f else .fault .illFormed) = .next (s.turned (f s.dev)) := by
  rw [if_pos h, onDevice_turned]

-- records: which source counts on

/-- A record raised advances its source's count, kept or lost. -/
theorem raise_seq (d : Dev) (src cls sev : Nat) (i : Info) :
    ((raise d src cls sev i).source src).seq = (d.source src).seq + 1 := by
  by_cases h : (d.source src).buf.length < 2
  · rw [raise_room d src cls sev i h]
  · rw [(raise_lost d src cls sev i (by omega)).1]

theorem source_of_sources {d d' : Dev} (h : d'.sources = d.sources) (n : Nat) : d'.source n = d.source n := by
  rw [Dev.source, h, Dev.source]

@[simp] theorem count_source (d : Dev) (b code n : Nat) (c : Counted) (k : Nat) : (count d b code n c).source k = d.source k :=
  source_of_sources (by simp) k

@[simp] theorem emit_source (d : Dev) (m : Msg) (k : Nat) : (emit d m).source k = d.source k := rfl

@[simp] theorem Dev.source_setErr (d : Dev) (f : Err → Err) (k : Nat) : (d.setErr f).source k = d.source k := rfl

@[simp] theorem Dev.source_updPort (d : Dev) (n : Nat) (f : Port → Port) (k : Nat) : (d.updPort n f).source k = d.source k := rfl

/-- The error log raises its own record (455) alone. -/
theorem dropLog_source (d : Dev) {n : Nat} (h : n ≠ 455) : (dropLog d).source n = d.source n := by
  unfold dropLog
  dsimp only
  split
  · simp
  · rw [raise_other _ _ _ _ _ h]
    simp

theorem logErr_source (d : Dev) (f : Fail) {n : Nat} (h : n ≠ 455) : (logErr d f).source n = d.source n := by
  unfold logErr
  dsimp only
  repeat' split
  all_goals simp [dropLog_source _ h]

-- answers to hosts

/-- What the acknowledgement of conflicts keeps: what the messages and a port's BISnps have no part in. -/
theorem ackConflicts_keeps (P : Dev → Prop) (d : Dev) (p : Nat) (h0 : P d) (hp : ∀ d n f, P d → P (Dev.updPort d n f))
    (he : ∀ d m, P d → P (emit d m)) : P (ackConflicts d p) := by
  unfold ackConflicts
  refine Dev.each_keeps P d _ _ h0 fun d s _ hd => ?_
  dsimp only
  split
  · exact hd
  · split
    · exact hd
    · split
      · exact he _ _ (hp _ _ _ hd)
      · exact hp _ _ _ hd

@[simp] theorem ackConflicts_xacts (d : Dev) (p : Nat) : (ackConflicts d p).xacts = d.xacts :=
  ackConflicts_keeps (fun x => x.xacts = d.xacts) d p rfl (fun _ _ _ h => h) (fun _ _ h => h)

@[simp] theorem ackConflicts_nextId (d : Dev) (p : Nat) : (ackConflicts d p).nextId = d.nextId :=
  ackConflicts_keeps (fun x => x.nextId = d.nextId) d p rfl (fun _ _ _ h => h) (fun _ _ h => h)

@[simp] theorem ackConflicts_source (d : Dev) (p n : Nat) : (ackConflicts d p).source n = d.source n :=
  ackConflicts_keeps (fun x => x.source n = d.source n) d p rfl (fun _ _ _ h => h) (fun _ _ h => h)

theorem mem_ackConflicts_out {d : Dev} {m : Msg} (p : Nat) (h : m ∈ d.out) : m ∈ (ackConflicts d p).out :=
  ackConflicts_keeps (fun x => m ∈ x.out) d p h (fun _ _ _ h => h) (fun _ _ h => by simp [h])

@[simp] theorem respondCmp_xacts (d : Dev) (r : Req) (own : Bool) : (respondCmp d r own).xacts = d.xacts := by
  unfold respondCmp
  repeat' split
  all_goals simp

@[simp] theorem respondCmp_nextId (d : Dev) (r : Req) (own : Bool) : (respondCmp d r own).nextId = d.nextId := by
  unfold respondCmp
  repeat' split
  all_goals simp

@[simp] theorem respondCmp_source (d : Dev) (r : Req) (own : Bool) (n : Nat) : (respondCmp d r own).source n = d.source n := by
  unfold respondCmp
  repeat' split
  all_goals simp

@[simp] theorem respondData_xacts (d : Dev) (r : Req) (t0 : Nat) (data : Line) (poison : Bool) (m : Option Meta) :
    (respondData d r t0 data poison m).xacts = d.xacts := by
  unfold respondData
  dsimp only
  repeat' split
  all_goals simp

@[simp] theorem respondData_nextId (d : Dev) (r : Req) (t0 : Nat) (data : Line) (poison : Bool) (m : Option Meta) :
    (respondData d r t0 data poison m).nextId = d.nextId := by
  unfold respondData
  dsimp only
  repeat' split
  all_goals simp

@[simp] theorem failRequest_xacts (d : Dev) (r : Req) (t0 kind : Nat) : (failRequest d r t0 kind).xacts = d.xacts := by
  unfold failRequest
  dsimp only
  repeat' split
  all_goals simp

@[simp] theorem failRequest_nextId (d : Dev) (r : Req) (t0 kind : Nat) : (failRequest d r t0 kind).nextId = d.nextId := by
  unfold failRequest
  dsimp only
  repeat' split
  all_goals simp

/-- A response with data raises no record but its port's own, where its data is poisoned. -/
theorem respondData_source (d : Dev) {p m : Nat} {tag : BitVec 16} {r : Req} (hr : r.src = .host p m tag) (t0 : Nat) (data : Line)
    (poison : Bool) (o : Option Meta) {n : Nat} (h : n ≠ 8 * p + 5) : (respondData d r t0 data poison o).source n = d.source n := by
  simp only [respondData, hr]
  repeat' split
  all_goals simp [raise_other _ _ _ _ _ h]

/-- The requester gets its completion. -/
theorem respondCmp_out {d : Dev} {p m : Nat} {tag : BitVec 16} {r : Req} (hr : r.src = .host p m tag)
    (h : d.stillAgent p m r = true) : Msg.cmp p m tag ∈ (respondCmp d r false).out := by
  simp only [respondCmp, hr, h, Bool.not_true, Bool.false_eq_true, if_false]
  exact mem_ackConflicts_out p (by simp)

theorem respondData_out {d : Dev} {p m : Nat} {tag : BitVec 16} {r : Req} (hr : r.src = .host p m tag) (t0 : Nat) (data : Line)
    (o : Option Meta) (h : d.stillAgent p m r = true) : Msg.memData p m tag data true o ∈ (respondData d r t0 data true o).out := by
  simp only [respondData, hr, h, Bool.not_true, Bool.false_eq_true, if_false, Bool.true_or, if_true]
  exact mem_ackConflicts_out p (by simp)

theorem ld_of_ports {d d' : Dev} (h : d'.ports = d.ports) (p m : Nat) : d'.ld p m = d.ld p m := by
  rw [Dev.ld, Dev.port, h, Dev.ld, Dev.port]

theorem stillAgent_of_ports {d d' : Dev} (h : d'.ports = d.ports) (p m : Nat) (r : Req) : d'.stillAgent p m r = d.stillAgent p m r := by
  rw [Dev.stillAgent, ld_of_ports h, Dev.stillAgent]

/-- A host's write that fails outside RECOVERY is reported once and completed (R80). -/
theorem failRequest_write {d : Dev} {p m : Nat} {tag : BitVec 16} {r : Req} (hr : r.src = .host p m tag) (hw : r.op.isWrite = true)
    (hdev : d.glob.dev ≠ .recovery) (h : d.stillAgent p m r = true) (t0 kind : Nat) :
    Msg.cmp p m tag ∈ (failRequest d r t0 kind).out
      ∧ ((failRequest d r t0 kind).source (transSource kind)).seq = (d.source (transSource kind)).seq + 1 := by
  have hread : r.op.isRead = false ∧ (r.op == .ownNoData) = false := by
    cases hop : r.op <;> simp_all [Op.isWrite, Op.isRead]
  have hkind : transSource kind ≠ 455 := by
    unfold transSource
    split
    · decide
    · split <;> decide
  simp only [failRequest, hr, beq_false_of_ne hdev, hw, hread, Bool.or_true, Bool.false_eq_true, if_false, if_true]
  refine ⟨respondCmp_out hr ((stillAgent_of_ports (by simp) p m r).trans h), ?_⟩
  rw [respondCmp_source, raise_seq, logErr_source _ _ hkind]

/-- A host's read that fails outside RECOVERY is reported once and answered with poison (R80). -/
theorem failRequest_read {d : Dev} {p m : Nat} {tag : BitVec 16} {r : Req} (hr : r.src = .host p m tag) (hw : r.op.isRead = true)
    (hdev : d.glob.dev ≠ .recovery) (h : d.stillAgent p m r = true) (hp : p < 8) (t0 kind : Nat) :
    (∃ o, Msg.memData p m tag 0 true o ∈ (failRequest d r t0 kind).out)
      ∧ ((failRequest d r t0 kind).source (transSource kind)).seq = (d.source (transSource kind)).seq + 1
      ∧ ∀ n, n ≠ 455 → n ≠ 8 * p + 5 → n ≠ transSource kind → (failRequest d r t0 kind).source n = d.source n := by
  have hkind : transSource kind ≠ 455 ∧ transSource kind ≠ 8 * p + 5 := by
    unfold transSource
    split
    · omega
    · split <;> omega
  simp only [failRequest, hr, beq_false_of_ne hdev, hw, Bool.true_or, Bool.false_eq_true, if_false, if_true]
  refine ⟨⟨_, respondData_out rfl _ _ _ ((stillAgent_of_ports (by simp) p m _).trans h)⟩, ?_, fun n h1 h2 h3 => ?_⟩
  · rw [respondData_source _ rfl _ _ _ _ hkind.2, raise_seq, logErr_source _ _ hkind.1]
  · rw [respondData_source _ rfl _ _ _ _ h2, raise_other _ _ _ _ _ h3, logErr_source _ _ h1]

-- requests on their way

theorem xact?_start {d : Dev} {n : Nat} (h : d.nextId = n) (x : Xact) : (d.start x).1.xact? n = some x := by
  subst h
  simp [Dev.start, Dev.xact?]

@[simp] theorem start_nextId (d : Dev) (x : Xact) : (d.start x).1.nextId = d.nextId + 1 := rfl

@[simp] theorem start_source (d : Dev) (x : Xact) (n : Nat) : (d.start x).1.source n = d.source n := rfl

@[simp] theorem start_port (d : Dev) (x : Xact) (n : Nat) : (d.start x).1.port n = d.port n := rfl

end Sys2Proof.Machine
end

section
/-! Proof of the statement on the requests of hosts: what each asks of its home slice, and what a miss of the port's LAB does. -/

open Sys2Proof

namespace Sys2Proof.Machine

theorem readOp_isWrite (db : Bool) (m : MetaReq) : (readOp db m).isWrite = false := by
  unfold readOp
  split <;> rfl

theorem readOp_isRead (db : Bool) (m : MetaReq) : (readOp db m).isRead = true := by
  unfold readOp
  split <;> rfl

theorem invOp_isWrite (db : Bool) (m : MetaReq) : (invOp db m).isWrite = false := by
  unfold invOp
  split <;> rfl

/-- The request a port makes of an M2S message, before its LAB has translated it. -/
def Dev.hostXact (d : Dev) (h : M2S) (op : Op) (data : Line) (mask : Mask) (poison : Bool) : Xact :=
  let l := d.ld h.port.val h.ld.val
  { req := { src := .host h.port.val h.ld.val h.tag, agent := l.agent, epoch := l.epoch, hdmDb := l.hdmDb, op := op, data := data
             mask := mask, poison := poison, view := l.view, gran := l.gran, va := h.va l }
    t0 := d.glob.time }

/-- A request its port takes in is counted and goes to the port's LAB (R73). -/
theorem hostRequest_translates {d : Dev} {h : M2S} (ht : d.takesRequest h) (opOf : Bool → Op) (data : Line) (mask : Mask)
    (poison : Bool) : ∃ c, hostRequest d h opOf data mask poison = translateHost (count d h.port.val 1 1 c) h.port.val
      (d.hostXact h (opOf (d.ld h.port.val h.ld.val).hdmDb) data mask poison) h.lab := by
  obtain ⟨hup, hreset, hst, hdec, hwith, hdev, hsnoop⟩ := ht
  unfold hostRequest
  extract_lets p m l op va r x snoop counted d1
  have hstart : (!d.portUp p || d.glob.resetPhase != .none || l.st == .unbound || !l.decodes h.hpa || d.withholds p m) = false := by
    simp [p, m, l, hup, hreset, hst, hdec, hwith]
  have hdev1 : (d1.glob.dev == .recovery) = false := by simpa [d1] using hdev
  have hst1 : (l.st == .resigned) = false := by simp [l, p, m, hst]
  have hsnoop1 : snoop = none := hsnoop
  simp only [hstart, hdev1, hst1, hsnoop1, Bool.false_eq_true, if_false]
  refine ⟨_, Eq.trans (b := translateHost d1 p x h.lab) ?_ rfl⟩
  cases hop : op <;> rfl

theorem setLab_frame (d : Dev) (l : Nat) (t : Tab LabEntry) :
    (d.setLab l t).nextId = d.nextId ∧ (d.setLab l t).mem = d.mem ∧ (d.setLab l t).xacts = d.xacts ∧ (d.setLab l t).glob = d.glob
      ∧ (d.setLab l t).sources = d.sources := by
  unfold Dev.setLab
  split <;> simp

/-- A LAB's entries are no part of what its port's LDs are. -/
theorem setLab_ld (d : Dev) (l : Nat) (t : Tab LabEntry) (p m : Nat) : (d.setLab l t).ld p m = d.ld p m := by
  unfold Dev.setLab
  split
  · by_cases h : p = l
    · subst h
      simp [Dev.ld]
    · simp [Dev.ld, Dev.port_updPort_other _ _ h]
  · rfl

@[simp] theorem count_port (d : Dev) (b code n : Nat) (c : Counted) (p : Nat) : (count d b code n c).port p = d.port p := by
  simp [Dev.port]

@[simp] theorem count_ld (d : Dev) (b code n : Nat) (c : Counted) (p m : Nat) : (count d b code n c).ld p m = d.ld p m := by
  simp [Dev.ld]

@[simp] theorem count_lab (d : Dev) (b code n : Nat) (c : Counted) (l : Nat) : (count d b code n c).lab l = d.lab l := by
  simp [Dev.lab]

/-- A lookup that finds a good entry marks it as used, and changes nothing else of the device. -/
theorem labLookup_hit {d : Dev} {l : Nat} {view : BitVec 12} {gran : BitVec 2} {va : Nat} {c : Ecc} {k : Nat} {e : LabEntry}
    (hf : labFind (d.lab l) l view gran (va / 2 ^ granShift gran.toNat) = some (k, e)) (hc : eccWith c e.bad = .ok) :
    labLookup d l view gran va c
      = (d.setLab l (Tab.put (d.lab l) k { e with ref := true, bad := 0 }), some { e with ref := true, bad := 0 }) := by
  simp [labLookup, hf, hc]

/-- What taking a request in and finding its page leave as they were. -/
def Dev.sameRequests (d d' : Dev) : Prop :=
  d'.xacts = d.xacts ∧ d'.nextId = d.nextId ∧ d'.mem = d.mem ∧ d'.glob = d.glob ∧ (∀ n, d'.source n = d.source n)
    ∧ ∀ p m, d'.ld p m = d.ld p m

/-- A request whose page the LAB holds fails where it may not write there, and else is on its way. -/
theorem hostRequest_hit {d : Dev} {h : M2S} {e : LabEntry} (ht : d.takesRequest h) (he : d.labHolds h e) (opOf : Bool → Op)
    (data : Line) (mask : Mask) (poison : Bool) :
    let x := d.hostXact h (opOf (d.ld h.port.val h.ld.val).hdmDb) data mask poison
    ∃ d1, d.sameRequests d1 ∧ hostRequest d h opOf data mask poison = if x.req.op.isWrite && !e.pte.w then failRequest d1 x.req x.t0 16
      else (d1.start (x.translated h.port.val { e with ref := true, bad := 0 })).1 := by
  intro x
  obtain ⟨k, hf, hc, hv⟩ := he
  obtain ⟨cnt, hreq⟩ := hostRequest_translates ht opOf data mask poison
  rw [hreq]
  unfold translateHost
  rw [labLookup_hit (by simpa [Dev.hostXact] using hf) hc]
  simp only [hv, Bool.not_true, Bool.false_eq_true, if_false]
  exact ⟨_, by simp [Dev.sameRequests, setLab_frame, setLab_ld, source_of_sources (setLab_frame _ _ _).2.2.2.2], rfl⟩

/-- A request whose page the LAB holds, and that may do there what it asks, is on its way to the home slice of its line. -/
theorem hostRequest_started {d : Dev} {h : M2S} {e : LabEntry} (ht : d.takesRequest h) (he : d.labHolds h e) {opOf : Bool → Op}
    {data : Line} {mask : Mask} {poison : Bool}
    (hw : (opOf (d.ld h.port.val h.ld.val).hdmDb).isWrite = true → e.pte.w = true) :
    d.startedRequest (hostRequest d h opOf data mask poison) (opOf (d.ld h.port.val h.ld.val).hdmDb)
      (e.dpa (h.va (d.ld h.port.val h.ld.val)) / 64 * 64) data mask poison := by
  obtain ⟨d1, ⟨-, hid, hmem, -⟩, hreq⟩ := hostRequest_hit ht he opOf data mask poison
  have hgo : ((d.hostXact h (opOf (d.ld h.port.val h.ld.val).hdmDb) data mask poison).req.op.isWrite && !e.pte.w) = false := by
    simpa [Dev.hostXact] using hw
  rw [hreq, hgo]
  exact ⟨congrArg (· + 1) hid, hmem, _, xact?_start hid _, by simp [Xact.translated, Dev.hostXact, LabEntry.dpa]⟩

/-- A write to a page whose entry has no W is completed, reported and changes nothing (R80). -/
theorem hostRequest_refused {d : Dev} {h : M2S} {e : LabEntry} (ht : d.takesRequest h) (he : d.labHolds h e) {opOf : Bool → Op}
    {data : Line} {mask : Mask} {poison : Bool} (hop : (opOf (d.ld h.port.val h.ld.val).hdmDb).isWrite = true)
    (hw : e.pte.w = false) :
    let d' := hostRequest d h opOf data mask poison
    d'.xacts = d.xacts ∧ d'.nextId = d.nextId ∧ d'.mem = d.mem
      ∧ Msg.cmp h.port.val h.ld.val h.tag ∈ d'.out ∧ (d'.source 426).seq = (d.source 426).seq + 1 := by
  obtain ⟨d1, ⟨hx, hid, hmem, hglob, hsrc, hld⟩, hreq⟩ := hostRequest_hit ht he opOf data mask poison
  have hgo : ((d.hostXact h (opOf (d.ld h.port.val h.ld.val).hdmDb) data mask poison).req.op.isWrite && !e.pte.w) = true := by
    simp [Dev.hostXact, hop, hw]
  rw [hreq, hgo]
  obtain ⟨-, -, hst, -, -, hdev, -⟩ := ht
  obtain ⟨hout, hseq⟩ := failRequest_write (d := d1) (r := (d.hostXact h _ data mask poison).req) rfl hop (by rwa [hglob])
    (by simp [Dev.stillAgent, hld, Dev.hostXact, hst]) d.glob.time 16
  exact ⟨by simp [hx], by simp [hid], by simp [hmem], hout, hseq.trans (by rw [hsrc]; rfl)⟩

-- misses (R73-R80)

/-- A request whose page the LAB does not hold waits in the park slot it gets. -/
theorem translateHost_parked {d d1 : Dev} {p k : Nat} {x : Xact} {c : Ecc}
    (hm : labFind (d.lab p) p x.req.view x.req.gran (x.req.va / 2 ^ granShift x.req.gran.toNat) = none)
    (hp : parkRequest d p x.req = (d1, some k)) : translateHost d p x c = (d1.start { x with phase := .parked k }).1 := by
  simp [translateHost, labLookup, hm, hp]

/-- A request that gets no park slot fails at once. -/
theorem translateHost_unparked {d d1 : Dev} {p : Nat} {x : Xact} {c : Ecc}
    (hm : labFind (d.lab p) p x.req.view x.req.gran (x.req.va / 2 ^ granShift x.req.gran.toNat) = none)
    (hp : parkRequest d p x.req = (d1, none)) : translateHost d p x c = failRequest d1 x.req x.t0 17 := by
  simp [translateHost, labLookup, hm, hp]

theorem parkRequest_oldSlot {d : Dev} {p k : Nat} {r : Req}
    (hk : (d.port p).slotFor r.view r.gran (r.va / 2 ^ granShift r.gran.toNat) = some k) : parkRequest d p r = (d, some k) := by
  simp [parkRequest, hk]

theorem port_updSource (d : Dev) (n : Nat) (f : Source → Source) (p : Nat) : (d.updSource n f).port p = d.port p := rfl

theorem parkRequest_newSlot {d : Dev} {p k i : Nat} {r : Req}
    (hk : (d.port p).slotFor r.view r.gran (r.va / 2 ^ granShift r.gran.toNat) = none)
    (hh : (d.port p).handler = some i) (hf : (d.port p).freeSlot = some k) :
    ∃ d1, parkRequest d p r = (d1, some k) ∧ d1.nextId = d.nextId + 1 ∧ d1.mem = d.mem
      ∧ (d1.source (416 + p)).seq = (d.source (416 + p)).seq + 1
      ∧ ∃ q, Tab.find (d1.port p).slots k = some q ∧ q.view = r.view ∧ q.va = r.va ∧ q.write = r.op.isWrite ∧ q.sent = false
        ∧ q.entry = i ∧ q.engine = bits (d.port p).handlers.toNat (8 * i + 4) (8 * i) ∧ q.seq = (d.source (416 + p)).seq := by
  simp only [parkRequest, hk, hh, hf]
  refine ⟨_, rfl, by simp, by simp, ?seq, ?slot⟩
  case seq =>
    rw [count_source]
    simp [Dev.source, Dev.updSource]
  case slot =>
    rw [count_port, port_updSource, Dev.port_updPort]
    exact ⟨_, Tab.find_put_same _ _ _, rfl, rfl, rfl, rfl, rfl, rfl, rfl⟩

theorem parkRequest_noHandler {d : Dev} {p : Nat} {r : Req}
    (hk : (d.port p).slotFor r.view r.gran (r.va / 2 ^ granShift r.gran.toNat) = none) (hh : (d.port p).handler = none) :
    parkRequest d p r = (raise d 429 2 2 (transInfo r.view.toNat r.va p), none) := by
  simp [parkRequest, hk, hh]

/-- A miss of a page that has a slot waits there. -/
theorem hostRequest_oldSlot {d : Dev} {h : M2S} {k : Nat} (ht : d.takesRequest h) (hm : d.labMisses h) (hk : d.slotOf h = some k)
    (opOf : Bool → Op) (data : Line) (mask : Mask) (poison : Bool) :
    let d' := hostRequest d h opOf data mask poison
    d'.parkedRequest d.nextId (opOf (d.ld h.port.val h.ld.val).hdmDb) k ∧ d'.mem = d.mem
      ∧ (d'.port h.port.val).slots = (d.port h.port.val).slots := by
  obtain ⟨cnt, hreq⟩ := hostRequest_translates ht opOf data mask poison
  rw [hreq, translateHost_parked (by rw [count_lab]; exact hm) (parkRequest_oldSlot (by rw [count_port]; exact hk))]
  exact ⟨⟨_, xact?_start (by simp) _, rfl, rfl⟩, by simp, by simp⟩

/-- A miss of a page without a slot takes the lowest free one, for the first usable handler, and waits there. -/
theorem hostRequest_newSlot {d : Dev} {h : M2S} {k i : Nat} (ht : d.takesRequest h) (hm : d.labMisses h) (hk : d.slotOf h = none)
    (hh : (d.port h.port.val).handler = some i) (hf : (d.port h.port.val).freeSlot = some k)
    (opOf : Bool → Op) (data : Line) (mask : Mask) (poison : Bool) :
    let d' := hostRequest d h opOf data mask poison
    d'.parkedRequest (d.nextId + 1) (opOf (d.ld h.port.val h.ld.val).hdmDb) k ∧ d'.mem = d.mem
      ∧ d.newSlot d' h k i (opOf (d.ld h.port.val h.ld.val).hdmDb).isWrite := by
  obtain ⟨cnt, hreq⟩ := hostRequest_translates ht opOf data mask poison
  obtain ⟨d1, hpark, hid, hmem, hseq, q, hq, hview, hva, hwrite, hsent, hentry, hengine, hqseq⟩ :=
    parkRequest_newSlot (d := count d h.port.val 1 1 cnt) (r := (d.hostXact h _ data mask poison).req)
      (by rw [count_port]; exact hk) (by rwa [count_port]) (by rwa [count_port])
  rw [hreq, translateHost_parked (by rw [count_lab]; exact hm) hpark]
  rw [count_port] at hengine
  rw [count_source] at hseq hqseq
  refine ⟨⟨_, xact?_start (by simpa using hid) _, rfl, rfl⟩, by simpa using hmem, q, hq, hview, hva, hwrite, hsent, hentry, hengine, hqseq, hseq⟩

/-- A miss with no handler to go to is answered with poison, and reported (R78, R80). -/
theorem hostRequest_noHandler {d : Dev} {h : M2S} (ht : d.takesRequest h) (hm : d.labMisses h) (hk : d.slotOf h = none)
    (hh : (d.port h.port.val).handler = none) {opOf : Bool → Op} (hop : (opOf (d.ld h.port.val h.ld.val).hdmDb).isRead = true)
    (data : Line) (mask : Mask) (poison : Bool) :
    let d' := hostRequest d h opOf data mask poison
    d'.xacts = d.xacts ∧ d'.nextId = d.nextId ∧ d'.mem = d.mem ∧ (∃ o, Msg.memData h.port.val h.ld.val h.tag 0 true o ∈ d'.out)
      ∧ (d'.source 429).seq = (d.source 429).seq + 1 ∧ (d'.source 424).seq = (d.source 424).seq + 1 := by
  obtain ⟨cnt, hreq⟩ := hostRequest_translates ht opOf data mask poison
  rw [hreq, translateHost_unparked (by rw [count_lab]; exact hm)
    (parkRequest_noHandler (by rw [count_port]; exact hk) (by rwa [count_port]))]
  set x := d.hostXact h (opOf (d.ld h.port.val h.ld.val).hdmDb) data mask poison
  set d1 := raise (count d h.port.val 1 1 cnt) 429 2 2 (transInfo x.req.view.toNat x.req.va h.port.val) with hd1
  obtain ⟨-, -, hst, -, -, hdev, -⟩ := ht
  have hagent : d1.stillAgent h.port.val h.ld.val x.req = true := by
    rw [stillAgent_of_ports (d := d) (by simp [hd1])]
    simp [Dev.stillAgent, x, Dev.hostXact, hst]
  obtain ⟨hout, hseq, hothers⟩ := failRequest_read (d := d1) (r := x.req) rfl hop (by simpa [hd1] using hdev) hagent h.port.isLt x.t0 17
  refine ⟨by simp [hd1], by simp [hd1], by simp [hd1], hout, ?_, hseq.trans ?_⟩
  · rw [hothers 429 (by decide) (by omega) (by decide), hd1, raise_seq, count_source]
  · rw [hd1, raise_other _ _ _ _ _ (by decide), count_source]
    rfl

-- the record of a miss (R75)

theorem b2n_le (b : Bool) : b2n b ≤ 1 := by cases b <;> decide

/-- The fields of a LAB_MISS read back from its information word. -/
theorem missRecord_fields (p k : Nat) (q : ParkSlot) (hk : k < 32) :
    (missRecord p k q).src = 416 + p ∧ bits (missRecord p k q).info.toNat 26 0 = bits q.va 42 16
      ∧ bits (missRecord p k q).info.toNat 38 27 = q.view.toNat ∧ bits (missRecord p k q).info.toNat 43 39 = k
      ∧ bits (missRecord p k q).info.toNat 44 44 = b2n q.write ∧ bits (missRecord p k q).info.toNat 53 45 = 0 := by
  have hva : bits q.va 42 16 < 2 ^ 27 := Nat.mod_lt _ (by decide)
  have hview : q.view.toNat < 2 ^ 12 := q.view.isLt
  have hw : b2n q.write ≤ 1 := b2n_le q.write
  have hinfo : (missRecord p k q).info.toNat = bits q.va 42 16 + q.view.toNat * 2 ^ 27 + k * 2 ^ 39 + b2n q.write * 2 ^ 44 := by
    simp only [missRecord, info, fld, BitVec.toNat_ofNat]
    omega
  rw [hinfo]
  generalize bits q.va 42 16 = a at *
  generalize q.view.toNat = v at *
  generalize b2n q.write = w at *
  refine ⟨rfl, ?_, ?_, ?_, ?_, ?_⟩ <;> simp only [bits] <;> omega

/-- Settles O17: each command is its port's `hostRequest`, whose page the LAB holds or does not. -/
theorem hostRequestsReachTheirSlice : Obligations.HostRequestsReachTheirSlice := by
  unfold Obligations.HostRequestsReachTheirSlice
  refine ⟨?_, ?_, ?_, ?_, ?_, ?_, ?_, ?_, ?_, ?_, ?_, ?_, ?_, missRecord_fields⟩
  · rintro s h m e d hwf ht he rfl
    exact ⟨checked_turned hwf, hostRequest_started ht he (by simp [readOp_isWrite])⟩
  · rintro s h e d hwf ht he rfl
    refine ⟨checked_turned hwf, hostRequest_started ht he fun hw => ?_⟩
    split at hw <;> cases hw
  · rintro s h m e d hwf ht he rfl
    exact ⟨checked_turned hwf, hostRequest_started ht he (by simp [invOp_isWrite])⟩
  · rintro s h m e d hwf ht he rfl
    exact ⟨checked_turned hwf, hostRequest_started ht he (by simp [invOp_isWrite])⟩
  · rintro s h e d hwf ht he rfl
    exact ⟨checked_turned hwf, hostRequest_started ht he (by simp [Op.isWrite])⟩
  · rintro s h m data poison e d hwf ht he hw rfl
    exact ⟨checked_turned hwf, hostRequest_started ht he fun _ => hw⟩
  · rintro s h m data mask poison e d hwf ht he hw rfl
    exact ⟨checked_turned hwf, hostRequest_started ht he fun _ => hw⟩
  · rintro s h m data poison e d hwf ht he hw rfl
    exact ⟨checked_turned hwf, hostRequest_refused ht he rfl hw⟩
  · rintro s h m data mask poison e d hwf ht he hw rfl
    exact ⟨checked_turned hwf, hostRequest_refused ht he rfl hw⟩
  · rintro s h m k d hwf ht hm hk rfl
    exact ⟨checked_turned hwf, hostRequest_oldSlot ht hm hk _ _ _ _⟩
  · rintro s h m k i d hwf ht hm hk hh hf rfl
    have hslot := hostRequest_newSlot ht hm hk hh hf (readOp · m) 0 0 false
    rw [readOp_isWrite] at hslot
    exact ⟨checked_turned hwf, hslot⟩
  · rintro s h m data poison k i d hwf ht hm hk hh hf rfl
    exact ⟨checked_turned hwf, hostRequest_newSlot ht hm hk hh hf _ _ _ _⟩
  · rintro s h m d hwf ht hm hk hh rfl
    exact ⟨checked_turned hwf, hostRequest_noHandler ht hm hk hh (readOp_isRead _ m) _ _ _⟩

end Sys2Proof.Machine
end

section
/-! Proof of the statement on BIConflict, BIRsp and park slots not ended in time. -/

open Sys2Proof

namespace Sys2Proof.Machine

-- BIConflict (R178, R193)

theorem biConflict_atOnce {d : Dev} {h : M2S} (hup : d.portUp h.port.val = true)
    (hst : (d.ld h.port.val h.ld.val).st = .resigned ∨ ((d.ld h.port.val h.ld.val).st = .attached
      ∧ (d.ld h.port.val h.ld.val).hdmDb = true
      ∧ (d.port h.port.val).snoopAt (d.ld h.port.val h.ld.val).agent (h.va (d.ld h.port.val h.ld.val)) = none)) :
    biConflict d h = emit d (.biConflictAck h.port.val h.ld.val h.tag) := by
  rcases hst with hres | ⟨hatt, hdb, hnone⟩
  · simp [biConflict, hup, hres]
  · simp [biConflict, hup, hatt, hdb, hnone]

theorem biConflict_noted {d : Dev} {h : M2S} {n : Snoop} (hup : d.portUp h.port.val = true)
    (hatt : (d.ld h.port.val h.ld.val).st = .attached) (hdb : (d.ld h.port.val h.ld.val).hdmDb = true)
    (hn : (d.port h.port.val).snoopAt (d.ld h.port.val h.ld.val).agent (h.va (d.ld h.port.val h.ld.val)) = some n) :
    biConflict d h = ackConflicts (d.updPort h.port.val (fun q => { q with
      snoops := q.snoops.map (fun t => if t.agent = n.agent ∧ t.line = n.line then { t with conflict := some h.tag } else t) }))
      h.port.val := by
  simp [biConflict, hup, hatt, hdb, hn]

-- BIRsp (R166)

/-- A BIRsp that answers no BISnp is a protocol error. -/
theorem birsp_stray {d : Dev} {p m hpa : Nat} (hup : d.portUp p = true) (hatt : (d.ld p m).st = .attached)
    (hn : (d.port p).snoops.find? (fun x => x.agent == (d.ld p m).agent && x.sent
      && decide ((d.ld p m).base + x.va = hpa / 64 * 64)) = none) (kept : Bool) :
    birsp d p m hpa kept = protocolError (birspCounted d p (d.ld p m) none) p m (d.ld p m).agent := by
  simp [birsp, hup, hatt, hn]

/-- A BIRsp that answers BISnp `n`: what it keeps counts where the BISnp allowed a copy to be kept. -/
theorem birsp_answers {d : Dev} {p m hpa : Nat} {n : Snoop} (hup : d.portUp p = true) (hatt : (d.ld p m).st = .attached)
    (hn : (d.port p).snoops.find? (fun x => x.agent == (d.ld p m).agent && x.sent
      && decide ((d.ld p m).base + x.va = hpa / 64 * 64)) = some n) (kept : Bool) {d1 d2 a : Dev}
    (hd1 : d1 = (birspCounted d p (d.ld p m) (some n.line)).updPort p (fun q => { q with
      snoops := q.snoops.filter (fun t => !(t.agent == n.agent && decide (t.line = n.line))) }))
    (hd2 : d2 = if kept && !n.data then protocolError d1 p m (d.ld p m).agent else d1)
    (ha : a = answer (match n.conflict with
      | some tag => emit d2 (.biConflictAck p m tag)
      | none => d2) n.agent n.line (kept && n.data) false n.inv) :
    birsp d p m hpa kept = if n.inv then portRecall a p n.agent n.line false else a := by
  subst hd1 hd2 ha
  simp only [birsp, hup, hatt, hn]
  rfl

/-- Settles O18, by the lemmas of the two messages; a park slot's timer runs in its port's island. -/
theorem snoopsAndParkSlots : Obligations.SnoopsAndParkSlots := by
  unfold Obligations.SnoopsAndParkSlots
  refine ⟨⟨fun s h hwf => checked_turned hwf, ?_, ?_, ?_, ?_, ?_⟩, ?_⟩
  · intro s h hwf hup hst
    rw [← biConflict_atOnce hup hst]
    exact checked_turned hwf
  · intro s h n hwf hup hatt hdb hn
    rw [← biConflict_noted hup hatt hdb hn]
    exact checked_turned hwf
  · intro s p ld hpa n d hwf hup hatt hn hd a ha
    rw [← birsp_answers hup hatt hn false hd rfl ha]
    exact checked_turned hwf
  · intro s p ld hpa n d hwf hup hatt hn hd a ha
    have hd2 : d = _ := hd.trans (ite_apply _ _ _ _)
    rw [← birsp_answers (d2 := d) hup hatt hn true rfl (by cases hdata : n.data <;> simp [hd2, hdata]) ha]
    exact checked_turned hwf
  · intro s p ld hpa hwf hup hatt hn
    constructor
    · rw [← birsp_stray hup hatt hn false]
      exact checked_turned hwf
    · rw [← birsp_stray hup hatt hn true]
      exact checked_turned hwf
  · intro s p k x hrun hk
    have hexec : exec (.parkSlotTimeout p k) s = onIsland (2 + p.val) s (slotTimeout · p.val k.val) := rfl
    rw [hexec, onIsland_running hrun]
    simp only [slotTimeout, hk]

end Sys2Proof.Machine
end

section
/-! Proof of the statement on the home queue and the directory: order points, issue, retries, guards and set flushes. -/

open Sys2Proof

namespace Sys2Proof.Machine

-- order points (R97, R98)

/-- A request that arrives alone decides nothing on whose turn is next. -/
theorem arrive_single {d : Dev} {i : Nat} {x : Xact} (h : d.xact? i = some x) (s : Nat) : arrive d s [i] = arriveOne d s i := by
  have hbatch : (([i].filterMap (fun i => (d.xact? i).map (fun x => (i, x)))).mergeSort (before (d.slice s).pointer)) = [(i, x)] := by
    simp [h]
  unfold arrive
  simp only [hbatch]
  refine if_pos ?_
  simp only [List.filter_cons, List.filter_nil]
  split <;> simp [List.eraseDups_cons]

/-- Marking misses so that they store nothing leaves a request that waits in the queue as it is. -/
theorem markNoAlloc_queued {d : Dev} {j : Nat} {y : Xact} (h : d.xact? j = some y) (hq : y.phase = .queued) (i : Nat) :
    (markNoAlloc d i).xact? j = some y := by
  unfold markNoAlloc
  split
  next x hx =>
    split
    next w hmiss =>
      have hji : j ≠ i := by
        rintro rfl
        rw [hx] at h
        cases h
        rw [hmiss] at hq
        cases hq
      split
      · rwa [Dev.xact?_putXact_other _ _ hji]
      · rw [show (count _ _ _ _ _).xact? j = _ from congrArg (Tab.find · j) (count_frame _ _ _ _ _).2.2.2.2.2.2.2.2.2.2.1]
        rwa [← Dev.xact?, Dev.xact?_putXact_other _ _ hji]
    · exact h
  · exact h

theorem slice_of_slices {d d' : Dev} (h : d'.slices = d.slices) (n : Nat) : d'.slice n = d.slice n := by
  rw [Dev.slice, h, Dev.slice]

@[simp] theorem raise_slice (d : Dev) (src cls sev : Nat) (i : Info) (n : Nat) : (raise d src cls sev i).slice n = d.slice n :=
  slice_of_slices (by simp) n

theorem slice_setGlob (d : Dev) (f : Glob → Glob) (s : Nat) : (d.setGlob f).slice s = d.slice s := rfl

theorem slice_putXact (d : Dev) (i : Nat) (x : Xact) (s : Nat) : (d.putXact i x).slice s = d.slice s := rfl

@[simp] theorem markNoAlloc_slice (d : Dev) (i s : Nat) : (markNoAlloc d i).slice s = d.slice s := by
  unfold markNoAlloc
  repeat' split
  all_goals simp [Dev.slice]

theorem markWhere_keeps (P : Dev → Prop) {d : Dev} (h : P d) (hm : ∀ d i, P d → P (markNoAlloc d i)) (s : Nat) (f : Xact → Bool) :
    P (markWhere d s f) :=
  Dev.each_keeps P d _ _ h fun d i _ hd => hm d i hd

theorem orderMarks_keeps (P : Dev → Prop) {d : Dev} (h : P d) (hm : ∀ d i, P d → P (markNoAlloc d i)) (s : Nat) (x : Xact) :
    P (orderMarks d s x) := by
  unfold orderMarks
  split
  · split
    · exact h
    · exact markWhere_keeps P h hm s _
  · split
    · exact markWhere_keeps P h hm s _
    · exact h

theorem orderMarks_queued {d : Dev} {j : Nat} {y : Xact} (h : d.xact? j = some y) (hq : y.phase = .queued) (s : Nat) (x : Xact) :
    (orderMarks d s x).xact? j = some y :=
  orderMarks_keeps (fun d => d.xact? j = some y) h (fun _ i hd => markNoAlloc_queued hd hq i) s x

theorem orderMarks_slice (d : Dev) (s : Nat) (x : Xact) (k : Nat) : (orderMarks d s x).slice k = d.slice k :=
  orderMarks_keeps (fun d' => d'.slice k = d.slice k) rfl (fun d i hd => (markNoAlloc_slice d i k).trans hd) s x

/-- A request that takes its order point waits in the queue under the slice's next number. -/
theorem arriveOne_taken {d : Dev} {s i : Nat} {x : Xact} (hx : d.xact? i = some x) (hc : d.canArrive s i x = true)
    (hd : d.portDrops x = false) :
    ((arriveOne d s i).slice s).nextOrd = (d.slice s).nextOrd + 1 ∧ (arriveOne d s i).mem = d.mem
      ∧ ∃ y, (arriveOne d s i).xact? i = some y ∧ y.ord = (d.slice s).nextOrd ∧ y.phase = .queued ∧ y.req = x.req := by
  have hgo : arriveOne d s i = orderMarks ((d.updSlice s (fun y => { y with nextOrd := y.nextOrd + 1 })).putXact i
      { x with ord := (d.slice s).nextOrd, phase := .queued }) s x := by
    simp [arriveOne, hx, hc, hd]
  rw [hgo]
  refine ⟨?_, by simp, _, orderMarks_queued (Dev.xact?_putXact _ _ _) rfl _ _, rfl, rfl, rfl⟩
  rw [orderMarks_slice, slice_putXact, Dev.slice_updSlice]

-- guards and set flushes (R175, R180, R182)

/-- The oldest request that has retried long enough guards its set, which is counted. -/
theorem guardEngage_engages {d : Dev} {s i : Nat} {x : Xact} (hx : d.xact? i = some x) (hphase : x.phase = .retry)
    (hslice : x.slice = s) (hretries : 64 ≤ x.retries)
    (hfirst : (d.atSlice s).all (fun y => !(y.2.phase == .retry && decide (64 ≤ y.2.retries)
      && decide (dsetOf y.2.req.dpa = dsetOf x.req.dpa)) || decide (x.ord ≤ y.2.ord)) = true)
    (hguard : (d.slice s).guards.any (fun g => decide (g.1 = dsetOf x.req.dpa)) = false) :
    (guardEngage d s i).glob.dirGuards = satInc 32 d.glob.dirGuards
      ∧ ((guardEngage d s i).slice s).guards = (d.slice s).guards ++ [(dsetOf x.req.dpa, i)] := by
  have hcond : x.phase = .retry ∧ x.slice = s ∧ 64 ≤ x.retries
      ∧ (d.atSlice s).all (fun y => !(y.2.phase == .retry && decide (64 ≤ y.2.retries)
        && decide (dsetOf y.2.req.dpa = dsetOf x.req.dpa)) || decide (x.ord ≤ y.2.ord)) = true
      ∧ (d.slice s).guards.any (fun g => decide (g.1 = dsetOf x.req.dpa)) = false := ⟨hphase, hslice, hretries, hfirst, hguard⟩
  simp only [guardEngage, hx, if_pos hcond]
  refine ⟨by simp [dirNote], ?_⟩
  rw [dirNote, raise_slice, slice_setGlob, Dev.slice_updSlice]

@[simp] theorem putDir_flushQueue (d : Dev) (s dset way : Nat) (e : DirEntry) (k : Nat) :
    ((putDir d s dset way e).slice k).flushQueue = (d.slice k).flushQueue := by
  unfold putDir
  have hs := (flipWrite_frame d 3 s 0 64 true).2.2.2.2.2.2.1
  generalize flipWrite d 3 s 0 64 true = r at hs ⊢
  obtain ⟨d', bad⟩ := r
  dsimp only at hs ⊢
  by_cases hk : k = s
  · subst hk
    rw [Dev.slice_updSlice]
    simp [Dev.slice, hs]
  · rw [Dev.slice_updSlice_other _ _ hk]
    simp [Dev.slice, hs]

theorem flushEnd_flushQueue (d : Dev) (s dset : Nat) :
    ((flushEnd d s dset).slice s).flushQueue = (d.slice s).flushQueue.drop 1 := by
  have hkeep : ((d.each (List.range 16) (fun d w => putDir d s dset w {})).slice s).flushQueue = (d.slice s).flushQueue :=
    Dev.each_keeps (fun x => (x.slice s).flushQueue = (d.slice s).flushQueue) d (List.range 16)
      (fun d w => putDir d s dset w {}) rfl (fun x w _ hx => (putDir_flushQueue x s dset w {} s).trans hx)
  simp only [flushEnd, Dev.slice_updSlice, hkeep]

/-- Settles O19, by what arrival, issue, retry, guard and flush each do in the core's clock. -/
theorem homeQueueAndDirectory : Obligations.HomeQueueAndDirectory := by
  unfold Obligations.HomeQueueAndDirectory
  have harrive : ∀ (s : State) (sl : Fin 16) (ids : List Nat), s.dev.pwr.unlocked.getLsbD 10 = false →
      (Instr.homeQueueArrival sl ids).wf = true →
      exec (.homeQueueArrival sl ids) s = .next (s.turned (arrive s.dev sl.val ids)) := by
    intro s sl ids hrun hwf
    have hexec : exec (.homeQueueArrival sl ids) s = if (Instr.homeQueueArrival sl ids).wf then onIsland 10 s (arrive · sl.val ids)
      else .fault .illFormed := rfl
    rw [hexec, if_pos hwf, onIsland_running hrun]
  refine ⟨⟨harrive, ?_, ?_, ?_, ?_, ?_⟩, ?_, ?_, ?_, ?_⟩
  · rintro s sl i x d hrun hx rfl
    refine ⟨harrive s sl [i] hrun (by simp [Instr.wf]), ?_⟩
    rw [arrive_single hx]
    refine ⟨fun hc hd => arriveOne_taken hx hc hd, fun hc hd => ?_, fun hc => ?_⟩
    · simp [arriveOne, hx, hc, hd]
    · simp [arriveOne, hx, hc]
  · intro s sl err i x hrun herr hturn hpick hphase
    have hexec : exec (.homeQueueIssue sl err) s = onIsland 10 s (issue · sl.val err) := rfl
    rw [hexec, onIsland_running hrun]
    simp [issue, issueOne, herr, hturn, hpick, hphase]
  · intro s sl err hrun herr hturn
    have hexec : exec (.homeQueueIssue sl err) s = onIsland 10 s (issue · sl.val err) := rfl
    rw [hexec, onIsland_running hrun]
    simp [issue, issueOne, herr, hturn]
  · intro s sl err k n hrun herr hturn
    have hexec : exec (.homeQueueIssue sl err) s = onIsland 10 s (issue · sl.val err) := rfl
    rw [hexec, onIsland_running hrun]
    have hsome : ((s.dev.pick sl.val).isNone && !s.dev.walkTurn sl.val) = false := by
      cases hp : s.dev.pick sl.val <;> simp_all
    simp only [issue, herr, hsome, Bool.false_eq_true, if_false]
    rfl
  · intro s sl err hpick hturn
    have hexec : exec (.homeQueueIssue sl err) s
        = .next (s.turned (if s.dev.pwr.unlocked.getLsbD 10 then s.dev else issue s.dev sl.val err)) := rfl
    have hissue : issue s.dev sl.val err = s.dev := by
      unfold issue
      split <;> simp [issueOne, hturn, hpick]
    rw [hexec, hissue, ite_self]
  · intro s sl i err x hrun hx hphase hslice
    have hexec : exec (.dirRetry sl i err) s = onIsland 10 s (retryIssue · sl.val i err) := rfl
    rw [hexec, onIsland_running hrun]
    simp [retryIssue, hx, hphase, hslice]
  · rintro s sl i x d hrun hx hphase hslice hretries hfirst hguard rfl
    have hexec : exec (.dirGuardEngage sl i) s = onIsland 10 s (guardEngage · sl.val i) := rfl
    rw [hexec, onIsland_running hrun]
    obtain ⟨hgo, hslices⟩ := guardEngage_engages hx hphase hslice hretries hfirst hguard
    exact ⟨rfl, hslices, hgo, by simp⟩
  · intro s sl f hrun hf hx hn
    have hexec : exec (.setFlushCandidate sl) s = onIsland 10 s (flushStep · sl.val) := rfl
    rw [hexec, onIsland_running hrun]
    refine ⟨?_, flushEnd_flushQueue _ _ _⟩
    unfold flushStep
    simp only [hf, hn, hx, if_true]
    generalize s.dev.dbAgents.map (fun a => (⟨a.1, a.2, false, false⟩ : Target)) = targets
    cases targets <;> rfl
  · intro s sl f a ts t hrun hf hlen hreg hag hn
    have hexec : exec (.setFlushCandidate sl) s = onIsland 10 s (flushStep · sl.val) := rfl
    rw [hexec, onIsland_running hrun]
    have hfree : ¬ (8 ≤ f.xids.length ∨ 16 ≤ s.dev.recallRegs sl.val) := by omega
    simp only [flushStep, hf, hag, hn, if_neg hfree]

end Sys2Proof.Machine
end

section
/-! Proof of the statement on tiles: reads, drains, bank walks and tiles that do not answer. -/

open Sys2Proof

namespace Sys2Proof.Machine

theorem tile_of_tiles {d d' : Dev} (h : d'.tiles = d.tiles) (t : Nat) : d'.tile t = d.tile t := by
  rw [Dev.tile, h, Dev.tile]

@[simp] theorem raise_tile (d : Dev) (src cls sev : Nat) (i : Info) (t : Nat) : (raise d src cls sev i).tile t = d.tile t :=
  tile_of_tiles (by simp) t

@[simp] theorem updSlice_tile (d : Dev) (s : Nat) (f : Slice → Slice) (t : Nat) : (d.updSlice s f).tile t = d.tile t := rfl

-- walks (R140, R141)

@[simp] theorem putTag_tiles (d : Dev) (s c w : Nat) (e : TagEntry) : (putTag d s c w e).tiles = d.tiles := by
  simp [putTag]

@[simp] theorem flipFirst_tiles (d : Dev) (s : Nat) (f : Nat → Nat → Bool) : (flipFirst d s f).tiles = d.tiles := by
  unfold flipFirst
  repeat' split
  all_goals simp

@[simp] theorem lockedInval_tiles (d : Dev) (s : Nat) (l : List Nat) : (lockedInval d s l).tiles = d.tiles := by
  unfold lockedInval
  split <;> simp [lockedNote, lockedCount]

@[simp] theorem clearTags_tiles (d : Dev) (s : Nat) (f : Nat → Nat → Bool) : (clearTags d s f).tiles = d.tiles := by
  simp [clearTags]

@[simp] theorem countWalk_tiles (d : Dev) (s n : Nat) : (countWalk d s n).tiles = d.tiles := by simp [countWalk]

/-- Invalidating the tags of a tile's lines touches no tile. -/
theorem clearAll_tiles (d : Dev) (l : List Nat) (n : Nat) (f : Nat → Nat → Bool) :
    (l.foldl (fun d s => clearTags (countWalk d s n) s f) d).tiles = d.tiles :=
  Dev.each_keeps (fun x => x.tiles = d.tiles) d l (fun d s => clearTags (countWalk d s n) s f) rfl
    (fun x s _ hx => ((clearTags_tiles _ _ _).trans (countWalk_tiles x s n)).trans hx)

/-- The end of a tile's walk. -/
theorem walkEnd_tile {d : Dev} {t : Nat} (hst : d.tileSt t = .draining) (hidle : d.xacts.any (fun x => x.2.onTile t) = false) :
    (walkEnd d t).tile t = { d.tile t with
      st := if (d.tile t).retiring then .retired else .offline, tileRetired := (d.tile t).tileRetired || (d.tile t).retiring
      retiring := false, repeat_ := [] } := by
  have hgo : ¬ (d.tileSt t ≠ .draining ∨ d.xacts.any (fun x => x.2.onTile t) = true) := by simp [hst, hidle]
  rw [walkEnd, if_neg hgo, raise_tile, Dev.tile_updTile, tile_of_tiles (clearAll_tiles d _ _ _)]

-- retirement of a bank (R141)

theorem markNoAlloc_tile (d : Dev) (i t : Nat) : (markNoAlloc d i).tile t = d.tile t := by
  unfold markNoAlloc
  repeat' split
  all_goals exact tile_of_tiles (by simp) t

@[simp] theorem markWhere_tile (d : Dev) (s : Nat) (f : Xact → Bool) (t : Nat) : (markWhere d s f).tile t = d.tile t :=
  markWhere_keeps (fun x => x.tile t = d.tile t) rfl (fun x i hx => (markNoAlloc_tile x i t).trans hx) s f

theorem retireBank_tile (d : Dev) (t b : Nat) : (retireBank d t b).tile t = { d.tile t with
    retireMap := (d.tile t).retireMap ||| BitVec.ofNat 64 (2 ^ b), bankWalks := (d.tile t).bankWalks ++ [b] } := by
  rw [retireBank, markWhere_tile, updSlice_tile, Dev.tile_updTile]

/-- A drain that starts sets the tile's state and its cause; what it makes misses of is no part of the tile. -/
theorem startDrain_tile (d : Dev) (t cause : Nat) (retiring : Bool) : (startDrain d t cause retiring).tile t
    = { d.tile t with st := .draining, cause := BitVec.ofNat 3 cause, retiring := retiring } := by
  unfold startDrain
  refine Dev.each_keeps (fun x => x.tile t = _) _ (List.range 16) _ (Dev.tile_updTile d t _) fun x s _ hx => ?_
  rw [markWhere_tile, updSlice_tile, hx]

-- reads

/-- A correct read of a tile whose clock runs answers its requester. -/
theorem tileReturn_ok {d : Dev} {i c w : Nat} {x : Xact} {data : Line} {poison : Bool} (hx : d.xact? i = some x)
    (hphase : x.phase = .tile c w data poison 0) (hrun : d.pwr.unlocked.getLsbD (17 + tileOfWay w) = false)
    (hstop : d.tileStopped (17 + tileOfWay w) = false) :
    tileReturn d i .ok = finish (d.updTile (tileOfWay w) (fun y => y.repeatAdd x.line)) i data poison true := by
  simp [tileReturn, hx, hphase, hrun, hstop, eccWith]

/-- Settles O21, by what a tile's reads and walks leave of it. -/
theorem tileCommands : Obligations.TileCommands := by
  unfold Obligations.TileCommands
  refine ⟨?_, ?_, ?_, ?_, fun s t => rfl, ?_⟩
  · intro s i c w x data poison hx hphase hrun hstop
    rw [← tileReturn_ok hx hphase hrun hstop]
    rfl
  · rintro s t d hrun hst hidle rfl
    have hexec : exec (.tileWalkEnd t) s = onIsland 10 s (walkEnd · t.val) := rfl
    rw [hexec, onIsland_running hrun, walkEnd_tile hst hidle]
    exact ⟨rfl, rfl, rfl, rfl, by simp⟩
  · rintro s t b d hrun hwalk hidle rfl
    have hexec : exec (.bankWalkEnd t b) s = onIsland 10 s (bankWalkEnd · t.val b.toNat) := rfl
    rw [hexec, onIsland_running hrun]
    have hgo : (!(s.dev.tile t.val).bankWalks.contains b.toNat || s.dev.xacts.any (fun x => x.2.onTile t.val
        && decide (bankOf x.2.slice (csetOf x.2.req.dpa) = b.toNat))) = false := by simp only [hwalk, hidle]; rfl
    rw [tile_of_tiles ((clearTags_tiles _ _ _).trans (countWalk_tiles _ _ _)), Dev.tile_updTile]
    refine ⟨?_, rfl, rfl, id⟩
    simp only [bankWalkEnd, hgo, Bool.false_eq_true, if_false]
  · intro d t b hb
    rw [retireBank_tile]
    refine ⟨?_, by simp, by simp⟩
    rw [BitVec.getLsbD_or, BitVec.getLsbD_ofNat, Nat.testBit_two_pow_self]
    simp [hb]
  · intro d t ht
    rw [startDrain_tile]
    exact ⟨rfl, rfl⟩

end Sys2Proof.Machine
end

section
/-! Proof of the statement on reads and writes at their memory controller. -/

open Sys2Proof

namespace Sys2Proof.Machine

theorem mc_of_mcs {d d' : Dev} (h : d'.mcs = d.mcs) (m : Nat) : d'.mc m = d.mc m := by
  rw [Dev.mc, h, Dev.mc]

@[simp] theorem raise_mc (d : Dev) (src cls sev : Nat) (i : Info) (m : Nat) : (raise d src cls sev i).mc m = d.mc m :=
  mc_of_mcs (by simp) m

@[simp] theorem logErr_mc (d : Dev) (f : Fail) (m : Nat) : (logErr d f).mc m = d.mc m := mc_of_mcs (by simp) m

@[simp] theorem drawn_mc (d : Dev) (m : Nat) : d.drawn.mc m = d.mc m := rfl

theorem putSent_xact? {d : Dev} {n : Nat} (h : d.nextId = n) (i : Nat) (x : Xact) : (d.putSent i x).xact? i = some { x with sent := n } := by
  subst h
  simp [Dev.putSent, Dev.xact?]

-- the write buffer's entries of a line, as a read finds them (R223, R356, R357)

/-- Reading a line's entries checks each of them, and leaves those of other lines alone. -/
theorem wbOf_checkEntries (d : Dev) (line : Nat) (c : Ecc) :
    (checkEntries d line c).wbOf line = (d.wbOf line).map (fun e => e.checked c) := by
  have hline : ∀ e : WbEntry, (e.checked c).line = e.line := fun e => by
    unfold WbEntry.checked
    split <;> rfl
  unfold checkEntries Dev.wbOf
  rw [Dev.mc_updMc]
  dsimp only
  induction (d.mc (mcOf (64 * line))).wb with
  | nil => rfl
  | cons e l ih =>
    by_cases he : e.line = line
    · simp [he, hline, ih]
    · simp [he, ih]

/-- A full entry without an error gives a read its data. -/
theorem wbFind_full {w : WbEntry} (hf : w.full = true) (hb : w.bad = 0) (hu : w.ue = false) : wbFind [w] = .forward w.data w.poison := by
  simp [wbFind, WbEntry.onto, hf, WbEntry.ecc, hb, hu, eccWith]

theorem checked_clean {w : WbEntry} (hb : w.bad = 0) (hu : w.ue = false) : w.checked .ok = w := by
  simp [WbEntry.checked, WbEntry.ecc, hb, hu, eccWith]

@[simp] theorem checkEntries_nextId (d : Dev) (line : Nat) (c : Ecc) : (checkEntries d line c).nextId = d.nextId := rfl

-- reads as they arrive (R107, R215, R223)

@[simp] theorem overLimit_nextId (d : Dev) (r : Req) : (overLimit d r).nextId = d.nextId := by simp [overLimit, chanEvent]

theorem runRepairs_none {d : Dev} {c : Nat} (h : (d.chan c).repair = []) : runRepairs d c = d := by
  simp [runRepairs, h]

theorem readArrival_overLimit {d : Dev} {i : Nat} {x : Xact} (hx : d.xact? i = some x) (hm : x.mem = .toMc)
    (ht : d.mcTakes x = true) (hl : d.limit ≤ x.req.dpa) (err chk : Ecc) :
    readArrival d i err chk = (overLimit d x.req).putSent i { x with mem := .back 0 true false } := by
  simp [readArrival, hx, hm, ht, hl]

/-- A read below the limit whose line has no buffered write goes to its channel. -/
theorem readArrival_channel {d : Dev} {i : Nat} {x : Xact} (hx : d.xact? i = some x) (hm : x.mem = .toMc)
    (ht : d.mcTakes x = true) (hl : x.req.dpa < d.limit) (hw : d.wbOf x.line = []) (err chk : Ecc) :
    readArrival d i err chk = (checkRead (count (count (runRepairs (checkEntries d x.line err) (chanOf x.req.dpa))
        (mcBlock (mcOf x.req.dpa)) 0x20 1 x.req.counted) (mcBlock (mcOf x.req.dpa)) 0x25 1 {}) x.line x.req.counted chk).putXact i
      { x with mem := .channel } := by
  have hl' : ¬ d.limit ≤ x.req.dpa := by omega
  have hfind : wbFind ((checkEntries d x.line err).wbOf x.line) = .channel := by
    rw [wbOf_checkEntries, hw]
    rfl
  simp [readArrival, hx, hm, ht, hl', hfind]

theorem readArrival_forward {d : Dev} {i : Nat} {x : Xact} {w : WbEntry} (hx : d.xact? i = some x) (hm : x.mem = .toMc)
    (ht : d.mcTakes x = true) (hl : x.req.dpa < d.limit) (hw : d.wbOf x.line = [w]) (hf : w.full = true) (hb : w.bad = 0)
    (hu : w.ue = false) (hop : x.req.op ≠ .sweepRead) (chk : Ecc) :
    readArrival d i .ok chk = (count (checkEntries d x.line .ok) (mcBlock (mcOf x.req.dpa)) 0x21 1 x.req.counted).putSent i
      { x with mem := .back w.data w.poison false } := by
  have hl' : ¬ d.limit ≤ x.req.dpa := by omega
  have hfind : wbFind ((checkEntries d x.line .ok).wbOf x.line) = .forward w.data w.poison := by
    rw [wbOf_checkEntries, hw, List.map_singleton, checked_clean hb hu, wbFind_full hf hb hu]
  simp [readArrival, hx, hm, ht, hl', hfind, beq_false_of_ne hop]

-- data from the channels (R218, R219, R222)

/-- Data of a line with no buffered write comes back as the channel gives it. -/
theorem channelReturn_plain {d d1 : Dev} {i n code : Nat} {wrongAddr poison : Bool} {x : Xact} {data : Line} (hx : d.xact? i = some x)
    (hm : x.mem = .channel) (hrun : d.mcRuns (mcOf x.req.dpa) = true)
    (hread : readLine (runRepairs d (chanOf x.req.dpa)) x.line n wrongAddr (whoOf x.req) = (d1, data, poison, code))
    (hw : d1.wbOf x.line = []) (hop : x.req.op ≠ .sweepRead) :
    channelReturn d i n wrongAddr = d1.putSent i { x with mem := .back data poison false } := by
  simp [channelReturn, hx, hm, hrun, hread, hw, beq_false_of_ne hop, mergedOver]

/-- What a line's code makes of a read of it. -/
theorem readLine_cases (d : Dev) (line n : Nat) (wrongAddr : Bool) (who : Who) :
    (d.readAs line n wrongAddr = .good → readLine d line n wrongAddr who = (d, d.memLine line, false, 0))
    ∧ (d.readAs line n wrongAddr = .poisoned → (readLine d line n wrongAddr who).2.2.1 = true)
    ∧ (∀ k, d.readAs line n wrongAddr = .corrected k → (readLine d line n wrongAddr who).2 = (d.memLine line, false, 1)
      ∧ ((readLine d line n wrongAddr who).1.mc (chanOf (64 * line) / 8)).ce = satInc 32 (d.mc (chanOf (64 * line) / 8)).ce)
    ∧ (d.readAs line n wrongAddr = .ue → (readLine d line n wrongAddr who).2 = (d.memLine line, true, 2)
      ∧ ((readLine d line n wrongAddr who).1.mc (chanOf (64 * line) / 8)).ue = satInc 32 (d.mc (chanOf (64 * line) / 8)).ue)
    ∧ d.readAs line n true = .ue := by
  refine ⟨fun h => ?_, fun h => ?_, fun k h => ?_, fun h => ?_, by simp [Dev.readAs]⟩
  · simp [readLine, h]
  · simp [readLine, h]
  · simp only [readLine, h, chanEvent]
    refine ⟨trivial, ?_⟩
    rw [raise_mc, logErr_mc, Dev.mc_updMc]
    rfl
  · simp only [readLine, h, chanEvent]
    refine ⟨trivial, ?_⟩
    rw [drawn_mc, raise_mc, logErr_mc, Dev.mc_updMc]
    rfl

-- timeouts (R229)

/-- A read that still waits for its data ends: poisoned, or as failed where a mover asked for it. -/
theorem readTimesOut_waits {d : Dev} {i : Nat} {x : Xact} (hx : d.xact? i = some x)
    (hm : x.mem = .toMc ∨ x.mem = .waitMerge ∨ x.mem = .channel) (hop : x.req.op ≠ .moverWrite)
    (hrun : d.pwr.unlocked.getLsbD (25 + mcOf x.req.dpa) = false) :
    ((∀ m ch, x.req.src ≠ .mover m ch) → (readTimesOut d i).xact? i = some { x with mem := .back 0 true false, sent := d.nextId })
      ∧ ((∃ m ch, x.req.src = .mover m ch) → (readTimesOut d i).xact? i = some { x with mem := .back 0 false true, sent := d.nextId }) := by
  unfold readTimesOut
  simp only [hx, beq_false_of_ne hop, hrun]
  rcases hm with h | h | h
  all_goals
    simp only [h, Bool.not_true, Bool.or_false, Bool.false_eq_true, if_false]
    rw [putSent_xact? (n := d.nextId) (by simp [chanEvent])]
    constructor
    · intro hsrc
      split
      next m ch hmover => exact absurd hmover (hsrc m ch)
      · rfl
    · rintro ⟨m, ch, hsrc⟩
      rw [hsrc]
      rfl

theorem readTimesOut_moverWrite {d : Dev} {i : Nat} {x : Xact} (hx : d.xact? i = some x) (hop : x.req.op = .moverWrite)
    (hrun : d.pwr.unlocked.getLsbD 10 = false) (hphase : x.phase = .queued ∨ x.phase = .needCredit ∨ x.phase = .toBuffer) :
    readTimesOut d i = finish d i 0 false false := by
  rcases hphase with h | h | h <;> simp only [readTimesOut, hx, hop, hrun, moverWriteLate, h] <;> rfl

/-- Settles O22, by what a controller makes of a read or write as it arrives, comes back or does not. -/
theorem controllerReadsAndWrites : Obligations.ControllerReadsAndWrites := by
  unfold Obligations.ControllerReadsAndWrites
  refine ⟨?_, ?_, ?_, ?_, readLine_cases, ?_, ?_, ?_⟩
  · rintro s i err chk x d hx hm ht hl rfl
    rw [readArrival_overLimit hx hm ht hl]
    exact ⟨by rw [← readArrival_overLimit hx hm ht hl err chk]; rfl, putSent_xact? (by simp) _ _, by simp⟩
  · rintro s i err chk x d hx hm ht hl hw rfl
    refine ⟨rfl, ?_, ?_⟩
    · rw [readArrival_channel hx hm ht hl hw]
      simp
    · intro hrep
      rw [readArrival_channel hx hm ht hl hw]
      simp [runRepairs_none (d := checkEntries s.dev x.line err) hrep]
  · rintro s i chk x w d hx hm ht hl hw hf hb hu hop rfl
    refine ⟨rfl, ?_, ?_⟩
    · rw [readArrival_forward hx hm ht hl hw hf hb hu hop]
      exact putSent_xact? (by simp) _ _
    · rw [readArrival_forward hx hm ht hl hw hf hb hu hop]
      simp
  · intro s i n code wrongAddr x d data poison hx hm hrun hread hw hop
    rw [← channelReturn_plain hx hm hrun hread hw hop]
    rfl
  · rintro s i x d hx hm hop hrun rfl
    exact ⟨rfl, by simp, readTimesOut_waits hx hm hop hrun⟩
  · intro s i x hrun hx hop hphase
    rw [← readTimesOut_moverWrite hx hop hrun hphase]
    rfl
  · intro s i x c hrun hx hphase hnext
    have hexec : exec (.writeAcceptanceAck i) s = onIsland 10 s (ackWrite · i) := rfl
    rw [hexec, onIsland_running hrun]
    simp only [ackWrite, hx, hphase, hnext, if_true]

end Sys2Proof.Machine
end

section
/-! Proof of the statement on the write buffer: ages, batches, merge reads, and the one line a drained entry writes. -/

open Sys2Proof

namespace Sys2Proof.Machine

@[simp] theorem count_mc (d : Dev) (b code n : Nat) (c : Counted) (m : Nat) : (count d b code n c).mc m = d.mc m :=
  mc_of_mcs (by simp) m

theorem chan_of_chans {d d' : Dev} (h : d'.chans = d.chans) (c : Nat) : d'.chan c = d.chan c := by
  rw [Dev.chan, h, Dev.chan]

-- what a drained entry writes (R218, R219)

/-- A line is stored whole with its code, or its poison code alone. -/
theorem storeLine_stores (d : Dev) (line : Nat) (data : Line) (poison codeOnly : Bool) :
    (storeLine d line data poison codeOnly).mem
      = if codeOnly then d.mem.poisonLine line else d.mem.writeLine line data poison := by
  simp [storeLine]

theorem readByte_poisonLine (m : Memory) (line a : Nat) : (m.poisonLine line).readByte a = m.readByte a := rfl

theorem wbUeFound_chans (d : Dev) (m : Nat) (e : WbEntry) : (wbUeFound d m e).chans = d.chans := by simp [wbUeFound]

/-- The channel takes the line's oldest entry, which is draining and full: the repairs go first, then the line is stored. -/
theorem writeTaken_stores {d : Dev} {m line : Nat} {err : Ecc} {e : WbEntry} {rest : List WbEntry} (hw : d.wbOf line = e :: rest)
    (hd : e.draining = true) (hf : e.full = true) (hm : mcOf (64 * line) = m) (hrun : d.mcRuns m = true) :
    ∃ d1, d1.mem = d.mem ∧ d1.chans = d.chans ∧ (writeTaken d m line err).mem
      = if e.codeOnly then (runRepairs d1 (chanOf (64 * line))).mem.poisonLine line
        else (runRepairs d1 (chanOf (64 * line))).mem.writeLine line e.data (e.poison || e.ecc err == .ue) := by
  refine ⟨if e.ecc err == .ue then wbUeFound d m e else d, ?_, ?_, ?_⟩
  · split <;> simp
  · split <;> simp [wbUeFound_chans]
  · have hgo : ¬ (mcOf (64 * line) ≠ m ∨ e.draining = false ∨ e.full = false ∨ d.mcRuns m = false) := by simp [hd, hf, hm, hrun]
    simp only [writeTaken, hw]
    rw [if_neg hgo]
    simp [storeLine_stores]

/-- What memory holds after a write is taken: the line's bytes and code, and every other line as it was. -/
theorem writeTaken_line {d : Dev} {m line : Nat} {err : Ecc} {e : WbEntry} {rest : List WbEntry} (hw : d.wbOf line = e :: rest)
    (hd : e.draining = true) (hf : e.full = true) (hm : mcOf (64 * line) = m) (hrun : d.mcRuns m = true) :
    let d' := writeTaken d m line err
    (e.codeOnly = false → (∀ i < 64, d'.mem.readByte (64 * line + i) = some (lineByte e.data i))
        ∧ d'.mem.code line = some (if e.poison || e.ecc err == .ue then .poisoned else .good))
      ∧ (e.codeOnly = true → d'.mem.code line = some .poisoned)
      ∧ ((d.chan (chanOf (64 * line))).repair = [] → ∀ a, a / 64 ≠ line → d'.mem.readByte a = d.mem.readByte a) := by
  intro d'
  obtain ⟨d1, hmem, hchans, hstore⟩ := writeTaken_stores (err := err) hw hd hf hm hrun
  refine ⟨fun hc => ?_, fun hc => ?_, fun hrep a ha => ?_⟩
  · simp only [d', hstore, hc, Bool.false_eq_true, if_false]
    exact ⟨fun i hi => Memory.readByte_writeLine_in _ _ _ _ i hi, Memory.code_writeLine _ _ _ _⟩
  · simp only [d', hstore, hc, if_true, Memory.code_poisonLine]
  · rw [runRepairs_none (by rwa [chan_of_chans hchans]), hmem] at hstore
    simp only [d', hstore]
    split
    · exact readByte_poisonLine _ _ _
    · exact Memory.readByte_writeLine_out _ _ _ _ _ ha

theorem writeAddrUe_fatal {d : Dev} {m line : Nat} {e : WbEntry} {rest : List WbEntry} (hw : d.wbOf line = e :: rest)
    (hd : e.draining = true) (hm : mcOf (64 * line) = m) (hrun : d.mcRuns m = true) :
    writeAddrUe d m line = wbAddrUe d m ((d.mc m).wb.findIdx (fun f => decide (f.num = e.num))) e := by
  simp [writeAddrUe, hw, hd, hm, hrun]

-- the check line of a merge read (R220)

theorem flipWrite_bits {d d' : Dev} (he : d'.err = d.err) (path inst dpa w : Nat) (chk : Bool) :
    (flipWrite d' path inst dpa w chk).2 = (flipWrite d path inst dpa w chk).2 := by
  unfold flipWrite
  rw [show d'.flips path inst dpa = d.flips path inst dpa by rw [Dev.flips, he, Dev.flips], he]
  split <;> rfl

theorem checkFill_chans {d d' : Dev} (hc : d'.chans = d.chans) (he : d'.err = d.err) (c csec : Nat) :
    (checkFill d' c csec).chans = (checkFill d c csec).chans := by
  unfold checkFill
  have hbits := flipWrite_bits he 11 (c / 8) 0 64 true
  have hc' : (flipWrite d' 11 (c / 8) 0 64 true).1.chans = (flipWrite d 11 (c / 8) 0 64 true).1.chans := by simp [hc]
  generalize flipWrite d' 11 (c / 8) 0 64 true = r' at *
  generalize flipWrite d 11 (c / 8) 0 64 true = r at *
  simp only [Dev.updChan, hc', hbits]

/-- What the check of a read makes of the channels depends on them and on the armed flip alone. -/
theorem checkRead_chans {d d' : Dev} (hc : d'.chans = d.chans) (he : d'.err = d.err) (line : Nat) (r : Counted) (chk : Ecc) :
    (checkRead d' line r chk).chans = (checkRead d line r chk).chans := by
  unfold checkRead
  simp only [chan_of_chans hc]
  split
  · exact checkFill_chans (by simp [hc]) (by simp [he]) _ _
  · split
    · exact checkFill_chans (by simp [hc]) (by simp [he]) _ _
    · simp only [Dev.updChan, hc]

@[simp] theorem checkFill_glob (d : Dev) (c csec : Nat) : (checkFill d c csec).glob = d.glob := by simp [checkFill]

@[simp] theorem checkRead_glob (d : Dev) (line : Nat) (r : Counted) (chk : Ecc) : (checkRead d line r chk).glob = d.glob := by
  unfold checkRead
  dsimp only
  repeat' split
  all_goals simp

@[simp] theorem checkRead_mcs (d : Dev) (line : Nat) (r : Counted) (chk : Ecc) : (checkRead d line r chk).mcs = d.mcs := by
  unfold checkRead
  dsimp only
  repeat' split
  all_goals simp [checkFill]

-- merge reads (R223, R225)

theorem decodeLine_of_chans {d d' : Dev} (hc : d'.chans = d.chans) (hm : d'.mem = d.mem) (line n : Nat) :
    d'.decodeLine line n = d.decodeLine line n := by
  have hwrong : d'.chkWrong line = d.chkWrong line := by rw [Dev.chkWrong, chan_of_chans hc, Dev.chkWrong]
  rw [Dev.decodeLine, hwrong, chan_of_chans hc, hm, Dev.decodeLine]

/-- A merge read of a good line leaves all but the line's pending repair. -/
theorem mergeRead_good {d : Dev} {line n : Nat} (h : d.decodeLine line n = .good) :
    mergeRead d line n false = (dropRepair d line, d.memLine line, false) := by
  simp [mergeRead, readLine, Dev.readAs, h]

/-- The entry a merge read returns to is filled: bytes it does not write come from memory. -/
def WbEntry.merged (e : WbEntry) (old : Line) (f : WbEntry) : WbEntry :=
  if f.num = e.num then { f with data := mergeLine old e.data e.mask, mask := BitVec.allOnes 64, poison := e.poison } else f

theorem WbEntry.merged_keeps (e : WbEntry) (old : Line) (f : WbEntry) :
    (e.merged old f).bad = f.bad ∧ (e.merged old f).ue = f.ue ∧ (e.merged old f).line = f.line := by
  unfold WbEntry.merged
  split <;> exact ⟨rfl, rfl, rfl⟩

/-- Reading entries without an error changes none of them. -/
theorem checkEntries_mc {d : Dev} {line : Nat} (h : ∀ e ∈ d.wbOf line, e.bad = 0 ∧ e.ue = false) (m : Nat) :
    (checkEntries d line .ok).mc m = d.mc m := by
  by_cases hm : m = mcOf (64 * line)
  · subst hm
    have hwb : ∀ e ∈ (d.mc (mcOf (64 * line))).wb, (if e.line = line then e.checked .ok else e) = e := fun e he => by
      split
      next hl =>
        obtain ⟨hb, hu⟩ := h e (by simp [Dev.wbOf, he, hl])
        exact checked_clean hb hu
      · rfl
    rw [checkEntries, Dev.mc_updMc, List.map_congr_left hwb, List.map_id']
  · exact Dev.mc_updMc_other _ _ hm

/-- Answering the reads that waited for a merge leaves the buffer as it is, where its line's entries have no error. -/
theorem mergeWaiters_mc {d : Dev} {line : Nat} (h : ∀ e ∈ d.wbOf line, e.bad = 0 ∧ e.ue = false) (m : Nat) :
    (mergeWaiters d line).mc m = d.mc m := by
  unfold mergeWaiters
  dsimp only
  split
  · refine Dev.each_keeps (fun x => x.mc m = d.mc m) _ _ _ (checkEntries_mc h m) fun x i _ hx => ?_
    split
    · exact (mc_of_mcs (by simp [Dev.putSent]) m).trans hx
    · exact hx
  · exact checkEntries_mc h m

/-- The merge read of the oldest entry, draining and partial, fills it from memory, which stays as it is. -/
theorem mergeReturn_fills {d : Dev} {m line n : Nat} {chk : Ecc} {e : WbEntry} {rest : List WbEntry} (hw : d.wbOf line = e :: rest)
    (hd : e.draining = true) (hf : e.full = false) (hm : mcOf (64 * line) = m) (hrun : d.mcRuns m = true)
    (hrep : (d.chan (chanOf (64 * line))).repair = []) (hclean : ∀ f ∈ e :: rest, f.bad = 0 ∧ f.ue = false)
    (hgood : (checkRead d line { dpa := some (64 * line) } chk).decodeLine line n = .good) :
    (mergeReturn d m line n false chk).mem = d.mem
      ∧ ((mergeReturn d m line n false chk).mc m).wb = (d.mc m).wb.map (e.merged (d.memLine line)) := by
  have hgo : ¬ (mcOf (64 * line) ≠ m ∨ e.draining = false ∨ e.full = true ∨ d.mcRuns m = false) := by simp [hd, hf, hm, hrun]
  unfold mergeReturn
  simp only [hw]
  rw [if_neg hgo, runRepairs_none hrep]
  set d2 := if e.codeOnly then d else (count d (mcBlock m) 0x23 1 { dpa := some (64 * line) }).updMc m
    (fun y => { y with rmw := satInc 32 y.rmw }) with hd2
  set d3 := checkRead (count d2 (mcBlock m) 0x25 1 {}) line { dpa := some (64 * line) } chk with hd3
  have h2 : d2.chans = d.chans ∧ d2.err = d.err ∧ d2.mem = d.mem ∧ d2.glob = d.glob ∧ (d2.mc m).wb = (d.mc m).wb := by
    rw [hd2]
    split
    · exact ⟨rfl, rfl, rfl, rfl, rfl⟩
    · refine ⟨by simp, by simp, by simp, by simp, ?_⟩
      rw [Dev.mc_updMc, count_mc]
  obtain ⟨hchans, herr, hmem, hglob, hwb⟩ := h2
  have hread : mergeRead d3 line n false = (dropRepair d3 line, d.memLine line, false) := by
    have hline : d3.memLine line = d.memLine line := by simp [Dev.memLine, hd3, hmem, hglob]
    rw [← hline]
    refine mergeRead_good ((decodeLine_of_chans ?_ ?_ line n).trans hgood)
    · exact checkRead_chans (by simpa using hchans) (by simpa using herr) _ _ _
    · simp [hd3, hmem]
  rw [hread]
  simp only [Bool.or_false]
  set d4 := (dropRepair d3 line).updMc m (fun y => { y with wb := y.wb.map (e.merged (d.memLine line)) }) with hd4
  have hwb4 : (d4.mc m).wb = (d.mc m).wb.map (e.merged (d.memLine line)) := by
    rw [hd4, Dev.mc_updMc, mc_of_mcs (d := d2) (by simp [hd3, dropRepair]), hwb]
  have hclean4 : ∀ f ∈ d4.wbOf line, f.bad = 0 ∧ f.ue = false := by
    intro f hfm
    rw [Dev.wbOf, hm, hwb4, List.mem_filter, List.mem_map, decide_eq_true_eq] at hfm
    obtain ⟨⟨g, hg, rfl⟩, hl⟩ := hfm
    obtain ⟨hbad, hue, hline⟩ := WbEntry.merged_keeps e (d.memLine line) g
    rw [hbad, hue]
    refine hclean g ?_
    rw [← hw, Dev.wbOf, hm, List.mem_filter, decide_eq_true_eq]
    exact ⟨hg, hline ▸ hl⟩
  refine ⟨?_, (congrArg Mc.wb (mergeWaiters_mc hclean4 m)).trans hwb4⟩
  refine (mergeWaiters_mem d4 line).trans ?_
  simp [hd4, hd3, hmem]

/-- Settles O23, by what the channel takes of the buffer and what a merge read gives it. -/
theorem writeBufferDrains : Obligations.WriteBufferDrains := by
  unfold Obligations.WriteBufferDrains
  refine ⟨?_, ?_, ?_, ?_, ?_⟩
  · intro s m line hrun
    have hexec : exec (.wbAgeExpiry m line) s = onIsland (25 + m.val) s (ageEntry · m.val line) := rfl
    rw [hexec, onIsland_running hrun]
    rfl
  · intro s c ue hrun hdue
    have hexec : exec (.wbBatchStart c ue none) s = onIsland (25 + c.val / 8) s (batchStart · c.val ue none) := rfl
    rw [hexec, onIsland_running hrun]
    simp only [batchStart, hdue, Bool.not_true, Bool.false_eq_true, if_false, Option.bind_none]
  · rintro s m line err e rest d hw hd hf hm hrun rfl
    exact ⟨rfl, writeTaken_line hw hd hf hm hrun⟩
  · intro s m line err e rest hw hd hm hrun
    rw [← writeAddrUe_fatal hw hd hm hrun]
    rfl
  · rintro s m line n chk e rest d hw hd hf hm hrun hrep hclean hgood rfl
    exact ⟨rfl, mergeReturn_fills hw hd hf hm hrun hrep hclean hgood⟩

end Sys2Proof.Machine
end

section
/-! Proof of the statement on ALU and ALUP: results and flags at every width. -/

open Sys2Proof

namespace Sys2Proof.Machine

-- the bits of FLAGS

theorem getLsbD_setFlag (f : BitVec 6) {i : Nat} (hi : i < 6) (b : Bool) (j : Nat) :
    (setFlag f i b).getLsbD j = if j = i then b else f.getLsbD j := by
  have hbit : (1#6 <<< i).getLsbD j = decide (j = i) := by
    rw [BitVec.getLsbD_shiftLeft, BitVec.getLsbD_one]
    by_cases h : j = i
    · simp [h, hi]
    · simp [h]
      omega
  cases b
  · simp only [setFlag, Bool.false_eq_true, if_false, BitVec.getLsbD_and, BitVec.getLsbD_not, hbit]
    by_cases h : j = i
    · simp [h]
    · by_cases h6 : j < 6
      · simp [h, h6]
      · simp [h, BitVec.getLsbD_of_ge f j (by omega)]
  · simp only [setFlag, if_true, BitVec.getLsbD_or, hbit]
    by_cases h : j = i <;> simp [h]

theorem getLsbD_flagsZN {w : Nat} (f : BitVec 6) (r : BitVec w) (j : Nat) :
    (flagsZN f r).getLsbD j = if j = 1 then r.msb else if j = 0 then r == 0#w else f.getLsbD j := by
  simp only [flagsZN, getLsbD_setFlag _ (show 0 < 6 by decide), getLsbD_setFlag _ (show 1 < 6 by decide)]

theorem getLsbD_flagsZNC {w : Nat} (f : BitVec 6) (r : BitVec w) (c : Bool) (j : Nat) :
    (flagsZNC f r c).getLsbD j = if j = 2 then c else (flagsZN f r).getLsbD j := by
  simp only [flagsZNC, getLsbD_setFlag _ (show 2 < 6 by decide)]

theorem getLsbD_flagsZNCV {w : Nat} (f : BitVec 6) (r : BitVec w) (c v : Bool) (j : Nat) :
    (flagsZNCV f r c v).getLsbD j = if j = 3 then v else (flagsZNC f r c).getLsbD j := by
  simp only [flagsZNCV, getLsbD_setFlag _ (show 3 < 6 by decide)]

-- signed overflow

theorem two_pow_pred {w : Nat} (hw : 0 < w) : 2 ^ w = 2 * 2 ^ (w - 1) := by
  obtain ⟨v, rfl⟩ : ∃ v, w = v + 1 := ⟨w - 1, by omega⟩
  simp [Nat.pow_succ, Nat.mul_comm]

/-- A sum overflows where its operands agree in sign and it does not. -/
theorem addOverflow {w : Nat} (hw : 0 < w) (a b : BitVec w) (c : Nat) (hc : c ≤ 1) :
    (a.msb == b.msb && (BitVec.ofNat w (a.toNat + b.toNat + c)).msb != a.msb)
      = decide ((BitVec.ofNat w (a.toNat + b.toNat + c)).toInt ≠ a.toInt + b.toInt + c) := by
  have hp := two_pow_pred hw
  have ha := a.isLt
  have hb := b.isLt
  simp only [BitVec.msb_eq_decide, BitVec.toInt_eq_toNat_cond, BitVec.toNat_ofNat]
  generalize a.toNat = x at *
  generalize b.toNat = y at *
  generalize 2 ^ (w - 1) = p at *
  rw [hp] at ha hb ⊢
  have hmod : (x + y + c) % (2 * p) = x + y + c ∧ x + y + c < 2 * p
      ∨ (x + y + c) % (2 * p) = x + y + c - 2 * p ∧ 2 * p ≤ x + y + c := by
    by_cases h : x + y + c < 2 * p
    · exact .inl ⟨Nat.mod_eq_of_lt h, h⟩
    · exact .inr ⟨by rw [Nat.mod_eq_sub_mod (by omega), Nat.mod_eq_of_lt (by omega)], by omega⟩
  generalize (x + y + c) % (2 * p) = r at *
  rw [Bool.eq_iff_iff]
  simp only [Bool.and_eq_true, beq_iff_eq, bne_iff_ne, decide_eq_true_eq, decide_eq_decide, ne_eq]
  split <;> split <;> split <;> omega

/-- A difference overflows where its operands differ in sign and it does not agree with the first. -/
theorem subOverflow {w : Nat} (hw : 0 < w) (a b : BitVec w) (c : Nat) (hc : c ≤ 1) :
    (a.msb != b.msb && (a - b - BitVec.ofNat w c).msb != a.msb)
      = decide ((a - b - BitVec.ofNat w c).toInt ≠ a.toInt - b.toInt - c) := by
  have hp := two_pow_pred hw
  have ha := a.isLt
  have hb := b.isLt
  have hmod : ((a - b - BitVec.ofNat w c).toNat = a.toNat - (b.toNat + c) ∧ b.toNat + c ≤ a.toNat)
      ∨ ((a - b - BitVec.ofNat w c).toNat = 2 ^ w + a.toNat - (b.toNat + c) ∧ a.toNat < b.toNat + c) := by
    have hpos : c < 2 ^ w := by
      have := Nat.one_lt_two_pow (n := w) (by omega)
      omega
    rw [BitVec.toNat_sub, BitVec.toNat_sub, BitVec.toNat_ofNat, Nat.mod_eq_of_lt hpos, Nat.add_mod_mod]
    generalize a.toNat = x at *
    generalize b.toNat = y at *
    generalize 2 ^ w = q at *
    by_cases h : y + c ≤ x
    · refine .inl ⟨?_, h⟩
      rw [show q - c + (q - y + x) = x - (y + c) + q + q by omega, Nat.add_mod_right, Nat.add_mod_right, Nat.mod_eq_of_lt (by omega)]
    · refine .inr ⟨?_, by omega⟩
      rw [show q - c + (q - y + x) = q + x - (y + c) + q by omega, Nat.add_mod_right, Nat.mod_eq_of_lt (by omega)]
  rw [Bool.eq_iff_iff]
  simp only [BitVec.msb_eq_decide, BitVec.toInt_eq_toNat_cond, Bool.and_eq_true, bne_iff_ne, decide_eq_true_eq, decide_eq_decide, ne_eq]
  generalize (a - b - BitVec.ofNat w c).toNat = r at *
  generalize a.toNat = x at *
  generalize b.toNat = y at *
  generalize 2 ^ (w - 1) = p at *
  rw [hp] at ha hb hmod ⊢
  split <;> split <;> split <;> omega

-- results (R251)

theorem ofNat_add_add {w : Nat} (a b : BitVec w) (c : Nat) : BitVec.ofNat w (a.toNat + b.toNat + c) = a + b + BitVec.ofNat w c := by
  apply BitVec.eq_of_toNat_eq
  simp [BitVec.toNat_add]

/-- The flags of a sum with a carry in: C where it leaves the width, V where it overflows. -/
theorem addFlags_carry {w : Nat} (hw : 0 < w) (f : BitVec 6) (a b : BitVec w) (c : Bool) :
    (addFlags f a b c).1 = a + b + BitVec.ofNat w c.toNat
      ∧ (addFlags f a b c).2.getLsbD 2 = decide (2 ^ w ≤ a.toNat + b.toNat + c.toNat)
      ∧ (addFlags f a b c).2.getLsbD 3 = decide ((a + b + BitVec.ofNat w c.toNat).toInt ≠ a.toInt + b.toInt + c.toNat) := by
  have hc : carryIn c = c.toNat := by cases c <;> rfl
  simp only [addFlags, hc]
  refine ⟨ofNat_add_add a b _, by rw [getLsbD_flagsZNCV, getLsbD_flagsZNC]; rfl, ?_⟩
  rw [getLsbD_flagsZNCV, if_pos rfl, addOverflow hw a b _ c.toNat_le, ofNat_add_add]

/-- The flags of a difference with a borrow in: C where there is no borrow, V where it overflows. -/
theorem subFlags_borrow {w : Nat} (hw : 0 < w) (f : BitVec 6) (a b : BitVec w) (c : Bool) :
    (subFlags f a b c).1 = a - b - BitVec.ofNat w (!c).toNat
      ∧ (subFlags f a b c).2.getLsbD 2 = decide (b.toNat + (!c).toNat ≤ a.toNat)
      ∧ (subFlags f a b c).2.getLsbD 3 = decide ((a - b - BitVec.ofNat w (!c).toNat).toInt ≠ a.toInt - b.toInt - (!c).toNat) := by
  have hc : 1 - carryIn c = (!c).toNat := by cases c <;> rfl
  simp only [subFlags, hc]
  refine ⟨trivial, by rw [getLsbD_flagsZNCV, getLsbD_flagsZNC]; rfl, ?_⟩
  rw [getLsbD_flagsZNCV, if_pos rfl, subOverflow hw a b _ (Bool.toNat_le _)]

/-- The first bit of a word rotated left by less than its width. -/
theorem getLsbD_rotateLeft_zero {w : Nat} (hw : 0 < w) (a : BitVec w) {n : Nat} (h0 : 0 < n) (hn : n ≤ w) :
    (a.rotateLeft (n % w)).getLsbD 0 = a.getLsbD (w - n) := by
  rcases Nat.lt_or_ge n w with h | h
  · rw [Nat.mod_eq_of_lt h, BitVec.getLsbD_rotateLeft_of_le h, decide_eq_true h0, cond_true, Nat.add_zero]
  · obtain rfl : n = w := by omega
    rw [Nat.mod_self, Nat.sub_self, BitVec.getLsbD_rotateLeft_of_le hw]
    simp [hw]

theorem mulHigh {w : Nat} (a b : BitVec w) :
    BitVec.ofNat w (a.toNat * b.toNat / 2 ^ w) = ((a.setWidth (2 * w) * b.setWidth (2 * w)) >>> w).setWidth w := by
  have ha := a.isLt
  have hb := b.isLt
  have hpow : 2 ^ (2 * w) = 2 ^ w * 2 ^ w := by rw [Nat.two_mul, Nat.pow_add]
  have hle : 2 ^ w ≤ 2 ^ (2 * w) := Nat.pow_le_pow_right (by decide) (by omega)
  have hprod : a.toNat * b.toNat < 2 ^ (2 * w) := by
    rw [hpow]
    exact Nat.mul_lt_mul'' ha hb
  apply BitVec.eq_of_toNat_eq
  rw [BitVec.toNat_setWidth, BitVec.toNat_ushiftRight, BitVec.toNat_mul, BitVec.toNat_setWidth, BitVec.toNat_setWidth,
    Nat.mod_eq_of_lt (Nat.lt_of_lt_of_le ha hle), Nat.mod_eq_of_lt (Nat.lt_of_lt_of_le hb hle), Nat.mod_eq_of_lt hprod,
    Nat.shiftRight_eq_div_pow, BitVec.toNat_ofNat]

/-- The flags each function of ALU writes: none, Z and N, Z to C, or Z to V. -/
theorem aluFn_flags {w k : Nat} (hk : k < 16) (f : BitVec 6) (d s : BitVec w) (n : Nat) :
    (k = 0 ∧ aluFn k f d s n = (some s, f))
      ∨ (k ∈ [5, 6, 7, 14, 15] ∧ ∃ r : BitVec w, aluFn k f d s n = (some r, flagsZN f r))
      ∨ (k = 13 ∧ aluFn k f d s n = (none, flagsZN f (d &&& s)))
      ∨ (k ∈ [8, 9, 10, 11] ∧ ∃ (r : BitVec w) (c : Bool), aluFn k f d s n = (some r, flagsZNC f r c))
      ∨ (k ∈ [1, 2, 3, 4] ∧ ∃ (r : BitVec w) (c v : Bool), aluFn k f d s n = (some r, flagsZNCV f r c v))
      ∨ (k = 12 ∧ ∃ (r : BitVec w) (c v : Bool), aluFn k f d s n = (none, flagsZNCV f r c v)) := by
  match k, hk with
  | 0, _ => exact .inl ⟨rfl, rfl⟩
  | 1, _ | 2, _ | 3, _ | 4, _ => exact .inr (.inr (.inr (.inr (.inl ⟨by decide, _, _, _, rfl⟩))))
  | 5, _ | 6, _ | 7, _ | 14, _ | 15, _ => exact .inr (.inl ⟨by decide, _, rfl⟩)
  | 8, _ | 9, _ | 10, _ | 11, _ => exact .inr (.inr (.inr (.inl ⟨by decide, _, _, rfl⟩)))
  | 12, _ => exact .inr (.inr (.inr (.inr (.inr ⟨rfl, _, _, _, rfl⟩))))
  | 13, _ => exact .inr (.inr (.inl ⟨rfl, rfl⟩))
  | k + 16, h => omega

/-- Z and N follow the result a function writes. -/
theorem aluFn_zn {w k : Nat} (hk : k < 16) (h0 : k ≠ 0) (f : BitVec 6) (d s : BitVec w) (n : Nat) {r : BitVec w}
    (hr : (aluFn k f d s n).1 = some r) :
    (aluFn k f d s n).2.getLsbD 0 = decide (r = 0) ∧ (aluFn k f d s n).2.getLsbD 1 = r.msb := by
  have hz : (r == 0#w) = decide (r = 0) := rfl
  rcases aluFn_flags hk f d s n with h | ⟨-, r', h⟩ | h | ⟨-, r', c, h⟩ | ⟨-, r', c, v, h⟩ | ⟨-, r', c, v, h⟩
  · exact absurd h.1 h0
  · rw [h] at hr ⊢
    cases hr
    simp only [getLsbD_flagsZN]
    exact ⟨hz, rfl⟩
  · rw [h.2] at hr
    cases hr
  · rw [h] at hr ⊢
    cases hr
    simp only [getLsbD_flagsZNC, getLsbD_flagsZN]
    exact ⟨hz, rfl⟩
  · rw [h] at hr ⊢
    cases hr
    simp only [getLsbD_flagsZNCV, getLsbD_flagsZNC, getLsbD_flagsZN]
    exact ⟨hz, rfl⟩
  · rw [h] at hr
    cases hr

/-- No function touches F and E. -/
theorem aluFn_fe {w k : Nat} (hk : k < 16) (f : BitVec 6) (d s : BitVec w) (n : Nat) :
    (aluFn k f d s n).2.getLsbD 4 = f.getLsbD 4 ∧ (aluFn k f d s n).2.getLsbD 5 = f.getLsbD 5 := by
  rcases aluFn_flags hk f d s n with h | ⟨-, r', h⟩ | h | ⟨-, r', c, h⟩ | ⟨-, r', c, v, h⟩ | ⟨-, r', c, v, h⟩
  · rw [h.2]
    exact ⟨rfl, rfl⟩
  · rw [h]
    exact ⟨getLsbD_flagsZN _ _ _, getLsbD_flagsZN _ _ _⟩
  · rw [h.2]
    exact ⟨getLsbD_flagsZN _ _ _, getLsbD_flagsZN _ _ _⟩
  all_goals
    rw [h]
    simp only [getLsbD_flagsZNCV, getLsbD_flagsZNC, getLsbD_flagsZN]
    exact ⟨rfl, rfl⟩

/-- The flags of the four shifts: C is what is shifted out last, nothing for none. -/
theorem shiftCarry {w : Nat} (hw : 0 < w) (f : BitVec 6) (d s : BitVec w) (n : Nat) :
    (∀ k ∈ [8, 9, 10, 11], (aluFn k f d s 0).2.getLsbD 2 = false)
    ∧ (0 < n → n ≤ w → (aluFn 8 f d s n).2.getLsbD 2 = d.getLsbD (w - n) ∧ (aluFn 9 f d s n).2.getLsbD 2 = d.getLsbD (n - 1)
      ∧ (aluFn 10 f d s n).2.getLsbD 2 = d.getLsbD (n - 1) ∧ (aluFn 11 f d s n).2.getLsbD 2 = d.getLsbD (w - n))
    ∧ (w < n → (aluFn 8 f d s n).2.getLsbD 2 = false ∧ (aluFn 9 f d s n).2.getLsbD 2 = false
      ∧ (aluFn 10 f d s n).2.getLsbD 2 = d.msb ∧ (aluFn 11 f d s n).2.getLsbD 2 = (d.rotateLeft (n % w)).getLsbD 0) := by
  have h8 : ∀ n, (aluFn 8 f d s n).2.getLsbD 2 = (decide (n ≠ 0) && decide (n ≤ w) && d.getLsbD (w - n)) := fun n =>
    getLsbD_flagsZNC _ _ _ 2
  have h9 : ∀ n, (aluFn 9 f d s n).2.getLsbD 2 = (decide (n ≠ 0) && d.getLsbD (n - 1)) := fun n => getLsbD_flagsZNC _ _ _ 2
  have h10 : ∀ n, (aluFn 10 f d s n).2.getLsbD 2 = (decide (n ≠ 0) && (if n ≤ w then d.getLsbD (n - 1) else d.msb)) := fun n =>
    getLsbD_flagsZNC _ _ _ 2
  have h11 : ∀ n, (aluFn 11 f d s n).2.getLsbD 2 = (decide (n ≠ 0) && (d.rotateLeft (n % w)).getLsbD 0) := fun n =>
    getLsbD_flagsZNC _ _ _ 2
  refine ⟨fun k hk => ?_, fun h0 hn => ?_, fun hn => ?_⟩
  · simp only [List.mem_cons, List.not_mem_nil, or_false] at hk
    rcases hk with rfl | rfl | rfl | rfl
    · rw [h8]; rfl
    · rw [h9]; rfl
    · rw [h10]; rfl
    · rw [h11]; rfl
  · rw [h8, h9, h10, h11, getLsbD_rotateLeft_zero hw d h0 hn, if_pos hn, decide_eq_true hn, decide_eq_true (by omega : n ≠ 0)]
    exact ⟨rfl, rfl, rfl, rfl⟩
  · rw [h8, h9, h10, h11, if_neg (by omega), decide_eq_false (by omega : ¬ n ≤ w), decide_eq_true (by omega : n ≠ 0),
      BitVec.getLsbD_of_ge d (n - 1) (by omega)]
    exact ⟨rfl, rfl, rfl, rfl⟩

/-- What a word function writes back is what ALU says. -/
theorem aluWord_eq (fn d r : Nat) (y : Engine) : aluWord fn d r y =
    (let t := aluFn fn y.flags (y.rg d) (y.rg r) ((y.rg r).toNat % 64)
     { (match t.1 with | some v => y.setG d v | none => y) with flags := t.2 }) := by
  have hn : bits (y.rg r).toNat 5 0 = (y.rg r).toNat % 64 := by simp [bits]
  rw [aluWord, hn]
  rcases aluFn fn y.flags (y.rg d) (y.rg r) ((y.rg r).toNat % 64) with ⟨v | v, f⟩ <;> rfl

theorem aluPair_eq (fn d r : Nat) (y : Engine) : aluPair fn d r y =
    (let t := aluFn fn y.flags (y.rp d) (y.rp r) ((y.rg r).toNat % 64)
     { (match t.1 with | some v => y.setP d v | none => y) with flags := t.2 }) := by
  have hn : bits (y.rg r).toNat 5 0 = (y.rg r).toNat % 64 := by simp [bits]
  rw [aluPair, hn]
  rcases aluFn fn y.flags (y.rp d) (y.rp r) ((y.rg r).toNat % 64) with ⟨v | v, f⟩ <;> rfl

/-- Settles O25, by the sums, differences and shifts of `aluFn` and the flags each function writes. -/
theorem arithmeticResultsAndFlags : Obligations.ArithmeticResultsAndFlags := by
  unfold Obligations.ArithmeticResultsAndFlags
  refine ⟨fun w f d s n hw => ?_, fun s x fn d r hr => ?_, fun s x fn d r hr hd hs => ?_⟩
  · obtain ⟨add1, add2, add3⟩ := addFlags_carry hw f d s false
    obtain ⟨sub1, sub2, sub3⟩ := subFlags_borrow hw f d s true
    obtain ⟨adc1, adc2, adc3⟩ := addFlags_carry hw f d s (f.getLsbD 2)
    obtain ⟨sbc1, sbc2, sbc3⟩ := subFlags_borrow hw f d s (f.getLsbD 2)
    simp only [Bool.toNat_false, Bool.not_true, Nat.add_zero, BitVec.add_zero, BitVec.sub_zero, Int.add_zero, Int.sub_zero,
      Nat.cast_zero] at add1 add2 add3 sub1 sub2 sub3
    obtain ⟨shift0, shiftIn, shiftPast⟩ := shiftCarry hw f d s n
    refine ⟨rfl, ⟨congrArg some add1, add2, add3⟩, ⟨congrArg some sub1, sub2, sub3⟩, ⟨congrArg some adc1, adc2, adc3⟩, ⟨congrArg some sbc1, sbc2, sbc3⟩, rfl, rfl, rfl,
      ⟨rfl, rfl, rfl, rfl⟩, shift0, shiftIn, shiftPast, rfl, rfl, ?_, congrArg some (mulHigh d s),
      fun k hk h0 r hr => aluFn_zn hk h0 f d s n hr, fun k hk => aluFn_fe hk f d s n, fun k hk => ?_, fun k hk => ?_⟩
    · exact congrArg some (BitVec.eq_of_toNat_eq (by simp [BitVec.toNat_mul]))
    · simp only [List.mem_cons, List.not_mem_nil, or_false] at hk
      rcases hk with rfl | rfl | rfl | rfl | rfl | rfl <;> exact getLsbD_flagsZN _ _ 2
    · simp only [List.mem_cons, List.not_mem_nil, or_false] at hk
      rcases hk with rfl | rfl | rfl | rfl | rfl | rfl | rfl | rfl | rfl | rfl
      case inr.inr.inr.inl | inr.inr.inr.inr.inl | inr.inr.inr.inr.inr.inl | inr.inr.inr.inr.inr.inr.inl =>
        exact (getLsbD_flagsZNC _ _ _ 3).trans (getLsbD_flagsZN _ _ 3)
      all_goals exact getLsbD_flagsZN _ _ 3
  · exact runLocal_of_ready hr rfl (aluWord_eq fn.val d.val r.val) _ _
  · exact runLocal_of_ready hr (by simp [odd_eq_false hd, odd_eq_false hs]) (aluPair_eq fn.val d.val r.val) _ _

end Sys2Proof.Machine
end

section
/-! Proof of the statement on control transfer and on the status registers. -/

open Sys2Proof

namespace Sys2Proof.Machine

-- fields of words

/-- The low bits of a word. -/
theorem setWidth_extract_low (w : Word) {k : Nat} (hk : k ≤ 18) : (w.extractLsb' 0 k).setWidth 18 = w &&& BitVec.ofNat 18 (2 ^ k - 1) := by
  have hw := w.isLt
  have hpow : 2 ^ k - 1 < 2 ^ 18 := by
    have := Nat.pow_le_pow_right (show 0 < 2 by decide) hk
    omega
  apply BitVec.eq_of_toNat_eq
  rw [BitVec.toNat_setWidth, BitVec.extractLsb'_toNat, BitVec.toNat_and, BitVec.toNat_ofNat, Nat.mod_eq_of_lt hpow,
    Nat.and_two_pow_sub_one_eq_mod, Nat.shiftRight_zero, Nat.mod_eq_of_lt]
  exact Nat.lt_of_le_of_lt (Nat.mod_le _ _) hw

/-- A field of a word, put back where it was. -/
theorem field_extract (w : Word) (lo k : Nat) :
    BitVec.ofNat 18 (fld lo (w.extractLsb' lo k).toNat) = w &&& BitVec.ofNat 18 (2 ^ lo * (2 ^ k - 1)) := by
  apply BitVec.eq_of_getLsbD_eq
  intro i hi
  rw [BitVec.getLsbD_and, BitVec.getLsbD_ofNat, BitVec.getLsbD_ofNat, fld, Nat.testBit_mul_two_pow, Nat.mul_comm,
    Nat.testBit_mul_two_pow, Nat.testBit_two_pow_sub_one, ← BitVec.testBit_toNat, BitVec.extractLsb'_toNat, Nat.testBit_mod_two_pow,
    Nat.testBit_shiftRight]
  by_cases hlo : lo ≤ i
  · have hadd : lo + (i - lo) = i := by omega
    by_cases hin : i - lo < k <;> simp [hi, hlo, hin, hadd]
  · simp [hlo]

/-- A third of a TVAL, as it is written. -/
theorem getLsbD_setTriple (v : Info) (w : Word) {k i : Nat} (hk : k < 3) (hi : i < 54) :
    (setTriple v k w).getLsbD i = if 18 * k ≤ i ∧ i < 18 * k + 18 then w.getLsbD (i - 18 * k) else v.getLsbD i := by
  have hmask : (0x3FFFF#54) = BitVec.ofNat 54 (2 ^ 18 - 1) := rfl
  rw [setTriple, BitVec.getLsbD_or, BitVec.getLsbD_and, BitVec.getLsbD_not, BitVec.getLsbD_shiftLeft, BitVec.getLsbD_shiftLeft,
    hmask, BitVec.getLsbD_ofNat, Nat.testBit_two_pow_sub_one, BitVec.getLsbD_setWidth]
  by_cases hlo : 18 * k ≤ i
  · have hnlt : ¬ i < 18 * k := by omega
    have hsub : i - 18 * k < 54 := by omega
    by_cases hup : i < 18 * k + 18
    · have hin : i - 18 * k < 18 := by omega
      simp [hi, hlo, hup, hnlt, hsub, hin]
    · have hout : ¬ i - 18 * k < 18 := by omega
      simp [hi, hup, hnlt, hsub, hout, BitVec.getLsbD_of_ge w (i - 18 * k) (by omega)]
  · have hlt : i < 18 * k := by omega
    simp [hi, hlo, hlt]

theorem extract_setTriple (v : Info) (w : Word) {k : Nat} (hk : k < 3) : (setTriple v k w).extractLsb' (18 * k) 18 = w := by
  apply BitVec.eq_of_getLsbD_eq
  intro i hi
  rw [BitVec.getLsbD_extractLsb', getLsbD_setTriple v w hk (by omega), if_pos (by omega), Nat.add_sub_cancel_left]
  simp [hi]

theorem extract_setTriple_other (v : Info) (w : Word) {k j : Nat} (hk : k < 3) (hj : j < 3) (h : j ≠ k) :
    (setTriple v k w).extractLsb' (18 * j) 18 = v.extractLsb' (18 * j) 18 := by
  apply BitVec.eq_of_getLsbD_eq
  intro i hi
  rw [BitVec.getLsbD_extractLsb', BitVec.getLsbD_extractLsb', getLsbD_setTriple v w hk (by omega), if_neg (by omega)]

theorem extract_append_low (a b : Word) : (a ++ b).extractLsb' 0 18 = b := by
  apply BitVec.eq_of_getLsbD_eq
  intro i hi
  rw [BitVec.getLsbD_extractLsb', Nat.zero_add, BitVec.getLsbD_append, if_pos hi, decide_eq_true hi, Bool.true_and]

theorem extract_append_high (a b : Word) : (a ++ b).extractLsb' 18 18 = a := by
  apply BitVec.eq_of_getLsbD_eq
  intro i hi
  rw [BitVec.getLsbD_extractLsb', BitVec.getLsbD_append, if_neg (by omega), Nat.add_sub_cancel_left, decide_eq_true hi, Bool.true_and]

-- what a write of a status register leaves (R240)

/-- No write of a status register touches the rest of the engine. -/
@[simp] theorem statusWrite_frame (y : Engine) (n : Nat) (w : Word) :
    (statusWrite y n w).g = y.g ∧ (statusWrite y n w).a = y.a ∧ (statusWrite y n w).pc = y.pc ∧ (statusWrite y n w).imem = y.imem
      ∧ (statusWrite y n w).scratch = y.scratch ∧ (statusWrite y n w).sb = y.sb ∧ (statusWrite y n w).nt = y.nt
      ∧ (statusWrite y n w).mview = y.mview ∧ (statusWrite y n w).rsv = y.rsv ∧ (statusWrite y n w).wake = y.wake
      ∧ (statusWrite y n w).st = y.st ∧ (statusWrite y n w).sup = y.sup ∧ (statusWrite y n w).intrap = y.intrap
      ∧ (statusWrite y n w).labres = y.labres ∧ (statusWrite y n w).onTick = y.onTick := by
  unfold statusWrite
  split <;> simp

theorem statusWrite_flags (y : Engine) {n : Nat} (h : n ≠ 0) (w : Word) : (statusWrite y n w).flags = y.flags := by
  unfold statusWrite
  split
  case h_1 => exact absurd rfl h
  all_goals rfl

theorem statusWrite_cview (y : Engine) {n : Nat} (h : n ≠ 2) (w : Word) : (statusWrite y n w).cview = y.cview := by
  unfold statusWrite
  split
  case h_3 => exact absurd rfl h
  all_goals rfl

theorem statusWrite_tcause (y : Engine) {n : Nat} (h : n ≠ 3) (w : Word) : (statusWrite y n w).tcause = y.tcause := by
  unfold statusWrite
  split
  case h_4 => exact absurd rfl h
  all_goals rfl

theorem statusWrite_tpc (y : Engine) {n : Nat} (h : n ≠ 4) (w : Word) : (statusWrite y n w).tpc = y.tpc := by
  unfold statusWrite
  split
  case h_5 => exact absurd rfl h
  all_goals rfl

theorem statusWrite_tstat (y : Engine) {n : Nat} (h : n ≠ 5) (w : Word) : (statusWrite y n w).tstat = y.tstat := by
  unfold statusWrite
  split
  case h_6 => exact absurd rfl h
  all_goals rfl

theorem statusWrite_tvec (y : Engine) {n : Nat} (h : n ≠ 9) (w : Word) : (statusWrite y n w).tvec = y.tvec := by
  unfold statusWrite
  split
  case h_10 => exact absurd rfl h
  all_goals rfl

theorem statusWrite_iubase (y : Engine) {n : Nat} (h : n ≠ 0x0C) (w : Word) : (statusWrite y n w).iubase = y.iubase := by
  unfold statusWrite
  split
  case h_11 => exact absurd rfl h
  all_goals rfl

theorem statusWrite_subase (y : Engine) {n : Nat} (h : n ≠ 0x0D) (w : Word) : (statusWrite y n w).subase = y.subase := by
  unfold statusWrite
  split
  case h_12 => exact absurd rfl h
  all_goals rfl

theorem statusWrite_mode (y : Engine) {n : Nat} (h : n ≠ 1) (w : Word) :
    (statusWrite y n w).trans = y.trans ∧ (statusWrite y n w).guard = y.guard := by
  unfold statusWrite
  split
  case h_2 => exact absurd rfl h
  all_goals exact ⟨rfl, rfl⟩

/-- A third of TVAL is written by its own register alone. -/
theorem statusWrite_tval (y : Engine) {n k : Nat} (hk : k < 3) (h : n ≠ 6 + k) (w : Word) :
    (statusWrite y n w).tval.extractLsb' (18 * k) 18 = y.tval.extractLsb' (18 * k) 18 := by
  unfold statusWrite
  split
  case h_7 | h_8 | h_9 => exact extract_setTriple_other _ _ (by decide) hk (by omega)
  all_goals rfl

theorem statusWrite_budget_low (y : Engine) {n : Nat} (h : n ≠ 0x0E) (w : Word) :
    (statusWrite y n w).budget.extractLsb' 0 18 = y.budget.extractLsb' 0 18 := by
  unfold statusWrite
  split
  case h_13 => exact absurd rfl h
  case h_14 => exact extract_append_low _ _
  all_goals rfl

theorem statusWrite_budget_high (y : Engine) {n : Nat} (h : n ≠ 0x0F) (w : Word) :
    (statusWrite y n w).budget.extractLsb' 18 18 = y.budget.extractLsb' 18 18 := by
  unfold statusWrite
  split
  case h_13 => exact extract_append_high _ _
  case h_14 => exact absurd rfl h
  all_goals rfl

/-- Other status registers read as before. -/
theorem statusRead_statusWrite_other (y : Engine) (w : Word) (d : Dev) (e : Nat) {n m : Nat} (h : n ≠ m) :
    statusRead (d.updEngine e (fun _ => statusWrite y n w)) e m = statusRead (d.updEngine e (fun _ => y)) e m := by
  unfold statusRead Dev.quadCycles
  simp only [Dev.engine_updEngine, Dev.updEngine_frame, statusWrite_frame]
  split
  case h_1 => rw [statusWrite_flags y h]
  case h_2 => rw [(statusWrite_mode y h w).1, (statusWrite_mode y h w).2]
  case h_3 => rw [statusWrite_cview y h]
  case h_4 => rw [statusWrite_tcause y h]
  case h_5 => rw [statusWrite_tpc y h]
  case h_6 => rw [statusWrite_tstat y h]
  case h_7 => exact statusWrite_tval y (k := 0) (by decide) h w
  case h_8 => exact statusWrite_tval y (k := 1) (by decide) h w
  case h_9 => exact statusWrite_tval y (k := 2) (by decide) h w
  case h_10 => rw [statusWrite_tvec y h]
  case h_13 => rw [statusWrite_iubase y h]
  case h_14 => rw [statusWrite_subase y h]
  case h_15 => exact statusWrite_budget_low y h w
  case h_16 => exact statusWrite_budget_high y h w
  all_goals rfl

/-- An instruction a ready engine may execute runs its body. -/
theorem onDevice_of_ready {s : State} {x : Env} (h : s.dev.ready x) (row : Word) {illegal priv : Bool} (hill : illegal = false)
    (hpriv : priv = true → (s.dev.engine x.e.val).sup = true) (body : Dev → Dev) :
    onDevice s (fun d => runInstr d x row illegal priv body) = .next (s.turned (body s.dev)) := by
  have hp : (priv && !(s.dev.engine x.e.val).sup) = false := by
    cases hpr : priv
    · rfl
    · rw [hpriv hpr]; rfl
  rw [onDevice_turned, runInstr_of_ready h, hill, hp]
  rfl

theorem ofInt_toInt_signExtend (off : BitVec 8) : BitVec.ofInt 14 off.toInt = off.signExtend 14 := rfl

theorem targetOk_of_lt {t : Word} (h : t.toNat < 2 ^ 14) : targetOk t = true := decide_eq_true h

theorem extract_eq_setWidth (w : Word) (k : Nat) : w.extractLsb' 0 k = w.setWidth k := by
  apply BitVec.eq_of_toNat_eq
  rw [BitVec.extractLsb'_toNat, BitVec.toNat_setWidth, Nat.shiftRight_zero]

theorem branchTo_eq (d : Dev) (e : Nat) (taken : Bool) (off : BitVec 8) (len : Nat) :
    branchTo d e taken off len = if taken then jumpTo d e ((d.engine e).pc + off.signExtend 14) else advance d e len := rfl

/-- A count that reaches zero was one. -/
theorem sub_one_bne_zero (w : Word) : (w - 1 != 0) = decide (w ≠ 1) := by
  have hiff : w - 1 = 0 ↔ w = 1 := by bv_omega
  exact Bool.eq_iff_iff.2 (bne_iff_ne.trans ((not_congr hiff).trans decide_eq_true_iff.symm))

theorem condHolds_list (f : BitVec 6) : (List.range 16).map (condHolds f) =
    (let z := f.getLsbD 0
     let n := f.getLsbD 1
     let c := f.getLsbD 2
     let v := f.getLsbD 3
     [true, z, !z, c, !c, n, !n, v, !v, c && !z, !c || z, n == v, n != v, !z && n == v, z || n != v, f.getLsbD 4]) := rfl

/-- A status register that supervisor code may write reads back as written in its field. -/
theorem statusRead_statusWrite_same (y : Engine) (w : Word) (d : Dev) (e : Nat) {n : Nat}
    (hn : n ∈ [0, 2, 3, 4, 5, 6, 7, 8, 0x0D, 0x0E, 0x0F]) :
    statusRead (d.updEngine e (fun _ => statusWrite y n w)) e n = w &&& (BitVec.ofNat 18 (2 ^ (if n = 0 then 6 else if n = 2 then 12 else if n = 3 then 6
            else if n = 4 then 14 else if n = 5 then 3 else if n = 0x0D then 15 else 18) - 1)) := by
  have hall : w &&& BitVec.ofNat 18 (2 ^ 18 - 1) = w := BitVec.and_allOnes
  simp only [List.mem_cons, List.not_mem_nil, or_false] at hn
  rcases hn with rfl | rfl | rfl | rfl | rfl | rfl | rfl | rfl | rfl | rfl | rfl <;> unfold statusRead <;> simp only [Dev.engine_updEngine]
  case inl => exact setWidth_extract_low w (by decide)
  case inr.inl => exact setWidth_extract_low w (by decide)
  case inr.inr.inl => exact setWidth_extract_low w (by decide)
  case inr.inr.inr.inl => exact setWidth_extract_low w (by decide)
  case inr.inr.inr.inr.inl => exact setWidth_extract_low w (by decide)
  case inr.inr.inr.inr.inr.inl => exact (extract_setTriple y.tval w (k := 0) (by decide)).trans hall.symm
  case inr.inr.inr.inr.inr.inr.inl => exact (extract_setTriple y.tval w (k := 1) (by decide)).trans hall.symm
  case inr.inr.inr.inr.inr.inr.inr.inl => exact (extract_setTriple y.tval w (k := 2) (by decide)).trans hall.symm
  case inr.inr.inr.inr.inr.inr.inr.inr.inl => exact setWidth_extract_low w (by decide)
  case inr.inr.inr.inr.inr.inr.inr.inr.inr.inl => exact (extract_append_low _ w).trans hall.symm
  case inr.inr.inr.inr.inr.inr.inr.inr.inr.inr => exact (extract_append_high w _).trans hall.symm

/-- Settles O28, by the bodies of the instructions of a ready engine and the fields of the status registers. -/
theorem controlAndStatusInstructions : Obligations.ControlAndStatusInstructions := by
  unfold Obligations.ControlAndStatusInstructions
  refine ⟨fun s x hr => ?_, condHolds_list, fun y w => ⟨extract_eq_setWidth w 6, ⟨rfl, rfl, rfl, rfl⟩, fun d e => ?_, fun n hn => ?_, fun d e n m h => ?_,
    fun n => ?_⟩⟩
  · have hnone : false = true → (s.dev.engine x.e.val).sup = true := fun h => nomatch h
    refine ⟨fun c off => ?_, fun c t ht => ?_, fun t ht => ?_, fun g => ?_, fun g off => ?_, fun g n hs => ?_, fun g n hs => ?_⟩
    · exact onDevice_of_ready hr _ rfl hnone _
    · rw [← extract_eq_setWidth]
      exact onDevice_of_ready hr _ (by rw [targetOk_of_lt ht]; rfl) hnone _
    · rw [← extract_eq_setWidth]
      exact onDevice_of_ready hr _ (by rw [targetOk_of_lt ht]; rfl) hnone _
    · rw [← extract_eq_setWidth]
      exact onDevice_of_ready hr _ rfl hnone _
    · refine (onDevice_of_ready hr _ rfl hnone _).trans ?_
      dsimp only
      rw [branchTo_eq, sub_one_bne_zero]
      by_cases h1 : (s.dev.engine x.e.val).rg g.val = 1
      · rw [if_pos h1, h1]; rfl
      · rw [if_neg h1, if_pos (decide_eq_true h1), Dev.engine_updEngine]; rfl
    · refine onDevice_of_ready hr _ rfl (fun h => hs.resolve_right ?_) _
      rw [h]; decide
    · refine onDevice_of_ready hr _ rfl (fun h => hs.resolve_right ?_) _
      exact bne_iff_ne.1 h
  · refine ⟨fun n hn z hz => hz ▸ statusRead_statusWrite_same y w d e hn, ?_, ?_⟩
    · unfold statusRead
      simp only [Dev.engine_updEngine]
      exact field_extract w _ _
    · unfold statusRead
      simp only [Dev.engine_updEngine]
      exact field_extract w _ _
  · simp only [List.mem_cons, List.not_mem_nil, or_false] at hn
    rcases hn with rfl | rfl | rfl | rfl | rfl | rfl | rfl <;> rfl
  · exact statusRead_statusWrite_other y w d e h
  · obtain ⟨hg, ha, hpc, himem, hscr, hsb, hnt, hmv, hrsv, hwake, hst, -⟩ := statusWrite_frame y n w
    exact ⟨hg, ha, hpc, himem, hscr, hsb, hnt, hmv, hrsv, hwake, hst⟩

end Sys2Proof.Machine
end

section
/-! Addresses and located words of an engine's accesses, and the proof of the statement on loads. -/

open Sys2Proof

namespace Sys2Proof.Machine

-- the words of an access

@[simp] theorem moveAddr_zero (v : Info) : moveAddr v 0 = v := by
  unfold moveAddr
  rw [show BitVec.ofInt 52 0 = 0#52 from rfl, BitVec.add_zero, BitVec.extractLsb'_append_extractLsb'_eq_extractLsb' (by decide)]
  exact BitVec.extractLsb'_eq_self

/-- The words of an access that does not wrap follow each other. -/
theorem waddr_moveAddr_nat {a : Info} {j : Nat} (h : waddr a + j < 2 ^ 52) : waddr (moveAddr a (j : Nat)) = waddr a + j := by
  have hz := waddr_moveAddr a (j : Nat)
  omega

@[simp] theorem wordsFrom_one (a : Info) : wordsFrom a 1 = [a] := by simp [wordsFrom]

theorem mem_wordsFrom {a b : Info} {n : Nat} (hb : waddr a + n ≤ 2 ^ 52) (h : b ∈ wordsFrom a n) :
    ∃ j < n, b = moveAddr a (j : Nat) ∧ waddr b = waddr a + j := by
  obtain ⟨j, hj, rfl⟩ := List.mem_map.1 h
  have hjn := List.mem_range.1 hj
  exact ⟨j, hjn, rfl, waddr_moveAddr_nat (by omega)⟩

theorem map_wordsFrom {α : Type} {a : Info} {n : Nat} (hb : waddr a + n ≤ 2 ^ 52) (f : Nat → α) :
    (wordsFrom a n).map (fun b => f (waddr b)) = (List.range n).map (fun j => f (waddr a + j)) := by
  rw [wordsFrom, List.map_map]
  refine List.map_congr_left (fun j hj => congrArg f (waddr_moveAddr_nat ?_))
  have hjn := List.mem_range.1 hj
  omega

/-- Untranslated supervisor code finds each word where its address says. -/
theorem locateAll_plain {d : Dev} {e : Nat} (hsup : (d.engine e).sup = true) (htrans : (d.engine e).trans = false) (k : Acc) (atomic : Bool) :
    ∀ (c : Ecc) (l : List Info), (∀ a ∈ l, waddr a < 2 ^ 39) →
      locateAll d e c k atomic l = (d, l.map (fun a => (a, .here ⟨2 * waddr a, {}⟩)))
  | _, [], _ => rfl
  | c, a :: rest, h => by
    have ha : waddr a < 2 ^ 39 := h a List.mem_cons_self
    have hl : locate d e c k atomic (waddr a) = (d, .here ⟨2 * waddr a, {}⟩) := by
      rw [locate, hsup, htrans]
      exact congrArg (Prod.mk d) (if_pos ha)
    rw [locateAll, hl]
    dsimp only
    rw [locateAll_plain hsup htrans k atomic .ok rest (fun b hb => h b (List.mem_cons_of_mem _ hb))]
    rfl

theorem firstTrap_here (f : Info → Loc) : ∀ l : List Info, firstTrap (l.map (fun a => (a, .here (f a)))) = none
  | [] => rfl
  | _ :: rest => firstTrap_here f rest

theorem locs_here (f : Info → Loc) (l : List Info) : locs (l.map (fun a => (a, .here (f a)))) = l.map f := by
  rw [locs, List.filterMap_map]
  exact congrFun List.filterMap_eq_map' l

-- words of scratch (R244)

/-- Words of scratch that are good are read as they stand. -/
theorem readLocal_good {d : Dev} {e : Nat} (k : Dev → List Word → Dev) : ∀ (l : List Info) (cs : List Ecc) (acc : List Word),
    (∀ a ∈ l, waddr a < 0x8000) →
    (∀ j (h : j < l.length), eccWith (cs.getD j .ok) (Tab.get 0 (d.engine e).scratchBad (waddr l[j])) = .ok) →
    readLocal d e cs k acc l = k d (acc ++ l.map (fun a => d.scratchWord e (waddr a)))
  | [], cs, acc, _, _ => by simp [readLocal]
  | a :: rest, cs, acc, hlow, hgood => by
    have hhead : eccWith (cs.headD .ok) (Tab.get 0 (d.engine e).scratchBad (waddr a)) = .ok := by
      have := hgood 0 (Nat.zero_lt_succ _)
      cases cs <;> exact this
    have htail : ∀ j (h : j < rest.length), eccWith (cs.tail.getD j .ok) (Tab.get 0 (d.engine e).scratchBad (waddr rest[j])) = .ok := by
      intro j hj
      have := hgood (j + 1) (Nat.succ_lt_succ hj)
      cases cs <;> exact this
    rw [readLocal, if_pos (hlow a List.mem_cons_self), scratchCheck, hhead]
    dsimp only
    rw [readLocal_good k rest cs.tail _ (fun b hb => hlow b (List.mem_cons_of_mem _ hb)) htail, List.map_cons, List.append_assoc]
    rfl

theorem badLocal_none {y : Engine} {l : List Info} (h : ∀ a ∈ l, waddr a < 0x8000 ∧ (y.sup = true ∨ y.subase.toNat ≤ waddr a)) :
    badLocal y l = none := by
  refine List.find?_eq_none.2 (fun a ha => ?_)
  obtain ⟨hlow, hacc⟩ := h a ha
  have : localOk y (waddr a) = true := by
    rw [localOk, if_pos hlow]
    rcases hacc with hs | hb
    · rw [hs]; rfl
    · rw [decide_eq_true hb, Bool.or_true]
  simp [this]

/-- A load of good scratch words takes them. -/
theorem loadLocal_good {d : Dev} {x : Env} {addr : Info} {n : Nat} (h : d.scratchGood x addr n) (k : LoadKind) (g a : Nat)
    (upd : Option Info) (len : Nat) :
    loadLocal d x k g a upd addr n len =
      endLoad d x.e.val k g a upd 0 ((List.range n).map (fun j => d.scratchWord x.e.val (waddr addr + j))) len := by
  obtain ⟨_, hend, hacc, hecc⟩ := h
  have hb : waddr addr + n ≤ 2 ^ 52 := by omega
  have hbad : badLocal (d.engine x.e.val) (wordsFrom addr n) = none := by
    refine badLocal_none (fun b hmem => ?_)
    obtain ⟨j, hj, _, hw⟩ := mem_wordsFrom hb hmem
    exact ⟨by omega, hacc.imp_right (by omega)⟩
  rw [loadLocal, hbad]
  dsimp only
  rw [readLocal_good, List.nil_append, map_wordsFrom hb]
  · intro b hmem
    obtain ⟨j, hj, _, hw⟩ := mem_wordsFrom hb hmem
    omega
  · intro j hj
    have hjn : j < n := by simpa [wordsFrom] using hj
    have hget : (wordsFrom addr n)[j] = moveAddr addr (j : Nat) := by simp [wordsFrom]
    rw [hget, waddr_moveAddr_nat (by omega)]
    exact hecc j hjn

-- words of a line the engine's memory-view cache holds (R278)

theorem eraseDups_all {α : Type} [BEq α] [LawfulBEq α] {l : List α} {a : α} (hne : l ≠ []) (h : ∀ b ∈ l, b = a) : l.eraseDups = [a] := by
  cases l with
  | nil => exact absurd rfl hne
  | cons b rest =>
    have hb : b = a := h b List.mem_cons_self
    have hrest : rest.filter (fun c => !c == b) = [] := List.filter_eq_nil_iff.2 (fun c hc => by
      simp [h c (List.mem_cons_of_mem _ hc), hb])
    rw [List.eraseDups_cons, hrest, hb]
    rfl

/-- A line held stays held, with its data and its poison, as its use is noted. -/
theorem cached_mvCheck {d : Dev} {e line : Nat} {c : Ecc} {m : MvLine} (h : (d.engine e).cached line = some m) (hc : eccWith c m.bad ≠ .ue) :
    ((mvCheck d e line c).engine e).cached line = some { m with bad := 0, used := (d.engine e).mvClock + 1 } := by
  have hline : m.line = line := by simpa using List.find?_some h
  have hcheck : mvCheck d e line c = d.updEngine e (fun y => { y with
      mvClock := y.mvClock + 1
      mview := y.mview.map (fun l => if l.line = line then { l with bad := 0, used := y.mvClock + 1 } else l) }) := by
    rw [mvCheck, h]
    dsimp only
    split
    · exact absurd ‹_› hc
    · rfl
  rw [hcheck, Dev.engine_updEngine, Engine.cached, List.find?_map]
  have hcomp : ((fun l : MvLine => decide (l.line = line)) ∘ fun l : MvLine =>
      if l.line = line then { l with bad := 0, used := (d.engine e).mvClock + 1 } else l) = fun l => decide (l.line = line) := by
    funext l
    by_cases hl : l.line = line <;> simp [hl]
  rw [hcomp]
  rw [Engine.cached] at h
  rw [h, Option.map_some, if_pos hline]

/-- Words of a line that is held need no request. -/
theorem loadWords_cached {d : Dev} {e line : Nat} {m : MvLine} (h : (d.engine e).cached line = some m) (ids : List (Nat × Nat)) :
    ∀ ls : List Loc, (∀ l ∈ ls, l.page.device = false ∧ l.line = line) →
      loadWords d e ls ids = (d, ls.map (fun l => .val (loadedWord m.data m.poison l.word)), ids)
  | [], _ => rfl
  | l :: rest, hall => by
    obtain ⟨hdev, hline⟩ := hall l List.mem_cons_self
    rw [loadWords, hdev, hline, h]
    dsimp only
    rw [loadWords_cached h ids rest (fun b hb => hall b (List.mem_cons_of_mem _ hb))]
    rfl

/-- A load from a line that is held takes its words at once. -/
theorem loadFrom_cached {d : Dev} {x : Env} {line : Nat} {m : MvLine} (h : (d.engine x.e.val).cached line = some m)
    (hc : eccWith x.mview m.bad ≠ .ue) (hrec : d.recovering x.e.val = false) {ls : List Loc} (hne : ls ≠ [])
    (hall : ∀ l ∈ ls, l.page.device = false ∧ l.line = line) (k : LoadKind) (g a : Nat) (upd : Option Info) (addr : Info) (len : Nat) :
    loadFrom d x k g a upd addr ls len = takeLoad (mvCheck d x.e.val line x.mview) x.e.val k g a upd addr (ls.headD ⟨0, {}⟩).dpa
      (ls.map (fun l => loadedWord m.data m.poison l.word)) len := by
  have hlines : ((ls.filter (fun l => !l.page.device)).map Loc.line).eraseDups = [line] := by
    have hfilter : ls.filter (fun l => !l.page.device) = ls := List.filter_eq_self.2 (fun l hl => by simp [(hall l hl).1])
    rw [hfilter]
    refine eraseDups_all (by simpa using hne) (fun b hb => ?_)
    obtain ⟨l, hl, rfl⟩ := List.mem_map.1 hb
    exact (hall l hl).2
  have hheld := cached_mvCheck h hc
  have hwaits : ls.any ((mvCheck d x.e.val line x.mview).engine x.e.val).readWaits = false := by
    refine List.any_eq_false.2 (fun l hl => ?_)
    obtain ⟨hdev, hline⟩ := hall l hl
    simp [Engine.readWaits, hdev, hline, hheld]
  have hsrc : srcVals (ls.map (fun l => WordSrc.val (loadedWord m.data m.poison l.word))) = ls.map (fun l => loadedWord m.data m.poison l.word) := by
    rw [srcVals, List.map_map]
    rfl
  rw [loadFrom, hrec, hlines]
  have hid : ∀ d : Dev, d.each ([] : List Nat) (fun d n => mvCheck d x.e.val n .ok) = d := fun _ => rfl
  simp only [hid, hwaits, Bool.false_eq_true, if_false, loadWords_cached hheld [] ls hall, List.isEmpty_nil, if_true, hsrc]

/-- A load of words of one line that is held, by untranslated supervisor code. -/
theorem loadMem_cached {d : Dev} {x : Env} {addr : Info} {n : Nat} {m : MvLine} (h : d.cachedAt x addr n m) (hn : 0 < n) (acc : Acc)
    (k : LoadKind) (g a : Nat) (upd : Option Info) (len : Nat) :
    loadMem d x acc k g a upd addr n len = takeLoad (mvCheck d x.e.val (waddr addr / 32) x.mview) x.e.val k g a upd addr
      (((wordsFrom addr n).map (fun b => (⟨2 * waddr b, {}⟩ : Loc))).headD ⟨0, {}⟩).dpa
      ((List.range n).map (fun j => loadedWord m.data m.poison (waddr addr % 32 + j))) len := by
  obtain ⟨⟨hsup, htrans, hspace, hlow, hin⟩, hheld, hecc, hrec⟩ := h
  have hb : waddr addr + n ≤ 2 ^ 52 := by omega
  have hlt : ∀ b ∈ wordsFrom addr n, waddr b < 2 ^ 39 := by
    intro b hmem
    obtain ⟨j, hj, _, hw⟩ := mem_wordsFrom hb hmem
    omega
  rw [loadMem, locateAll_plain hsup htrans _ _ _ _ hlt]
  dsimp only
  rw [firstTrap_here, locs_here]
  dsimp only
  rw [loadFrom_cached hheld hecc hrec, List.map_map]
  · congr 1
    refine (map_wordsFrom hb (fun w => loadedWord m.data m.poison (2 * w / 2 % 32))).trans (List.map_congr_left (fun j hj => ?_))
    have hjn := List.mem_range.1 hj
    congr 1
    omega
  · have : wordsFrom addr n ≠ [] := by
      rw [wordsFrom]
      simp [Nat.ne_of_gt hn]
    simpa using this
  · intro l hl
    obtain ⟨b, hmem, rfl⟩ := List.mem_map.1 hl
    obtain ⟨j, hj, _, hw⟩ := mem_wordsFrom hb hmem
    refine ⟨rfl, ?_⟩
    change 2 * waddr b / 64 = _
    omega

-- the word a load takes (R241, R296)

theorem mark_bits : ∀ i : Fin 18, (0x30000#18).getLsbD i.val = decide (16 ≤ i.val) := by decide

theorem getLsbD_loadedWord (data : Line) (poison : Bool) (k : Nat) {i : Nat} (hi : i < 18) :
    (loadedWord data poison k).getLsbD i = ((lineWord data k).getLsbD i || (poison && decide (16 ≤ i))) := by
  have hm := mark_bits ⟨i, hi⟩
  cases poison
  · simp [loadedWord, hi]
  · rw [loadedWord, if_pos rfl, BitVec.getLsbD_or, BitVec.getLsbD_setWidth, decide_eq_true hi, Bool.true_and, Bool.true_and, ← hm]
    rfl

theorem loadedWord_low (data : Line) (poison : Bool) (k : Nat) : (loadedWord data poison k).setWidth 16 = lineWord data k := by
  apply BitVec.eq_of_getLsbD_eq
  intro i hi
  rw [BitVec.getLsbD_setWidth, getLsbD_loadedWord data poison k (by omega), decide_eq_true hi, decide_eq_false (by omega), Bool.and_false,
    Bool.or_false, Bool.true_and]

theorem loadedWord_marks (data : Line) (poison : Bool) (k : Nat) :
    (loadedWord data poison k).extractLsb' 16 2 = if poison then 3 else 0 := by
  apply BitVec.eq_of_getLsbD_eq
  intro i hi
  rw [BitVec.getLsbD_extractLsb', getLsbD_loadedWord data poison k (by omega), BitVec.getLsbD_of_ge (lineWord data k) (16 + i) (by omega),
    decide_eq_true hi, decide_eq_true (by omega : 16 ≤ 16 + i), Bool.and_true, Bool.false_or, Bool.true_and]
  have h3 : ∀ i : Fin 2, (3#2).getLsbD i.val = true := by decide
  cases poison
  · simp
  · exact (h3 ⟨i, hi⟩).symm

-- instruction words (R265)

@[simp] theorem putImem_engine (d : Dev) (e i : Nat) (w : Word) :
    Tab.find ((putImem d e i w).engine e).imem i = some w
    ∧ (∀ j, j ≠ i → Tab.find ((putImem d e i w).engine e).imem j = Tab.find (d.engine e).imem j)
    ∧ ((putImem d e i w).engine e).pc = (d.engine e).pc ∧ ((putImem d e i w).engine e).g = (d.engine e).g := by
  have heng : ((flipWrite d 8 e 0 18 true).1).engine e = d.engine e := by simp [Dev.engine]
  unfold putImem
  dsimp only
  rw [Dev.engine_updEngine, heng]
  exact ⟨Tab.find_put_same _ _ _, fun j hj => Tab.find_put_other _ _ hj, rfl, rfl⟩

/-- Instruction words written one after the other. -/
theorem each_putImem (d : Dev) (e dest : Nat) (f : Nat → Word) (n : Nat) :
    let z := (d.each (List.range n) (fun d j => putImem d e (dest + j) (f j))).engine e
    (∀ j < n, Tab.find z.imem (dest + j) = some (f j)) ∧ (∀ i, (i < dest ∨ dest + n ≤ i) → Tab.find z.imem i = Tab.find (d.engine e).imem i)
      ∧ z.pc = (d.engine e).pc ∧ z.g = (d.engine e).g := by
  induction n with
  | zero => exact ⟨fun j hj => absurd hj (Nat.not_lt_zero j), fun i _ => rfl, rfl, rfl⟩
  | succ n ih =>
    obtain ⟨hin, hout, hpc, hg⟩ := ih
    have hstep : d.each (List.range (n + 1)) (fun d j => putImem d e (dest + j) (f j))
        = putImem (d.each (List.range n) (fun d j => putImem d e (dest + j) (f j))) e (dest + n) (f n) := by
      rw [Dev.each, List.range_succ, List.foldl_append]
      rfl
    obtain ⟨hput, hother, hpc', hg'⟩ := putImem_engine (d.each (List.range n) (fun d j => putImem d e (dest + j) (f j))) e (dest + n) (f n)
    rw [hstep]
    refine ⟨fun j hj => ?_, fun i hi => ?_, hpc'.trans hpc, hg'.trans hg⟩
    · by_cases hjn : j = n
      · rw [hjn]; exact hput
      · rw [hother _ (by omega), hin j (by omega)]
    · rw [hother _ (by omega), hout i (by omega)]

@[simp] theorem mvCheck_engine (d : Dev) (e line : Nat) (c : Ecc) :
    ((mvCheck d e line c).engine e).imem = (d.engine e).imem ∧ ((mvCheck d e line c).engine e).pc = (d.engine e).pc
    ∧ ((mvCheck d e line c).engine e).g = (d.engine e).g := by
  have hdrop : ∀ y : Engine, (y.dropMview line).imem = y.imem ∧ (y.dropMview line).pc = y.pc ∧ (y.dropMview line).g = y.g := by
    intro y
    simp [Engine.dropMview]
  unfold mvCheck
  split
  · exact ⟨rfl, rfl, rfl⟩
  · split
    · rw [raise_engine, Dev.engine_updEngine]; exact hdrop _
    · rw [Dev.engine_updEngine]; exact ⟨rfl, rfl, rfl⟩

-- the loads

theorem runLoad_scratch {d : Dev} {x : Env} {k : LoadKind} {a : Nat} {o : OffM} {n : Nat} {update : Bool} {addr : Info} {upd : Option Info}
    (hspace : spaceOf addr = 2) (h : effAddr (d.engine x.e.val) a o n update = (addr, upd)) (g : Nat) :
    runLoad d x k g a o n update = loadLocal d x k g a upd addr n o.len := by
  rw [runLoad, h]
  dsimp only
  rw [hspace]
  rfl

theorem runLoad_memory {d : Dev} {x : Env} {k : LoadKind} {a : Nat} {o : OffM} {n : Nat} {update : Bool} {addr : Info} {upd : Option Info}
    (hspace : spaceOf addr = 0) (h : effAddr (d.engine x.e.val) a o n update = (addr, upd)) (g : Nat) :
    runLoad d x k g a o n update = loadMem d x .load k g a upd addr n o.len := by
  rw [runLoad, h]
  dsimp only
  rw [hspace]
  rfl

-- IFILL (R265)

/-- The two words of a line that make one instruction word. -/
theorem instruction_word (data : Line) (j : Nat) :
    ((loadedWord data false (2 * j + 1)).extractLsb' 0 2) ++ ((loadedWord data false (2 * j)).extractLsb' 0 16)
      = (lineWord data (2 * j + 1)).setWidth 2 ++ lineWord data (2 * j) := by
  have hhigh : (loadedWord data false (2 * j + 1)).extractLsb' 0 2 = (lineWord data (2 * j + 1)).setWidth 2 := by
    rw [extract_eq_setWidth, ← BitVec.setWidth_setWidth_of_le _ (by decide : 2 ≤ 16), loadedWord_low]
  rw [hhigh, extract_eq_setWidth, loadedWord_low]

/-- IFILL of a line that is held fills from it, or traps where it is poisoned. -/
theorem runIfill_cached {d : Dev} {x : Env} {a g : Nat} {m : MvLine} (h : d.cachedAt x ((d.engine x.e.val).ra a) 1 m)
    (hw : waddr ((d.engine x.e.val).ra a) % 32 = 0) (hd : ((d.engine x.e.val).rg g).toNat % 2 ^ 14 % 16 = 0) :
    runIfill d x a g = takeLoad (mvCheck d x.e.val (waddr ((d.engine x.e.val).ra a) / 32) x.mview) x.e.val
      (.ifill (((d.engine x.e.val).rg g).toNat % 2 ^ 14)) 0 0 none ((d.engine x.e.val).ra a) (2 * waddr ((d.engine x.e.val).ra a))
      ((List.range 32).map (loadedWord m.data m.poison)) 1 := by
  obtain ⟨⟨hsup, htrans, hspace, hlow, hin⟩, hheld, hecc, hrec⟩ := h
  have hdest : bits ((d.engine x.e.val).rg g).toNat 13 0 = ((d.engine x.e.val).rg g).toNat % 2 ^ 14 := by simp [bits]
  generalize haddr : (d.engine x.e.val).ra a = addr at *
  generalize hdst : ((d.engine x.e.val).rg g).toNat % 2 ^ 14 = dest at *
  have hstep : ¬ (waddr addr % 32 ≠ 0 ∨ dest % 16 ≠ 0) := by omega
  have hline : 2 * waddr addr / 64 = waddr addr / 32 := by omega
  have hbound : (!(d.engine x.e.val).sup && decide (dest < 16 * (d.engine x.e.val).iubase.toNat)) = false := by rw [hsup]; rfl
  rw [runIfill]
  dsimp only
  rw [haddr, hdest, if_neg hstep, hspace, if_neg (fun h : (0 : Nat) ≠ 0 => h rfl), hbound, if_neg Bool.false_ne_true,
    locateAll_plain hsup htrans _ _ _ [addr] (by simpa using hlow)]
  refine (if_neg Bool.false_ne_true).trans ?_
  dsimp only [Loc.line]
  rw [hline, loadFrom_cached hheld hecc hrec, List.map_map]
  · congr 1
    · change 64 * (waddr addr / 32) + 2 * 0 = _
      omega
    · refine List.map_congr_left (fun j hj => congrArg (loadedWord m.data m.poison) ?_)
      have hj32 := List.mem_range.1 hj
      change (64 * (waddr addr / 32) + 2 * j) / 2 % 32 = j
      omega
  · simp
  · intro l hl
    obtain ⟨j, hj, rfl⟩ := List.mem_map.1 hl
    have hj32 := List.mem_range.1 hj
    refine ⟨rfl, ?_⟩
    change (64 * (waddr addr / 32) + 2 * j) / 64 = _
    omega

theorem good_line_words (data : Line) : ((List.range 32).map (loadedWord data false)).any (fun w => w.getLsbD 16) = false := by
  refine List.any_eq_false.2 (fun w hw => ?_)
  obtain ⟨j, _, rfl⟩ := List.mem_map.1 hw
  rw [getLsbD_loadedWord data false j (by decide), BitVec.getLsbD_of_ge (lineWord data j) 16 (by decide)]
  decide

theorem takeLoad_ifill_good (d : Dev) (e dest : Nat) (addr : Info) (upd : Option Info) (dpa : Nat) (len : Nat) {ws : List Word}
    (h : ws.any (fun w => w.getLsbD 16) = false) :
    takeLoad d e (.ifill dest) 0 0 upd addr dpa ws len = endLoad d e (.ifill dest) 0 0 upd dpa ws len := by
  refine (if_neg ?_)
  rw [h]
  exact Bool.false_ne_true

theorem takeLoad_ifill_poisoned (d : Dev) (e dest : Nat) (addr : Info) (upd : Option Info) (dpa : Nat) (data : Line) (len : Nat) :
    takeLoad d e (.ifill dest) 0 0 upd addr dpa ((List.range 32).map (loadedWord data true)) len = trapHere d e 15 addr := by
  have hany : ((List.range 32).map (loadedWord data true)).any (fun w => w.getLsbD 16) = true := by
    refine List.any_eq_true.2 ⟨loadedWord data true 0, List.mem_map_of_mem (List.mem_range.2 (by decide)), ?_⟩
    rw [getLsbD_loadedWord data true 0 (by decide)]
    simp
  exact if_pos hany

/-- What an IFILL of a line writes. -/
theorem endLoad_ifill (d : Dev) (e dest : Nat) (data : Line) (upd : Option Info) (dpa len : Nat) :
    let z := (endLoad d e (.ifill dest) 0 0 upd dpa ((List.range 32).map (loadedWord data false)) len).engine e
    (∀ j < 16, Tab.find z.imem (dest + j) = some ((lineWord data (2 * j + 1)).setWidth 2 ++ lineWord data (2 * j)))
      ∧ (∀ i, (i < dest ∨ dest + 16 ≤ i) → Tab.find z.imem i = Tab.find (d.engine e).imem i)
      ∧ z.pc = (d.engine e).pc + BitVec.ofNat 14 len ∧ z.g = (d.engine e).g := by
  obtain ⟨hin, hout, hpc, hg⟩ := each_putImem d e dest (fun j =>
    (((((List.range 32).map (loadedWord data false)).getD (2 * j + 1) 0).extractLsb' 0 2)
      ++ ((((List.range 32).map (loadedWord data false)).getD (2 * j) 0).extractLsb' 0 16))) 16
  have hget : ∀ i < 32, ((List.range 32).map (loadedWord data false)).getD i 0 = loadedWord data false i := by
    intro i hi
    rw [List.getD_eq_getElem _ _ (by simpa using hi), List.getElem_map, List.getElem_range]
  have himem : ∀ y : Engine, y.spend.imem = y.imem ∧ y.spend.g = y.g := by
    intro y
    unfold Engine.spend
    split <;> exact ⟨rfl, rfl⟩
  rw [endLoad, advance_engine]
  dsimp only
  rw [(himem _).1, (himem _).2]
  refine ⟨fun j hj => ?_, hout, by rw [hpc], hg⟩
  rw [hin j hj, hget _ (by omega), hget _ (by omega), instruction_word]

/-- Settles O32, by where each word of an access is found and by the words the load then takes. -/
theorem loadsAndInstructionFill : Obligations.LoadsAndInstructionFill := by
  unfold Obligations.LoadsAndInstructionFill
  refine ⟨fun s x g a o hr ho => ?_, fun s x a g hr => ?_⟩
  · have hnone : false = true → (s.dev.engine x.e.val).sup = true := fun h => nomatch h
    have hok : (!o.ok) = false := by rw [ho]; rfl
    have hpair : g.val % 2 = 0 → (!o.ok || odd g.val) = false := fun hg => by rw [ho, odd_eq_false hg]; rfl
    have hone : o.val * ((1 : Nat) : Int) = o.val := Int.mul_one _
    refine ⟨fun h => ?_, fun h hg => ?_, fun h => ?_, fun h hg => ?_, fun m h => ?_, fun m h hg => ?_,
      fun data poison k _ => ⟨loadedWord_low data poison k, loadedWord_marks data poison k⟩⟩
    · refine (onDevice_of_ready hr _ hok hnone _).trans ?_
      rw [runLoad_scratch h.1 (by rw [effAddr, hone]; rfl), loadLocal_good h]; rfl
    · refine (onDevice_of_ready hr _ (hpair hg) hnone _).trans ?_
      rw [runLoad_scratch h.1 rfl, loadLocal_good h]; rfl
    · refine (onDevice_of_ready hr _ hok hnone _).trans ?_
      rw [runLoad_scratch h.1 (by rw [effAddr, hone]; rfl), loadLocal_good h]; rfl
    · refine (onDevice_of_ready hr _ (hpair hg) hnone _).trans ?_
      rw [runLoad_scratch h.1 rfl, loadLocal_good h]; rfl
    · refine (onDevice_of_ready hr _ hok hnone _).trans ?_
      rw [runLoad_memory h.1.2.2.1 (by rw [effAddr, hone]; rfl), loadMem_cached h (by decide)]; rfl
    · refine (onDevice_of_ready hr _ (hpair hg) hnone _).trans ?_
      rw [runLoad_memory h.1.2.2.1 rfl, loadMem_cached h (by decide)]; rfl
  · have hnone : false = true → (s.dev.engine x.e.val).sup = true := fun h => nomatch h
    refine ⟨fun m h hw hd hp d hdev => ?_, fun m h hw hd hp => ?_, fun h => ?_⟩
    · have hfill := (runIfill_cached h hw hd).trans (takeLoad_ifill_good _ _ _ _ _ _ _ (by rw [hp]; exact good_line_words m.data))
      obtain ⟨hin, hout, hpc, hg⟩ := endLoad_ifill (mvCheck s.dev x.e.val (waddr ((s.dev.engine x.e.val).ra a.val) / 32) x.mview) x.e.val
        (((s.dev.engine x.e.val).rg g.val).toNat % 2 ^ 14) m.data none (2 * waddr ((s.dev.engine x.e.val).ra a.val)) 1
      obtain ⟨himem, hpc', hg'⟩ := mvCheck_engine s.dev x.e.val (waddr ((s.dev.engine x.e.val).ra a.val) / 32) x.mview
      rw [hp] at hfill
      refine ⟨(onDevice_of_ready hr _ rfl hnone _).trans (by rw [hdev]), by rw [hdev]; exact runIfill_mem _ _ _ _, ?_, ?_, fun j hj => ?_, fun i hi => ?_⟩
      · rw [hdev, hfill, hpc, hpc']; rfl
      · rw [hdev, hfill, hg, hg']
      · rw [hdev, hfill, Dev.imemWord, hin j hj]
      · rw [hdev, hfill, hout i hi, himem]
    · refine (onDevice_of_ready hr _ rfl hnone _).trans ?_
      rw [runIfill_cached h hw hd, hp, takeLoad_ifill_poisoned]
    · refine (onDevice_of_ready hr _ rfl hnone _).trans ?_
      have hdest : bits ((s.dev.engine x.e.val).rg g.val).toNat 13 0 = ((s.dev.engine x.e.val).rg g.val).toNat % 2 ^ 14 := by simp [bits]
      rw [runIfill]
      dsimp only
      rw [hdest, if_pos h]

end Sys2Proof.Machine
end

section
/-! Proof of the statement on stores. -/

open Sys2Proof

namespace Sys2Proof.Machine

-- one word as it is written

theorem lineWord_setLineWord (l : Line) {i : Nat} (hi : i < 32) (w : BitVec 16) : lineWord (setLineWord l i w) i = w := by
  apply BitVec.eq_of_getLsbD_eq
  intro j hj
  have hmask : (0xFFFF#512) = BitVec.ofNat 512 (2 ^ 16 - 1) := rfl
  have hlt : 16 * i + j < 512 := by omega
  have hge : ¬ 16 * i + j < 16 * i := by omega
  rw [lineWord, setLineWord, BitVec.getLsbD_extractLsb', BitVec.getLsbD_or, BitVec.getLsbD_and, BitVec.getLsbD_not, BitVec.getLsbD_shiftLeft,
    BitVec.getLsbD_shiftLeft, hmask, BitVec.getLsbD_ofNat, Nat.testBit_two_pow_sub_one, BitVec.getLsbD_setWidth, Nat.add_sub_cancel_left,
    decide_eq_true hj, decide_eq_true hlt, decide_eq_false hge, decide_eq_true (by omega : j < 512)]
  simp

theorem getLsbD_wordMask {k : Nat} (hk : k < 32) {i : Nat} (hi : i < 64) : (wordMask k).getLsbD i = decide (i / 2 = k) := by
  have hmask : (3#64) = BitVec.ofNat 64 (2 ^ 2 - 1) := rfl
  rw [wordMask, BitVec.getLsbD_shiftLeft, hmask, BitVec.getLsbD_ofNat, Nat.testBit_two_pow_sub_one, decide_eq_true hi, Bool.true_and,
    decide_eq_true (by omega : i - 2 * k < 64), Bool.true_and, ← decide_not, ← Bool.decide_and]
  exact decide_eq_decide.2 (by omega)

theorem wordWrite_fields (l : Loc) (t : Word) : (wordWrite l t).line = l.line ∧ lineWord (wordWrite l t).data l.word = t.setWidth 16
    ∧ (wordWrite l t).poison = decide (t.extractLsb' 16 2 ≠ 0) ∧ ∀ i < 64, (wordWrite l t).mask.getLsbD i = decide (i / 2 = l.word) := by
  have hword : l.word < 32 := Nat.mod_lt _ (by decide)
  refine ⟨rfl, ?_, ?_, fun i hi => getLsbD_wordMask hword hi⟩
  · exact (lineWord_setLineWord 0 hword _).trans (extract_eq_setWidth t 16)
  · exact Bool.eq_iff_iff.2 (bne_iff_ne.trans decide_eq_true_iff.symm)

-- stores of untranslated supervisor code

theorem runStore_memory {d : Dev} {x : Env} {nt : Bool} {a : Nat} {o : OffM} {n : Nat} {update : Bool} {addr : Info} {upd : Option Info}
    (hspace : spaceOf addr = 0) (h : effAddr (d.engine x.e.val) a o n update = (addr, upd)) (g : Nat) :
    runStore d x nt g a o n update =
      storeMem d x nt a upd addr ((List.range n).map (fun j => (d.engine x.e.val).rg (g + j))) o.len := by
  rw [runStore, h]
  dsimp only
  rw [hspace]
  rfl

theorem runStore_scratch {d : Dev} {x : Env} {nt : Bool} {a : Nat} {o : OffM} {n : Nat} {update : Bool} {addr : Info} {upd : Option Info}
    (hspace : spaceOf addr = 2) (h : effAddr (d.engine x.e.val) a o n update = (addr, upd)) (g : Nat) :
    runStore d x nt g a o n update =
      storeLocal d x.e.val a upd addr ((List.range n).map (fun j => (d.engine x.e.val).rg (g + j))) o.len := by
  rw [runStore, h]
  dsimp only
  rw [hspace]
  rfl

/-- The words of an untranslated access are found at twice their word addresses. -/
theorem locateAll_wordsFrom {d : Dev} {e : Nat} {addr : Info} {n : Nat} (h : d.plainAt e addr n) (c : Ecc) (k : Acc) (atomic : Bool) :
    ∃ l, locateAll d e c k atomic (wordsFrom addr n) = (d, l) ∧ firstTrap l = none
      ∧ locs l = (List.range n).map (fun j => ⟨2 * (waddr addr + j), {}⟩) := by
  obtain ⟨hsup, htrans, hspace, hlow, hin⟩ := h
  have hb : waddr addr + n ≤ 2 ^ 52 := by omega
  have hlt : ∀ b ∈ wordsFrom addr n, waddr b < 2 ^ 39 := by
    intro b hmem
    obtain ⟨j, hj, _, hw⟩ := mem_wordsFrom hb hmem
    omega
  exact ⟨_, locateAll_plain hsup htrans _ _ _ _ hlt, firstTrap_here _ _, (locs_here _ _).trans (map_wordsFrom hb (fun w => (⟨2 * w, {}⟩ : Loc)))⟩

/-- A store enters the store buffer as one entry. -/
theorem storeMem_plain {d : Dev} {x : Env} {addr : Info} {ws : List Word} (h : d.plainAt x.e.val addr ws.length) (hne : ws ≠ [])
    (hroom : (d.engine x.e.val).sbFull = false) (a : Nat) (upd : Option Info) (len : Nat) :
    storeMem d x false a upd addr ws len =
      advance (d.updEngine x.e.val (fun y => (y.bufferStore (plainStore d addr ws)).updateA a upd)) x.e.val len := by
  obtain ⟨l, hl, htrap, hlocs⟩ := locateAll_wordsFrom h x.lab .store false
  obtain ⟨k, hk⟩ : ∃ k, ws.length = k + 1 := ⟨ws.length - 1, by have := List.length_pos_iff.2 hne; omega⟩
  have hpage : (((List.range ws.length).map (fun j => (⟨2 * (waddr addr + j), {}⟩ : Loc))).headD ⟨0, {}⟩).page = {} := by
    rw [hk, List.range_succ_eq_map]
    rfl
  rw [storeMem, hl]
  dsimp only
  rw [htrap, hlocs]
  refine (if_pos rfl).trans ?_
  rw [storeTo, hroom, hpage, h.1, List.any_map]
  rfl

/-- A non-temporal store goes to the combining buffer. -/
theorem storeMem_nt {d : Dev} {x : Env} {addr : Info} {ws : List Word} (h : d.plainAt x.e.val addr ws.length) (hne : ws ≠ [])
    (a : Nat) (upd : Option Info) (len : Nat) :
    storeMem d x true a upd addr ws len =
      advance (d.updEngine x.e.val (fun y => ((List.range ws.length).foldl (fun y j =>
        y.combine (moveAddr addr (j : Nat)) ⟨2 * (waddr addr + j), {}⟩ (ws.getD j 0)) y).updateA a upd)) x.e.val len := by
  obtain ⟨l, hl, htrap, hlocs⟩ := locateAll_wordsFrom h x.lab .store false
  have hany : ((List.range ws.length).map (fun j => (⟨2 * (waddr addr + j), {}⟩ : Loc))).any (fun l => l.page.device) = false := by
    rw [List.any_map]
    exact List.any_eq_false.2 (fun _ _ => Bool.false_ne_true)
  have hall : ((List.range ws.length).map (fun j => (⟨2 * (waddr addr + j), {}⟩ : Loc))).all (fun l => l.page.device) = false := by
    rw [List.all_map]
    refine List.all_eq_false.2 ⟨0, List.mem_range.2 (List.length_pos_iff.2 hne), Bool.false_ne_true⟩
  rw [storeMem, hl]
  dsimp only
  rw [htrap, hlocs]
  dsimp only
  rw [hany, hall, List.length_map, List.length_range]
  refine (if_neg Bool.false_ne_true).trans ((if_neg Bool.false_ne_true).trans ?_)
  congr 2
  funext y
  rw [List.foldl_map]
  congr 1
  refine List.foldl_ext _ _ _ (fun y j hj => ?_)
  have hget : ((List.range ws.length).map (fun j => (⟨2 * (waddr addr + j), {}⟩ : Loc))).getD j ⟨0, {}⟩ = ⟨2 * (waddr addr + j), {}⟩ := by
    rw [List.getD_eq_getElem _ _ (by simpa using hj), List.getElem_map, List.getElem_range]
  dsimp only
  rw [hget]
  rfl

-- stores to scratch

@[simp] theorem putScratch_engine (d : Dev) (e i : Nat) (w : Word) :
    Tab.find ((putScratch d e i w).engine e).scratch i = some w
    ∧ (∀ j, j ≠ i → Tab.find ((putScratch d e i w).engine e).scratch j = Tab.find (d.engine e).scratch j)
    ∧ ((putScratch d e i w).engine e).pc = (d.engine e).pc := by
  have heng : ((flipWrite d 9 e 0 18 true).1).engine e = d.engine e := by simp [Dev.engine]
  unfold putScratch
  dsimp only
  rw [Dev.engine_updEngine, heng]
  exact ⟨Tab.find_put_same _ _ _, fun j hj => Tab.find_put_other _ _ hj, rfl⟩

theorem storeLocal_one {d : Dev} {x : Env} {addr : Info} (h : d.scratchGood x addr 1) (a : Nat) (w : Word) (len : Nat) :
    storeLocal d x.e.val a none addr [w] len =
      advance ((putScratch d x.e.val (waddr addr) w).updEngine x.e.val (fun y => y)) x.e.val len := by
  obtain ⟨_, hend, hacc, _⟩ := h
  have hlow : waddr addr < 0x8000 := by omega
  have hbad : badLocal (d.engine x.e.val) (wordsFrom addr [w].length) = none := by
    refine badLocal_none (fun b hb => ?_)
    rw [List.length_singleton, wordsFrom_one] at hb
    rw [List.mem_singleton.1 hb]
    exact ⟨hlow, hacc⟩
  have hput : d.each ((wordsFrom addr [w].length).zip [w]) (fun d p => putLocal d x.e.val p.1 p.2) = putScratch d x.e.val (waddr addr) w := by
    rw [List.length_singleton, wordsFrom_one]
    exact if_pos hlow
  rw [storeLocal, hbad, hput]
  rfl

/-- Settles O34, by how the words of an untranslated store are found and what the store and combining buffers take. -/
theorem storesEnterBuffers : Obligations.StoresEnterBuffers := by
  unfold Obligations.StoresEnterBuffers
  intro s x g a o hr ho hroom
  have hnone : false = true → (s.dev.engine x.e.val).sup = true := fun h => nomatch h
  have hok : (!o.ok) = false := by rw [ho]; rfl
  have hpair : g.val % 2 = 0 → (!o.ok || odd g.val) = false := fun hg => by rw [ho, odd_eq_false hg]; rfl
  have hone : o.val * ((1 : Nat) : Int) = o.val := Int.mul_one _
  have hsingle : ∀ w : Word, [w] ≠ [] := fun w h => nomatch h
  have hdouble : ∀ w v : Word, [w, v] ≠ [] := fun w v h => nomatch h
  refine ⟨fun h => ?stw, fun h hg => ?stp, fun h => ?stwu, fun h hg => ?stpu, fun h => ?stwnt, fun h hg => ?stpnt, fun h d hd => ?scratch,
    fun h => ?zero, fun l t => wordWrite_fields l t⟩
  case stw =>
    refine (onDevice_of_ready hr _ hok hnone _).trans ?_
    rw [runStore_memory h.2.2.1 (by rw [effAddr, hone]; rfl)]
    exact congrArg (fun d => Host.Outcome.next (s.turned d)) (storeMem_plain h (hsingle _) hroom _ _ _)
  case stp =>
    refine (onDevice_of_ready hr _ (hpair hg) hnone _).trans ?_
    rw [runStore_memory h.2.2.1 rfl]
    exact congrArg (fun d => Host.Outcome.next (s.turned d)) (storeMem_plain h (hdouble _ _) hroom _ _ _)
  case stwu =>
    refine (onDevice_of_ready hr _ hok hnone _).trans ?_
    rw [runStore_memory h.2.2.1 (by rw [effAddr, hone]; rfl)]
    exact congrArg (fun d => Host.Outcome.next (s.turned d)) (storeMem_plain h (hsingle _) hroom _ _ _)
  case stpu =>
    refine (onDevice_of_ready hr _ (hpair hg) hnone _).trans ?_
    rw [runStore_memory h.2.2.1 rfl]
    exact congrArg (fun d => Host.Outcome.next (s.turned d)) (storeMem_plain h (hdouble _ _) hroom _ _ _)
  case stwnt =>
    refine (onDevice_of_ready hr _ hok hnone _).trans ?_
    rw [runStore_memory h.2.2.1 (by rw [effAddr, hone]; rfl)]
    refine congrArg (fun d => Host.Outcome.next (s.turned d)) ((storeMem_nt h (hsingle _) _ _ _).trans ?_)
    have hfirst : moveAddr (moveAddr ((s.dev.engine x.e.val).ra a.val) o.val) ((0 : Nat) : Int) = moveAddr ((s.dev.engine x.e.val).ra a.val) o.val :=
      moveAddr_zero _
    simp only [List.length_singleton, List.range_one, List.foldl_cons, List.foldl_nil, hfirst]
    rfl
  case stpnt =>
    refine (onDevice_of_ready hr _ (hpair hg) hnone _).trans ?_
    rw [runStore_memory h.2.2.1 rfl]
    refine congrArg (fun d => Host.Outcome.next (s.turned d)) ((storeMem_nt h (hdouble _ _) _ _ _).trans ?_)
    have hfirst : moveAddr (moveAddr ((s.dev.engine x.e.val).ra a.val) (o.val * 2)) ((0 : Nat) : Int)
        = moveAddr ((s.dev.engine x.e.val).ra a.val) (o.val * 2) := moveAddr_zero _
    have hwords : List.range 2 = [0, 1] := rfl
    simp only [List.length_cons, List.length_nil, Nat.zero_add, Nat.reduceAdd, hwords, List.foldl_cons, List.foldl_nil, hfirst]
    rfl
  case scratch =>
    have hrun : d = advance ((putScratch s.dev x.e.val (waddr (moveAddr ((s.dev.engine x.e.val).ra a.val) o.val))
        ((s.dev.engine x.e.val).rg g.val)).updEngine x.e.val (fun y => y)) x.e.val o.len := by
      rw [hd, runStore_scratch h.1 (by rw [effAddr, hone]; rfl)]
      exact storeLocal_one h _ _ _
    obtain ⟨hin, hout, hpc⟩ := putScratch_engine s.dev x.e.val (waddr (moveAddr ((s.dev.engine x.e.val).ra a.val) o.val))
      ((s.dev.engine x.e.val).rg g.val)
    have hspend : ∀ y : Engine, y.spend.scratch = y.scratch := by
      intro y
      unfold Engine.spend
      split <;> rfl
    have hscr : (d.engine x.e.val).scratch = ((putScratch s.dev x.e.val (waddr (moveAddr ((s.dev.engine x.e.val).ra a.val) o.val))
        ((s.dev.engine x.e.val).rg g.val)).engine x.e.val).scratch := by
      rw [hrun, advance_engine, Dev.engine_updEngine]
      exact hspend _
    refine ⟨(onDevice_of_ready hr _ hok hnone _).trans (by rw [hd]), ?_, by rw [hrun]; simp, ?_, fun i hi => ?_⟩
    · rw [Dev.scratchWord, hscr, hin]
    · rw [hrun, advance_engine, Dev.engine_updEngine]
      dsimp only
      rw [hpc]
    · rw [hscr, hout i hi]
  case zero =>
    obtain ⟨hsup, htrans, hspace, hlow, hin⟩ := h
    refine (onDevice_of_ready hr _ rfl (fun _ => hsup) _).trans ?_
    have hline : 2 * waddr ((s.dev.engine x.e.val).ra a.val) / 64 = waddr ((s.dev.engine x.e.val).ra a.val) / 32 := by omega
    rw [runZero]
    dsimp only
    rw [hspace, if_neg (fun h : (0 : Nat) ≠ 0 => h rfl), locateAll_plain hsup htrans _ _ _ [(s.dev.engine x.e.val).ra a.val] (by simpa using hlow)]
    dsimp only [List.map_cons, List.map_nil, firstTrap, locs, List.filterMap_cons, List.filterMap_nil, Loc.line]
    rw [hroom, ← hline]
    rfl

end Sys2Proof.Machine
end

section
/-! What a bus write to BAR0 does, and the proof of the statement on register writes and reads. -/

open Sys2Proof

namespace Sys2Proof.Machine

-- a write that its block takes (R483-R485)

theorem div_mul_four (off : Nat) : off / 4 * 4 / 4 * 4 = off / 4 * 4 := by omega

theorem busWrite_div_mul (d : Dev) (o : Origin) (off v : Nat) (size8 : Bool) (en : Nat) (pe : Option (BitVec 2)) (ev : Option Bool) :
    busWrite d o off v size8 en pe ev = busWrite d o (off / 4 * 4) v size8 en pe ev := by
  unfold busWrite
  rw [div_mul_four]

/-- An access to a block that answers, with none of its sender's to the block ahead of it, does not wait. -/
theorem mustQueue_eq_false {d : Dev} {o : Origin} {off : Nat} (ha : d.answersAt off) (hn : d.noneAhead o off) (v : Nat) (size8 : Bool)
    (en : Nat) (pe : Option (BitVec 2)) (ev : Option Bool) : d.mustQueue o (.reg off v size8 en pe ev) = false := by
  have hruns : d.blockRuns (.reg off v size8 en pe ev) = true := Bool.or_eq_true_iff.2 ha
  have hahead : d.waits.any (fun x => x.1 == o && x.2.block == (HostAccess.reg off v size8 en pe ev).block) = false := by
    refine List.any_eq_false.2 (fun x hx h => ?_)
    obtain ⟨ho, hb⟩ := Bool.and_eq_true_iff.1 h
    exact hn x hx (beq_iff_eq.1 ho) (beq_iff_eq.1 hb)
  rw [Dev.mustQueue, hruns, hahead]
  rfl

theorem mustQueue_eq_true {d : Dev} {o : Origin} {off : Nat} (h : ¬ d.answersAt off ∨ ¬ d.noneAhead o off) (v : Nat) (size8 : Bool)
    (en : Nat) (pe : Option (BitVec 2)) (ev : Option Bool) : d.mustQueue o (.reg off v size8 en pe ev) = true := by
  refine Bool.or_eq_true_iff.2 (h.imp (fun ha => ?_) (fun hn => ?_))
  · have hruns : d.blockRuns (.reg off v size8 en pe ev) = false :=
      Bool.eq_false_iff.2 (fun hr => ha (Bool.or_eq_true_iff.1 hr))
    rw [hruns]
    rfl
  · simp only [Dev.noneAhead, not_forall, not_not] at hn
    obtain ⟨x, hx, ho, hb⟩ := hn
    exact List.any_eq_true.2 ⟨x, hx, Bool.and_eq_true_iff.2 ⟨beq_iff_eq.2 ho, beq_iff_eq.2 hb⟩⟩

/-- A write that does not wait is carried out at once. -/
theorem busWrite_now {d : Dev} {o : Origin} {off : Nat} (hoff : off / 4 * 4 = off) {v : Nat} {size8 : Bool} {en : Nat} {pe : Option (BitVec 2)}
    {ev : Option Bool} (h : en % (if size8 then 256 else 16) = 0 ∨ d.writeBar o off ≠ none ∨ d.mustQueue o (.reg off v size8 en pe ev) = false) :
    busWrite d o off v size8 en pe ev = busWriteNow d o off v size8 en pe ev := by
  rw [busWrite, hoff]
  refine if_neg (fun hc => ?_)
  simp only [Bool.and_eq_true] at hc
  obtain ⟨⟨⟨_, hen⟩, hbar⟩, hq⟩ := hc
  rcases h with h | h | h
  · exact of_decide_eq_true hen h
  · exact h (Option.isNone_iff_eq_none.1 hbar)
  · exact Bool.false_ne_true (h.symm.trans hq)

/-- A write of one dword that its sender may make and that does not wait. -/
theorem busWriteNow_dword {d : Dev} {o : Origin} (hdev : d.glob.dev ≠ .off) (hr : d.reaches o = true) (off v en : Nat)
    (pe : Option (BitVec 2)) (ev : Option Bool) : busWriteNow d o off v false en pe ev = dwordWrite d o off (v % 2 ^ 32) en pe ev := by
  have hoff : (d.glob.dev == .off) = false := beq_eq_false_iff_ne.2 hdev
  rw [busWriteNow, hoff, hr]
  rfl

/-- A whole dword is written where its block takes it. -/
theorem busWrite_whole {d : Dev} {o : Origin} {off : Nat} (hoff : off / 4 * 4 = off) (hdev : d.glob.dev ≠ .off) (hr : d.reaches o = true)
    (hbar : d.writeBar o off = none) (ha : d.answersAt off) (hn : d.noneAhead o off) (v : Nat) (pe : Option (BitVec 2)) (ev : Option Bool) :
    busWrite d o off v false 15 pe ev = regWrite32 d o off (v % 2 ^ 32) pe ev := by
  rw [busWrite_now hoff (.inr (.inr (mustQueue_eq_false ha hn _ _ _ _ _))), busWriteNow_dword hdev hr, dwordWrite, gated, hbar]
  rfl

/-- What the write of a register that is not locked does, and the entry of the journal it makes (R433). -/
theorem busWrite_taken {d : Dev} {o : Origin} {off : Nat} (hoff : off / 4 * 4 = off) (h : d.takesWrite o off) (v : Nat) (pe : Option (BitVec 2))
    (ev : Option Bool) : busWrite d o off v false 15 pe ev =
      if regJournalled off then journalReg (regEffect d o off (v % 2 ^ 32) pe ev) o off 4 (regRead d off) (regRead (regEffect d o off (v % 2 ^ 32) pe ev) off)
      else regEffect d o off (v % 2 ^ 32) pe ev := by
  obtain ⟨hdev, hr, hbar, ha, hn, hlock⟩ := h
  rw [busWrite_whole hoff hdev hr hbar ha hn, regWrite32, hlock]
  rfl

/-- A write of a register whose changes are not journalled. -/
theorem busWrite_unjournalled {d : Dev} {o : Origin} {off : Nat} (hoff : off / 4 * 4 = off) (h : d.takesWrite o off) (hj : regJournalled off = false)
    (v : Nat) (pe : Option (BitVec 2)) (ev : Option Bool) :
    busWrite d o off v false 15 pe ev = regEffect d o off (v % 2 ^ 32) pe ev := by
  rw [busWrite_taken hoff h, hj]
  rfl

/-- What a journalled write leaves of the device's own registers is what the write did. -/
theorem busWrite_glob {d : Dev} {o : Origin} {off : Nat} (hoff : off / 4 * 4 = off) (h : d.takesWrite o off) (v : Nat) (pe : Option (BitVec 2))
    (ev : Option Bool) : (busWrite d o off v false 15 pe ev).glob = (regEffect d o off (v % 2 ^ 32) pe ev).glob := by
  rw [busWrite_taken hoff h]
  split
  · exact (journalReg_frame _ _ _ _ _ _).1
  · rfl

theorem clamp_eq (lo hi n : Nat) (h : lo ≤ hi) : clamp lo hi n = max lo (min hi n) := by
  unfold clamp
  split
  · omega
  · split <;> omega

theorem low_bits (v : Nat) {n k : Nat} (hk : k < n) : bits (v % 2 ^ n) k 0 = v % 2 ^ (k + 1) := by
  rw [bits, Nat.pow_zero, Nat.div_one, Nat.sub_zero, Nat.mod_mod_of_dvd]
  exact Nat.pow_dvd_pow 2 hk

theorem b2n_bitAt (x i : Nat) : b2n (bitAt x i) = x / 2 ^ i % 2 := by
  rw [bitAt, Nat.testBit_eq_decide_div_mod_eq]
  rcases Nat.mod_two_eq_zero_or_one (x / 2 ^ i) with h | h <;> rw [h] <;> rfl

-- reads

theorem hostRead_none (d : Dev) (p : Fin 8) (m : Fin 16) (off : Nat) : hostRead d p m off false 0 = 0 := rfl

/-- A read of one dword gives all of it, whichever bytes are enabled. -/
theorem hostRead_some (d : Dev) (p : Fin 8) (m : Fin 16) (off : Nat) {en : Nat} (h : en % 16 ≠ 0) :
    hostRead d p m off false en = d.dwordRead p m (off / 4 * 4) := by
  simp only [hostRead, Bool.not_false, if_true, if_neg h]

/-- A read of eight bytes is two dwords, of a 64-bit register and of others. -/
theorem hostRead_eight (d : Dev) (p : Fin 8) (m : Fin 16) (off : Nat) :
    hostRead d p m off true 255 = d.dwordRead p m (off / 4 * 4) + 2 ^ 32 * d.dwordRead p m (off / 4 * 4 + 4) := by
  have hlow : ¬ 255 % 16 = 0 := by decide
  have hall : ¬ 255 % 256 = 0 := by decide
  simp only [hostRead, Bool.not_true, Bool.false_eq_true, if_false, if_neg hlow, if_neg hall, ite_self, fld,
    Nat.mul_comm]

/-- In SERVICE a host reads the register, and all ones of a block that does not answer. -/
theorem dwordRead_service {d : Dev} (hs : d.glob.dev = .service) {k : Nat} (hp : perFunction k = false) (p : Fin 8) (m : Fin 16) :
    d.dwordRead p m k = if d.mustQueue (.host p m) (.reg k 0 false 15 none none) then 2 ^ 32 - 1 else regRead d k := by
  rw [Dev.dwordRead, hs, hp]
  rfl

/-- Settles O46, by whether the block takes the write and what its register then does. -/
theorem registerWriteRules : Obligations.RegisterWriteRules := by
  unfold Obligations.RegisterWriteRules
  have hexec : ∀ (s : State) (o : Origin) (off : BitVec 25) (v : BitVec 64) {en : BitVec 8}, en.toNat < 16 →
      exec (.registerWrite o off v false en) s = .next (s.turned (busWrite s.dev o (off.toNat / 4 * 4) v.toNat false en.toNat none none)) := by
    intro s o off v en hen
    rw [← busWrite_div_mul]
    exact if_pos (decide_eq_true hen)
  refine ⟨fun s o off v => ?none, fun s q m off v en h0 hen hdev hr hs hacc => ?state, fun s o off v en h0 hen hdev hr hbar ha hn => ?narrow,
    fun s o off v hdev hr hbar hw => ?waits, fun d o a hw => ⟨fun hruns => ?_, fun hstops => ?_⟩, fun d p m off en k hk => ?reads,
    fun s o v hw d hd => ?timeout, fun s o v hw d hd => ?bist, fun s o v hdev hr hbar ha hn hlock d hd => ?locked,
    fun s o off v en hen => if_neg (by simp; omega)⟩
  case none =>
    rw [hexec s o off v (by decide), busWrite_now (div_mul_four _) (.inl rfl), busWriteNow]
    congr 2
    split <;> rfl
  case state =>
    have hbar : s.dev.writeBar (.host q m) (off.toNat / 4 * 4) = some 1 := by rw [Dev.writeBar, hs, hacc]; rfl
    rw [hexec s _ off v hen, busWrite_now (div_mul_four _) (.inr (.inl (by rw [hbar]; simp))), busWriteNow_dword hdev hr, dwordWrite,
      if_neg (by omega), gated, hbar]
  case narrow =>
    rw [hexec s o off v (by omega), busWrite_now (div_mul_four _) (.inr (.inr (mustQueue_eq_false ha hn _ _ _ _ _))), busWriteNow_dword hdev hr,
      dwordWrite, if_neg (by omega), gated, hbar]
    dsimp only
    rw [if_neg (by omega)]
  case waits =>
    have hoff : (s.dev.glob.dev != .off) = true := bne_iff_ne.2 hdev
    rw [hexec s o off v (by decide), busWrite, div_mul_four, hoff, hr, hbar, mustQueue_eq_true hw]
    rfl
  · rw [takeWaits, hw]
    simp [hruns, Dev.each]
  · have hgo : d.waits.filter (fun x => d.blockRuns x.2) = [] := by rw [hw]; simp [hstops]
    have hstay : d.waits.filter (fun x => !d.blockRuns x.2) = d.waits := by rw [hw]; simp [hstops]
    rw [takeWaits, hgo, hstay]
    rfl
  case reads =>
    rw [hk]
    refine ⟨hostRead_none d p m _, fun hen => hostRead_some d p m _ (by bv_omega), hostRead_eight d p m _, fun hs hp ha hn => ?_, fun hs hp ha => ?_⟩
    · rw [dwordRead_service hs hp, mustQueue_eq_false ha hn]
      rfl
    · rw [dwordRead_service hs hp, mustQueue_eq_true (.inl ha)]
      rfl
  case timeout =>
    refine ⟨(hexec s o 0x20 v (by decide)).trans (by rw [hd]; rfl), by rw [hd]; exact busWrite_mem _ _ _ _ _ _ _ _, ?_⟩
    have hglob := busWrite_glob (by decide) hw v.toNat none none
    have hval : (BitVec.ofNat 17 (clamp 100 100000 (bits (v.toNat % 2 ^ 32) 16 0))).toNat = max 100 (min 100000 (v.toNat % 2 ^ 17)) := by
      rw [low_bits v.toNat (by decide), clamp_eq _ _ _ (by decide), BitVec.toNat_ofNat]
      omega
    rw [← hval, hd, glbRead, hglob]
    rfl
  case bist =>
    refine ⟨(hexec s o 0x4C v (by decide)).trans (by rw [hd]; rfl), ?_, by rw [hd]; exact busWrite_mem _ _ _ _ _ _ _ _⟩
    have hglob := busWrite_glob (by decide) hw v.toNat none none
    rw [hd, glbRead, hglob]
    change b2n (bitAt (v.toNat % 2 ^ 32) 0) + fld 1 (b2n (bitAt (v.toNat % 2 ^ 32) 1)) = v.toNat % 4
    rw [b2n_bitAt, b2n_bitAt, fld]
    omega
  case locked =>
    refine ⟨(hexec s o 0x20300 v (by decide)).trans (by rw [hd]; rfl), ?_⟩
    have hl : s.dev.locked 0x20300 = true := hlock
    rw [hd, busWrite_whole (by decide) hdev hr hbar ha hn, regWrite32, hl]
    simp

end Sys2Proof.Machine
end

section
/-! Refutation of the statement on completion heads, event heads and the fabric: a head that may not move is refused, but the
table of the event queues then lists the queue, which the statement's state does not. -/

open Sys2Proof

namespace Sys2Proof.Machine

theorem evqs_of_still {d d' : Dev} (h : d'.still = d.still) : d'.evqs = d.evqs := congrArg (fun x => x.2.2.2.2.2.2.1) h

/-- A refused access of a queue leaves the event queues alone, and so does what goes on by itself after it. -/
theorem settle_queueAccess_evqs (d : Dev) (n reason : Nat) (o : Origin) (evq : Bool) : (settle (queueAccess d n reason o evq)).evqs = d.evqs := by
  rw [evqs_of_still (settle_still _), queueAccess]
  simp

/-- A device in SERVICE, its domains on, no event queue of which was ever written. -/
def freshQueues : State := { dev := { State.reset.dev with
  glob := { State.reset.dev.glob with dev := .service }
  pwr := { State.reset.dev.pwr with on := 0xFFFFFFF } }, pending := [] }

theorem freshQueues_takesWrite : freshQueues.dev.takesWrite .mgmt 0x90808 := by decide

/-- The move of event queue 0's head to 1, past its tail, is refused and leaves the queue listed. -/
theorem freshQueues_headWrite : ∃ d : Dev, exec (.evqHeadWrite .mgmt 0 1 none) freshQueues = .next (freshQueues.turned d) ∧ d.evqs = [(0, {})] := by
  refine ⟨regEffect freshQueues.dev .mgmt 0x90808 1 none none, ?_, ?_⟩
  · exact congrArg (fun d => Host.Outcome.next (freshQueues.turned d)) (busWrite_unjournalled (by decide) freshQueues_takesWrite (by decide) 1 none none)
  · have hpast : (evqDiffers freshQueues.dev 0 none).evqs = [(0, {})] := rfl
    have heff : regEffect freshQueues.dev .mgmt 0x90808 1 none none = queueAccess (evqDiffers freshQueues.dev 0 none) 0 4 .mgmt true := rfl
    rw [heff, queueAccess, ← hpast]
    simp

/-- Refutes O45: event queue 0 was never written, its head is moved to 1 past its tail, and after the refusal the table of the
event queues is not as it was. -/
theorem not_completionAndEventCommands : ¬ Obligations.CompletionAndEventCommands := by
  unfold Obligations.CompletionAndEventCommands
  rintro ⟨_, _, _, hrefused, _⟩
  obtain ⟨d, hexec, hevqs⟩ := freshQueues_headWrite
  have hpast : (freshQueues.dev.evq 0).unread < ((1 : BitVec 32).setWidth 8 - (freshQueues.dev.evq 0).head).toNat := by decide
  have hsame := hexec.symm.trans (hrefused freshQueues .mgmt 0 1 freshQueues_takesWrite hpast)
  have hdev := congrArg State.dev (Host.Outcome.next.inj hsame)
  rw [State.turned_dev, State.turned_dev] at hdev
  have hlisted : (settle d).evqs = [(0, {})] := (evqs_of_still (settle_still d)).trans hevqs
  rw [hdev, settle_queueAccess_evqs] at hlisted
  exact List.cons_ne_nil _ _ hlisted.symm

end Sys2Proof.Machine
end

section
/-! How an engine takes a call of a routine, and the proof of the statement on the range routines. -/

open Sys2Proof

namespace Sys2Proof.Machine

-- a call is taken (R299, R302)

theorem beginCall_taken {d : Dev} {k : CallCtx} {code : Nat} {n : List Word → Nat} {q : Option (Nat × BitVec 10)}
    (h : d.takesCall k code (n (d.bodyOf k)) q) (f : List Word → Dev → Call → Dev × Call) :
    beginCall d k code n f = (f (d.bodyOf k) d { code := code, reply := q, body := d.bodyOf k }).1.withCall k
      (f (d.bodyOf k) d { code := code, reply := q, body := d.bodyOf k }).2 := by
  obtain ⟨hcall, hzero⟩ := h
  rw [beginCall, hcall]
  dsimp only
  rw [hzero, if_pos rfl]
  rfl

/-- Words after the last parameter that are not zero end the call. -/
theorem beginCall_excess {d : Dev} {k : CallCtx} {code : Nat} {n : List Word → Nat} {q : Option (Nat × BitVec 10)}
    (hcall : d.callFor k.e.val code = some q) (hrest : restZero (d.bodyOf k) (n (d.bodyOf k)) = false)
    (f : List Word → Dev → Call → Dev × Call) :
    beginCall d k code n f = d.withCall k { code := code, reply := q, body := d.bodyOf k, status := 2, steps := [.finish] } := by
  rw [beginCall, hcall]
  dsimp only
  rw [hrest, if_neg Bool.false_ne_true]
  rfl

theorem beginCall_none {d : Dev} {k : CallCtx} {code : Nat} (hcall : d.callFor k.e.val code = none) (n : List Word → Nat)
    (f : List Word → Dev → Call → Dev × Call) : beginCall d k code n f = d := by
  rw [beginCall, hcall]

/-- A command that begins a call, with what its routine then does. -/
theorem onDevice_call {s : State} {k : CallCtx} {code : Nat} {n : List Word → Nat} {q : Option (Nat × BitVec 10)}
    {f : List Word → Dev → Call → Dev × Call} {d : Dev} {c : Call} (h : s.dev.takesCall k code (n (s.dev.bodyOf k)) q)
    (hf : f (s.dev.bodyOf k) s.dev { code := code, reply := q, body := s.dev.bodyOf k } = (d, c)) :
    onDevice s (fun d => beginCall d k code n f) = .next (s.turned (d.withCall k c)) := by
  rw [onDevice_turned, beginCall_taken h, hf]

/-- A command that begins a range routine, its range one the routine allows. -/
theorem onDevice_range {s : State} {k : CallCtx} {code n : Nat} {q : Option (Nat × BitVec 10)} {noCoh : Bool}
    (h : s.dev.takesCall k code 7 q) (hok : s.dev.rangeOk (rangeOf (s.dev.bodyOf k)) = true)
    (hcoh : noCoh = true → (rangeOf (s.dev.bodyOf k)).coh = false) :
    onDevice s (fun d => beginRange d k code n noCoh) = .next (s.turned (s.dev.withCall k {
      code := code, reply := q, body := s.dev.bodyOf k, view := (rangeOf (s.dev.bodyOf k)).view, coh := (rangeOf (s.dev.bodyOf k)).coh,
      counts := List.replicate n 0
      steps := rangeSteps { code := code, reply := q, body := s.dev.bodyOf k } (rangeOf (s.dev.bodyOf k)) ++ [.finish] })) := by
  have hno : (noCoh && (rangeOf (s.dev.bodyOf k)).coh) = false := by
    cases noCoh
    · rfl
    · exact hcoh rfl
  refine onDevice_call (n := fun _ => 7) h ?_
  dsimp only
  rw [hok, hno]
  rfl

theorem onDevice_range_bad {s : State} {k : CallCtx} {code n : Nat} {q : Option (Nat × BitVec 10)} {noCoh : Bool}
    (h : s.dev.takesCall k code 7 q) (hbad : s.dev.rangeOk (rangeOf (s.dev.bodyOf k)) = false) :
    onDevice s (fun d => beginRange d k code n noCoh) = .next (s.turned (s.dev.withCall k {
      code := code, reply := q, body := s.dev.bodyOf k, status := 2, steps := [.finish] })) := by
  refine onDevice_call (n := fun _ => 7) h ?_
  dsimp only
  rw [hbad]
  rfl

/-- The lines of a physical range, or the first page of a translated one. -/
theorem rangeSteps_cmos {c : Call} (r : Range) {code : Nat} (hc : c.code = code + 2) (h : code < 4) :
    rangeSteps c r ++ [.finish] =
      [if r.phys then .cmos code r.coh false (r.base / 64) (r.len / 64) else .range r.base (r.base + r.len), .finish] := by
  have h6 : ¬ code + 2 = 6 := by omega
  have h7 : ¬ code + 2 = 7 := by omega
  have h14 : ¬ code + 2 = 0x14 := by omega
  unfold rangeSteps rangeStep
  rw [hc, if_neg h6, if_neg h7, if_neg h14, Nat.add_sub_cancel]
  cases r.phys <;> rfl

-- the words of a range (R303)

theorem b3_eq (ws : List Word) (i : Nat) :
    b3 ws i = (ws.getD i 0).toNat + 2 ^ 18 * (ws.getD (i + 1) 0).toNat + 2 ^ 36 * (ws.getD (i + 2) 0).toNat := by
  rw [b3, b2, b1, b1, b1, fld, fld, Nat.mul_comm (ws.getD (i + 1) 0).toNat, Nat.mul_comm (ws.getD (i + 2) 0).toNat]

/-- The low bits of a parameter word. -/
theorem bits_low (n k : Nat) : bits n k 0 = n % 2 ^ (k + 1) := by rw [bits, Nat.pow_zero, Nat.div_one, Nat.sub_zero]

theorem rangeOk_iff (d : Dev) (ws : List Word) : d.rangeOk (rangeOf ws) = true ↔ (ws.getD 0 0).toNat < 2 ^ 14 ∧ (rangeOf ws).base % 64 = 0
    ∧ (rangeOf ws).len % 64 = 0 ∧ (rangeOf ws).len ≠ 0
    ∧ (rangeOf ws).base + (rangeOf ws).len ≤ (if (rangeOf ws).phys then d.limit else 2 ^ 43) := by
  have hzeros : (rangeOf ws).zeros = true ↔ (ws.getD 0 0).toNat < 2 ^ 14 := by
    have hlt := (ws.getD 0 0).isLt
    change decide (bits (ws.getD 0 0).toNat 17 14 = 0) = true ↔ _
    rw [decide_eq_true_iff, bits]
    omega
  simp only [Dev.rangeOk, Bool.and_eq_true, decide_eq_true_eq, hzeros, and_assoc]

/-- Settles O49, by how a call is taken and what each range routine makes of its words. -/
theorem rangeRoutines : Obligations.RangeRoutines := by
  unfold Obligations.RangeRoutines
  intro s k r ws q hws hr lines
  subst hws
  subst hr
  refine ⟨fun named hnamed => ⟨fun h hall => ?inval, fun h hex => ?invalOn⟩, fun h hok => ?clean, fun h hok => ?invalRange, fun h hok => ?clinv,
    fun h hbad => onDevice_range_bad h hbad, fun hcall hrest => ?excess, fun hcall => ?none, fun h hkind hfirst hlast => ?setway,
    fun h hok hcoh hbit => ?preload, fun h hbit hzero => ?unlock, fun h hok hcoh => ?sweep, fun c hc hcall => ?unknown,
    rfl, rfl, rfl, b3_eq _ _, b3_eq _ _, rangeOk_iff _ _⟩
  case inval =>
    have hany : named.any (fun i => (s.dev.slice i).ctrl.getLsbD 0) = false :=
      List.any_eq_false.2 (fun i hi => Bool.eq_false_iff.1 (hall i hi))
    refine onDevice_call (n := fun _ => 1) h ?_
    rw [invalAllGo, ← hnamed, hany]
    rfl
  case invalOn =>
    have hany : named.any (fun i => (s.dev.slice i).ctrl.getLsbD 0) = true := List.any_eq_true.2 hex
    refine onDevice_call (n := fun _ => 1) h ?_
    rw [invalAllGo, ← hnamed, hany]
    rfl
  case clean =>
    have hexec : exec (.cleanRange k) s = onDevice s (fun d => beginRange d k 2 3 false) := rfl
    rw [hexec, onDevice_range h hok (fun hc : false = true => nomatch hc), rangeSteps_cmos (code := 0) _ rfl (by decide)]
    rfl
  case invalRange =>
    have hexec : exec (.invalRange k) s = onDevice s (fun d => beginRange d k 3 4 false) := rfl
    rw [hexec, onDevice_range h hok (fun hc : false = true => nomatch hc), rangeSteps_cmos (code := 1) _ rfl (by decide)]
    rfl
  case clinv =>
    have hexec : exec (.clinvRange k) s = onDevice s (fun d => beginRange d k 4 4 false) := rfl
    rw [hexec, onDevice_range h hok (fun hc : false = true => nomatch hc), rangeSteps_cmos (code := 2) _ rfl (by decide)]
    rfl
  case excess =>
    have hexec : exec (.cleanRange k) s = onDevice s (fun d => beginRange d k 2 3 false) := rfl
    rw [hexec, onDevice_turned, beginRange, beginCall_excess hcall hrest]
  case none =>
    have hexec : exec (.cleanRange k) s = onDevice s (fun d => beginRange d k 2 3 false) := rfl
    rw [hexec, onDevice_turned, beginRange, beginCall_none hcall]
  case setway =>
    have hlow : bits (b1 (s.dev.bodyOf k) 0) 1 0 = b1 (s.dev.bodyOf k) 0 % 4 := bits_low _ _
    refine onDevice_call (n := fun _ => 5) h ?_
    rw [maintSetwayGo, hlow, if_neg (by omega)]
  case preload =>
    have hlow : bits (b1 (s.dev.bodyOf k) 7) 3 0 = b1 (s.dev.bodyOf k) 7 % 16 := bits_low _ _
    refine onDevice_call (n := fun _ => 8) h ?_
    rw [lockPreloadGo, hlow, hbit, hok, hcoh]
    cases hp : (rangeOf (s.dev.bodyOf k)).phys <;> simp [rangeSteps, rangeStep, hp]
  case unlock =>
    have hlow : bits (b1 (s.dev.bodyOf k) 7) 3 0 = b1 (s.dev.bodyOf k) 7 % 16 := bits_low _ _
    have hview : (rangeOf (s.dev.bodyOf k)).view = 0 := by
      have hword : (s.dev.bodyOf k).getD 0 0 = 0 := by
        cases hb : s.dev.bodyOf k with
        | nil => rfl
        | cons w rest =>
          rw [hb] at hzero
          simp at hzero
          exact hzero.1
      rw [rangeOf, hword]
      rfl
    refine onDevice_call (n := fun _ => 8) h ?_
    rw [lockPreloadGo, hlow, hbit, hzero, hview]
    rfl
  case sweep =>
    have hexec : exec (.sweep k) s = onDevice s (fun d => beginRange d k 7 3 true) := rfl
    rw [hexec, onDevice_range h hok (fun _ => hcoh), hcoh]
    cases hp : (rangeOf (s.dev.bodyOf k)).phys <;> simp [rangeSteps, rangeStep, hp]
  case unknown =>
    have hout : ¬ (1 ≤ c.toNat ∧ c.toNat ≤ 0x18) := by omega
    have hrest : restZero (s.dev.bodyOf k) (s.dev.bodyOf k).length = true := by rw [restZero, List.drop_length]; rfl
    have hexec : exec (.routineUnknown k c) s = onDevice s (fun d =>
        if 1 ≤ c.toNat ∧ c.toNat ≤ 0x18 then d else beginCall d k c.toNat List.length (fun _ d c => (d, c.fails 13))) := rfl
    simp only [if_neg hout] at hexec
    rw [hexec, onDevice_call (n := List.length) (q := q) ⟨hcall, hrest⟩ rfl]
    rfl

end Sys2Proof.Machine
end

section
/-! Proof of the statement on the view and Dynamic Capacity routines. -/

open Sys2Proof

namespace Sys2Proof.Machine

/-- A field of a parameter word. -/
theorem bits_field (n hi lo k : Nat) (h : hi + 1 = lo + k) : bits n hi lo = n / 2 ^ lo % 2 ^ k := by
  rw [bits, h, Nat.add_sub_cancel_left]

theorem b1_lt (ws : List Word) (i : Nat) : b1 ws i < 2 ^ 18 := (ws.getD i 0).isLt

/-- The high bits of a parameter word. -/
theorem bits_high {n : Nat} (h : n < 2 ^ 18) : bits n 17 10 = n / 1024 := by
  rw [bits]
  omega

-- VIEW_BIND and VIEW_CREATE once they hold the lock (R317)

theorem viewBindGo_held {d : Dev} {c : Call} (h : d.bindHeld c.port c.ld = true) : viewBindGo d c = (d, c.fails 7) := by
  rw [viewBindGo, h]
  rfl

/-- An LD's binding is written or removed where nothing holds it. -/
theorem viewBindGo_free {d : Dev} {c : Call} (h : d.bindHeld c.port c.ld = false) (hview : (!c.keep && (d.desc? c.view).isNone) = false) :
    (viewBindGo d c).1 = { d with binds := if c.keep then Tab.del d.binds (16 * c.port + c.ld) else Tab.put d.binds (16 * c.port + c.ld) c.view }
      ∧ (viewBindGo d c).2.status = c.status := by
  rw [viewBindGo, h, hview]
  exact ⟨rfl, rfl⟩

theorem viewCreateGo_exists {d : Dev} {c : Call} (h : descLevels (d.pairAt (d.descDpa c.view)).1 ≠ 0) : viewCreateGo d c = c.fails 8 :=
  if_pos h

/-- Settles O50, by what each routine makes of its words and by the two cases of a binding. -/
theorem viewRoutines : Obligations.ViewRoutines := by
  unfold Obligations.ViewRoutines
  refine ⟨fun s k ws q hws => ?_, fun d c x hfree hkeep hdesc => ?bind, fun d c hfree hkeep hwf => ?unbind, fun d c h => ?held, fun d c h => ?createExists⟩
  · subst hws
    intro v go p m g
    have hp : bits (b1 (s.dev.bodyOf k) 0) 2 0 = p := bits_low _ _
    have hm : bits (b1 (s.dev.bodyOf k) 0) 6 3 = m := bits_field _ 6 3 4 rfl
    have hg : bits (b1 (s.dev.bodyOf k) 0) 9 7 = g := bits_field _ 9 7 3 rfl
    have hhigh : bits (b1 (s.dev.bodyOf k) 0) 17 10 = b1 (s.dev.bodyOf k) 0 / 1024 := bits_high (b1_lt _ _)
    have hlevels : bits (b1 (s.dev.bodyOf k) 1) 1 0 = b1 (s.dev.bodyOf k) 1 % 4 := bits_low _ _
    have hgran : bits (b1 (s.dev.bodyOf k) 1) 3 2 = b1 (s.dev.bodyOf k) 1 / 4 % 4 := bits_field _ 3 2 2 rfl
    refine ⟨fun h hl hgr => ?create, fun h hbad => ?createBad, fun h => onDevice_call (n := fun _ => 1) h rfl, fun w h hw => ?bindCall,
      fun h => onDevice_call (n := fun _ => 10) h rfl, fun h => onDevice_call (n := fun _ => 6) h rfl, fun n vs hn hvs h => ?remap,
      fun b h hzero hb => ?add, fun h hb => ?addNone, fun x h hzero hx => ?release, fun h hx => ?releaseNone⟩
    case create =>
      refine onDevice_call (n := fun _ => 2) h ?_
      rw [viewCreateArgs, hlevels, hgran]
      exact if_pos ⟨hl, hgr⟩
    case createBad =>
      refine onDevice_call (n := fun _ => 2) h ?_
      rw [viewCreateArgs, hlevels, hgran]
      exact if_neg (by omega)
    case bindCall =>
      refine onDevice_call (n := fun _ => 2) h ?_
      rw [viewBindArgs, hp, hm, hw]
      rfl
    case remap =>
      have hcount : bits (b1 (s.dev.bodyOf k) 4) 3 0 = n := (bits_low _ _).trans hn.symm
      have htakes : s.dev.takesCall k 0xD (5 + bits (b1 (s.dev.bodyOf k) 4) 3 0) q := by rw [hcount]; exact h
      refine ⟨fun h0 h8 hlim => ?_, fun hbad => ?_⟩
      · refine onDevice_call (n := fun ws => 5 + bits (b1 ws 4) 3 0) htakes ?_
        rw [viewRemapGo, hcount, hvs]
        exact if_neg (by omega)
      · refine onDevice_call (n := fun ws => 5 + bits (b1 ws 4) 3 0) htakes ?_
        rw [viewRemapGo, hcount]
        exact if_pos hbad
    case add =>
      refine onDevice_call (n := fun _ => 18) h ?_
      rw [dcAddArgs, hp, hm, hg, hb]
      dsimp only
      rw [hhigh, hzero]
      rfl
    case addNone =>
      refine onDevice_call (n := fun _ => 18) h ?_
      rw [dcAddArgs, hp, hm, hb]
      rfl
    case release =>
      refine onDevice_call (n := fun _ => 4) h ?_
      rw [dcReleaseGo, hp, hm, hg]
      dsimp only
      rw [hx, hhigh, hzero]
      rfl
    case releaseNone =>
      refine onDevice_call (n := fun _ => 4) h ?_
      rw [dcReleaseGo, hp, hm, hg]
      dsimp only
      rw [hx]
      rfl
  case bind =>
    obtain ⟨hd, hstatus⟩ := viewBindGo_free hfree (by rw [hdesc]; cases c.keep <;> rfl)
    rw [hd, hkeep]
    exact ⟨Tab.find_put_same _ _ _, fun i hi => Tab.find_put_other _ _ hi, hstatus, rfl⟩
  case unbind =>
    obtain ⟨hd, _⟩ := viewBindGo_free hfree (by rw [hkeep]; rfl)
    rw [hd, hkeep]
    exact ⟨Tab.find_del_same hwf _, fun i hi => Tab.find_del_other _ hi⟩
  case held =>
    rw [viewBindGo_held h]
    exact ⟨rfl, rfl⟩
  case createExists =>
    rw [viewCreateGo_exists h]
    rfl

end Sys2Proof.Machine
end

section
/-! Proof of the statement on nonces and signed requests. -/

open Sys2Proof

namespace Sys2Proof.Machine

-- nonces (R428)

/-- A nonce that is given is held under its handle, with at most three others or in place of the oldest. -/
theorem issueNonce_nonces (d : Dev) (n : BitVec 256) :
    (issueNonce d n).1.sec.nonces = (if 4 ≤ d.sec.nonces.length then d.sec.nonces.drop 1 else d.sec.nonces) ++ [⟨(issueNonce d n).2, n⟩] := rfl

theorem issueNonce_held (d : Dev) (n : BitVec 256) :
    (issueNonce d n).1.sec.nonces.any (fun x => x.value == n && x.handle == (issueNonce d n).2) = true := by
  rw [issueNonce_nonces, List.any_append]
  simp

theorem issueNonce_length (d : Dev) (n : BitVec 256) : (issueNonce d n).1.sec.nonces.length ≤ max 4 d.sec.nonces.length := by
  rw [issueNonce_nonces, List.length_append, List.length_singleton]
  split
  · rw [List.length_drop]
    omega
  · omega

-- what a request that is taken does (R430)

/-- A request of any code but a package's becomes a durable change or is refused. -/
theorem requestTaken_change {r : SReq} (h : r.change ≠ none) (d : Dev) (q : Signed) (current : Bool) :
    requestTaken d r q current =
      if d.refusal r current (d.verifies r q) = 0 then d.setSec (fun s => { s with durable := r.change })
      else emit (authFail d r.code (d.refusal r current (d.verifies r q))
        (if d.verifies r q then { role := r.role, keyid := keyId (d.roleKey r.role) } else {}) (originField .mgmt) true
        (signedDigest q (d.requestText r q))) (.mgmt mgmtRefused [r.code, d.refusal r current (d.verifies r q)]) := by
  cases r with
  | authorize b p ok => exact absurd rfl h
  | _ => rfl

/-- The request at the front uses up its nonce and is taken. -/
theorem signatureVerified_front {d : Dev} {r : SReq} {q : Signed} {rest : List (SReq × Signed)} (hr : d.sec.requests = (r, q) :: rest)
    (hd : d.sec.durable = none) (hq : d.q0Runs = true) :
    signatureVerified d = requestTaken (d.setSec (fun x => { x with nonces := x.nonces.filter (fun n => n.handle != q.handle), requests := rest }))
      r q (d.sec.nonces.any (fun n => n.handle == q.handle && n.value == q.nonce)) := by
  rw [signatureVerified, hr, hd]
  dsimp only
  rw [hq]
  rfl

section
variable (d : Dev) (r : SReq) (q : Signed) (f : Sec → List Nonce) (rest : List (SReq × Signed))

/-- A nonce used up changes nothing a signature or a refusal looks at. -/
theorem usedNonce_roleKey (role : Nat) : (d.setSec (fun x => { x with nonces := f x, requests := rest })).roleKey role = d.roleKey role := rfl

theorem usedNonce_requestText : (d.setSec (fun x => { x with nonces := f x, requests := rest })).requestText r q = d.requestText r q := rfl

theorem usedNonce_verifies : (d.setSec (fun x => { x with nonces := f x, requests := rest })).verifies r q = d.verifies r q := rfl

theorem usedNonce_refusal (current ok : Bool) :
    (d.setSec (fun x => { x with nonces := f x, requests := rest })).refusal r current ok = d.refusal r current ok := rfl

end

theorem verifies_key {d : Dev} {r : SReq} {q : Signed} (h : d.verifies r q = true) : d.roleKey r.role ≠ none := by
  intro hnone
  rw [Dev.verifies, hnone] at h
  exact Bool.false_ne_true h

theorem refusal_not_current (d : Dev) (r : SReq) (sig : Bool) : d.refusal r false sig = 2 := rfl

theorem refusal_no_key {d : Dev} {r : SReq} (h : d.roleKey r.role = none) (sig : Bool) : d.refusal r true sig = 3 := by
  unfold Dev.refusal
  rw [h]
  rfl

theorem refusal_bad_signature {d : Dev} {r : SReq} (h : d.roleKey r.role ≠ none) : d.refusal r true false = 1 := by
  obtain ⟨k, hk⟩ := Option.ne_none_iff_exists'.1 h
  unfold Dev.refusal
  rw [hk]
  rfl

theorem refusal_bad_state {d : Dev} {r : SReq} (h : d.roleKey r.role ≠ none) (hs : r.allowedIn d.glob.dev = false) : d.refusal r true true = 4 := by
  obtain ⟨k, hk⟩ := Option.ne_none_iff_exists'.1 h
  unfold Dev.refusal
  rw [hk, hs]
  rfl

theorem refusal_zero {d : Dev} {r : SReq} (h : d.roleKey r.role ≠ none) (hs : r.allowedIn d.glob.dev = true)
    (hf : ∀ f, r = .floorRaise f → d.sec.floor < f ∧ d.sec.floorFuse < f ∧ f.toNat ≤ 64) : d.refusal r true true = 0 := by
  obtain ⟨k, hk⟩ := Option.ne_none_iff_exists'.1 h
  unfold Dev.refusal
  rw [hk, hs]
  cases r with
  | floorRaise f => exact if_pos (hf f rfl)
  | _ => rfl

-- the journal's sequence numbers (R433)

theorem ringPut_nextSeq (d : Dev) (e : JEntry) : (ringPut d e).sec.nextSeq = e.seq := by
  unfold ringPut
  dsimp only
  split <;> simp

theorem mirrorOne_nextSeq (s : Sec) (e : JEntry) : (s.mirrorOne e).nextSeq = s.nextSeq := rfl

theorem mirrorNext_nextSeq (s : Sec) (k : Nat) : (s.mirrorNext k).nextSeq = s.nextSeq := by
  have hfold : ∀ (l : List JEntry) (s : Sec), (l.foldl Sec.mirrorOne s).nextSeq = s.nextSeq := by
    intro l
    induction l with
    | nil => exact fun _ => rfl
    | cons e l ih => exact fun s => (ih (s.mirrorOne e)).trans (mirrorOne_nextSeq s e)
  exact hfold _ s

theorem repeatCommit_nextSeq (d : Dev) : d.sec.nextSeq ≤ (repeatCommit d).sec.nextSeq := by
  unfold repeatCommit
  split
  · simp only [raise_frame, Dev.setSec_sec, mirrorNext_nextSeq, ringPut_nextSeq]
    exact Nat.le_succ _
  · exact Nat.le_refl _

/-- An entry takes a number above every earlier one. -/
theorem journal_nextSeq (d : Dev) (c : Change) : d.sec.nextSeq < (journal d c).sec.nextSeq := by
  rw [journal, ringPut_nextSeq]
  exact Nat.lt_succ_of_le (repeatCommit_nextSeq d)

theorem authFail_nextSeq {d : Dev} {n : Nat} (hn : n = d.sec.nextSeq) (code reason : Nat) (who : Signer) (origin : Nat) (mgmt : Bool) (bytes : BitVec 512) :
    n < (authFail d code reason who origin mgmt bytes).sec.nextSeq := by
  rw [authFail, hn]
  simp only [raise_frame]
  exact journal_nextSeq d _

/-- Settles O58, by what a request taken does and by the order of the reasons that refuse it. -/
theorem signedRequestCommands : Obligations.SignedRequestCommands := by
  unfold Obligations.SignedRequestCommands
  refine ⟨fun s n hfw hq hp r hr => ?nonce, fun s h => rfl, fun s q key bank t es f ok b w hfw hq hp => ?queue,
    fun s r y q rest hy hr hd hq hn hv ha hf => ?accept, fun s r q rest current ok who hy hr hd hq hc hok hwhy hwho d hauth => ?refuse,
    fun d r sig => ⟨refusal_not_current d r sig, fun h => refusal_no_key h sig, refusal_bad_signature, refusal_bad_state⟩⟩
  case nonce =>
    subst hr
    refine ⟨?_, rfl, issueNonce_held s.dev n, issueNonce_length s.dev n⟩
    have hexec : exec (.nonceRequest n) s = onDevice s (fun d => nonceGiven d n) := rfl
    rw [hexec, onDevice_turned, nonceGiven, hfw, hq, hp]
    rfl
  case queue =>
    intro queued
    have hgo : ∀ r : SReq, onDevice s (fun d => signedRequest d r q) = .next (queued r) := by
      intro r
      rw [onDevice_turned, signedRequest, hfw, hq, hp]
      rfl
    exact ⟨hgo _, hgo _, hgo _, hgo _, hgo _, hgo _, hgo _⟩
  case accept =>
    have hexec : exec .signatureVerifyDone s = onDevice s signatureVerified := rfl
    have hwhy := refusal_zero (verifies_key hv) ha hf
    rw [hexec, onDevice_turned, signatureVerified_front hr hd hq, hn, requestTaken_change (by rw [hy]; exact Option.some_ne_none y),
      usedNonce_verifies, usedNonce_refusal, hv, hwhy, if_pos rfl, hy]
    rfl
  case refuse =>
    have hexec : exec .signatureVerifyDone s = onDevice s signatureVerified := rfl
    subst hc hok hwho
    refine ⟨?_, ?_, ?_, ?_, ?_, ?_, ?_, ?_, ?_⟩
    · rw [hexec, onDevice_turned, signatureVerified_front hr hd hq, requestTaken_change hy, usedNonce_verifies, usedNonce_refusal, usedNonce_roleKey,
        usedNonce_requestText, if_neg hwhy, hauth]
    · rw [hauth, authFail]; simpa using hd
    · rw [hauth, authFail]; simp
    · rw [hauth, authFail]; simp
    · rw [hauth, authFail]; simp
    · rw [hauth, authFail]; simp
    · rw [hauth, authFail]; simp
    · rw [hauth, authFail]; simp
    · rw [hauth]
      refine authFail_nextSeq ?_ _ _ _ _ _ _
      rfl

end Sys2Proof.Machine
end

section
/-! Proofs of the statements on a step, on reset and on raised records. -/

open Sys2Proof

namespace Sys2Proof.Machine

/-- The clock, the device state, memory and the domains that are on. -/
def Dev.clocked (d : Dev) := (d.glob.time, d.glob.ticks, d.glob.dev, d.mem, d.pwr.on)

theorem clocked_of_still {d d' : Dev} (h : d'.still = d.still) : d'.clocked = d.clocked :=
  congrArg (fun x => (x.1.time, x.1.ticks, x.1.dev, x.2.1, x.2.2.2.2.2.2.2.2.2.1)) h

theorem tickBlock_clocked (d : Dev) (b : Nat) : (tickBlock d b).clocked = d.clocked := by
  have hdrawn : (if b < 8 ∧ d.pwr.level ≠ 0 then d.drawn else d).clocked = d.clocked := by
    split <;> rfl
  unfold tickBlock
  split
  · exact Dev.each_keeps (fun x => x.clocked = d.clocked) _ _ _ hdrawn (fun x c _ hx => (clocked_of_still (count_still x b c.1 c.2 {})).trans hx)
  · rfl

theorem ticked_clocked {d : Dev} {time ticks : Nat} {dev : DevState} {mem : Memory} {on : BitVec 28} (h : d.clocked = (time, ticks, dev, mem, on)) :
    (d.setGlob (fun g => { g with time := g.time + 2, ticks := g.ticks + 1 })).clocked = (time + 2, ticks + 1, dev, mem, on) := by
  simp only [Dev.clocked, Prod.mk.injEq] at h
  obtain ⟨rfl, rfl, rfl, rfl, rfl⟩ := h
  rfl

/-- A tick moves the clock and leaves memory, the device state and the domains as they were. -/
theorem tickDev_clocked (d : Dev) : (tickDev d).clocked = (d.glob.time + 2, d.glob.ticks + 1, d.glob.dev, d.mem, d.pwr.on) := by
  have hblocks : (d.each (List.range 28) tickBlock).clocked = d.clocked :=
    Dev.each_keeps (fun x => x.clocked = d.clocked) d _ _ rfl (fun x b _ hx => (tickBlock_clocked x b).trans hx)
  unfold tickDev
  exact (clocked_of_still (settle_still _)).trans (ticked_clocked hblocks)

/-- Settles O1, by the two cases of a step. -/
theorem stepRunsFrontCommandOrTicks : Obligations.StepRunsFrontCommandOrTicks := by
  unfold Obligations.StepRunsFrontCommandOrTicks
  refine ⟨fun s c => rfl, fun s hs => ⟨tick s, ?_, (tick_pending s).trans hs, ?_⟩⟩
  · rw [step, hs]
  · have hclock := tickDev_clocked s.dev
    simp only [Dev.clocked, Prod.mk.injEq] at hclock
    simpa only [tick] using hclock

/-- Settles O6: no memory is written and no command waits at reset. -/
theorem resetMeetsInvariants : Obligations.ResetMeetsInvariants := by
  unfold Obligations.ResetMeetsInvariants
  exact ⟨rfl, fun c hc => absurd hc List.not_mem_nil⟩

-- raised records

/-- No record raised changes which missed walks wait to be delivered. -/
theorem raise_missReady (d : Dev) (src cls sev : Nat) (i : Info) (p : Nat) : (raise d src cls sev i).missReady p = d.missReady p := by
  unfold raise
  dsimp only
  split <;> rfl

/-- Settles O8, by the two cases of a source's buffer. -/
theorem raisedRecords : Obligations.RaisedRecords := by
  unfold Obligations.RaisedRecords
  intro d src cls sev i
  refine ⟨fun h => ⟨raise_room d src cls sev i h, ?_⟩, fun h => ?_, fun n hn => raise_other d src cls sev i hn,
    raise_missReady d src cls sev i⟩
  · rw [raise, if_pos h]
    rfl
  · obtain ⟨hsource, hevt⟩ := raise_lost d src cls sev i h
    exact ⟨hsource, by rw [hevt]⟩

end Sys2Proof.Machine
end

section
/-! Refutation of the statement on fuses and firmware: the boot ROM's engine does not start in a device whose domain PD1 is being
switched off, which the statement's state may be. -/

open Sys2Proof

namespace Sys2Proof.Machine

/-- A device that loads its fuses while a request to switch PD1 off is under way. -/
def fusesWhileLeaving : State := { dev := { State.reset.dev with
  glob := { State.reset.dev.glob with dev := .start, step := 1, resetPhase := .none }
  pwr := { State.reset.dev.pwr with busy := some { domain := 1, on := false, origin := .mgmt, call := none } } }, pending := [] }

/-- E0 stays stopped there. -/
theorem fusesWhileLeaving_engine : (fusesWhileLeaving.dev.engine 0).st = .stopped ∧ ((fuseLoaded fusesWhileLeaving.dev none).engine 0).st = .stopped := by
  decide +kernel

/-- Refutes O9: the fuses are loaded while PD1 is being switched off, and E0 does not run the boot ROM. -/
theorem not_startUpFusesAndFirmware : ¬ Obligations.StartUpFusesAndFirmware := by
  unfold Obligations.StartUpFusesAndFirmware
  rintro ⟨_, hloaded, _⟩
  obtain ⟨hbefore, hafter⟩ := fusesWhileLeaving_engine
  obtain ⟨_, _, _, _, _, _, hruns⟩ := hloaded fusesWhileLeaving _ rfl rfl rfl rfl
  have hst := (hruns hbefore).1
  rw [hafter] at hst
  exact absurd hst (by decide)

end Sys2Proof.Machine
end

section
/-! What the work of a port leaves of the device's registers, and the proof of the statement on the package checks, the hub
self-test and the final steps. -/

open Sys2Proof

namespace Sys2Proof.Machine

-- the device's registers, their counts aside

/-- The registers of the device, the counts of resignations and of lines lost aside. -/
def Dev.regs (d : Dev) : Glob := { d.glob with resigns := 0, linesLost := 0 }

theorem regs_of_still {d d' : Dev} (h : d'.still = d.still) : d'.regs = d.regs :=
  congrArg (fun x => { x.1 with resigns := 0 }) h

@[simp] theorem Dev.each_regs {α : Type} (d : Dev) (l : List α) (f : Dev → α → Dev) (h : ∀ d a, (f d a).regs = d.regs) :
    (d.each l f).regs = d.regs :=
  Dev.each_keeps (fun x => x.regs = d.regs) d l f rfl (fun x a _ hx => (h x a).trans hx)

@[simp] theorem foldl_regs {α : Type} (d : Dev) (l : List α) (f : Dev → α → Dev) (h : ∀ d a, (f d a).regs = d.regs) :
    (l.foldl f d).regs = d.regs := Dev.each_regs d l f h

@[simp] theorem Dev.updPort_regs (d : Dev) (n : Nat) (f : Port → Port) : (d.updPort n f).regs = d.regs := rfl
@[simp] theorem Dev.updLd_regs (d : Dev) (p m : Nat) (f : Ld → Ld) : (d.updLd p m f).regs = d.regs := rfl
@[simp] theorem Dev.updAgent_regs (d : Dev) (a : BitVec 12) (f : Agent → Agent) : (d.updAgent a f).regs = d.regs := rfl
@[simp] theorem Dev.updEngine_regs (d : Dev) (n : Nat) (f : Engine → Engine) : (d.updEngine n f).regs = d.regs := rfl
@[simp] theorem Dev.updPair_regs (d : Dev) (n : Nat) (f : Pair_ → Pair_) : (d.updPair n f).regs = d.regs := rfl
@[simp] theorem Dev.updSource_regs (d : Dev) (n : Nat) (f : Source → Source) : (d.updSource n f).regs = d.regs := rfl
@[simp] theorem Dev.setSec_regs (d : Dev) (f : Sec → Sec) : (d.setSec f).regs = d.regs := rfl
@[simp] theorem Dev.setErr_regs (d : Dev) (f : Err → Err) : (d.setErr f).regs = d.regs := rfl
@[simp] theorem raise_regs (d : Dev) (src cls sev : Nat) (i : Info) : (raise d src cls sev i).regs = d.regs := regs_of_still (by simp)
@[simp] theorem logErr_regs (d : Dev) (f : Fail) : (logErr d f).regs = d.regs := regs_of_still (by simp)
@[simp] theorem setDomain_regs (d : Dev) (dom : Nat) (on : Bool) : (setDomain d dom on).regs = d.regs := rfl
@[simp] theorem domainsOn_regs (d : Dev) (l : List Nat) : (domainsOn d l).regs = d.regs := Dev.each_regs _ _ _ (fun d n => setDomain_regs d n true)
@[simp] theorem markHandlers_regs (d : Dev) (e : Nat) : (markHandlers d e).regs = d.regs := Dev.each_regs _ _ _ (fun _ _ => rfl)
@[simp] theorem ldBind_regs (d : Dev) (p m : Nat) (a : BitVec 12) (ep : BitVec 4) (attach db : Bool) :
    (ldBind d p m a ep attach db).regs = d.regs := raise_regs _ _ _ _ _
@[simp] theorem withdrawOffers_regs (d : Dev) (p m : Nat) : (withdrawOffers d p m).regs = d.regs := rfl

@[simp] theorem closePortPairs_regs (d : Dev) (port cause : Nat) : (closePortPairs d port cause).regs = d.regs := by
  refine Dev.each_regs _ _ _ (fun d n => ?_)
  split
  · exact regs_of_still (closePair_still d n cause)
  · rfl

/-- A resignation changes the count of resignations alone. -/
@[simp] theorem resign_regs (d : Dev) (a : BitVec 12) (cause : Nat) : (resign d a cause).regs = d.regs := by
  have hpark : ∀ d : Dev, (if d.park.st = 1 then { d with park := { d.park with resigned := true } } else d).regs = d.regs := by
    intro d
    split <;> rfl
  have hbind : ∀ (d : Dev) (p m : Nat) (e : BitVec 4) (b : Bool), (if cause = 3 then ldBind d p m a e false b else d).regs = d.regs := by
    intro d p m e b
    split <;> simp
  unfold resign
  split
  · rfl
  · split
    · rfl
    · dsimp only
      split
      · exact (withdrawOffers_regs _ _ _).trans ((hbind _ _ _ _ _).trans ((raise_regs _ _ _ _ _).trans (hpark _)))
      · refine (foldl_regs _ _ _ (fun d s => ?_)).trans
          ((withdrawOffers_regs _ _ _).trans ((hbind _ _ _ _ _).trans ((raise_regs _ _ _ _ _).trans (hpark _))))
        split
        · exact foldl_regs _ _ _ (fun d k => logErr_regs _ _)
        · rfl

/-- A link that goes down changes no other register of the device. -/
@[simp] theorem linkDown_regs (d : Dev) (p code : Nat) : (linkDown d p code).regs = d.regs := by
  unfold linkDown
  split
  · rfl
  · split
    · rfl
    · rfl
    · dsimp only
      rw [raise_regs, closePortPairs_regs, Dev.each_regs _ _ _ (fun d m => Dev.updLd_regs d p m _),
        Dev.each_regs _ _ _ (fun d a => resign_regs d _ 1), Dev.updPort_regs]

@[simp] theorem applyPort_regs (d : Dev) (p : Package) (n : Nat) : (applyPort d p n).regs = d.regs := by
  unfold applyPort raiseDegraded
  dsimp only
  split
  · simp
  · split
    · rfl
    · split <;> simp

@[simp] theorem startEngine_regs (d : Dev) (e : Nat) (pc : BitVec 14) : (startEngine d e pc).regs = d.regs := by
  unfold startEngine
  split <;> rfl

@[simp] theorem startQuad_regs (d : Dev) (q : Nat) : (startQuad d q).regs = d.regs := by
  unfold startQuad
  split
  · exact Dev.each_regs _ _ _ (fun d e => startEngine_regs d e _)
  · rfl

@[simp] theorem memoryActive_regs (d : Dev) : (memoryActive d).regs = d.regs :=
  Dev.each_regs _ _ _ (fun _ _ => Dev.each_regs _ _ _ (fun _ _ => rfl))

theorem startQuad_sec (d : Dev) (q : Nat) : (startQuad d q).sec = d.sec := by
  unfold startQuad
  split
  · refine Dev.each_keeps (fun x => x.sec = d.sec) _ _ _ rfl (fun x e _ hx => ?_)
    unfold startEngine
    split <;> exact hx
  · rfl

theorem memoryActive_sec (d : Dev) : (memoryActive d).sec = d.sec :=
  Dev.each_keeps (fun x => x.sec = d.sec) _ _ _ rfl (fun _ _ _ hx =>
    Dev.each_keeps (fun y => y.sec = d.sec) _ _ _ hx (fun _ _ _ hy => hy))

-- a new device state (R26)

theorem resyncRequest_keeps (d : Dev) (o : Origin) : (resyncRequest d o).glob = d.glob ∧ (resyncRequest d o).sec = d.sec := by
  unfold resyncRequest
  split
  · exact ⟨rfl, rfl⟩
  · split
    · split <;> exact ⟨rfl, rfl⟩
    · exact ⟨rfl, rfl⟩

/-- Entering a state changes the state and what start-up asked for, and no package. -/
theorem setState_keeps (d : Dev) (new : DevState) :
    (setState d new).glob = { d.glob with
      dev := new, fullBist := d.glob.fullBist && !(d.glob.dev == .start), fullTrain := d.glob.fullTrain && !(d.glob.dev == .start) }
    ∧ (setState d new).sec.inForce = d.sec.inForce := by
  unfold setState
  dsimp only
  split
  · rw [(resyncRequest_keeps _ _).1, (resyncRequest_keeps _ _).2]
    simp
  · simp

-- the hub self-test (R387)

/-- What one rewrite of a list makes so, and the others keep, holds after the list. -/
theorem Dev.each_sets {α : Type} (P : Dev → Prop) (d : Dev) {l : List α} (f : Dev → α → Dev) {a : α} (ha : a ∈ l) (hset : ∀ d, P (f d a))
    (hkeep : ∀ d b, P d → P (f d b)) : P (d.each l f) := by
  obtain ⟨l₁, l₂, rfl⟩ := List.append_of_mem ha
  have hsplit : d.each (l₁ ++ a :: l₂) f = (f (d.each l₁ f) a).each l₂ f := List.foldl_append
  rw [hsplit]
  exact Dev.each_keeps P _ _ _ (hset _) (fun x b _ hx => hkeep x b hx)

theorem setDomain_keeps_off (d : Dev) {n : Nat} (k : Nat) (h : d.domOn n = false) : (setDomain d k false).domOn n = false := by
  have hoff : d.pwr.on.getLsbD n = false := h
  change (d.pwr.on &&& ~~~(BitVec.ofNat 28 (2 ^ k))).getLsbD n = false
  rw [BitVec.getLsbD_and, hoff, Bool.false_and]

theorem setDomain_off (d : Dev) (n : Nat) : (setDomain d n false).domOn n = false := by
  change (d.pwr.on &&& ~~~(BitVec.ofNat 28 (2 ^ n))).getLsbD n = false
  rw [BitVec.getLsbD_and, BitVec.getLsbD_not, BitVec.getLsbD_ofNat, Nat.testBit_two_pow_self]
  by_cases hn : n < 28 <;> simp [hn]

/-- The ports that failed are off, and known to have failed. -/
theorem leaveOff_port (d : Dev) (ports : BitVec 8) (quads : BitVec 5) {p : Nat} (hp : p < 8) (hf : ports.getLsbD p = true) :
    (leaveOff d ports quads).domOn (portDom p) = false ∧ ((leaveOff d ports quads).port p).failed = true := by
  have hfailed : ∀ x : Dev, ((x.each (List.range 8) (fun d p => d.updPort p (fun x => { x with failed := ports.getLsbD p }))).port p).failed = true := by
    intro x
    refine Dev.each_sets (fun d => (d.port p).failed = true) x _ (List.mem_range.2 hp) (fun d => ?_) (fun d k hk => ?_)
    · rw [Dev.port_updPort]
      exact hf
    · by_cases hkp : p = k
      · rw [← hkp, Dev.port_updPort]
        exact hf
      · rw [Dev.port_updPort_other _ _ hkp]
        exact hk
  have hmem : p ∈ (List.range 8).filter (fun p => ports.getLsbD p) := List.mem_filter.2 ⟨List.mem_range.2 hp, hf⟩
  have hquads : ∀ x : Dev, x.domOn (portDom p) = false ∧ (x.port p).failed = true →
      (x.each ((List.range 5).filter (fun q => quads.getLsbD q)) (fun d q =>
        (quadEngines (q + 1)).foldl markHandlers (setDomain d (quadDom (q + 1)) false))).domOn (portDom p) = false
      ∧ ((x.each ((List.range 5).filter (fun q => quads.getLsbD q)) (fun d q =>
        (quadEngines (q + 1)).foldl markHandlers (setDomain d (quadDom (q + 1)) false))).port p).failed = true := by
    intro x hx
    refine Dev.each_keeps (fun d => d.domOn (portDom p) = false ∧ (d.port p).failed = true) x _ _ hx (fun d q _ hd => ?_)
    refine Dev.each_keeps (fun d => d.domOn (portDom p) = false ∧ (d.port p).failed = true) _ _ _
      ⟨setDomain_keeps_off d _ hd.1, hd.2⟩ (fun d e _ hd => ⟨hd.1, ?_⟩)
    refine Dev.each_keeps (fun d => (d.port p).failed = true) _ _ _ hd.2 (fun d k _ hk => ?_)
    by_cases hkp : p = k
    · rw [← hkp, Dev.port_updPort]
      exact hk
    · rw [Dev.port_updPort_other _ _ hkp]
      exact hk
  refine hquads _ ⟨?_, ?_⟩
  · exact Dev.each_sets (fun d => d.domOn (portDom p) = false) _ (fun d p => setDomain d (portDom p) false) hmem (fun d => setDomain_off d _)
      (fun d k hk => setDomain_keeps_off d _ hk)
  · exact Dev.each_keeps (fun d => (d.port p).failed = true) _ _ _ (hfailed d) (fun d k _ hk => hk)

-- the package checks (R386)

theorem pkgCheck_regs {d : Dev} {ok : Bool} (hs : d.glob.dev = .start) (hfw : d.glob.fwRunning = true) (hp : d.glob.pkgChecked = false)
    (hr : d.glob.resetPhase = .none) (hq : d.glob.quick = false) :
    (pkgCheck d ok).regs = { d.regs with
      pkgChecked := true, pkgUsable := d.pkgCause ok == 0, heldCause := BitVec.ofNat 3 (d.pkgCause ok), step := 7 } := by
  have hgo : (d.glob.dev != .start || !d.glob.fwRunning || d.glob.pkgChecked || d.glob.resetPhase != .none) = false := by
    rw [hs, hfw, hp, hr]
    rfl
  unfold pkgCheck
  rw [hgo, if_neg Bool.false_ne_true]
  extract_lets cause d1 d2 d3 d4 d5
  have h1 : d1.regs = { d.regs with pkgChecked := true, pkgUsable := cause == 0, heldCause := BitVec.ofNat 3 cause } := rfl
  have h3 : d3.regs = d1.regs := by
    change (match d2.sec.pkg with
      | some p => if cause = 0 then (d2.setSec (fun s => { s with kPkgDigest := some p.digest })).each (List.range 8) (fun d n => applyPort d p n) else d2
      | none => d2).regs = d1.regs
    split
    · split
      · exact Dev.each_regs _ _ _ (fun d n => applyPort_regs d _ n)
      · rfl
    · rfl
  have h4 : d4.regs = d3.regs := domainsOn_regs d3 _
  have h5 : d5.regs = d4.regs := Dev.each_regs d4 _ _ (fun d q => Dev.each_regs d _ _ (fun d e => Dev.updEngine_regs d e _))
  replace h5 : d5.regs = d1.regs := h5.trans (h4.trans h3)
  clear_value d5
  have hquick : d5.glob.quick = false := (congrArg Glob.quick (h5.trans h1)).trans hq
  rw [hquick, if_neg Bool.false_ne_true]
  have hset : (d5.setGlob (fun g => { g with step := 7 })).regs = { d5.regs with step := 7 } := rfl
  rw [hset, h5, h1]

-- the final steps (R389, R399)

/-- The registers a package gives are loaded and locked. -/
theorem loadPackage_keeps (d : Dev) (p : Package) :
    (loadPackage d p).regs = { d.regs with
      tableBase := p.tableBase, tableSize := p.tableSize, rmapBase := p.rmapBase, lockTables := true, lockRmap := true
      memRate := p.rate, pop := p.population }
    ∧ (loadPackage d p).sec.inForce = some p := by
  unfold loadPackage
  extract_lets d1 d2 d3 d4 d5 d6
  have h3 : d3.regs = d2.regs := Dev.each_regs d2 _ _ (fun d n => Dev.updPort_regs d n _)
  have h4 : d4.regs = d3.regs := Dev.each_regs d3 _ _ (fun d e => markHandlers_regs d e)
  have h5 : d5.regs = d4.regs := Dev.each_regs d4 _ _ (fun d n => Dev.updPair_regs d n _)
  have h6 : d6.regs = d5.regs := Dev.each_regs d5 _ _ (fun d r => Dev.updSource_regs d r.1 _)
  refine ⟨?_, rfl⟩
  rw [Dev.setSec_regs, h6, h5, h4, h3]
  rfl

/-- What the final steps do where the device holds nothing back. -/
theorem finalSteps_go {d : Dev} {p : Package} (hpkg : d.sec.pkg = some p) (hs : d.glob.dev = .start) (hu : d.glob.pkgUsable = true)
    (hr : d.glob.resetPhase = .none) (hm : d.memReady = true) (hstep : d.glob.step = (if d.glob.quick then 7 else 12)) :
    (d.consistent p = true → ∃ x : Dev, finalSteps d = setState (memoryActive ((((loadPackage x p).each [1, 2, 3, 4, 5] startQuad)).setGlob (fun g => { g with
        gen := p.generation, heldCause := 0, heldBack := false, step := if g.quick then 9 else 15 }))) .service)
      ∧ (d.consistent p = false → ∃ x : Dev, finalSteps d = holdInconsistent x) := by
  have hgo : (d.glob.dev != .start || !d.glob.pkgUsable || d.glob.resetPhase != .none || !d.memReady
      || decide (d.glob.step ≠ (if d.glob.quick then 7 else 12))) = false := by
    rw [hs, hu, hr, hm, hstep]
    simp
  refine ⟨fun hc => ⟨(stepThirteen d p).each (List.range 8) (fun d n => applyPort d p n), ?_⟩,
    fun hc => ⟨if d.glob.heldBack then d else stepThirteen d p, ?_⟩⟩
  · unfold finalSteps
    rw [hpkg]
    dsimp only
    rw [hgo, hc, if_neg Bool.false_ne_true, Bool.not_true, Bool.and_false, if_neg Bool.false_ne_true, if_neg Bool.false_ne_true]
  · unfold finalSteps
    rw [hpkg]
    dsimp only
    rw [hgo, hc, if_neg Bool.false_ne_true, Bool.not_false, Bool.and_true, if_pos rfl]

/-- A package that is consistent is in force in SERVICE. -/
theorem finalSteps_consistent {d : Dev} {p : Package} (hpkg : d.sec.pkg = some p) (hs : d.glob.dev = .start) (hu : d.glob.pkgUsable = true)
    (hr : d.glob.resetPhase = .none) (hm : d.memReady = true) (hstep : d.glob.step = (if d.glob.quick then 7 else 12)) (hc : d.consistent p = true) :
    let z := finalSteps d
    z.glob.dev = .service ∧ z.glob.gen = p.generation ∧ z.glob.heldCause = 0 ∧ z.glob.tableBase = p.tableBase ∧ z.glob.tableSize = p.tableSize
      ∧ z.glob.rmapBase = p.rmapBase ∧ z.glob.lockTables = true ∧ z.glob.lockRmap = true ∧ z.sec.inForce = some p := by
  obtain ⟨x, hx⟩ := (finalSteps_go hpkg hs hu hr hm hstep).1 hc
  obtain ⟨hload, hforce⟩ := loadPackage_keeps x p
  generalize loadPackage x p = d1 at *
  have hquads : (d1.each [1, 2, 3, 4, 5] startQuad).regs = d1.regs := Dev.each_regs d1 _ _ startQuad_regs
  have hsec : (d1.each [1, 2, 3, 4, 5] startQuad).sec = d1.sec :=
    Dev.each_keeps (fun x => x.sec = d1.sec) _ _ _ rfl (fun x q _ hx => (startQuad_sec x q).trans hx)
  generalize d1.each [1, 2, 3, 4, 5] startQuad = d2 at *
  have hgen : (d2.setGlob (fun g => { g with gen := p.generation, heldCause := 0, heldBack := false, step := if g.quick then 9 else 15 })).regs
      = { d2.regs with gen := p.generation, heldCause := 0, heldBack := false, step := if d2.regs.quick then 9 else 15 } := rfl
  have hactive := memoryActive_regs (d2.setGlob (fun g => { g with gen := p.generation, heldCause := 0, heldBack := false, step := if g.quick then 9 else 15 }))
  have hactiveSec := memoryActive_sec (d2.setGlob (fun g => { g with gen := p.generation, heldCause := 0, heldBack := false, step := if g.quick then 9 else 15 }))
  generalize memoryActive (d2.setGlob (fun g => { g with gen := p.generation, heldCause := 0, heldBack := false, step := if g.quick then 9 else 15 })) = d3 at *
  obtain ⟨hglob, hinForce⟩ := setState_keeps d3 .service
  rw [hgen, hquads, hload] at hactive
  rw [hx]
  dsimp only
  rw [hglob, hinForce, hactiveSec]
  exact ⟨rfl, congrArg Glob.gen hactive, congrArg Glob.heldCause hactive, congrArg Glob.tableBase hactive, congrArg Glob.tableSize hactive,
    congrArg Glob.rmapBase hactive, congrArg Glob.lockTables hactive, congrArg Glob.lockRmap hactive, (congrArg Sec.inForce hsec).trans hforce⟩

theorem finalSteps_inconsistent {d : Dev} {p : Package} (hpkg : d.sec.pkg = some p) (hs : d.glob.dev = .start) (hu : d.glob.pkgUsable = true)
    (hr : d.glob.resetPhase = .none) (hm : d.memReady = true) (hstep : d.glob.step = (if d.glob.quick then 7 else 12)) (hc : d.consistent p = false) :
    (finalSteps d).glob.dev = .held ∧ (finalSteps d).glob.heldCause = 4 := by
  obtain ⟨x, hx⟩ := (finalSteps_go hpkg hs hu hr hm hstep).2 hc
  rw [hx, holdInconsistent, (setState_keeps _ _).1]
  exact ⟨rfl, rfl⟩

/-- Settles O10, by the registers each part of start-up writes. -/
theorem packageHubAndFinalSteps : Obligations.PackageHubAndFinalSteps := by
  unfold Obligations.PackageHubAndFinalSteps
  refine ⟨⟨fun s ok d hs hfw hp hr hq hd => ?check, fun s ports quads core mc hs hp hh hr hfail d hd => ?fatal, fun s ports quads hs hh hr hsome => ?test,
    fun d ports quads p hp hf => leaveOff_port d ports quads hp hf⟩, fun s p d hpkg hs hu hr hm hstep hd => ⟨by rw [hd]; rfl, fun hc => ?_, fun hc => ?_⟩⟩
  case check =>
    subst hd
    have hregs := pkgCheck_regs (ok := ok) hs hfw hp hr hq
    have hexec : exec (.packageCheckDone ok) s = .next (s.turned (pkgCheck s.dev ok)) := rfl
    have hchecked : (pkgCheck s.dev ok).glob.pkgChecked = true := congrArg Glob.pkgChecked hregs
    have hheld : (pkgCheck s.dev ok).glob.heldCause = BitVec.ofNat 3 (s.dev.pkgCause ok) := congrArg Glob.heldCause hregs
    have hstep : (pkgCheck s.dev ok).glob.step = 7 := congrArg Glob.step hregs
    refine ⟨hexec, hchecked, ?_, hheld, hstep⟩
    exact (congrArg (· = true) (congrArg Glob.pkgUsable hregs)).to_iff.trans beq_iff_eq
  case fatal =>
    subst hd
    have hexec : exec (.hubSelfTestDone ports quads core mc) s = onDevice s (fun d => hubDone d ports quads core mc) := rfl
    have hgo : (s.dev.glob.hubTested || s.dev.glob.resetPhase != .none || !((s.dev.glob.dev == .test) || (s.dev.glob.dev == .start && s.dev.glob.pkgChecked))) = false := by
      rw [hs, hp, hh, hr]
      rfl
    rw [hexec, onDevice_turned, hubDone]
    dsimp only
    rw [hgo, hfail, if_neg Bool.false_ne_true, if_pos rfl]
  case test =>
    have hexec : exec (.hubSelfTestDone ports quads false false) s = onDevice s (fun d => hubDone d ports quads false false) := rfl
    have hgo : (s.dev.glob.hubTested || s.dev.glob.resetPhase != .none || !((s.dev.glob.dev == .test) || (s.dev.glob.dev == .start && s.dev.glob.pkgChecked))) = false := by
      rw [hs, hh, hr]
      rfl
    rw [hexec, onDevice_turned, hubDone]
    dsimp only
    rw [hgo, if_neg Bool.false_ne_true, if_neg hsome, hs]
    rfl
  · subst hd
    exact finalSteps_consistent hpkg hs hu hr hm hstep hc
  · subst hd
    exact finalSteps_inconsistent hpkg hs hu hr hm hstep hc

end Sys2Proof.Machine
end

section
/-! Proof of the statement on memory training and tile tests. -/

open Sys2Proof

namespace Sys2Proof.Machine

-- rewriting twice at one key

theorem Tab.put_put {α : Type} (t : Tab α) (n : Nat) (v w : α) : Tab.put (Tab.put t n v) n w = Tab.put t n w := by
  induction t with
  | nil => simp [Tab.put]
  | cons p t ih =>
    obtain ⟨k, x⟩ := p
    by_cases hlt : n < k
    · simp [Tab.put, hlt]
    · by_cases heq : n = k
      · simp [Tab.put, heq]
      · simp [Tab.put, hlt, heq, ih]

theorem Tab.upd_upd {α : Type} (d : α) (t : Tab α) (n : Nat) (f g : α → α) : Tab.upd d (Tab.upd d t n f) n g = Tab.upd d t n (fun x => g (f x)) := by
  rw [Tab.upd, Tab.get_upd_same, Tab.upd, Tab.put_put, Tab.upd]

theorem Dev.updTile_updTile (d : Dev) (n : Nat) (f g : Tile → Tile) : (d.updTile n f).updTile n g = d.updTile n (fun x => g (f x)) := by
  simp only [Dev.updTile, Tab.upd_upd]

-- what start-up's progress leaves of the channels

/-- The channels and memory. -/
def Dev.chansMem (d : Dev) := (d.chans, d.mem)

@[simp] theorem Dev.setGlob_chansMem (d : Dev) (f : Glob → Glob) : (d.setGlob f).chansMem = d.chansMem := rfl
@[simp] theorem Dev.updMc_chansMem (d : Dev) (n : Nat) (f : Mc → Mc) : (d.updMc n f).chansMem = d.chansMem := rfl
@[simp] theorem chanEvent_chansMem (d : Dev) (c cause cls sev dpa symbols : Nat) : (chanEvent d c cause cls sev dpa symbols).chansMem = d.chansMem := by
  simp [Dev.chansMem, chanEvent]

@[simp] theorem setState_chansMem (d : Dev) (new : DevState) : (setState d new).chansMem = d.chansMem := by
  have hresync : ∀ d : Dev, (resyncRequest d .q0).chansMem = d.chansMem := by
    intro d
    unfold resyncRequest
    repeat' split
    all_goals rfl
  unfold setState
  dsimp only
  split
  · rw [hresync]
    simp [Dev.chansMem]
  · simp [Dev.chansMem]

@[simp] theorem tilesOnline_chansMem (d : Dev) : (tilesOnline d).chansMem = d.chansMem := by
  refine Dev.each_keeps (fun x => x.chansMem = d.chansMem) _ _ _ rfl (fun x t _ hx => Eq.trans ?_ hx)
  unfold goOnline loseCells
  simp [Dev.chansMem]

@[simp] theorem ite_chansMem (c : Prop) [Decidable c] (a b : Dev) : (if c then a else b).chansMem = if c then a.chansMem else b.chansMem := by
  split <;> rfl

/-- Tiles that come on and states that are entered leave the channels and memory as they were. -/
@[simp] theorem startProgress_chansMem (d : Dev) : (startProgress d).chansMem = d.chansMem := by
  unfold startProgress
  simp only [ite_chansMem, Dev.setGlob_chansMem, setState_chansMem, tilesOnline_chansMem, ite_self]

/-- A channel that trains at the package's rate is ready, and memory is as it was. -/
theorem trained_ready {d : Dev} {c : Nat} {full : Bool} {p : Package} (hpkg : d.sec.pkg = some p) (hs : d.glob.dev = .start)
    (hst : (d.chan c).st = 1) (hfull : full ≠ d.glob.trainSaved) (pop : Population) :
    ((trained d c full (some p.rate) pop).chan c).st = 2 ∧ ((trained d c full (some p.rate) pop).chan c).trained = true
      ∧ (trained d c full (some p.rate) pop).mem = d.mem := by
  have hgo : (d.glob.dev != .start || (d.chan c).st != 1 || full == d.glob.trainSaved) = false := by
    rw [hs, hst, beq_eq_false_iff_ne.2 hfull]
    rfl
  have hslow : ¬ p.rate < p.rate := by bv_omega
  have hkept : (trained d c full (some p.rate) pop).chansMem = (d.updChan c (fun x => { x with st := 2, trained := true })).chansMem := by
    unfold trained memoryTrained
    rw [hpkg]
    dsimp only
    rw [hgo, if_neg Bool.false_ne_true, if_neg hslow]
    simp
  obtain ⟨hchans, hmem⟩ := Prod.mk.inj hkept
  rw [chan_of_chans hchans, Dev.chan_updChan]
  exact ⟨rfl, rfl, hmem⟩

-- tile tests (R392, R394)

theorem testEnds_clean (d : Dev) (t : Nat) (sig : BitVec 64) :
    testEnds d t ⟨true, false, true, sig, []⟩ = bistDone ((loseCells d t).updTile t (fun x => { x with
      bist := 2, sigMatch := true, overflow := false, signature := sig, tested := true, failedOutright := false, mapValid := true, unrepaired := 0
      fails := [], softRows := [], softGroups := [] })) t 1 := by
  have hone := Dev.updTile_updTile (loseCells d t) t (fun x => { x with
      bist := 2, sigMatch := true, overflow := false, signature := sig, tested := true, failedOutright := false, mapValid := true, unrepaired := 0
      fails := [] }) (fun x => { x with softRows := [], softGroups := [] })
  exact congrArg (fun d => bistDone d t 1) hone

/-- A test outside start-up changes its tile alone. -/
theorem tileTested_outside {d : Dev} {t : Nat} (hb : (d.tile t).bist = 1) (hs : d.glob.dev = .test) (r : BistOutcome) :
    tileTested d t r = if r.complete then testEnds d t r else (cutTest d t).updTile t (fun x => { x with tested := true, signature := r.signature }) := by
  have hdev : ∀ x : Dev, x.glob.dev = .test → (x.glob.dev == .start && x.glob.resetPhase == .none) = false := by
    intro x hx
    rw [hx]
    rfl
  have hkept : (if r.complete then testEnds d t r else (cutTest d t).updTile t (fun x => { x with tested := true, signature := r.signature })).glob.dev = .test := by
    split
    · rw [testEnds_dev, hs]
    · exact (cutTest_dev d t).trans hs
  rw [tileTested, if_neg (fun h => h hb)]
  dsimp only
  rw [hdev _ hkept, if_neg Bool.false_ne_true]

/-- A test that was cut short is incomplete and repairs nothing. -/
theorem cutTest_tile {d : Dev} {t : Nat} (hb : (d.tile t).bist = 1) :
    ((cutTest d t).tile t).bist = 3 ∧ ((cutTest d t).tile t).incomplete = true ∧ ((cutTest d t).tile t).softRows = (d.tile t).softRows
      ∧ ((cutTest d t).tile t).softGroups = (d.tile t).softGroups := by
  rw [cutTest, if_pos hb]
  dsimp only
  rw [raise_tile, Dev.tile_updTile]
  exact ⟨rfl, rfl, rfl, rfl⟩

-- requests

theorem tileTestAsked_idle {d : Dev} {t : Nat} (hr : d.glob.resetPhase = .none) (hoff : d.tileSt t = .offline) (hb : (d.tile t).bist ≠ 1)
    (hdom : d.domOn (tileDom t) = true) (hl : d.leaving (tileDom t) = false) (hdev : d.glob.dev ≠ .off) :
    tileTestAsked d t =
      if d.glob.dev == .service then if d.testsRunning = 0 then testAnswer (startTest d true t) 0 else testAnswer d 5
      else if d.glob.dev == .test then if d.testsRunning < 2 then testAnswer (startTest d false t) 0 else testAnswer d 10
      else testAnswer d 10 := by
  have hgo : (d.glob.dev == .off || d.glob.resetPhase != .none) = false := by
    rw [beq_eq_false_iff_ne.2 hdev, hr]
    rfl
  have hbusy : (d.tileSt t != .offline || (d.tile t).bist == 1 || !d.domOn (tileDom t) || d.leaving (tileDom t)) = false := by
    rw [hoff, beq_eq_false_iff_ne.2 hb, hdom, hl]
    rfl
  rw [tileTestAsked, hgo, hbusy, if_neg Bool.false_ne_true, if_neg Bool.false_ne_true]

theorem tileTestAsked_busy {d : Dev} {t : Nat} (hr : d.glob.resetPhase = .none) (hs : d.glob.dev = .service)
    (h : d.tileSt t ≠ .offline ∨ d.testsRunning ≠ 0) : tileTestAsked d t = testAnswer d 5 := by
  unfold tileTestAsked
  dsimp only
  rw [hs, hr, if_neg (by decide)]
  split
  · rfl
  · rename_i hidle
    have hrun : d.testsRunning ≠ 0 := h.resolve_left (fun hoff => hidle (by simp [bne_iff_ne.2 hoff]))
    exact if_neg hrun

theorem startTest_tile (d : Dev) (quarter : Bool) (t : Nat) :
    ((startTest d quarter t).tile t).bist = 1 ∧ ((startTest d quarter t).tile t).quarter = quarter ∧ ((startTest d quarter t).tile t).mapValid = false
      ∧ ∀ k, k ≠ t → (startTest d quarter t).tile k = d.tile k := by
  rw [startTest, Dev.tile_updTile]
  exact ⟨rfl, rfl, rfl, fun k hk => Dev.tile_updTile_other _ _ hk⟩

/-- Settles O11, by the outcome of a channel's training and of a tile's test, and by what the state lets be asked. -/
theorem trainingAndTileTests : Obligations.TrainingAndTileTests := by
  unfold Obligations.TrainingAndTileTests
  refine ⟨fun s c full pop p hpkg hs hst hfull => ?failed, fun s c full pop p d hpkg hrate hs hst hfull hd => ?ready, fun s t sig hs hb d hd => ?clean,
    fun s t sig hs hb d hd => ?cut, fun s t hr hoff hb hdom hl hs hn d hd => ?service, fun s t hr hoff hb hdom hl hs hn => ?test,
    fun s t hr hs h => ?busy, fun s hs hr => ?hub, fun s hs hr => ?hubRefused, fun s c hs => ?retrain, fun s c hs hr => ?full⟩
  case failed =>
    have hexec : exec (.memoryTrainingDone c full none pop) s = onDevice s (fun d => trained d c.val full none pop) := rfl
    have hgo : (s.dev.glob.dev != .start || (s.dev.chan c.val).st != 1 || full == s.dev.glob.trainSaved) = false := by
      rw [hs, hst, beq_eq_false_iff_ne.2 hfull]
      rfl
    rw [hexec, onDevice_turned, trained, hpkg]
    dsimp only
    rw [hgo, if_neg Bool.false_ne_true]
  case ready =>
    subst hd
    have hwf : (Instr.memoryTrainingDone c full (some p.rate) pop).wf = true := decide_eq_true hrate
    exact ⟨checked_turned hwf, trained_ready hpkg hs hst hfull pop⟩
  case clean =>
    subst hd
    have hexec : exec (.tileSelfTestDone t ⟨true, false, true, sig, []⟩) s = onDevice s (fun d => tileTested d t.val ⟨true, false, true, sig, []⟩) := rfl
    refine ⟨?_, ?_⟩
    · rw [hexec, onDevice_turned, tileTested_outside hb hs, if_pos rfl, testEnds_clean]
    · rw [Dev.tile_updTile]
      refine ⟨rfl, rfl, rfl, rfl, rfl, rfl, fun c hc => ?_⟩
      have hmem : c ∈ (s.dev.rawCells).filter (fun c => !decide (c.1 / 2 ^ 28 = t.val)) := hc
      simpa using (List.mem_filter.1 hmem).2
  case cut =>
    subst hd
    obtain ⟨hbist, hinc, hrows, hgroups⟩ := cutTest_tile hb
    have hexec : exec (.tileSelfTestDone t ⟨false, false, false, sig, []⟩) s = .next (s.turned (tileTested s.dev t.val ⟨false, false, false, sig, []⟩)) := rfl
    refine ⟨hexec, ?_⟩
    rw [tileTested_outside hb hs, if_neg Bool.false_ne_true, Dev.tile_updTile]
    exact ⟨hbist, hinc, hrows, hgroups⟩
  case service =>
    subst hd
    obtain ⟨hbist, hquarter, hmap, hother⟩ := startTest_tile s.dev true t.val
    have hexec : exec (.tileTestRequest t) s = onDevice s (fun d => tileTestAsked d t.val) := rfl
    refine ⟨?_, hbist, hquarter, hmap, rfl, hother⟩
    rw [hexec, onDevice_turned, tileTestAsked_idle hr hoff hb hdom hl (by rw [hs]; decide), hs]
    exact congrArg (fun d => Host.Outcome.next (s.turned d)) (if_pos hn)
  case test =>
    have hexec : exec (.tileTestRequest t) s = onDevice s (fun d => tileTestAsked d t.val) := rfl
    rw [hexec, onDevice_turned, tileTestAsked_idle hr hoff hb hdom hl (by rw [hs]; decide), hs, if_neg (by decide)]
    exact congrArg (fun d => Host.Outcome.next (s.turned d)) (if_pos hn)
  case busy =>
    have hexec : exec (.tileTestRequest t) s = onDevice s (fun d => tileTestAsked d t.val) := rfl
    rw [hexec, onDevice_turned, tileTestAsked_busy hr hs h]
    rfl
  case hub =>
    have hexec : exec .hubBistRequest s = onDevice s hubTestAsked := rfl
    rw [hexec, onDevice_turned, hubTestAsked, hs, hr]
    rfl
  case hubRefused =>
    have hexec : exec .hubBistRequest s = onDevice s hubTestAsked := rfl
    rw [hexec, onDevice_turned, hubTestAsked, hr]
    rcases hs with hs | hs | hs <;> rw [hs] <;> rfl
  case retrain =>
    have hexec : ∀ k, exec (.channelRetrainingRequest c k) s = onDevice s (fun d => retrainAsked d c.val k) := fun _ => rfl
    have hoff : (s.dev.glob.dev == .off) = false := beq_eq_false_iff_ne.2 hs
    rw [hexec, hexec, onDevice_turned, onDevice_turned, retrainAsked, retrainAsked, hoff]
    exact ⟨rfl, rfl⟩
  case full =>
    have hexec : ∀ k, exec (.channelRetrainingRequest c k) s = onDevice s (fun d => retrainAsked d c.val k) := fun _ => rfl
    rw [hexec, onDevice_turned, retrainAsked, hr]
    rcases hs with hs | hs | hs <;> rw [hs] <;> rfl

end Sys2Proof.Machine
end

section
/-! What a port's link keeps as agents resign, and the proof of the statement on links. -/

open Sys2Proof

namespace Sys2Proof.Machine

-- the link of a port

/-- A port, its BISnps under way and its LDs aside. -/
def Dev.linkOf (d : Dev) (p : Nat) : Port := { d.port p with snoops := [], lds := [] }

theorem linkOf_of_ports {d d' : Dev} (h : d'.ports = d.ports) (p : Nat) : d'.linkOf p = d.linkOf p := by
  rw [Dev.linkOf, Dev.port, h]
  rfl

theorem linkOf_updPort (d : Dev) (n : Nat) (f : Port → Port) (hf : ∀ x, { f x with snoops := [], lds := [] } = { x with snoops := [], lds := [] })
    (p : Nat) : (d.updPort n f).linkOf p = d.linkOf p := by
  rw [Dev.linkOf]
  by_cases hp : p = n
  · rw [hp, Dev.port_updPort]
    exact hf _
  · rw [Dev.port_updPort_other _ _ hp]
    rfl

@[simp] theorem updLd_linkOf (d : Dev) (n m : Nat) (f : Ld → Ld) (p : Nat) : (d.updLd n m f).linkOf p = d.linkOf p :=
  linkOf_updPort d n (fun x => { x with lds := Tab.upd {} x.lds m f }) (fun _ => rfl) p

theorem Dev.each_linkOf {α : Type} (d : Dev) (l : List α) (f : Dev → α → Dev) (p : Nat) (h : ∀ d a, (f d a).linkOf p = d.linkOf p) :
    (d.each l f).linkOf p = d.linkOf p :=
  Dev.each_keeps (fun x => x.linkOf p = d.linkOf p) d l f rfl (fun x a _ hx => (h x a).trans hx)

@[simp] theorem raise_linkOf (d : Dev) (src cls sev : Nat) (i : Info) (p : Nat) : (raise d src cls sev i).linkOf p = d.linkOf p :=
  linkOf_of_ports (by simp) p

@[simp] theorem logErr_linkOf (d : Dev) (f : Fail) (p : Nat) : (logErr d f).linkOf p = d.linkOf p := linkOf_of_ports (by simp) p

theorem popFails_ports (d : Dev) (e : Nat) : (popFails d e).ports = d.ports := by
  unfold popFails
  split <;> simp

theorem pushFails_ports (d : Dev) (e n : Nat) : (pushFails d e n).ports = d.ports := by
  unfold pushFails
  split
  · split <;> simp
  · rfl

/-- Closing a pair is no change of any port. -/
@[simp] theorem closePair_ports (d : Dev) (n cause : Nat) : (closePair d n cause).ports = d.ports := by
  have hpop : ∀ (d : Dev) (l : List Nat), (d.each l popFails).ports = d.ports := fun d l =>
    Dev.each_keeps (fun x => x.ports = d.ports) d l _ rfl (fun x a _ hx => (popFails_ports x a).trans hx)
  have hpush : ∀ (d : Dev) (l : List Nat), (d.each l (fun d e => pushFails d e n)).ports = d.ports := fun d l =>
    Dev.each_keeps (fun x => x.ports = d.ports) d l _ rfl (fun x a _ hx => (pushFails_ports x a n).trans hx)
  unfold closePair
  dsimp only
  split
  · rfl
  · split
    · rw [hpush, hpop]
      rfl
    · rw [(raise_frame _ _ _ _ _).2.2.1, hpush, hpop]
      rfl

theorem closePair_linkOf (d : Dev) (n cause p : Nat) : (closePair d n cause).linkOf p = d.linkOf p :=
  linkOf_of_ports (closePair_ports d n cause) p

theorem closePortPairs_linkOf (d : Dev) (port cause p : Nat) : (closePortPairs d port cause).linkOf p = d.linkOf p := by
  refine Dev.each_linkOf _ _ _ p (fun d n => ?_)
  split
  · exact closePair_linkOf d n cause p
  · rfl

/-- A resignation leaves every port's link as it was. -/
@[simp] theorem resign_linkOf (d : Dev) (a : BitVec 12) (cause p : Nat) : (resign d a cause).linkOf p = d.linkOf p := by
  have hpark : ∀ d : Dev, (if d.park.st = 1 then { d with park := { d.park with resigned := true } } else d).linkOf p = d.linkOf p := by
    intro d
    split <;> rfl
  have hbind : ∀ (d : Dev) (q m : Nat) (e : BitVec 4) (b : Bool), (if cause = 3 then ldBind d q m a e false b else d).linkOf p = d.linkOf p := by
    intro d q m e b
    split
    · exact raise_linkOf _ _ _ _ _ _
    · rfl
  have hoffers : ∀ (d : Dev) (q m : Nat), (withdrawOffers d q m).linkOf p = d.linkOf p := fun d q m => updLd_linkOf d q m _ p
  unfold resign
  split
  · rfl
  · split
    · rfl
    · rename_i x _ _
      have hup : ∀ d : Dev, (((d.updAgent a (fun y => { y with attached := false, cause := BitVec.ofNat 3 cause })).updPort x.port
          (fun q => { q with snoops := q.snoops.filter (fun s => s.agent != a) })).updLd x.port x.ld
          (fun l => if cause = 1 ∨ cause = 3 then { l with st := .unbound } else { l with st := .resigned })).linkOf p = d.linkOf p := by
        intro d
        rw [updLd_linkOf]
        exact linkOf_updPort (d.updAgent a _) x.port (fun q => { q with snoops := q.snoops.filter (fun s => s.agent != a) })
          (fun _ => rfl) p
      dsimp only
      split
      · exact (hoffers _ _ _).trans ((hbind _ _ _ _ _).trans ((raise_linkOf _ _ _ _ _ _).trans ((hpark _).trans (hup d))))
      · refine Eq.trans (Dev.each_linkOf _ _ _ p (fun d s => ?_))
          ((hoffers _ _ _).trans ((hbind _ _ _ _ _).trans ((raise_linkOf _ _ _ _ _ _).trans ((hpark _).trans (hup d)))))
        split
        · exact Dev.each_linkOf _ _ _ p (fun d k => logErr_linkOf _ _ _)
        · rfl

-- a port that goes down, trains and comes up

/-- A link that is up goes down: the port's link is as R54 says, with one drop counted. -/
theorem linkDown_up {d : Dev} {p : Nat} (code : Nat) (hr : d.glob.resetPhase = .none) (hup : (d.port p).link = .up) :
    (linkDown d p code).linkOf p = { (d.linkOf p) with
      link := .down, width := 0, rate := 0, flit256 := false, lopt := false, degraded := false, drops := satInc 32 (d.port p).drops } := by
  have hn : (d.glob.resetPhase != .none) = false := by rw [hr]; rfl
  unfold linkDown
  rw [if_neg (by rw [hn]; exact Bool.false_ne_true), hup]
  dsimp only
  rw [raise_linkOf, closePortPairs_linkOf, Dev.each_linkOf _ _ _ p (fun d m => updLd_linkOf d p m _ p),
    Dev.each_linkOf _ _ _ p (fun d a => resign_linkOf d _ 1 p), Dev.linkOf, Dev.port_updPort]
  rfl

/-- A link that goes down is down afterwards, and its PERST_N is as it was. -/
theorem linkDown_down (d : Dev) (p code : Nat) :
    ((linkDown d p code).port p).link = .down ∧ ((linkDown d p code).port p).perst = (d.port p).perst := by
  by_cases hr : d.glob.resetPhase = .none
  · cases hl : (d.port p).link with
    | up =>
      have h := linkDown_up code hr hl
      have hperst := congrArg Port.perst h
      exact ⟨congrArg Port.link h, hperst⟩
    | _ =>
      have hn : (d.glob.resetPhase != .none) = false := by rw [hr]; rfl
      unfold linkDown
      rw [if_neg (by rw [hn]; exact Bool.false_ne_true), hl]
      simp [hl]
  · have hn : (d.glob.resetPhase != .none) = true := bne_iff_ne.mpr hr
    unfold linkDown
    rw [if_pos hn, Dev.port_updPort]
    exact ⟨rfl, rfl⟩

/-- Training starts at a port that can train and whose link is down, and nowhere else. -/
theorem startTrain_cases (d : Dev) (p : Nat) :
    (d.canTrain p = true ∧ (d.port p).link = .down ∧ startTrain d p = d.updPort p (fun x => { x with link := .training }))
    ∨ ((d.canTrain p = false ∨ (d.port p).link ≠ .down) ∧ startTrain d p = d) := by
  unfold startTrain
  cases hc : d.canTrain p
  · exact .inr ⟨.inl rfl, rfl⟩
  · by_cases hl : (d.port p).link = .down
    · exact .inl ⟨rfl, hl, if_pos (by rw [hl]; rfl)⟩
    · exact .inr ⟨.inr hl, if_neg (by simpa using hl)⟩

/-- What a port needs to train. -/
theorem canTrain_iff (d : Dev) (p : Nat) : d.canTrain p = true ↔
    d.domOn (portDom p) = true ∧ d.leaving (portDom p) = false ∧ (d.port p).perst = false ∧ (d.port p).refclkLost = false
      ∧ d.pwr.unlocked.getLsbD (p + 2) = false ∧ (d.port p).cfg.disabled = false ∧ (d.port p).failed = false
      ∧ (d.port p).released = true := by
  simp [Dev.canTrain, and_assoc]

/-- A link that may come up opens as it trained, and is degraded when it is below a limit (R33, R56). -/
theorem reachL0_opens {d : Dev} {p : Nat} {width rate : BitVec 2} {flit256 lopt : Bool} (hc : d.canTrain p = true)
    (hu : (d.port p).link ≠ .up) (hw : width ≤ (d.port p).cfg.maxWidth) (hr : rate ≤ (d.port p).cfg.maxRate)
    (hf : flit256 = true ∨ (rate ≠ 3 ∧ lopt = false)) :
    (reachL0 d p width rate flit256 lopt).linkOf p = { (d.linkOf p) with
      link := .up, width := width, rate := rate, flit256 := flit256, lopt := lopt,
      degraded := decide (width < (d.port p).cfg.maxWidth) || decide (rate < (d.port p).cfg.maxRate) } := by
  have hmem : ∀ (d : Dev) (q : Bool), (if q = true then
        d.each (List.range (d.ldsOf p)) (fun d m => d.updLd p m (fun l => { l with memActive := true, memInfoValid := true }))
      else d).linkOf p = d.linkOf p := by
    intro d q
    split
    · exact Dev.each_linkOf _ _ _ p (fun d m => updLd_linkOf d p m _ p)
    · rfl
  have hstep : ∀ (d : Dev) (q : Bool), (if q = true then d.setGlob (fun g => { g with step := 10 }) else d).linkOf p = d.linkOf p := by
    intro d q
    split <;> rfl
  unfold reachL0
  dsimp only
  rw [if_neg]
  · split <;> simp only [raiseDegraded, raise_linkOf, hstep, hmem] <;> rw [Dev.linkOf, Dev.port_updPort] <;> rfl
  · simp only [hc, Bool.or_eq_true, not_or]
    refine ⟨⟨⟨⟨by simpa using hu, by simp⟩, by simpa using BitVec.not_lt.mpr hw⟩, by simpa using BitVec.not_lt.mpr hr⟩, ?_⟩
    obtain hf | ⟨h3, hl⟩ := hf
    · simp [hf]
    · simpa [hl] using fun _ => h3

/-- A link that may not come up changes nothing. -/
theorem reachL0_stays {d : Dev} {p : Nat} {width rate : BitVec 2} {flit256 lopt : Bool}
    (h : (d.port p).link = .up ∨ d.canTrain p = false ∨ (d.port p).cfg.maxWidth < width ∨ (d.port p).cfg.maxRate < rate
      ∨ (flit256 = false ∧ (rate = 3 ∨ lopt = true))) : reachL0 d p width rate flit256 lopt = d := by
  unfold reachL0
  refine if_pos ?_
  obtain h | h | h | h | ⟨h, h3⟩ := h
  · simp [h]
  · simp [h]
  · simp [h]
  · simp [h]
  · obtain h3 | h3 := h3 <;> simp [h, h3]

/-- Settles O12: what each command on a link does to its port. -/
theorem linkCommands : Obligations.LinkCommands := by
  refine ⟨fun s p hdis => ?_, fun s p d hdis hd => ?_, fun s p d hd => ?_, fun s p width rate flit256 lopt d hw hr hd => ?_,
    fun s p cause d hup hd => ?_, fun s p cause hup => ?_, fun s p => ?_, fun s p e hup => ?_, fun s p e hup => ?_, fun s p count hup hc => ?_⟩
  · have hexec : exec (.perstNAssert p) s = onDevice s (fun d => perstLow d p.val) := rfl
    rw [hexec, onDevice_turned, perstLow]
    exact congrArg (fun d => Host.Outcome.next (s.turned d)) (if_pos hdis)
  · have hexec : exec (.perstNAssert p) s = onDevice s (fun d => perstLow d p.val) := rfl
    have hlow : perstLow s.dev p.val = d := by
      rw [hd]
      exact if_neg (by rw [hdis]; exact Bool.false_ne_true)
    obtain ⟨hlink, hperst⟩ := linkDown_down (s.dev.updPort p.val (fun x => { x with perst := true })) p.val 4
    rw [hexec, onDevice_turned, hlow]
    refine ⟨rfl, ?_, hd ▸ hlink⟩
    rw [hd, hperst, Dev.port_updPort]
  · have hexec : exec (.perstNRelease p) s = onDevice s (fun d =>
        startTrain (d.updPort p.val (fun x => { x with perst := false, perstT := d.glob.time })) p.val) := rfl
    have hcan := canTrain_iff (s.dev.updPort p.val (fun x => { x with perst := false, perstT := s.dev.glob.time })) p.val
    have hport : ((s.dev.updPort p.val (fun x => { x with perst := false, perstT := s.dev.glob.time })).port p.val)
        = { (s.dev.port p.val) with perst := false, perstT := s.dev.glob.time } := Dev.port_updPort _ _ _
    rw [hport] at hcan
    rw [hexec, onDevice_turned, hd]
    refine ⟨rfl, ?_⟩
    obtain ⟨hc, hl, heq⟩ | ⟨hno, heq⟩ := startTrain_cases (s.dev.updPort p.val (fun x => { x with perst := false, perstT := s.dev.glob.time })) p.val
    · rw [heq, Dev.port_updPort, hport]
      rw [hport] at hl
      refine ⟨rfl, rfl, rfl, fun _ _ _ _ _ _ _ _ => rfl, fun h => ?_⟩
      obtain ⟨h1, h2, -, h4, h5, h6, h7, h8⟩ := hcan.mp hc
      obtain h | h | h | h | h | h | h | h := h
      · exact absurd hl h
      · exact absurd (h1.symm.trans h) Bool.noConfusion
      · exact absurd (h2.symm.trans h) Bool.noConfusion
      · exact absurd (h4.symm.trans h) Bool.noConfusion
      · exact absurd (h5.symm.trans h) Bool.noConfusion
      · exact absurd (h6.symm.trans h) Bool.noConfusion
      · exact absurd (h7.symm.trans h) Bool.noConfusion
      · exact absurd (h8.symm.trans h) Bool.noConfusion
    · rw [heq, hport]
      rw [hport] at hno
      refine ⟨rfl, rfl, rfl, fun h0 h1 h2 h4 h5 h6 h7 h8 => ?_, fun _ => rfl⟩
      obtain hno | hno := hno
      · exact absurd ((hcan.mpr ⟨h1, h2, rfl, h4, h5, h6, h7, h8⟩).symm.trans hno) Bool.noConfusion
      · exact absurd h0 hno
  · have hwf : (Instr.linkUp p width rate flit256 lopt).wf = true := by
      rw [Instr.wf, decide_eq_true hw, decide_eq_true hr]
      rfl
    have hexec : exec (.linkUp p width rate flit256 lopt) s = if (Instr.linkUp p width rate flit256 lopt).wf then
        onDevice s (fun d => reachL0 d p.val width rate flit256 lopt) else .fault .illFormed := rfl
    rw [hexec, if_pos hwf, onDevice_turned, ← hd]
    refine ⟨rfl, fun hc hu hw hr hf => ?_, fun h => hd.trans (reachL0_stays h)⟩
    have hopen := reachL0_opens hc hu hw hr hf
    rw [← hd] at hopen
    exact ⟨congrArg Port.link hopen, congrArg Port.width hopen, congrArg Port.rate hopen, congrArg Port.flit256 hopen,
      congrArg Port.lopt hopen, congrArg Port.degraded hopen⟩
  · have hexec : exec (.linkDrop p cause) s = onDevice s (fun d =>
        if (d.port p.val).link == .up then linkDown d p.val (dropCode cause) else d) := rfl
    rw [hexec, onDevice_turned, if_pos (by rw [hup]; rfl), ← hd]
    refine ⟨rfl, hd ▸ (linkDown_down s.dev p.val (dropCode cause)).1, fun hr => ?_⟩
    have h := linkDown_up (dropCode cause) hr hup
    rw [← hd] at h
    exact ⟨congrArg Port.drops h, congrArg Port.width h⟩
  · have hexec : exec (.linkDrop p cause) s = onDevice s (fun d =>
        if (d.port p.val).link == .up then linkDown d p.val (dropCode cause) else d) := rfl
    rw [hexec, onDevice_turned, if_neg (by simpa using hup)]
  · have hexec : exec (.linkReplay p none) s = onDevice s (fun d => replayed d p.val none) := rfl
    rw [hexec, onDevice_turned]
    rfl
  · have hexec : exec (.linkReplay p (some e)) s = onDevice s (fun d => replayed d p.val (some e)) := rfl
    rw [hexec, onDevice_turned, replayed]
    exact congrArg (fun d => Host.Outcome.next (s.turned d)) (if_pos (by rw [hup]; rfl))
  · have hexec : exec (.linkReplay p (some e)) s = onDevice s (fun d => replayed d p.val (some e)) := rfl
    rw [hexec, onDevice_turned, replayed]
    exact congrArg (fun d => Host.Outcome.next (s.turned d)) (if_neg (by simpa using hup))
  · have hexec : exec (.replayThreshold p count) s = onDevice s (fun d =>
        if (d.port p.val).link == .up && decide ((d.port p.val).replayThresh < count) then
          raise d (8 * p.val + 3) 0 1 (info count.toNat) else d) := rfl
    rw [hexec, onDevice_turned, if_pos (by rw [hup, decide_eq_true hc]; rfl)]

end Sys2Proof.Machine
end

section
/-! Lost clocks, PLLs that lose and regain their lock, and a temperature sample. -/

open Sys2Proof

namespace Sys2Proof.Machine

-- what waits for a clock

theorem takeWaits_of_none {d : Dev} (h : d.waits = []) : takeWaits d = d := by
  obtain ⟨⟩ := d
  cases h
  rfl

theorem takeAnswers_of_none {d : Dev} (h : d.answers = []) : takeAnswers d = d := by
  obtain ⟨⟩ := d
  cases h
  rfl

/-- A PLL that had lost its lock regains it: what follows depends on whose PLL it is (R459). -/
theorem pllBack_of_unlocked {d : Dev} {i : Nat} (h : d.pwr.unlocked.getLsbD i = true) :
    pllBack d i = if 2 ≤ i ∧ i ≤ 9 then if (d.port (i - 2)).refclkLost then d else takeWaits (startTrain (pllIn d i) (i - 2))
      else if i = 10 then takeWaits (takeAnswers (pllIn d i)) else takeWaits (pllIn d i) := by
  unfold pllBack
  exact if_neg (by rw [h]; exact Bool.false_ne_true)

theorem pllBack_of_locked {d : Dev} {i : Nat} (h : d.pwr.unlocked.getLsbD i = false) : pllBack d i = d := by
  unfold pllBack
  exact if_pos (by rw [h]; rfl)

theorem pllOut_running {d : Dev} {i : Nat} (hon : d.domOn (islandDom i) = true) (hl : d.pwr.unlocked.getLsbD i = false) :
    pllOut d i = raise (d.setPwr (fun q => { q with unlocked := q.unlocked ||| BitVec.ofNat 29 (2 ^ i) })) 486 2 2 (info i) :=
  if_neg (by rw [hon, hl]; exact Bool.false_ne_true)

-- temperature

/-- Reading a sensor leaves the device's registers and its throttle level as they are. -/
theorem takeReading_keeps (d : Dev) (i : Nat) (r : Option Int) :
    (takeReading d i r).glob = d.glob ∧ (takeReading d i r).pwr.level = d.pwr.level := by
  unfold takeReading
  dsimp only
  split
  · exact ⟨rfl, rfl⟩
  · cases r with
    | some t => exact ⟨rfl, rfl⟩
    | none =>
      dsimp only
      simp [Dev.setPwr]

/-- With no valid sensor a sample moves nothing. -/
theorem sample_of_no_sensor {d : Dev} {r : List (Option Int)}
    (h : (d.each (List.range 24) (fun d i => takeReading d i (r.getD i none))).hottest = none) :
    (sample d r).glob = d.glob ∧ (sample d r).pwr.level = d.pwr.level := by
  unfold sample
  dsimp only
  rw [h]
  exact Dev.each_keeps (fun x => x.glob = d.glob ∧ x.pwr.level = d.pwr.level) d _ _ ⟨rfl, rfl⟩ (fun x i _ hx =>
    ⟨(takeReading_keeps x i _).1.trans hx.1, (takeReading_keeps x i _).2.trans hx.2⟩)

theorem throttle_level (d : Dev) (i tj : Nat) : (throttle d i tj).pwr.level = BitVec.ofNat 2 (d.pwr.nextLevel tj) := by
  unfold throttle
  dsimp only
  split
  · next h => rw [h, BitVec.ofNat_toNat, BitVec.setWidth_eq]
  · simp [Dev.setPwr]

theorem thermPin_thermN (d : Dev) (i tj : Nat) : (thermPin d i tj).glob.thermN
    = (d.pwr.shut || decide (d.pwr.thermAt ≤ tj) || (d.glob.thermN && decide (d.pwr.thermAt < tj + 3))) := by
  unfold thermPin
  dsimp only
  split
  · next h => exact h.symm
  · rw [(raise_frame _ _ _ _ _).1]
    rfl

/-- The throttle level that a temperature asks for, where throttling is on (R461). -/
theorem nextLevel_enabled {p : Pwr} (tj : Nat) (h : p.thmCtrl.getLsbD 14 = true) :
    p.nextLevel tj = if p.throttleAt + 3 ≤ tj ∨ (p.level = 2 ∧ p.throttleAt < tj + 2) then 2
      else if p.throttleAt ≤ tj ∨ (p.level ≠ 0 ∧ p.throttleAt < tj + 5) then 1 else 0 := by
  unfold Pwr.nextLevel
  dsimp only
  exact if_neg (by rw [h]; exact Bool.false_ne_true)

theorem nextLevel_disabled {p : Pwr} (tj : Nat) (h : p.thmCtrl.getLsbD 14 = false) : p.nextLevel tj = 0 := by
  unfold Pwr.nextLevel
  exact if_pos (by rw [h]; rfl)

/-- Settles O13: clocks that are lost and return, and what a temperature sample does. -/
theorem clocksAndTemperature : Obligations.ClocksAndTemperature := by
  refine ⟨⟨fun s p h => ?_, fun s p h => ?_, fun d i hon hl => pllOut_running hon hl, fun d i hl => ?_, fun s h => ?_,
    fun s i d hon hl hd => ?_, fun s i hl hi => ?_, fun s hl => ?_, fun s i hl h2 h9 => ?_, fun s i hl => ?_,
    fun d => ⟨takeWaits_of_none, takeAnswers_of_none⟩⟩,
    fun s r hr hoff => ?_, fun d r h => sample_of_no_sensor h, fun p tj h h1 => ?_, fun p tj h h1 h2 h3 => ?_, fun p tj h h1 => ?_,
    fun p tj h => nextLevel_disabled tj h, throttle_level, thermPin_thermN⟩
  · have hexec : exec (.refclkLoss p) s = onDevice s (fun d => refclkGone d p.val) := rfl
    rw [hexec, onDevice_turned, refclkGone, if_neg (by rw [h]; exact Bool.false_ne_true)]
  · have hexec : exec (.refclkRestore p) s = onDevice s (fun d => refclkBack d p.val) := rfl
    rw [hexec, onDevice_turned, refclkBack, if_neg (by rw [h]; exact Bool.false_ne_true)]
  · exact if_neg (by rw [hl]; exact Bool.false_ne_true)
  · have hexec : exec .xinLoss s = onDevice s (fun d =>
        if d.pwr.xinLost then d else raise (d.setPwr (fun q => { q with xinLost := true })) 485 2 2 0) := rfl
    rw [hexec, onDevice_turned, if_neg (by rw [h]; exact Bool.false_ne_true)]
  · have hexec : exec (.pllUnlock i) s = onDevice s (fun d => pllLost d i.val) := rfl
    rw [hexec, onDevice_turned, pllLost, if_neg (by rw [hon, hl]; exact Bool.false_ne_true), pllOut_running hon hl, ← hd]
  · have hexec : exec (.pllRelock i) s = onDevice s (fun d => pllBack d i.val) := rfl
    rw [hexec, onDevice_turned, pllBack_of_unlocked hl, if_neg (by omega), if_neg (by omega)]
  · have hexec : exec (.pllRelock 10) s = onDevice s (fun d => pllBack d 10) := rfl
    rw [hexec, onDevice_turned, pllBack_of_unlocked hl, if_neg (by decide), if_pos rfl]
  · have hexec : exec (.pllRelock i) s = onDevice s (fun d => pllBack d i.val) := rfl
    rw [hexec, onDevice_turned, pllBack_of_unlocked hl, if_pos ⟨h2, h9⟩]
    exact ⟨fun hc => by rw [if_neg (by rw [hc]; exact Bool.false_ne_true)], fun hc => by rw [if_pos hc]⟩
  · have hexec : exec (.pllRelock i) s = onDevice s (fun d => pllBack d i.val) := rfl
    rw [hexec, onDevice_turned, pllBack_of_locked hl]
  · have hexec : exec (.thermalSample r) s = if r.length = 24 then
        onDevice s (fun d => if d.glob.dev == .off then d else sample d r) else .fault .illFormed := rfl
    rw [hexec, if_pos hr, onDevice_turned, if_neg (by simpa using hoff)]
  · rw [nextLevel_enabled tj h, if_pos (.inl h1)]
  · rw [nextLevel_enabled tj h, if_neg (by simp [h3]; omega), if_pos (.inl h1)]
  · rw [nextLevel_enabled tj h, if_neg (by omega), if_neg (by omega)]

end Sys2Proof.Machine
end

section
/-! HDM decoders and Mem_Enable: agents that attach and that resign. -/

open Sys2Proof

namespace Sys2Proof.Machine

-- an agent attaches

theorem ldBind_ld (d : Dev) (p m : Nat) (a : BitVec 12) (ep : BitVec 4) (att db : Bool) (q k : Nat) :
    (ldBind d p m a ep att db).ld q k = d.ld q k :=
  ld_of_ports (raise_frame _ _ _ _ _).2.2.1 q k

/-- What `attach` does to the LD it attaches. -/
theorem attach_ld (d : Dev) (p m : Nat) : (attach d p m).ld p m = { (d.ld p m) with
    st := .attached, agent := BitVec.ofNat 12 d.nextAgent, epoch := Tab.get 0 d.epochs d.nextAgent + 1
    hdmDb := (d.port p).flit256 && (d.ld p m).biEnable, view := Tab.get 0 d.binds (16 * p + m)
    gran := BitVec.ofNat 2 (descGran ((d.desc? (Tab.get 0 d.binds (16 * p + m))).getD 0)) } := by
  have hld : ∀ (d : Dev) (es : Tab (BitVec 4)) (as : Tab Agent) (a : Nat),
      (({ d with epochs := es, agents := as } : Dev).setGlob (fun g => { g with lastId := a })).ld p m = d.ld p m := fun _ _ _ _ => rfl
  unfold attach
  dsimp only
  rw [ldBind_ld, Dev.ld_updLd, hld]

/-- What `attach` does to the agents, their epochs and the ID allocated last. -/
theorem attach_agents (d : Dev) (p m : Nat) :
    (attach d p m).agents = Tab.put d.agents d.nextAgent { port := p, ld := m, epoch := Tab.get 0 d.epochs d.nextAgent + 1
                                                           hdmDb := (d.port p).flit256 && (d.ld p m).biEnable
                                                           view := Tab.get 0 d.binds (16 * p + m) }
      ∧ (attach d p m).epochs = Tab.put d.epochs d.nextAgent (Tab.get 0 d.epochs d.nextAgent + 1)
      ∧ (attach d p m).glob.lastId = d.nextAgent := by
  have hraise : ∀ (d : Dev) (src cls sev : Nat) (i : Info), (raise d src cls sev i).glob = d.glob
      ∧ (raise d src cls sev i).agents = d.agents ∧ (raise d src cls sev i).epochs = d.epochs := by simp
  have hset : ∀ (d : Dev) (es : Tab (BitVec 4)) (as : Tab Agent) (a : Nat) (f : Ld → Ld),
      ((({ d with epochs := es, agents := as } : Dev).setGlob (fun g => { g with lastId := a })).updLd p m f).agents = as
      ∧ ((({ d with epochs := es, agents := as } : Dev).setGlob (fun g => { g with lastId := a })).updLd p m f).epochs = es
      ∧ ((({ d with epochs := es, agents := as } : Dev).setGlob (fun g => { g with lastId := a })).updLd p m f).glob.lastId = a :=
    fun _ _ _ _ _ => ⟨rfl, rfl, rfl⟩
  unfold attach ldBind
  dsimp only
  rw [(hraise _ _ _ _ _).1, (hraise _ _ _ _ _).2.1, (hraise _ _ _ _ _).2.2]
  exact hset _ _ _ _ _

theorem nextAgent_of {d d' : Dev} (ha : d'.agents = d.agents) (hl : d'.glob.lastId = d.glob.lastId) : d'.nextAgent = d.nextAgent := by
  rw [Dev.nextAgent, Dev.nextAgent, ha, hl]

-- an agent resigns

/-- An LD's decoder: committed, and refused. -/
def Ld.decoder (l : Ld) : Bool × Bool := (l.committed, l.errNotCommitted)

theorem updLd_decoder (d : Dev) (n k : Nat) (f : Ld → Ld) (hf : ∀ l, (f l).decoder = l.decoder) (p m : Nat) :
    ((d.updLd n k f).ld p m).decoder = (d.ld p m).decoder := by
  by_cases h : p = n ∧ m = k
  · rw [h.1, h.2, Dev.ld_updLd, hf]
  · rw [Dev.ld_updLd_other _ _ (by omega)]

theorem decoder_of_ports {d d' : Dev} (h : d'.ports = d.ports) (p m : Nat) : (d'.ld p m).decoder = (d.ld p m).decoder := by
  rw [ld_of_ports h]

/-- A resignation leaves every LD's decoder as it was. -/
theorem resign_decoder (d : Dev) (a : BitVec 12) (cause p m : Nat) : ((resign d a cause).ld p m).decoder = (d.ld p m).decoder := by
  have hpark : ∀ d : Dev, ((if d.park.st = 1 then { d with park := { d.park with resigned := true } } else d).ld p m).decoder
      = (d.ld p m).decoder := by
    intro d
    split <;> rfl
  have hbind : ∀ (d : Dev) (q k : Nat) (e : BitVec 4) (b : Bool), ((if cause = 3 then ldBind d q k a e false b else d).ld p m).decoder
      = (d.ld p m).decoder := by
    intro d q k e b
    split
    · rw [ldBind_ld]
    · rfl
  have hoffers : ∀ (d : Dev) (q k : Nat), ((withdrawOffers d q k).ld p m).decoder = (d.ld p m).decoder :=
    fun d q k => updLd_decoder d q k (fun l => { l with extents := l.extents.filter (·.accepted) }) (fun _ => rfl) p m
  have hend : ∀ (d : Dev) (q k : Nat), ((d.updLd q k (fun l => if cause = 1 ∨ cause = 3 then { l with st := .unbound } else { l with st := .resigned })).ld p m).decoder
      = (d.ld p m).decoder := fun d q k => updLd_decoder d q k _ (fun l => by split <;> rfl) p m
  have hport : ∀ (d : Dev) (q : Nat), ((d.updPort q (fun y => { y with snoops := y.snoops.filter (fun s => s.agent != a) })).ld p m) = d.ld p m := by
    intro d q
    rw [Dev.ld, Dev.ld]
    by_cases h : p = q
    · rw [h, Dev.port_updPort]
    · rw [Dev.port_updPort_other _ _ h]
  unfold resign
  split
  · rfl
  · split
    · rfl
    · rename_i x _ _
      dsimp only
      have hcut : ∀ d : Dev, (((d.updAgent a (fun y => { y with attached := false, cause := BitVec.ofNat 3 cause })).updPort x.port
          (fun q => { q with snoops := q.snoops.filter (fun s => s.agent != a) })).ld p m).decoder = (d.ld p m).decoder := by
        intro d
        rw [hport]
        rfl
      split
      · rw [hoffers, hbind, decoder_of_ports (raise_frame _ _ _ _ _).2.2.1, hpark]
        exact (hend _ _ _).trans (hcut d)
      · refine Eq.trans (Dev.each_keeps (fun z => (z.ld p m).decoder = _) _ (List.range 16) _ rfl (fun z s _ hz => ?_))
          ((hoffers _ _ _).trans ((hbind _ _ _ _ _).trans ((decoder_of_ports (raise_frame _ _ _ _ _).2.2.1 p m).trans
            ((hpark _).trans ((hend _ _ _).trans (hcut d))))))
        split
        · exact Dev.each_keeps (fun y => (y.ld p m).decoder = _) z _ _ hz (fun y k _ hy =>
            (decoder_of_ports (by simp) p m).trans hy)
        · exact hz

/-- An agent of HDM-H that resigns keeps its record, no longer attached, with the cause. -/
theorem resign_agent {d : Dev} {a : BitVec 12} {x : Agent} (cause : Nat) (hx : d.agent? a = some x) (hatt : x.attached = true)
    (hdb : x.hdmDb = false) : (resign d a cause).agent? a = some { x with attached := false, cause := BitVec.ofNat 3 cause } := by
  have hpark : ∀ d : Dev, (if d.park.st = 1 then { d with park := { d.park with resigned := true } } else d).agents = d.agents := by
    intro d
    split <;> rfl
  have hbind : ∀ (d : Dev) (q m : Nat) (e : BitVec 4) (b : Bool), (if cause = 3 then ldBind d q m a e false b else d).agents = d.agents := by
    intro d q m e b
    split
    · exact (raise_frame _ _ _ _ _).2.2.2.2.1
    · rfl
  have hoffers : ∀ (d : Dev) (q m : Nat), (withdrawOffers d q m).agents = d.agents := fun _ _ _ => rfl
  have hupd : (d.updAgent a (fun y => { y with attached := false, cause := BitVec.ofNat 3 cause })).agent? a
      = some { x with attached := false, cause := BitVec.ofNat 3 cause } := by
    have hget : Tab.get {} d.agents a.toNat = x := by
      rw [Tab.get]
      exact congrArg (fun o => o.getD {}) hx
    rw [Dev.agent?, Dev.updAgent, Tab.upd, Tab.find_put_same, hget]
  unfold resign
  rw [hx]
  dsimp only
  rw [if_neg (by rw [hatt]; exact Bool.false_ne_true), if_pos (by rw [hdb]; rfl), Dev.agent?, hoffers, hbind,
    (raise_frame _ _ _ _ _).2.2.2.2.1, hpark]
  exact hupd

-- commit and Mem_Enable

theorem commit_of_refused {d : Dev} {p m size r : Nat} (base : Nat) (hp : d.ldPresent p m = true) (hc : (d.ld p m).committed = false)
    (h : d.attachCheck p m size = some r) : commit d p m base size
      = raise (d.updLd p m (fun l => { l with errNotCommitted := true })) 451 0 1 (info (m + fld 4 p + fld 7 r)) := by
  unfold commit
  rw [if_neg (by rw [hp, hc]; exact Bool.false_ne_true), h]

/-- A commit that passes its checks takes the base and the size, and the LD attaches where Mem_Enable is set. -/
theorem commit_of_passed {d : Dev} {p m size : Nat} (base : Nat) (hp : d.ldPresent p m = true) (hc : (d.ld p m).committed = false)
    (h : d.attachCheck p m size = none) :
    ∃ d' : Dev, d'.agents = d.agents ∧ d'.glob.lastId = d.glob.lastId
      ∧ d'.ld p m = { (d.ld p m) with committed := true, errNotCommitted := false, base := base, size := size }
      ∧ commit d p m base size = if (d.ld p m).memEnable then attach d' p m else d' := by
  have hld : ∀ (d : Dev) (o : Origin) (off n old new : Nat), (journalReg d o off n old new).ld p m = d.ld p m :=
    fun d o off n old new => ld_of_ports (by simp) p m
  refine ⟨journalReg (d.updLd p m (fun l => { l with committed := true, errNotCommitted := false, base := base, size := size }))
    (.host (Fin.ofNat 8 p) (Fin.ofNat 16 m)) hdmCtlOff 4 (d.ld p m).hdmCtl
    ((d.updLd p m (fun l => { l with committed := true, errNotCommitted := false, base := base, size := size })).ld p m).hdmCtl,
    by simp, by simp, ?_, ?_⟩
  · rw [hld, Dev.ld_updLd]
  · unfold commit
    rw [if_neg (by rw [hp, hc]; exact Bool.false_ne_true), h]
    dsimp only
    rw [hld, Dev.ld_updLd]

/-- Mem_Enable is set in the LD, whose agent attaches where its decoder is committed and the device serves. -/
theorem memOn_of_taken {d : Dev} {p m : Nat} (h : d.configTakes p m = true) :
    ∃ d' : Dev, d'.agents = d.agents ∧ d'.glob.lastId = d.glob.lastId
      ∧ (d'.ld p m).memEnable = true ∧ (d'.ld p m).st = (d.ld p m).st
      ∧ memOn d p m = if (d.ld p m).place && d.inService then attach d' p m else d' := by
  refine ⟨d.drawn.updLd p m (fun l => { l with memEnable := true, viralEnable := decide (Config.wire 8 d.glob.draws % 2 = 1) }),
    rfl, rfl, ?_, ?_, ?_⟩
  · rw [Dev.ld_updLd]
  · rw [Dev.ld_updLd]
    rfl
  · unfold memOn
    rw [if_neg (by rw [h]; exact Bool.false_ne_true)]
    dsimp only
    rw [Dev.ld_updLd]
    rfl

theorem detach_of_unbound {d : Dev} {p m : Nat} (h : (d.ld p m).st = .unbound) : detach d p m = d := by
  unfold detach
  dsimp only
  rw [h]

theorem detach_of_attached {d : Dev} {p m : Nat} (h : (d.ld p m).st = .attached) : detach d p m = resign d (d.ld p m).agent 3 := by
  unfold detach
  dsimp only
  rw [h]

theorem detach_decoder (d : Dev) (p m : Nat) : ((detach d p m).ld p m).decoder = (d.ld p m).decoder := by
  cases h : (d.ld p m).st with
  | attached => rw [detach_of_attached h, resign_decoder]
  | unbound => rw [detach_of_unbound h]
  | resigned =>
    unfold detach
    dsimp only
    rw [h]
    dsimp only
    rw [ldBind_ld]
    exact updLd_decoder d p m (fun x => { x with st := .unbound }) (fun _ => rfl) p m

/-- A decoder that is uncommitted, and then the agent that detaches. -/
theorem uncommit_of_present {d : Dev} {p m : Nat} (h : d.ldPresent p m = true) :
    ∃ d' : Dev, d'.agents = d.agents ∧ d'.ld p m = { (d.ld p m) with committed := false, errNotCommitted := false }
      ∧ uncommit d p m = detach d' p m := by
  have hj : ∀ d' : Dev, d' = (if (d.ld p m).committed then
        journalReg d (.host (Fin.ofNat 8 p) (Fin.ofNat 16 m)) hdmCtlOff 4 (d.ld p m).hdmCtl 0 else d) →
      d'.agents = d.agents ∧ d'.ld p m = d.ld p m := by
    intro d' hd
    split at hd
    · rw [hd]
      exact ⟨by simp, ld_of_ports (by simp) p m⟩
    · rw [hd]
      exact ⟨rfl, rfl⟩
  obtain ⟨ha, hl⟩ := hj _ rfl
  refine ⟨(if (d.ld p m).committed then journalReg d (.host (Fin.ofNat 8 p) (Fin.ofNat 16 m)) hdmCtlOff 4 (d.ld p m).hdmCtl 0
    else d).updLd p m (fun l => { l with committed := false, errNotCommitted := false }), ha, ?_, ?_⟩
  · rw [Dev.ld_updLd, hl]
  · unfold uncommit
    exact if_neg (by rw [h]; exact Bool.false_ne_true)

/-- Settles O14: the HDM decoder, Mem_Enable, and agents that attach. -/
theorem decodersAndAgents : Obligations.DecodersAndAgents := by
  refine ⟨⟨fun s p ld base size r hb hp hc h => ?_, fun s p ld base size d hb hp hc h hd => ?_, fun s p ld d ht hd => ?_,
    fun s p ld d hp hd => ?_, fun s p ld ht hst => ?_, fun s p ld ht hst => ?_, fun s p ld hf => ?_⟩, fun d p m hp hm => ?_⟩
  · have hexec : exec (.hdmDecoderCommit p ld base size) s = if base < 2 ^ 52 then
        onDevice s (fun d => commit d p.val ld.val base size) else .fault .illFormed := rfl
    rw [hexec, if_pos hb, onDevice_turned, commit_of_refused base hp hc h]
  · have hexec : exec (.hdmDecoderCommit p ld base size) s = if base < 2 ^ 52 then
        onDevice s (fun d => commit d p.val ld.val base size) else .fault .illFormed := rfl
    obtain ⟨d', hag, hid, hld, hcommit⟩ := commit_of_passed base hp hc h
    rw [hexec, if_pos hb, onDevice_turned, ← hd]
    refine ⟨rfl, ?_⟩
    rw [hd, hcommit]
    cases hm : (s.dev.ld p.val ld.val).memEnable
    · rw [if_neg Bool.false_ne_true, hld]
      exact ⟨rfl, rfl, rfl, rfl, fun _ => hag, fun hc => absurd hc Bool.false_ne_true⟩
    · rw [if_pos rfl, attach_ld, hld, nextAgent_of hag hid]
      exact ⟨rfl, rfl, rfl, rfl, fun hc => absurd hc.symm Bool.false_ne_true, fun _ => ⟨rfl, rfl⟩⟩
  · have hexec : exec (.memEnableSet p ld) s = onDevice s (fun d => memOn d p.val ld.val) := rfl
    obtain ⟨d', hag, hid, hme, hst, hon⟩ := memOn_of_taken ht
    rw [hexec, onDevice_turned, ← hd]
    refine ⟨rfl, ?_⟩
    rw [hd, hon]
    by_cases hb : (s.dev.ld p.val ld.val).place = true ∧ s.dev.inService = true
    · rw [if_pos (by rw [hb.1, hb.2]; rfl), attach_ld, nextAgent_of hag hid]
      refine ⟨hme, fun _ _ => ⟨rfl, rfl⟩, fun hno => ?_⟩
      obtain hno | hno := hno
      · exact absurd (hb.1.symm.trans hno) Bool.noConfusion
      · exact absurd (hb.2.symm.trans hno) Bool.noConfusion
    · rw [if_neg (by simpa using hb)]
      exact ⟨hme, fun h1 h2 => absurd ⟨h1, h2⟩ hb, fun _ => ⟨hag, hst⟩⟩
  · have hexec : exec (.hdmDecoderUncommit p ld) s = onDevice s (fun d => uncommit d p.val ld.val) := rfl
    obtain ⟨d', hag, hld, hun⟩ := uncommit_of_present hp
    have hst : (d'.ld p.val ld.val).st = (s.dev.ld p.val ld.val).st := by rw [hld]
    have hagent : (d'.ld p.val ld.val).agent = (s.dev.ld p.val ld.val).agent := by rw [hld]
    have hdec := detach_decoder d' p.val ld.val
    rw [hld] at hdec
    rw [hexec, onDevice_turned, ← hd]
    refine ⟨rfl, ?_⟩
    rw [hd, hun]
    refine ⟨congrArg Prod.fst hdec, congrArg Prod.snd hdec, fun h => ?_, fun h x hx hatt hdb => ?_⟩
    · rw [detach_of_unbound (hst.trans h), hag]
    · rw [detach_of_attached (hst.trans h), hagent]
      have hx' : d'.agent? (s.dev.ld p.val ld.val).agent = some x := by
        rw [Dev.agent?, hag]
        exact hx
      exact resign_agent 3 hx' hatt hdb
  · have hexec : exec (.memEnableClear p ld) s = onDevice s (fun d => if d.configTakes p.val ld.val then
        detach (d.updLd p.val ld.val (fun l => { l with memEnable := false })) p.val ld.val else d) := rfl
    rw [hexec, onDevice_turned, if_pos ht, detach_of_unbound]
    rw [Dev.ld_updLd]
    exact hst
  · have hexec : exec (.memEnableClear p ld) s = onDevice s (fun d => if d.configTakes p.val ld.val then
        detach (d.updLd p.val ld.val (fun l => { l with memEnable := false })) p.val ld.val else d) := rfl
    rw [hexec, onDevice_turned, if_pos ht, detach_of_attached, Dev.ld_updLd]
    rw [Dev.ld_updLd]
    exact hst
  · have hno : ¬ s.dev.configTakes p.val ld.val = true := by
      rw [Dev.configTakes, hf, Bool.and_false]
      exact Bool.false_ne_true
    have hset : exec (.memEnableSet p ld) s = onDevice s (fun d => memOn d p.val ld.val) := rfl
    have hclear : exec (.memEnableClear p ld) s = onDevice s (fun d => if d.configTakes p.val ld.val then
        detach (d.updLd p.val ld.val (fun l => { l with memEnable := false })) p.val ld.val else d) := rfl
    rw [hset, hclear, onDevice_turned, onDevice_turned, if_neg hno, memOn, if_pos (by simpa using hno)]
    exact ⟨rfl, rfl⟩
  · obtain ⟨hag, hep, hid⟩ := attach_agents d p m
    have hld := attach_ld d p m
    refine ⟨hag, ?_, hid, ?_, ?_⟩
    · rw [hep, Tab.get_put_same]
    · rw [hld]
    · rw [hld]

end Sys2Proof.Machine
end

section
/-! The beginning of a full reset, the end of its drain, and the loss and return of the supplies. -/

open Sys2Proof

namespace Sys2Proof.Machine

-- the retained log

theorem rlogPut_same (d : Dev) (i : Nat) {w : Word} (hw : w ≠ 0) : Tab.get 0 (rlogPut d i w).err.rlog i = w := by
  rw [rlogPut, Dev.setErr, if_neg hw, Tab.get_put_same]

theorem rlogPut_other (d : Dev) {i k : Nat} (w : Word) (h : k ≠ i) : Tab.get 0 (rlogPut d i w).err.rlog k = Tab.get 0 d.err.rlog k := by
  rw [rlogPut, Dev.setErr]
  dsimp only
  split
  · rw [Tab.get, Tab.find_del_other _ h, Tab.get]
  · exact Tab.get_put_other 0 _ _ h

theorem rlogFrom_other (d : Dev) {i k : Nat} (ws : List Word) (h : k < i) : Tab.get 0 (rlogFrom d i ws).err.rlog k = Tab.get 0 d.err.rlog k :=
  Dev.each_keeps (fun x => Tab.get 0 x.err.rlog k = Tab.get 0 d.err.rlog k) d _ _ rfl
    (fun x j _ hx => (rlogPut_other x _ (by omega)).trans hx)

theorem rlogFrom_glob (d : Dev) (i : Nat) (ws : List Word) : (rlogFrom d i ws).glob = d.glob :=
  Dev.each_keeps (fun x => x.glob = d.glob) d _ _ rfl (fun _ _ _ hx => hx)

theorem rlogFrom_sec (d : Dev) (i : Nat) (ws : List Word) : (rlogFrom d i ws).sec = d.sec :=
  Dev.each_keeps (fun x => x.sec = d.sec) d _ _ rfl (fun _ _ _ hx => hx)

/-- Slot 0 counts at least the reset that writes it. -/
theorem resetSlot0_ne_zero (old : Word) (src : ResetSrc) : resetSlot0 old src ≠ 0 := by
  have hb : b2n (old.getLsbD 8) ≤ 1 := by
    unfold b2n
    split <;> omega
  have hcode : src.code ≤ 4 := by cases src <;> decide
  intro h
  have h' : (resetSlot0 old src).toNat = 0 := by rw [h]; rfl
  simp only [resetSlot0, fld, BitVec.toNat_ofNat] at h'
  omega

/-- The retained log at the beginning of a reset names its source in slot 0. -/
theorem resetLog_slot0 (d : Dev) (src : ResetSrc) : Tab.get 0 (resetLog d src).err.rlog 0 = resetSlot0 (d.rlogAt 0) src := by
  unfold resetLog
  dsimp only
  rw [rlogFrom_other _ _ (by decide), rlogPut_other _ _ (by decide), rlogFrom_other _ _ (by decide), rlogPut_other _ _ (by decide),
    rlogPut_other _ _ (by decide), rlogPut_same _ _ (resetSlot0_ne_zero _ _)]

theorem resetLog_glob (d : Dev) (src : ResetSrc) : (resetLog d src).glob = d.glob := by
  have hput : ∀ (x : Dev) (i : Nat) (w : Word), (rlogPut x i w).glob = x.glob := fun _ _ _ => rfl
  unfold resetLog
  dsimp only
  rw [rlogFrom_glob, hput, rlogFrom_glob, hput, hput, hput]
  rfl

-- tests cut short

/-- What a test that is cut short leaves alone: the errors, the keys, and of the registers the pin and the state. -/
def Dev.uncut (d : Dev) : Err × Sec × Bool × DevState := (d.err, d.sec, d.glob.rstHigh, d.glob.dev)

theorem cutTest_uncut (d : Dev) (t : Nat) : (cutTest d t).uncut = d.uncut := by
  unfold cutTest
  split
  · simp [Dev.uncut, loseCells]
  · rfl

theorem cutTests_uncut (d : Dev) : (cutTests d).uncut = d.uncut := by
  unfold cutTests
  exact Dev.each_keeps (fun x => x.uncut = d.uncut) d (List.range 8) cutTest rfl (fun x t _ hx => (cutTest_uncut x t).trans hx)

-- a reset begins

theorem logErr_rlog (d : Dev) (f : Fail) : (logErr d f).err.rlog = d.err.rlog := by
  have hdrop : ∀ d : Dev, (dropLog d).err.rlog = d.err.rlog := by
    intro d
    unfold dropLog
    dsimp only
    split
    · rfl
    · simp [Dev.setErr]
  unfold logErr
  dsimp only
  split
  · rfl
  · split
    · rfl
    · split
      · exact hdrop d
      · split
        · rfl
        · exact hdrop d

/-- Every entry of the write buffers starts to drain; nothing else of the device moves but the record of an entry that cannot be
corrected. -/
theorem drainEntry_keeps (d : Dev) (m : Nat) (ue : List Nat) (e : WbEntry) :
    (drainEntry d m ue e).glob = d.glob ∧ (drainEntry d m ue e).xacts = d.xacts ∧ (drainEntry d m ue e).movers = d.movers
      ∧ (drainEntry d m ue e).q0work = d.q0work ∧ (drainEntry d m ue e).labis = d.labis ∧ (drainEntry d m ue e).pwr = d.pwr
      ∧ (drainEntry d m ue e).engines = d.engines ∧ (drainEntry d m ue e).err.rlog = d.err.rlog := by
  unfold drainEntry wbUeFound
  dsimp only
  split
  · simp [logErr_rlog]
  · simp

/-- The drain of all write buffers, likewise. -/
theorem drains_keep (d : Dev) (l : List Nat := [0, 1, 2, 3]) :
    let d' := d.each l (fun d m => drainAll (endBatches d m) m)
    d'.glob = d.glob ∧ d'.xacts = d.xacts ∧ d'.movers = d.movers ∧ d'.q0work = d.q0work ∧ d'.labis = d.labis ∧ d'.pwr = d.pwr
      ∧ d'.engines = d.engines ∧ d'.err.rlog = d.err.rlog := by
  refine Dev.each_keeps (fun x => x.glob = d.glob ∧ x.xacts = d.xacts ∧ x.movers = d.movers ∧ x.q0work = d.q0work ∧ x.labis = d.labis
    ∧ x.pwr = d.pwr ∧ x.engines = d.engines ∧ x.err.rlog = d.err.rlog) d l _ ⟨rfl, rfl, rfl, rfl, rfl, rfl, rfl, rfl⟩ (fun x m _ hx => ?_)
  refine Dev.each_keeps (fun y => y.glob = d.glob ∧ y.xacts = d.xacts ∧ y.movers = d.movers ∧ y.q0work = d.q0work ∧ y.labis = d.labis
    ∧ y.pwr = d.pwr ∧ y.engines = d.engines ∧ y.err.rlog = d.err.rlog) (endBatches x m) _ _ ?_ (fun y e _ hy => ?_)
  · exact Dev.each_keeps (fun y => y.glob = d.glob ∧ y.xacts = d.xacts ∧ y.movers = d.movers ∧ y.q0work = d.q0work ∧ y.labis = d.labis
      ∧ y.pwr = d.pwr ∧ y.engines = d.engines ∧ y.err.rlog = d.err.rlog) x _ _ hx (fun _ _ _ hy => hy)
  · obtain ⟨k1, k2, k3, k4, k5, k6, k7, k8⟩ := drainEntry_keeps y m [] e
    rw [k1, k2, k3, k4, k5, k6, k7, k8]
    exact hy

/-- An engine of a table whose every entry lost its call and its stores has neither. -/
theorem find_map_discarded (t : Tab Engine) (e : Nat) :
    let x := Tab.get ({} : Engine) (t.map (fun (x : Nat × Engine) => (x.1, { x.2 with sb := [], nt := [], call := none, popped := none, running := none }))) e
    x.call = none ∧ x.sb = [] := by
  induction t with
  | nil => exact ⟨rfl, rfl⟩
  | cons y t ih =>
    dsimp only [Tab.get] at ih ⊢
    rw [List.map_cons, Tab.find]
    split
    · exact ⟨rfl, rfl⟩
    · exact ih

/-- What a reset begun leaves of the device, before the write buffers start to drain. -/
theorem beginReset_drains {d : Dev} {src : ResetSrc} (role origin : Nat) (hoff : d.glob.dev ≠ .off) (hp : d.glob.resetPhase ≠ .draining) :
    ∃ d' : Dev, beginReset d src role origin = d'.each [0, 1, 2, 3] (fun d m => drainAll (endBatches d m) m)
      ∧ d'.glob.resetPhase = .draining ∧ d'.glob.faultN = false ∧ d'.glob.rstHigh = d.glob.rstHigh
      ∧ d'.xacts = [] ∧ d'.movers = [] ∧ d'.q0work = [] ∧ d'.labis = [] ∧ d'.pwr.waiting = [] ∧ d'.pwr.busy = none
      ∧ (∀ e, (d'.engine e).call = none ∧ (d'.engine e).sb = []) ∧ Tab.get 0 d'.err.rlog 0 = resetSlot0 (d.rlogAt 0) src := by
  obtain ⟨hg, -, -, -, -, -, -, -, -, -, -, -, -, -, -, -, -, -, he, -⟩ :=
    journal_frame d { role := role, action := 5, origin := origin, target := src.code }
  have hlog : Tab.get 0 (resetLog (journal d { role := role, action := 5, origin := origin, target := src.code }) src).err.rlog 0
      = resetSlot0 (d.rlogAt 0) src := by
    rw [resetLog_slot0, Dev.rlogAt, he, Dev.rlogAt]
  have hpin : (resetLog (journal d { role := role, action := 5, origin := origin, target := src.code }) src).glob.rstHigh
      = d.glob.rstHigh := by
    rw [resetLog_glob, hg]
  have hcut := cutTests_uncut (resetLog (journal d { role := role, action := 5, origin := origin, target := src.code }) src)
  have herr := congrArg Prod.fst hcut
  have hrst := congrArg (fun x => x.2.2.1) hcut
  dsimp only [Dev.uncut] at herr hrst
  unfold beginReset
  rw [if_neg (by simp [hoff, hp])]
  dsimp only
  rw [← hrst] at hpin
  rw [← herr] at hlog
  generalize cutTests _ = x at hpin hlog ⊢
  exact ⟨_, rfl, rfl, rfl, hpin, rfl, rfl, rfl, rfl, rfl, rfl, fun e => find_map_discarded _ e, hlog⟩

/-- What a full reset that begins has done at once (R231, R401). -/
theorem beginReset_begun {d : Dev} {src : ResetSrc} (role origin : Nat) (hoff : d.glob.dev ≠ .off) (hp : d.glob.resetPhase ≠ .draining) :
    (beginReset d src role origin).glob.resetPhase = .draining ∧ (beginReset d src role origin).glob.faultN = false
      ∧ (beginReset d src role origin).glob.rstHigh = d.glob.rstHigh
      ∧ (beginReset d src role origin).xacts = [] ∧ (beginReset d src role origin).movers = [] ∧ (beginReset d src role origin).q0work = []
      ∧ (beginReset d src role origin).labis = [] ∧ (beginReset d src role origin).pwr.waiting = []
      ∧ (beginReset d src role origin).pwr.busy = none
      ∧ (∀ e, ((beginReset d src role origin).engine e).call = none ∧ ((beginReset d src role origin).engine e).sb = [])
      ∧ Tab.get 0 (beginReset d src role origin).err.rlog 0 = resetSlot0 (d.rlogAt 0) src := by
  obtain ⟨d', heq, h1, h2, h3, h4, h5, h6, h7, h8, h9, h10, h11⟩ := beginReset_drains (src := src) role origin hoff hp
  rw [heq]
  obtain ⟨kg, kx, km, kq, kl, kp, ke, kr⟩ := drains_keep d'
  rw [kg, kx, km, kq, kl, kp, kr]
  refine ⟨h1, h2, h3, h4, h5, h6, h7, h8, h9, fun e => ?_, h11⟩
  rw [Dev.engine, ke]
  exact h10 e

-- the end of the drain

/-- Writing the repairs that wait changes no register of the device's state and no key. -/
theorem finishRepairs_sec (d : Dev) (l : List Nat) : (d.each l finishRepairs).sec = d.sec := by
  have hstore : ∀ (d : Dev) (line : Nat) (data : Line) (p c : Bool), (storeLine d line data p c).sec = d.sec := by
    intro d line data p c
    simp [storeLine]
  refine Dev.each_keeps (fun x => x.sec = d.sec) d l _ rfl (fun x m _ hx => ?_)
  refine Dev.each_keeps (fun y => y.sec = d.sec) x _ _ hx (fun y j _ hy => ?_)
  split
  · exact Dev.each_keeps (fun z => z.sec = d.sec) y _ _ hy (fun z r _ hz => by simpa [hstore] using hz)
  · exact hy

/-- Entering a state changes none of memory, agents, engines, power and errors, nor the floor and the installer. -/
theorem setState_rest (d : Dev) (new : DevState) : (setState d new).agents = d.agents ∧ (setState d new).engines = d.engines
    ∧ (setState d new).pwr = d.pwr ∧ (setState d new).err = d.err ∧ (setState d new).sec.floor = d.sec.floor
    ∧ (setState d new).sec.installer = d.sec.installer := by
  have hreq : ∀ (d : Dev) (o : Origin), (resyncRequest d o).agents = d.agents ∧ (resyncRequest d o).engines = d.engines
      ∧ (resyncRequest d o).pwr = d.pwr ∧ (resyncRequest d o).err = d.err ∧ (resyncRequest d o).sec = d.sec := by
    intro d o
    unfold resyncRequest
    split
    · exact ⟨rfl, rfl, rfl, rfl, rfl⟩
    · split
      · split <;> exact ⟨rfl, rfl, rfl, rfl, rfl⟩
      · exact ⟨rfl, rfl, rfl, rfl, rfl⟩
  unfold setState
  dsimp only
  split
  · obtain ⟨ha, he, hp, hr, hs⟩ := hreq (raise (journal (d.setGlob (fun g => { g with
      dev := new, fullBist := g.fullBist && !(d.glob.dev == .start), fullTrain := g.fullTrain && !(d.glob.dev == .start) }))
      { action := 4, target := d.glob.dev.code + fld 3 new.code }) 461 (stateClass new).1 (stateClass new).2
      (info (d.glob.dev.code + fld 3 new.code + fld 6 (journal (d.setGlob (fun g => { g with
      dev := new, fullBist := g.fullBist && !(d.glob.dev == .start), fullTrain := g.fullTrain && !(d.glob.dev == .start) }))
      { action := 4, target := d.glob.dev.code + fld 3 new.code }).glob.heldCause.toNat + fld 9 (b2n (journal (d.setGlob (fun g => { g with
      dev := new, fullBist := g.fullBist && !(d.glob.dev == .start), fullTrain := g.fullTrain && !(d.glob.dev == .start) }))
      { action := 4, target := d.glob.dev.code + fld 3 new.code }).glob.quick)))) .q0
    rw [ha, he, hp, hr, hs]
    simp
  · simp

/-- The domains after their reset, whatever the drain left in the retained log. -/
theorem drainEnd_resets {d : Dev} (clean : Bool) (hp : d.glob.resetPhase = .draining) :
    ∃ x : Dev, x.sec = d.sec ∧ x.mem = (d.each [0, 1, 2, 3] finishRepairs).mem
      ∧ drainEnd d clean = if (x.glob.dev == .start) then resetDomains x (clean && d.glob.cleanStep5)
        else setState ((resetDomains x (clean && d.glob.cleanStep5)).setGlob (fun g => { g with dev := x.glob.dev })) .start := by
  have hclean : ∀ x : Dev, ∀ y : Dev, y = (if (clean && d.glob.cleanStep5) = true then rlogPut x 0 (x.rlogAt 0 ||| 0x80) else x) →
      y.sec = x.sec ∧ y.mem = x.mem := by
    intro x y hy
    split at hy <;> rw [hy] <;> exact ⟨rfl, rfl⟩
  obtain ⟨hs, hm⟩ := hclean (d.each [0, 1, 2, 3] finishRepairs) _ rfl
  unfold drainEnd
  rw [if_neg (by rw [hp]; exact Bool.false_ne_true)]
  dsimp only
  refine ⟨_, ?_, ?_, rfl⟩
  · rw [rlogFrom_sec, rlogFrom_sec, hs, finishRepairs_sec]
  · rw [rlogFrom_mem, rlogFrom_mem, hm]

/-- What the end of a drain leaves (R231 steps 4 to 7). -/
theorem drainEnd_leaves {d : Dev} (clean : Bool) (hp : d.glob.resetPhase = .draining) :
    (drainEnd d clean).glob.dev = .start ∧ (drainEnd d clean).glob.resetPhase = .held ∧ (drainEnd d clean).pwr.on = 1
      ∧ (drainEnd d clean).mem = (if clean && d.glob.cleanStep5 then (d.each [0, 1, 2, 3] finishRepairs).mem else Memory.undefined)
      ∧ (drainEnd d clean).agents = [] ∧ (drainEnd d clean).engines = [] ∧ (drainEnd d clean).sec.floor = d.sec.floor
      ∧ (drainEnd d clean).sec.installer = d.sec.installer := by
  obtain ⟨x, hs, hm, hend⟩ := drainEnd_resets clean hp
  have hfloor : x.sec.floor = d.sec.floor := congrArg Sec.floor hs
  have hinst : x.sec.installer = d.sec.installer := congrArg Sec.installer hs
  rw [hend]
  generalize (clean && d.glob.cleanStep5) = c
  rw [← hm, ← hfloor, ← hinst]
  split
  · exact ⟨rfl, rfl, rfl, rfl, rfl, rfl, rfl, rfl⟩
  · obtain ⟨ha, he, hpw, -, hf, hi⟩ := setState_rest ((resetDomains x c).setGlob (fun g => { g with dev := x.glob.dev })) .start
    rw [(setState_keeps _ _).1, ha, he, hpw, hf, hi, setState_mem]
    exact ⟨rfl, rfl, rfl, rfl, rfl, rfl, rfl, rfl⟩

-- the supplies

theorem supplyLost_keeps (d : Dev) : (supplyLost (cutTests d)).glob.dev = .off ∧ (supplyLost (cutTests d)).pwr.on = 0
    ∧ (supplyLost (cutTests d)).mem = Memory.undefined ∧ (supplyLost (cutTests d)).sec.floorFuse = d.sec.floorFuse
    ∧ (supplyLost (cutTests d)).sec.fuses = d.sec.fuses := by
  have hcut := congrArg (fun x => x.2.1) (cutTests_uncut d)
  dsimp only [Dev.uncut] at hcut
  rw [← hcut]
  generalize cutTests d = x
  exact ⟨rfl, rfl, rfl, rfl, rfl⟩

theorem rebuildJournal_keeps (d : Dev) : (rebuildJournal d).glob = d.glob ∧ (rebuildJournal d).pwr = d.pwr ∧ (rebuildJournal d).err = d.err := by
  unfold rebuildJournal
  dsimp only
  split
  · exact ⟨rfl, rfl, rfl⟩
  · split <;> simp

/-- DEV_RST_N that rises in a device with supplies samples the straps. -/
theorem pinHigh_on {d : Dev} (straps : BitVec 4) (h : d.glob.dev ≠ .off) : pinHigh d straps
    = (d.setGlob (fun g => { g with rstHigh := true, riseT := g.time, straps := straps, supplies := true })).setPwr
      (fun q => { q with xinLost := false }) := by
  unfold pinHigh
  exact if_neg (by simpa using h)

/-- DEV_RST_N that rises out of OFF begins start-up with the always-on domain alone. -/
theorem pinHigh_off {d : Dev} (straps : BitVec 4) (h : d.glob.dev = .off) :
    (pinHigh d straps).glob = { d.glob with
        rstHigh := true, riseT := d.glob.time, straps := straps, supplies := true, step := 1, dev := .start }
      ∧ (pinHigh d straps).mem = d.mem ∧ (pinHigh d straps).pwr = { d.pwr with xinLost := false, on := 1 }
      ∧ (pinHigh d straps).err = Err.atPowerOn := by
  have hnot : ((d.glob.dev == .start) : Bool) = false := by rw [h]; rfl
  unfold pinHigh
  dsimp only
  rw [if_pos (by rw [h]; rfl), (setState_keeps _ _).1, setState_mem, (setState_rest _ _).2.2.1, (setState_rest _ _).2.2.2.1,
    (rebuildJournal_keeps _).1, (rebuildJournal_keeps _).2.1, (rebuildJournal_keeps _).2.2, rebuildJournal_mem]
  refine ⟨?_, rfl, rfl, rfl⟩
  dsimp only [Dev.setGlob, Dev.setPwr]
  rw [hnot, Bool.not_false, Bool.and_true, Bool.and_true]

/-- Settles O15: how a full reset begins and ends, and the loss and return of the supplies. -/
theorem fullReset : Obligations.FullReset := by
  refine ⟨fun s hh => ?_, fun s hh => ?_, fun s r o hr ho => ?_, fun s clean hp => ⟨rfl, drainEnd_leaves clean hp⟩, fun s hoff => ?_,
    fun s straps hh hoff => ?_, fun s straps h => ?_⟩
  · have hexec : exec .devRstNAssert s = onDevice s (fun d => if d.glob.rstHigh then pinLow d else d) := rfl
    rw [hexec, onDevice_turned, if_pos hh]
    refine ⟨rfl, fun hoff hp => ?_⟩
    obtain ⟨h1, h2, h3, h4, h5, h6, h7, h8, h9, h10, h11⟩ := beginReset_begun (src := .pin)
      (d := s.dev.setGlob (fun g => { g with rstHigh := false, alertN := false, faultN := false })) 0 0 hoff hp
    exact ⟨h1, h3, h2, h4, h5, h6, h7, h8, h9, h10, h11⟩
  · have hexec : exec .devRstNAssert s = onDevice s (fun d => if d.glob.rstHigh then pinLow d else d) := rfl
    rw [hexec, onDevice_turned, if_neg (by rw [hh]; exact Bool.false_ne_true)]
  · have hexec : exec .managementResetRequest s = onDevice s (fun d => beginReset d .mgmt (originRole .mgmt) (originField .mgmt)) := rfl
    rw [hexec, onDevice_turned, ← hr, ← ho]
    refine ⟨rfl, fun hoff hp => ?_⟩
    obtain ⟨h1, h2, -, h4, h5, h6, h7, h8, h9, h10, h11⟩ := beginReset_begun (src := .mgmt) r o hoff hp
    exact ⟨h1, h2, h4, h5, h6, h7, h8, h9, fun e => (h10 e).1, h11⟩
  · have hexec : exec .supplyLoss s = onDevice s (fun d => if d.glob.dev == .off then d else supplyLost (cutTests d)) := rfl
    rw [hexec, onDevice_turned, if_neg (by simpa using hoff)]
    exact ⟨rfl, supplyLost_keeps s.dev⟩
  · have hexec : exec (.devRstNRelease straps) s = onDevice s (fun d =>
        if d.glob.rstHigh && d.glob.dev != .off then d else pinHigh d straps) := rfl
    rw [hexec, onDevice_turned, if_pos (by simp [hh, hoff])]
  · have hexec : exec (.devRstNRelease straps) s = onDevice s (fun d =>
        if d.glob.rstHigh && d.glob.dev != .off then d else pinHigh d straps) := rfl
    have hgo : ¬ (s.dev.glob.rstHigh && s.dev.glob.dev != .off) = true := by
      obtain h | h := h <;> simp [h]
    rw [hexec, onDevice_turned, if_neg hgo]
    refine ⟨rfl, ?_⟩
    by_cases hoff : s.dev.glob.dev = .off
    · obtain ⟨hg, hm, hp, he⟩ := pinHigh_off straps hoff
      rw [hg, hm, hp, he]
      exact ⟨rfl, rfl, rfl, rfl, rfl, fun hno => absurd hoff hno, fun _ => ⟨rfl, rfl, rfl, rfl, rfl⟩⟩
    · rw [pinHigh_on straps hoff]
      exact ⟨rfl, rfl, rfl, rfl, rfl, fun _ => rfl, fun hc => absurd hc hoff⟩

end Sys2Proof.Machine
end

section
/-! Power requests: the queue, refusals, and switches that open and close. -/

open Sys2Proof

namespace Sys2Proof.Machine

theorem powerRequest_queued {d : Dev} (o : Origin) (dom : Nat) (on : Bool) (hoff : d.glob.dev ≠ .off) (h : d.pwr.waiting.length < 8) :
    powerRequest d o dom on = d.setPwr (fun p => { p with waiting := p.waiting ++ [⟨dom, on, o, none⟩] }) := by
  unfold powerRequest
  rw [if_neg (by simpa using hoff), if_neg (by omega)]

theorem powerRequest_busy {d : Dev} (o : Origin) (dom : Nat) (on : Bool) (hoff : d.glob.dev ≠ .off) (h : 8 ≤ d.pwr.waiting.length) :
    powerRequest d o dom on = powerBusy d dom on 8 := by
  unfold powerRequest
  rw [if_neg (by simpa using hoff), if_pos h]

theorem powerDone_pwr (d : Dev) (dom : Nat) (on : Bool) : (powerDone d dom on).pwr = { d.pwr with busy := none } := by
  unfold powerDone
  simp [Dev.setPwr]

theorem setDomain_on (d : Dev) {n : Nat} (h : n < 28) : (setDomain d n true).domOn n = true := by
  change (d.pwr.on ||| BitVec.ofNat 28 (2 ^ n)).getLsbD n = true
  rw [BitVec.getLsbD_or, BitVec.getLsbD_ofNat, Nat.testBit_two_pow_self]
  simp [h]

/-- Settles O16: what becomes of a power request. -/
theorem powerRequests : Obligations.PowerRequests := by
  have hon : ∀ (o : Origin) (dom : BitVec 5) (s : State),
      exec (.powerOnRequest o dom) s = onDevice s (fun d => powerRequest d o dom.toNat true) := fun _ _ _ => rfl
  have hoff : ∀ (o : Origin) (dom : BitVec 5) (s : State),
      exec (.powerOffRequest o dom) s = onDevice s (fun d => powerRequest d o dom.toNat false) := fun _ _ _ => rfl
  have hcheck : ∀ s : State, exec .powerRequestCheck s = onDevice s powerCheck := fun _ => rfl
  refine ⟨fun s o dom hd h => ?_, fun s o dom hd h => ?_, fun s o dom hd h => ⟨?_, ?_⟩, fun s r rest n hb hw hn => ?_, fun s r rest d hb hw hn hd => ?_,
    fun s r d hb hr hc hd => ?_, fun s r d hb hr hd => ?_⟩
  · rw [hon, onDevice_turned, powerRequest_queued o _ true hd h]
  · rw [hoff, onDevice_turned, powerRequest_queued o _ false hd h]
  · rw [hon, onDevice_turned, powerRequest_busy o _ true hd h]
  · rw [hoff, onDevice_turned, powerRequest_busy o _ false hd h]
  · rw [hcheck, onDevice_turned]
    unfold powerCheck
    rw [hb, hw]
    dsimp only
    rw [hn]
  · rw [hcheck, onDevice_turned]
    unfold powerCheck
    rw [hb, hw]
    dsimp only
    rw [hn, hd]
  · have hexec : exec .powerOffDone s = onDevice s offDone := rfl
    have hdone : offDone s.dev = d := by
      unfold offDone
      rw [hb]
      dsimp only
      rw [if_neg (by rw [hr, hc]; exact Bool.false_ne_true), hd]
    rw [hexec, onDevice_turned, hdone]
    refine ⟨rfl, fun _ => ?_, ?_⟩
    · rw [hd, Dev.domOn, powerDone_pwr]
      exact setDomain_off _ _
    · rw [hd, powerDone_pwr]
  · have hexec : exec .powerOnDone s = onDevice s (fun d => takeWaits (onDone d)) := rfl
    have hdone : onDone s.dev = d := by
      unfold onDone
      rw [hb]
      dsimp only
      rw [if_pos hr, hd]
    rw [hexec, onDevice_turned, hdone]
    refine ⟨rfl, setDomain_on s.dev, ?_⟩
    rw [hd, powerDone_pwr]

end Sys2Proof.Machine
end

section
/-! Recalls of quads, BISnps that are not answered, and the passes of the background sweep. -/

open Sys2Proof

namespace Sys2Proof.Machine

-- answers leave the agents

theorem recallLost_still (d : Dev) (i : Nat) (x : Xact) (line : Nat) (t : Target) : (recallLost d i x line t).still = d.still := by
  unfold recallLost
  dsimp only
  split
  · split
    · exact (loseLine_still _ _ _ _ _).trans (putDir_still _ _ _ _ _)
    · exact loseLine_still _ _ _ _ _
  · split
    · exact (loseLine_still _ _ _ _ _).trans (putDir_still _ _ _ _ _)
    · exact loseLine_still _ _ _ _ _

theorem answerOne_still (d : Dev) (a : BitVec 12) (line : Nat) (kept lost dataOnly : Bool) (i : Nat) :
    (answerOne d a line kept lost dataOnly i).still = d.still := by
  unfold answerOne
  split
  · rfl
  · split
    · split
      · rfl
      · split
        · rfl
        · split
          · exact recallLost_still _ _ _ _ _
          · exact recallDone_still _ _
    · rfl

theorem answerNow_still (d : Dev) (a : BitVec 12) (line : Nat) (kept lost dataOnly : Bool) :
    (answerNow d a line kept lost dataOnly).still = d.still := by
  have hmark : (markDue d a line).still = d.still := Dev.each_still _ _ _ (fun _ _ => Dev.updXact_still _ _ _)
  exact (Dev.each_still (markDue d a line) _ _ (fun d i => answerOne_still d a line kept lost dataOnly i)).trans hmark

theorem answer_still (d : Dev) (a : BitVec 12) (line : Nat) (kept lost dataOnly : Bool) : (answer d a line kept lost dataOnly).still = d.still := by
  unfold answer
  split
  · exact answerNow_still _ _ _ _ _ _
  · rfl

theorem answerAll_still (d : Dev) (a : BitVec 12) : (answerAll d a).still = d.still :=
  Dev.each_still d _ _ (fun d l => answer_still d a l false true false)

/-- An agent known before is known after what leaves the device still, its count of lost lines aside. -/
theorem agent_of_still {d d' : Dev} {a : BitVec 12} {y : Agent} (h : d'.still = d.still) (hy : d.agent? a = some y) :
    ∃ z, d'.agent? a = some z ∧ z.pointReached = y.pointReached := by
  have hb : agentsBut d'.agents a.toNat = agentsBut d.agents a.toNat := congrFun (congrArg (fun x => x.2.2.1) h) a.toNat
  have hfind : Tab.find d.agents a.toNat = some y := hy
  rw [agentsBut, agentsBut, hfind] at hb
  obtain ⟨z, hz, hzy⟩ := Option.map_eq_some_iff.mp hb
  have hpoint := congrArg Agent.pointReached hzy
  exact ⟨z, hz, hpoint⟩

-- the resignation point

/-- At its resignation point an agent of HDM-H gives its ID back, and one of HDM-DB has reached its point (R190, R197). -/
theorem resignationPoint_reached {d : Dev} {a : BitVec 12} {x : Agent} (hx : d.agent? a = some x) (hatt : x.attached = false)
    (hp : x.pointReached = false) (hw : d.writesBefore a = false) (hr : d.islandRuns 10 = true) (hwf : Tab.wf d.agents = true) :
    (resignationPoint d a).mem = d.mem ∧ (x.hdmDb = false → (resignationPoint d a).agent? a = none)
      ∧ (x.hdmDb = true → ∃ y, (resignationPoint d a).agent? a = some y ∧ y.pointReached = true) := by
  unfold resignationPoint
  rw [hx]
  dsimp only
  rw [if_neg (by rw [hatt, hp, hw, hr]; exact Bool.false_ne_true)]
  cases hdb : x.hdmDb
  · rw [if_pos (by rfl)]
    refine ⟨by rw [endResignation_mem], fun _ => ?_, fun hc => absurd hc Bool.false_ne_true⟩
    unfold endResignation
    have hx' : ∀ l : Tab Xact, ({ d with xacts := l } : Dev).agent? a = some x := fun _ => hx
    rw [hx']
    dsimp only
    rw [Dev.agent?, (raise_frame _ _ _ _ _).2.2.2.2.1]
    exact Tab.find_del_same hwf _
  · rw [if_neg (by decide)]
    refine ⟨by rw [answerAll_mem]; rfl, fun hc => absurd hc.symm Bool.false_ne_true, fun _ => ?_⟩
    exact agent_of_still (answerAll_still _ _) (Dev.agent?_updAgent _ _ _)

-- a pass

theorem updSlice_slice (d : Dev) (k : Nat) (f : Slice → Slice) (n : Nat) :
    (d.updSlice k f).slice n = if n = k then f (d.slice n) else d.slice n := by
  by_cases h : n = k
  · rw [if_pos h, h]
    exact Tab.get_upd_same _ _ _ _
  · rw [if_neg h]
    exact Tab.get_upd_other _ _ _ h

/-- A rewrite of each slice of a list without repeats rewrites each once. -/
theorem each_updSlice (f : Slice → Slice) (l : List Nat) (hl : l.Nodup) (d : Dev) (n : Nat) :
    (d.each l (fun d s => d.updSlice s f)).slice n = if n ∈ l then f (d.slice n) else d.slice n := by
  induction l generalizing d with
  | nil => rfl
  | cons k l ih =>
    obtain ⟨hk, hl⟩ := List.nodup_cons.mp hl
    have hstep : d.each (k :: l) (fun d s => d.updSlice s f) = (d.updSlice k f).each l (fun d s => d.updSlice s f) := rfl
    rw [hstep, ih hl, updSlice_slice]
    by_cases hn : n = k
    · rw [if_pos hn, if_neg (hn ▸ hk), if_pos (List.mem_cons.mpr (.inl hn))]
    · simp [hn]

/-- A pass that starts covers every agent at its point, and each slice's walker enters with set 0 (R198). -/
theorem passStart_starts {d : Dev} (ha : d.glob.sweepActive = false) (hu : d.uncovered ≠ []) (hq : d.q0Runs = true) (hr : d.islandRuns 10 = true) :
    (passStart d).glob.sweepActive = true ∧ (passStart d).glob.sweepCovered = d.uncovered.length
      ∧ ∀ k < 16, ((passStart d).slice k).walked = 0 ∧ ((passStart d).slice k).walkOrd = some (d.slice k).nextOrd := by
  have hglob : ∀ (x : Dev) (l : List Nat) (f : Slice → Slice), (x.each l (fun d s => d.updSlice s f)).glob = x.glob :=
    fun x l f => Dev.each_keeps (fun y => y.glob = x.glob) x l _ rfl (fun _ _ _ hy => hy)
  have hempty : d.uncovered.isEmpty = false := by simpa using hu
  unfold passStart
  dsimp only
  rw [if_neg (by rw [ha, hempty, hq, hr]; exact Bool.false_ne_true)]
  refine ⟨by rw [hglob]; rfl, by rw [hglob]; rfl, fun k hk => ?_⟩
  rw [each_updSlice _ _ List.nodup_range, if_pos (List.mem_range.mpr hk)]
  exact ⟨rfl, rfl⟩

theorem passEnd_ends {d : Dev} (ha : d.glob.sweepActive = true) (hq : d.q0Runs = true) (hr : d.islandRuns 10 = true) :
    (passEnd d).glob.sweepActive = false ∧ (passEnd d).glob.sweepCovered = 0 := by
  unfold passEnd
  rw [if_neg (by rw [ha, hq, hr]; exact Bool.false_ne_true)]
  exact ⟨rfl, rfl⟩

-- reverse entries

/-- A reverse entry that returns: it is used and the BISnps that waited are sent, or their agents resign (R193). -/
theorem reverseReturn_done {d : Dev} {p frame i : Nat} {x : Xact} {data : Line} {poison ok : Bool}
    (h : d.xacts.find? (fun x => x.2.req.op == .revRead && x.2.req.src == .reverse p && decide (x.2.req.va = frame)) = some (i, x))
    (hx : x.phase = .done data poison ok) : reverseReturn d p frame
      = if poison || !ok || decide (revMaps (data.extractLsb' (8 * (x.req.dpa % 64)) 32) = 0) then
          (d.dropXact i).each ((d.dropXact i).unsentFor p frame) unreachable
        else ((d.dropXact i).updPort p (fun q => q.reverseUse frame (data.extractLsb' (8 * (x.req.dpa % 64)) 32))).each
          ((d.dropXact i).unsentFor p frame) (fun d n => sendSnoop d p n (revVpn (data.extractLsb' (8 * (x.req.dpa % 64)) 32))) := by
  unfold reverseReturn
  rw [h]
  dsimp only
  rw [hx]

/-- Settles O20: recalls of quads, BISnps that time out, resignation points, passes and reverse entries. -/
theorem recallAndSweepCommands : Obligations.RecallAndSweepCommands := by
  refine ⟨fun s e line i x ts ev hmem hline hx hts hrun => ?_, fun s p a line hrun hs => ?_, fun s a x d hx hatt hp hw hr hwf hd => ?_,
    fun s d ha hu hq hr hd => ?_, fun s d ha hq hr hd => ?_, fun s p frame i x data poison ok hrun hfind hx => ?_⟩
  · have hexec : exec (.engineRecall e line) s = onDevice s (fun d => engineRecall d e.val line) := rfl
    have hwaits : s.dev.xacts.any (fun x => decide (x.2.recallLine = line) && (match x.2.phase with
        | .recall ts _ => ts.any (fun t => t.agent == engAgent e.val)
        | _ => false)) = true := by
      refine List.any_eq_true.mpr ⟨(i, x), hmem, ?_⟩
      dsimp only
      rw [hx, decide_eq_true hline, Bool.true_and]
      exact hts
    have hgo : (s.dev.quadRuns e.val || !s.dev.domOn (quadDom (quadOf e.val))) = true := by
      obtain h | h := hrun <;> simp [h]
    rw [hexec, onDevice_turned]
    unfold engineRecall
    dsimp only
    rw [if_pos (by rw [hgo, Bool.and_true]; exact hwaits)]
  · have hexec : exec (.bisnpTimeout p a line) s = onIsland (2 + p.val) s (fun d => snoopTimeout d p.val a line) := rfl
    rw [hexec, onIsland_running hrun, snoopTimeout, if_pos hs]
  · have hexec : exec (.resignationPoint a) s = onDevice s (fun d => resignationPoint d a) := rfl
    rw [hexec, onDevice_turned, hd]
    exact ⟨rfl, resignationPoint_reached hx hatt hp hw hr hwf⟩
  · have hexec : exec .sweepPassStart s = onDevice s passStart := rfl
    obtain ⟨h1, h2, h3⟩ := passStart_starts ha hu hq hr
    rw [hexec, onDevice_turned, hd]
    exact ⟨rfl, h1, h2, passStart_mem _, h3⟩
  · have hexec : exec .sweepPassEnd s = onDevice s passEnd := rfl
    obtain ⟨h1, h2⟩ := passEnd_ends ha hq hr
    rw [hexec, onDevice_turned, hd]
    exact ⟨rfl, h1, h2, passEnd_mem _⟩
  · have hexec : exec (.reverseEntryReturn p frame) s = onIsland (2 + p.val) s (fun d => reverseReturn d p.val frame.toNat) := rfl
    rw [hexec, onIsland_running hrun, reverseReturn_done hfind hx]

end Sys2Proof.Machine
end

section
/-! What channels do by themselves: refresh, calibration, drift, retraining, MR4, and a channel that fails. -/

open Sys2Proof

namespace Sys2Proof.Machine

/-- Blocking a channel counts cycles, where they are counted, and draws their number; nothing else moves. -/
theorem blocks_keeps (d : Dev) (c ns : Nat) : (blocks d c ns).mem = d.mem ∧ (blocks d c ns).chans = d.chans ∧ (blocks d c ns).mcs = d.mcs
    ∧ (blocks d c ns).xacts = d.xacts ∧ (blocks d c ns).glob = { d.glob with draws := (blocks d c ns).glob.draws } := by
  unfold blocks
  dsimp only
  split
  · simp [Dev.drawn]
  · exact ⟨rfl, rfl, rfl, rfl, rfl⟩

/-- A retraining that is due runs, counts, and sets the drift back when it succeeds (R227). -/
theorem retrainDq_due {d : Dev} {c : Nat} (ok : Bool) (hr : d.chanRuns c = true)
    (h : (d.chan c).retrainDue = true ∨ (d.mc (c / 8)).driftLimit.toNat ≤ (d.chan c).drift.toNat) :
    retrainDq d c ok = chanEvent ((blocks d c 1500).updChan c (fun x => { x with
        retrains := satInc 8 x.retrains, retrainDue := false, drift := if ok then 0 else x.drift
        failsInRow := if ok then 0 else x.failsInRow + 1 })) c 4 0 0 0 0 := by
  unfold retrainDq
  refine if_neg ?_
  rw [hr]
  obtain h | h := h
  · rw [h]
    exact Bool.false_ne_true
  · rw [decide_eq_false (by omega), Bool.and_false]
    exact Bool.false_ne_true

/-- MR4 is kept, and a refresh rate that changed is reported. -/
theorem readMr4_runs {d : Dev} {c : Nat} (code : BitVec 3) (hot : Bool) (hr : d.chanRuns c = true) :
    readMr4 d c code hot = if (d.chan c).refreshX2 = hot then (blocks d c 100).updChan c (fun x => { x with mr4 := code, refreshX2 := hot })
      else chanEvent ((blocks d c 100).updChan c (fun x => { x with mr4 := code, refreshX2 := hot })) c 6 0 0 0 0 := by
  unfold readMr4
  exact if_neg (by rw [hr]; exact Bool.false_ne_true)

theorem failChannel_reached {d : Dev} {c : Nat} {t : Bool} (h : if t then 3 ≤ (d.chan c).timeouts else 3 ≤ (d.chan c).failsInRow) :
    failChannel d c t = enterRecovery (chanEvent (d.updChan c (fun y => { y with st := 5 })) c 7 3 3 0 0) 3 (info (c + fld 5 (b2n t))) := by
  unfold failChannel
  refine if_neg ?_
  cases t
  · exact Nat.not_lt.mpr h
  · exact Nat.not_lt.mpr h

/-- Settles O24: what each event of a channel does. -/
theorem channelUpkeep : Obligations.ChannelUpkeep := by
  refine ⟨fun s c b => ?_, fun s c hr => ?_, fun s c v hr => ?_, fun s c ok hr h => ?_, fun s c code hot d hr hd => ?_,
    fun s c t hr h => ?_, blocks_keeps⟩
  · have hexec : exec (.perBankRefresh c b) s = onDevice s (fun d => blocks d c.val 280) := rfl
    rw [hexec, onDevice_turned]
  · have hexec : exec (.zqCalibrationLatch c) s = onIsland (25 + c.val / 8) s (fun d => zqLatch d c.val) := rfl
    rw [hexec, onIsland_running hr, zqLatch]
  · have hexec : exec (.dqsOscillatorRead c v) s = onDevice s (fun d =>
        if d.chanRuns c.val then (blocks d c.val 200).updChan c.val (fun x => { x with drift := v }) else d) := rfl
    rw [hexec, onDevice_turned, if_pos hr]
  · have hexec : exec (.writeDqRetraining c ok) s = onDevice s (fun d => retrainDq d c.val ok) := rfl
    rw [hexec, onDevice_turned, retrainDq_due ok hr h]
  · have hexec : exec (.mr4Read c code hot) s = onDevice s (fun d => readMr4 d c.val code hot) := rfl
    rw [hexec, onDevice_turned, readMr4_runs code hot hr, hd]
  · have hexec : exec (.channelFailed c t) s = onIsland (25 + c.val / 8) s (fun d => failChannel d c.val t) := rfl
    rw [hexec, onIsland_running hr, failChannel_reached h]

end Sys2Proof.Machine
end

section
/-! What stops an instruction before it runs: SPACE, ILLEGAL and PRIV. -/

open Sys2Proof

namespace Sys2Proof.Machine

/-- The opcode field of an ALU row is zero. -/
theorem wordR_alu_op (d r fn : Fin 16) : bits (wordR 0 d.val r.val fn.val).toNat 17 12 = 0 := by
  have h1 := d.isLt
  have h2 := r.isLt
  have h3 := fn.isLt
  simp only [wordR, fld, bits, BitVec.toNat_ofNat]
  omega

theorem wordR_alu_defined (d r fn : Fin 16) : undefinedWord (wordR 0 d.val r.val fn.val) = false := by
  unfold undefinedWord
  dsimp only
  rw [wordR_alu_op]
  rfl

theorem wordR_alu_short (d r fn : Fin 16) : extended (wordR 0 d.val r.val fn.val) = false := by
  unfold extended
  dsimp only
  rw [wordR_alu_op]
  rfl

/-- A word that is no encoding traps with ILLEGAL, whatever the row. -/
theorem runInstr_undefined {d : Dev} {x : Env} {w row : Word} (h : d.ready { x with raw := none }) (hraw : x.raw = some w)
    (hw : undefinedWord w = true) (hrow : undefinedWord row = false) (ill priv : Bool) (body : Dev → Dev) :
    runInstr d x row ill priv body = trapHere d x.e.val 1 (w.setWidth 54) := by
  obtain ⟨hst, hwait, hfault, hbudget, hfetch, hbound, hquad, -, -⟩ := h
  dsimp only at hst hwait hfault hbudget hfetch hbound hquad
  have hdue : ((d.engine x.e.val).budgetDue && !(d.engine x.e.val).sup) = false := by
    cases hb : (d.engine x.e.val).budgetDue
    · rfl
    · rw [hbudget hb]; rfl
  have hin : (!(d.engine x.e.val).sup && decide ((d.engine x.e.val).pc.toNat < 16 * (d.engine x.e.val).iubase.toNat)) = false := by
    cases hs : (d.engine x.e.val).sup
    · simpa [hs] using hbound
    · rfl
  have hne : (w != row) = true := bne_iff_ne.mpr (fun heq => absurd (hw.symm.trans (heq ▸ hrow)) Bool.noConfusion)
  have hfetched : fetchedWord x row = w := by
    unfold fetchedWord
    rw [hraw]
    exact if_pos hw
  simp only [runInstr, hfetched, hst, hwait, hquad, hfault, hdue, fetchCheck_of_good hfetch, hin, hw, hne]
  simp

/-- User code outside its fetch bound traps with SPACE (R240). -/
theorem runInstr_outside {d : Dev} {x : Env} {row : Word} (hst : d.engSt x.e.val = .running) (hwait : (d.engine x.e.val).wait = .none)
    (hfault : (d.engine x.e.val).fault = none) (hdue : (d.engine x.e.val).budgetDue = false)
    (hfetch : eccWith x.fetch (Tab.get 0 (d.engine x.e.val).imemBad (d.engine x.e.val).pc.toNat) = .ok)
    (hsup : (d.engine x.e.val).sup = false) (hpc : (d.engine x.e.val).pc.toNat < 16 * (d.engine x.e.val).iubase.toNat)
    (hquad : d.quadRuns x.e.val = true) (hraw : x.raw.any undefinedWord = false) (hshort : extended row = false)
    (ill priv : Bool) (body : Dev → Dev) :
    runInstr d x row ill priv body = trapHere d x.e.val 6 ((d.engine x.e.val).pc.setWidth 54) := by
  simp only [runInstr, fetchedWord_of_defined hraw, hst, hwait, hquad, hfault, hdue, fetchCheck_of_good hfetch, hsup, hshort, hpc]
  simp

/-- Settles O31: what traps before an instruction runs. -/
theorem illegalAndPrivilegedWords : Obligations.IllegalAndPrivilegedWords := by
  refine ⟨fun s x fn d r h hodd => ?_, fun s x fn d r w h hraw hw => ?_, fun s x g n h hsup hn => ?_,
    fun s x fn d r y hy hst hwait hfault hdue hfetch hsup hpc hquad hraw => ?_⟩
  · have hexec : exec (.alup x fn d r) s = runLocal x (wordR 1 d.val r.val fn.val) (odd d.val || odd r.val) false 1
        (aluPair fn.val d.val r.val) s := rfl
    have hill : (odd d.val || odd r.val) = true := by simpa [odd] using hodd
    rw [hexec, runLocal_illegal_of_ready h hill]
  · have hexec : exec (.alu x fn d r) s = runLocal x (wordR 0 d.val r.val fn.val) false false 1 (aluWord fn.val d.val r.val) s := rfl
    rw [hexec, runLocal, onDevice_turned, runInstr_undefined h hraw hw (wordR_alu_defined d r fn)]
  · have hexec : exec (.mts x n g) s = onDevice s (fun d => runInstr d x (wordB 0x31 g.val n.toNat) false (n != 0) (fun d =>
        localDone d x.e.val 1 (fun y => statusWrite y n.toNat (y.rg g.val)))) := rfl
    have hpriv : ((n != 0) && !(s.dev.engine x.e.val).sup) = true := by
      rw [hsup, bne_iff_ne.mpr hn]
      rfl
    rw [hexec, onDevice_turned, runInstr_of_ready h, if_neg Bool.false_ne_true, if_pos hpriv]
  · have hexec : exec (.alu x fn d r) s = runLocal x (wordR 0 d.val r.val fn.val) false false 1 (aluWord fn.val d.val r.val) s := rfl
    subst hy
    rw [hexec, runLocal, onDevice_turned, runInstr_outside hst hwait hfault hdue hfetch hsup hpc hquad hraw (wordR_alu_short d r fn)]

end Sys2Proof.Machine
end

section
/-! Loads of lines an engine has not cached, LRP and SCP. -/

open Sys2Proof

namespace Sys2Proof.Machine

-- two writes of a line joined

theorem mergeBytes_lt (a b : Line) (mask : Mask) : ∀ n, mergeBytes a b mask n < 2 ^ (8 * n)
  | 0 => Nat.one_pos
  | n + 1 => by
    have ih := mergeBytes_lt a b mask n
    have hbyte := (if mask.getLsbD n then lineByte b n else lineByte a n).isLt
    have hpow : 2 ^ (8 * (n + 1)) = 2 ^ 8 * 2 ^ (8 * n) := by rw [← Nat.pow_add, Nat.mul_succ, Nat.add_comm]
    rw [mergeBytes, hpow]
    calc _ < 2 ^ (8 * n) + (if mask.getLsbD n then lineByte b n else lineByte a n).toNat * 2 ^ (8 * n) := Nat.add_lt_add_right ih _
      _ = ((if mask.getLsbD n then lineByte b n else lineByte a n).toNat + 1) * 2 ^ (8 * n) := by rw [Nat.add_mul, Nat.one_mul, Nat.add_comm]
      _ ≤ _ := Nat.mul_le_mul_right _ hbyte

theorem testBit_lineByte (l : Line) (n j : Nat) : (lineByte l n).toNat.testBit j = (decide (j < 8) && l.getLsbD (8 * n + j)) :=
  (BitVec.testBit_toNat _).trans (BitVec.getLsbD_extractLsb' _ _ _ _)

/-- Each bit of merged bytes comes from the line its byte's mask names. -/
theorem testBit_mergeBytes (a b : Line) (mask : Mask) (j : Nat) : ∀ n,
    (mergeBytes a b mask n).testBit j = (decide (j < 8 * n) && (if mask.getLsbD (j / 8) then b else a).getLsbD j)
  | 0 => by rw [mergeBytes, Nat.zero_testBit, decide_eq_false (by omega), Bool.false_and]
  | n + 1 => by
    rw [mergeBytes, Nat.add_comm, Nat.mul_comm, Nat.testBit_two_pow_mul_add _ (mergeBytes_lt a b mask n)]
    by_cases hj : j < 8 * n
    · rw [if_pos hj, testBit_mergeBytes a b mask j n, decide_eq_true hj, decide_eq_true (by omega : j < 8 * (n + 1))]
    · rw [if_neg hj]
      by_cases hj' : j < 8 * (n + 1)
      · have hdiv : j / 8 = n := by omega
        have hsub : 8 * n + (j - 8 * n) = j := by omega
        rw [hdiv, decide_eq_true hj', Bool.true_and]
        split <;> rw [testBit_lineByte, decide_eq_true (by omega : j - 8 * n < 8), Bool.true_and, hsub]
      · have hno : decide (j - 8 * n < 8) = false := decide_eq_false (by omega)
        rw [decide_eq_false hj', Bool.false_and]
        split <;> rw [testBit_lineByte, hno, Bool.false_and]

theorem getLsbD_mergeLine (a b : Line) (mask : Mask) {j : Nat} (hj : j < 512) :
    (mergeLine a b mask).getLsbD j = (if mask.getLsbD (j / 8) then b else a).getLsbD j := by
  rw [mergeLine, BitVec.getLsbD_ofNat, testBit_mergeBytes, decide_eq_true hj, Bool.true_and]
  exact Bool.and_eq_right_iff_imp.mpr (fun _ => by simp)

/-- A word of merged lines whose two bytes have one mask bit comes from one line. -/
theorem lineWord_mergeLine (a b : Line) (mask : Mask) {k : Nat} (hk : k < 32) (c : Bool) (hc : ∀ i < 64, i / 2 = k → mask.getLsbD i = c) :
    lineWord (mergeLine a b mask) k = lineWord (if c then b else a) k := by
  apply BitVec.eq_of_getLsbD_eq
  intro j hj
  have hbyte := hc ((16 * k + j) / 8) (by omega) (by omega)
  rw [lineWord, lineWord, BitVec.getLsbD_extractLsb', BitVec.getLsbD_extractLsb', getLsbD_mergeLine a b mask (by omega), hbyte]

/-- The two words of a pair that are one write of their line. -/
theorem storeWrites_pair {l m : Loc} (w v : Word) (hline : l.line = m.line) (hdev : l.page.device = false) (hword : m.word ≠ l.word) :
    ∃ b, storeWrites [l, m] [w, v] = [b] ∧ b.line = l.line ∧ b.mask = wordMask l.word ||| wordMask m.word
      ∧ lineWord b.data l.word = w.setWidth 16 ∧ lineWord b.data m.word = v.setWidth 16 := by
  have hm : m.word < 32 := Nat.mod_lt _ (by decide)
  have hl : l.word < 32 := Nat.mod_lt _ (by decide)
  obtain ⟨-, hdl, -, -⟩ := wordWrite_fields l w
  obtain ⟨-, hdm, -, -⟩ := wordWrite_fields m v
  refine ⟨(wordWrite l w).join (wordWrite m v), if_pos ⟨hline, hdev⟩, rfl, rfl, ?_, ?_⟩
  · refine (lineWord_mergeLine _ _ _ hl false (fun i hi hw => ?_)).trans hdl
    exact (getLsbD_wordMask hm hi).trans (decide_eq_false (by omega))
  · refine (lineWord_mergeLine _ _ _ hm true (fun i hi hw => ?_)).trans hdm
    exact (getLsbD_wordMask hm hi).trans (decide_eq_true hw)

-- a load that waits

theorem mvCheck_uncached {d : Dev} {e line : Nat} (c : Ecc) (h : (d.engine e).cached line = none) : mvCheck d e line c = d := by
  rw [mvCheck, h]

theorem loadWords_uncached {d : Dev} {e : Nat} {l : Loc} (hdev : l.page.device = false) (hc : (d.engine e).cached l.line = none) :
    loadWords d e [l] [] = ((d.start (engReq d e (d.engine e).sup .readShared l.line l.page 0 0 false)).1, [.from_ d.nextId l.word],
      [(l.line, d.nextId)]) := by
  rw [loadWords, hdev, hc]
  rfl

theorem loadFrom_uncached {d : Dev} {x : Env} {l : Loc} (hdev : l.page.device = false) (hc : (d.engine x.e.val).cached l.line = none)
    (hw : (d.engine x.e.val).lineWaits l.line = false) (hrec : d.recovering x.e.val = false) (k : LoadKind) (g a : Nat) (upd : Option Info)
    (addr : Info) (len : Nat) :
    loadFrom d x k g a upd addr [l] len
      = (d.start (engReq d x.e.val (d.engine x.e.val).sup .readShared l.line l.page 0 0 false)).1.updEngine x.e.val (fun y => { y with
          wait := .load k g a upd addr (l.dpa / 64) [.from_ d.nextId l.word] [d.nextId] len }) := by
  have hlines : (([l].filter (fun l => !l.page.device)).map Loc.line).eraseDups = [l.line] := by
    rw [List.filter_cons_of_pos (by rw [hdev]; rfl)]
    rfl
  have hreads : [l].any (d.engine x.e.val).readWaits = false := by
    rw [List.any_cons, List.any_nil, Bool.or_false, Engine.readWaits, hw, hdev]
    simp
  have hid : ∀ d : Dev, d.each ([] : List Nat) (fun d n => mvCheck d x.e.val n .ok) = d := fun _ => rfl
  rw [loadFrom, hrec, hlines]
  simp only [hid, mvCheck_uncached _ hc, hreads, Bool.false_eq_true, if_false, loadWords_uncached hdev hc, List.isEmpty_cons]
  rfl

/-- A word of a line that is not held asks its home slice for a shared copy, and the load waits (R278). -/
theorem loadMem_uncached {d : Dev} {x : Env} {addr : Info} (h : d.plainAt x.e.val addr 1)
    (hc : (d.engine x.e.val).cached (waddr addr / 32) = none) (hw : (d.engine x.e.val).lineWaits (waddr addr / 32) = false)
    (hrec : d.recovering x.e.val = false) (k : LoadKind) (g a : Nat) (upd : Option Info) (len : Nat) :
    loadMem d x .load k g a upd addr 1 len
      = (d.start (engReq d x.e.val (d.engine x.e.val).sup .readShared (waddr addr / 32) {} 0 0 false)).1.updEngine x.e.val (fun y => { y with
          wait := .load k g a upd addr (waddr addr / 32) [.from_ d.nextId (waddr addr % 32)] [d.nextId] len }) := by
  obtain ⟨l, hl, htrap, hlocs⟩ := locateAll_wordsFrom h x.lab .load (k == .reserve)
  have hline : (⟨2 * (waddr addr + 0), {}⟩ : Loc).line = waddr addr / 32 := by change 2 * (waddr addr + 0) / 64 = _; omega
  have hword : (⟨2 * (waddr addr + 0), {}⟩ : Loc).word = waddr addr % 32 := by change 2 * (waddr addr + 0) / 2 % 32 = _; omega
  have hdpa : (⟨2 * (waddr addr + 0), {}⟩ : Loc).dpa / 64 = waddr addr / 32 := hline
  have hpage : (⟨2 * (waddr addr + 0), {}⟩ : Loc).page = {} := rfl
  have hone : (List.range 1).map (fun j => (⟨2 * (waddr addr + j), {}⟩ : Loc)) = [⟨2 * (waddr addr + 0), {}⟩] := rfl
  rw [loadMem, hl]
  dsimp only
  rw [htrap, hlocs, hone]
  generalize (⟨2 * (waddr addr + 0), {}⟩ : Loc) = l at *
  rw [← hline] at hc hw ⊢
  dsimp only
  rw [loadFrom_uncached (by rw [hpage]) hc hw hrec, hpage, hword, hdpa, hline]

theorem start_xact (d : Dev) (x : Xact) : (d.start x).1.xact? d.nextId = some x := Tab.find_put_same _ _ _

-- LRP and SCP

theorem atomicTrap_plain {d : Dev} {e : Nat} {addr : Info} (h : d.plainAt e addr 2) (heven : waddr addr % 2 = 0) (load : Bool) :
    atomicTrap d e addr load = none := by
  rw [atomicTrap, odd_eq_false heven, if_neg Bool.false_ne_true, if_pos h.2.2.1]

theorem updEngine_congr {d : Dev} {e : Nat} {f g : Engine → Engine} (h : f (d.engine e) = g (d.engine e)) : d.updEngine e f = d.updEngine e g :=
  congrArg (fun y => { d with engines := Tab.put d.engines e y }) h

/-- A load that reserves a pair of a line that is held takes the pair and reserves it (R291). -/
theorem takeLoad_reserve {d : Dev} {x : Env} {addr : Info} {m : MvLine} (h : d.cachedAt x addr 2 m) (g a len : Nat) :
    takeLoad (mvCheck d x.e.val (waddr addr / 32) x.mview) x.e.val .reserve g a none addr
        (((wordsFrom addr 2).map (fun b => (⟨2 * waddr b, {}⟩ : Loc))).headD ⟨0, {}⟩).dpa
        ((List.range 2).map (fun j => loadedWord m.data m.poison (waddr addr % 32 + j))) len
      = advance ((mvCheck d x.e.val (waddr addr / 32) x.mview).updEngine x.e.val (fun z =>
          { ((z.setG g (loadedWord m.data m.poison (waddr addr % 32))).setG (g + 1) (loadedWord m.data m.poison (waddr addr % 32 + 1))) with
            rsv := some (2 * waddr addr) })) x.e.val len := by
  have hheld := cached_mvCheck h.2.1 h.2.2.1
  have hdpa : (((wordsFrom addr 2).map (fun b => (⟨2 * waddr b, {}⟩ : Loc))).headD ⟨0, {}⟩).dpa = 2 * waddr addr := by
    change 2 * waddr (moveAddr addr 0) = _
    rw [moveAddr_zero]
  have hline : 2 * waddr addr / 64 = waddr addr / 32 := by omega
  rw [hdpa]
  refine congrArg (fun z => advance z x.e.val len) (updEngine_congr ?_)
  generalize (mvCheck d x.e.val (waddr addr / 32) x.mview).engine x.e.val = y at hheld ⊢
  have hrsv : (if ((((y.setG g (loadedWord m.data m.poison (waddr addr % 32 + 0))).setG (g + 1)
      (loadedWord m.data m.poison (waddr addr % 32 + 1))).updateA a none).cached (2 * waddr addr / 64)).isSome then some (2 * waddr addr) else none)
      = some (2 * waddr addr) := by
    rw [hline]
    refine if_pos ?_
    change (y.cached (waddr addr / 32)).isSome = true
    rw [hheld]
    rfl
  exact congrArg (fun r => { (y.setG g (loadedWord m.data m.poison (waddr addr % 32 + 0))).setG (g + 1)
    (loadedWord m.data m.poison (waddr addr % 32 + 1)) with rsv := r }) hrsv

theorem runScp_plain {d : Dev} {x : Env} {a : Nat} {o : OffM} (h : d.plainAt x.e.val (moveAddr ((d.engine x.e.val).ra a) (o.val * 2)) 2)
    (heven : waddr (moveAddr ((d.engine x.e.val).ra a) (o.val * 2)) % 2 = 0) (g : Nat) :
    runScp d x g a o = scpTo d x.e.val g ((List.range 2).map (fun j =>
      (⟨2 * (waddr (moveAddr ((d.engine x.e.val).ra a) (o.val * 2)) + j), {}⟩ : Loc))) o.len := by
  obtain ⟨l, hl, htrap, hlocs⟩ := locateAll_wordsFrom h x.lab .store true
  have heff : effAddr (d.engine x.e.val) a o 2 false = (moveAddr ((d.engine x.e.val).ra a) (o.val * 2), none) := rfl
  rw [runScp, heff]
  dsimp only
  rw [atomicTrap_plain h heven, hl]
  dsimp only
  rw [htrap, hlocs]

/-- SCP with the reservation of its pair sends the pair to the slice and waits (R291). -/
theorem scpTo_reserved {d : Dev} {e g w : Nat} (heven : w % 2 = 0) (hrsv : (d.engine e).rsv = some (2 * w)) (hrec : d.recovering e = false)
    (hw : (d.engine e).lineWaits (w / 32) = false) (len : Nat) :
    ∃ q : Xact, scpTo d e g ((List.range 2).map (fun j => (⟨2 * (w + j), {}⟩ : Loc))) len
        = (d.start q).1.updEngine e (fun y => { y with wait := .scp d.nextId len })
      ∧ q.req.op = .scp ∧ q.req.dpa = 64 * (w / 32) ∧ q.phase = .ingress ∧ q.req.mask = wordMask (w % 32) ||| wordMask (w % 32 + 1)
      ∧ lineWord q.req.data (w % 32) = ((d.engine e).rg g).setWidth 16
      ∧ lineWord q.req.data (w % 32 + 1) = ((d.engine e).rg (g + 1)).setWidth 16 := by
  have htwo : (List.range 2).map (fun j => (⟨2 * (w + j), {}⟩ : Loc)) = [⟨2 * (w + 0), {}⟩, ⟨2 * (w + 1), {}⟩] := rfl
  have hline : (⟨2 * (w + 0), {}⟩ : Loc).line = w / 32 := by change 2 * (w + 0) / 64 = _; omega
  have hline' : (⟨2 * (w + 1), {}⟩ : Loc).line = w / 32 := by change 2 * (w + 1) / 64 = _; omega
  have hword : (⟨2 * (w + 0), {}⟩ : Loc).word = w % 32 := by change 2 * (w + 0) / 2 % 32 = _; omega
  have hword' : (⟨2 * (w + 1), {}⟩ : Loc).word = w % 32 + 1 := by change 2 * (w + 1) / 2 % 32 = _; omega
  obtain ⟨b, hb, hbl, hbm, hb0, hb1⟩ := storeWrites_pair (l := ⟨2 * (w + 0), {}⟩) (m := ⟨2 * (w + 1), {}⟩) ((d.engine e).rg g)
    ((d.engine e).rg (g + 1)) (hline.trans hline'.symm) rfl (by omega)
  rw [hword, hword'] at hbm
  rw [hword] at hb0
  rw [hword'] at hb1
  refine ⟨engReq d e (d.engine e).sup .scp b.line {} b.data b.mask b.poison, ?_, rfl, ?_, rfl, hbm, hb0, hb1⟩
  · have hgo : ¬ ((d.engine e).rsv ≠ some (2 * (w + 0)) ∨ d.recovering e = true) := by
      rw [hrsv, hrec, Nat.add_zero]
      simp
    rw [htwo, scpTo]
    have hwait : (d.engine e).lineWaits (⟨2 * (w + 0), {}⟩ : Loc).line = false := by rw [hline]; exact hw
    refine (if_neg hgo).trans ((if_neg (Bool.eq_false_iff.mp hwait)).trans ?_)
    rw [hb]
    rfl
  · change 64 * b.line = _
    rw [hbl, hline]

/-- Settles O33: loads that wait, LRP and SCP. -/
theorem remoteLoadsAndAtomics : Obligations.RemoteLoadsAndAtomics := by
  intro s x g a o hr ho e y a1 a2
  have hnone : false = true → (s.dev.engine x.e.val).sup = true := fun h => nomatch h
  have hok : (!o.ok) = false := by rw [ho]; rfl
  have hpair : g.val % 2 = 0 → (!o.ok || odd g.val) = false := fun hg => by rw [ho, odd_eq_false hg]; rfl
  have hone : o.val * ((1 : Nat) : Int) = o.val := Int.mul_one _
  have hlrp : exec (.lrp x g a o) s = onDevice s (fun d => runInstr d x (wordM 0x1A g.val a.val o) (!o.ok || odd g.val) false
      (fun d => runLrp d x g.val a.val o)) := rfl
  have hscp : exec (.scp x g a o) s = onDevice s (fun d => runInstr d x (wordM 0x1B g.val a.val o) (!o.ok || odd g.val) false
      (fun d => runScp d x g.val a.val o)) := rfl
  refine ⟨fun h hc hw hrec d hd => ?_, fun m h hg heven => ?_, fun h hg heven hrsv => ?_, fun h hg heven hrsv hrec hw d hd => ?_⟩
  · have hld : exec (.ldw x g a o) s = onDevice s (fun d => runInstr d x (wordM 0x10 g.val a.val o) (!o.ok) false
        (fun d => runLoad d x .plain g.val a.val o 1 false)) := rfl
    have hload := (runLoad_memory (k := .plain) (o := o) (update := false) h.2.2.1 (by rw [effAddr, hone]; rfl) g.val).trans
      (loadMem_uncached h hc hw hrec .plain g.val a.val none o.len)
    rw [hld, onDevice_of_ready hr _ hok hnone, ← hd]
    rw [hd, hload, Dev.engine_updEngine]
    refine ⟨rfl, rfl, rfl, rfl, rfl, ?_⟩
    exact ⟨_, start_xact _ _, rfl, rfl, rfl⟩
  · rw [hlrp, onDevice_of_ready hr _ (hpair hg) hnone, runLrp]
    have heff : effAddr (s.dev.engine x.e.val) a.val o 2 false = (a2, none) := rfl
    rw [heff]
    dsimp only
    rw [atomicTrap_plain h.1 heven]
    dsimp only
    rw [loadMem_cached h (by decide), takeLoad_reserve h]
  · rw [hscp, onDevice_of_ready hr _ (hpair hg) hnone, runScp_plain h heven, scpTo]
    have hgo : (s.dev.engine e).rsv ≠ some (2 * (waddr a2 + 0)) ∨ s.dev.recovering e = true := .inl hrsv
    exact congrArg (fun d => Host.Outcome.next (s.turned d)) (if_pos hgo)
  · obtain ⟨q, hq, hop, hdpa, hph, hmask, hd0, hd1⟩ := scpTo_reserved (g := g.val) heven hrsv hrec hw o.len
    rw [hscp, onDevice_of_ready hr _ (hpair hg) hnone, ← hd]
    have hrun := (runScp_plain h heven g.val).trans hq
    rw [hd, hrun, Dev.engine_updEngine]
    exact ⟨rfl, rfl, rfl, rfl, q, start_xact _ _, hop, hdpa, hph, hmask, hd0, hd1⟩

end Sys2Proof.Machine
end

section
/-! Proof of the statement on CMO, LABI and LABW. -/

open Sys2Proof

namespace Sys2Proof.Machine

/-- A descriptor of good scratch words is taken as it stands. -/
theorem readDesc_good {d : Dev} {x : Env} {addr : Info} {n : Nat} (h : d.scratchGood x addr n) (k : Dev → List Word → Dev) :
    readDesc d x addr n k = k d (d.scratchWords x.e.val addr n) := by
  obtain ⟨hspace, hend, hacc, hecc⟩ := h
  have hb : waddr addr + n ≤ 2 ^ 52 := by omega
  have hlow : ∀ b ∈ wordsFrom addr n, waddr b < 0x8000 := by
    intro b hmem
    obtain ⟨j, hj, _, hw⟩ := mem_wordsFrom hb hmem
    omega
  have hfind : (wordsFrom addr n).find? (fun a => decide (0x8000 ≤ waddr a)) = none := by
    refine List.find?_eq_none.2 (fun b hmem => ?_)
    have := hlow b hmem
    simpa using this
  rw [readDesc, if_neg (by rw [hspace]; exact fun h => h rfl), hfind]
  dsimp only
  rw [readLocal_good k _ _ _ hlow, List.nil_append, map_wordsFrom hb]
  · rfl
  · intro j hj
    have hjn : j < n := by simpa [wordsFrom] using hj
    have hget : (wordsFrom addr n)[j] = moveAddr addr (j : Nat) := by simp [wordsFrom]
    rw [hget, waddr_moveAddr_nat (by omega)]
    exact hecc j hjn

theorem cmoIllegal_address {kind : BitVec 2} {coh unlock : Bool} (hk : kind ≠ 3) (hu : unlock = true → kind ≠ 0) :
    cmoIllegal kind false coh unlock 0 = false := by
  simpa [cmoIllegal] using ⟨hk, hu⟩

theorem cmoIllegal_set {kind : BitVec 2} {unlock : Bool} {g : Nat} (hk : kind ≠ 3) (hu : unlock = true → kind ≠ 0) (hg : g % 2 = 0) :
    cmoIllegal kind true false unlock g = false := by
  simpa [cmoIllegal, odd_eq_false hg] using ⟨hk, hu⟩

/-- A CMO by address of untranslated code enters the store buffer for its line (R261). -/
theorem runCmo_address {d : Dev} {x : Env} {a : Nat} (h : d.plainAt x.e.val ((d.engine x.e.val).ra a) 1) (hroom : (d.engine x.e.val).sbFull = false)
    (kind : BitVec 2) (coh unlock : Bool) (g : Nat) :
    runCmo d x kind false a coh unlock g = enterOp d x.e.val (entryOf (.cmo kind.toNat coh unlock) ((d.engine x.e.val).ra a) {}
      [{ line := waddr ((d.engine x.e.val).ra a) / 32, data := 0, mask := 0, poison := false }]
      (decide (d.limit ≤ 2 * waddr ((d.engine x.e.val).ra a))) true) := by
  have hl := locateAll_plain h.1 h.2.1 .cmo false x.lab [(d.engine x.e.val).ra a] (by simpa using h.2.2.2.1)
  have hline : 2 * waddr ((d.engine x.e.val).ra a) / 64 = waddr ((d.engine x.e.val).ra a) / 32 := by omega
  rw [runCmo]
  dsimp only
  rw [hroom, if_neg Bool.false_ne_true, if_neg Bool.false_ne_true, if_neg (by rw [h.2.2.1]; exact fun h => h rfl), hl]
  dsimp only
  rw [firstTrap_here, locs_here]
  dsimp only [List.map, Loc.line]
  rw [hline]

theorem runCmo_set {d : Dev} {x : Env} {a : Nat} (hroom : (d.engine x.e.val).sbFull = false) (kind : BitVec 2) (coh unlock : Bool) (g : Nat) :
    runCmo d x kind true a coh unlock g = enterOp d x.e.val (entryOf (.cmoSw kind.toNat unlock (((d.engine x.e.val).rp g).toNat % 16)
      (((d.engine x.e.val).rp g).toNat / 16 % 2 ^ 13) (((d.engine x.e.val).rp g).toNat / 2 ^ 17 % 16)) ((d.engine x.e.val).ra a) {} [] false true) := by
  have h0 : bits ((d.engine x.e.val).rp g).toNat 3 0 = ((d.engine x.e.val).rp g).toNat % 16 := by simp [bits]
  rw [runCmo]
  dsimp only
  rw [hroom, if_neg Bool.false_ne_true, if_pos rfl, h0]
  rfl

/-- Settles O35: what each maintenance instruction enters. -/
theorem maintenanceInstructions : Obligations.MaintenanceInstructions := by
  intro s x a hr hsup e y a0
  have hcmo : ∀ (kind : BitVec 2) (sw coh unlock : Bool) (g : Fin 16), exec (.cmo x kind sw a coh unlock g) s
      = onDevice s (fun d => runInstr d x (wordCmo kind.toNat (b2n sw) a.val (b2n coh) (b2n unlock) g.val)
        (cmoIllegal kind sw coh unlock g.val) true (fun d => runCmo d x kind sw a.val coh unlock g.val)) := fun _ _ _ _ _ => rfl
  have hlabi : ∀ form : BitVec 2, exec (.labi x form a) s = onDevice s (fun d => runInstr d x (wordLabi form.toNat a.val) (form == 3) true (fun d =>
      runLabi d x form ((d.engine x.e.val).ra a.val))) := fun _ => rfl
  refine ⟨fun kind coh unlock hroom hk hu h => ?_, fun kind unlock g hroom hk hu hg => ?_, fun hroom => ?_, fun hroom h => ?_,
    fun hroom h => ?_, fun h => ?_⟩
  · rw [hcmo]
    refine (onDevice_of_ready hr _ (cmoIllegal_address hk hu) (fun _ => hsup) _).trans ?_
    rw [runCmo_address h hroom]
    rfl
  · rw [hcmo]
    refine (onDevice_of_ready hr _ (cmoIllegal_set hk hu hg) (fun _ => hsup) _).trans ?_
    rw [runCmo_set hroom]
    rfl
  · rw [hlabi]
    refine (onDevice_of_ready hr _ rfl (fun _ => hsup) _).trans ?_
    rw [runLabi]
    dsimp only
    rw [hroom, if_neg Bool.false_ne_true]
    rfl
  · rw [hlabi]
    refine (onDevice_of_ready hr _ rfl (fun _ => hsup) _).trans ?_
    rw [runLabi]
    dsimp only
    rw [hroom, if_neg Bool.false_ne_true]
    refine congrArg (fun d => Host.Outcome.next (s.turned d)) ((if_neg (by decide)).trans ?_)
    exact readDesc_good h _
  · rw [hlabi]
    refine (onDevice_of_ready hr _ rfl (fun _ => hsup) _).trans ?_
    rw [runLabi]
    dsimp only
    rw [hroom, if_neg Bool.false_ne_true]
    refine congrArg (fun d => Host.Outcome.next (s.turned d)) ((if_neg (by decide)).trans ((readDesc_good h _).trans ?_))
    have hvpn : descVpn (s.dev.scratchWords x.e.val a0 3) = (s.dev.scratchWord e (waddr a0 + 1)).toNat
        + 2 ^ 18 * (s.dev.scratchWord e (waddr a0 + 2)).toNat := by
      rw [descVpn, fld, Nat.mul_comm]
      rfl
    rw [if_pos rfl, hvpn]
    rfl
  · have hexec : exec (.labw x a) s = onDevice s (fun d => runInstr d x (wordLabw 0x39 a.val) false true (fun d =>
        readDesc d x ((d.engine x.e.val).ra a.val) 6 (fun d ws => d.updEngine x.e.val (fun y => { y with wait := .labw ws })))) := rfl
    rw [hexec]
    refine (onDevice_of_ready hr _ rfl (fun _ => hsup) _).trans ?_
    rw [readDesc_good h]

end Sys2Proof.Machine
end

section
/-! Proof of the statement on QPOP and QPUSH. -/

open Sys2Proof

namespace Sys2Proof.Machine

-- scratch words written one after the other

theorem each_putScratch (d : Dev) (e dest : Nat) (f : Nat → Word) (n : Nat) :
    let z := (d.each (List.range n) (fun d j => putScratch d e (dest + j) (f j))).engine e
    (∀ j < n, Tab.find z.scratch (dest + j) = some (f j))
      ∧ ∀ i, (i < dest ∨ dest + n ≤ i) → Tab.find z.scratch i = Tab.find (d.engine e).scratch i := by
  induction n with
  | zero => exact ⟨fun j hj => absurd hj (Nat.not_lt_zero j), fun i _ => rfl⟩
  | succ n ih =>
    obtain ⟨hin, hout⟩ := ih
    have hstep : d.each (List.range (n + 1)) (fun d j => putScratch d e (dest + j) (f j))
        = putScratch (d.each (List.range n) (fun d j => putScratch d e (dest + j) (f j))) e (dest + n) (f n) := by
      rw [Dev.each, List.range_succ, List.foldl_append]
      rfl
    obtain ⟨hput, hother, -⟩ := putScratch_engine (d.each (List.range n) (fun d j => putScratch d e (dest + j) (f j))) e (dest + n) (f n)
    rw [hstep]
    refine ⟨fun j hj => ?_, fun i hi => ?_⟩
    · by_cases hjn : j = n
      · rw [hjn]; exact hput
      · rw [hother _ (by omega), hin j (by omega)]
    · rw [hother _ (by omega), hout i (by omega)]

theorem each_putScratch_keeps (d : Dev) (e dest : Nat) (f : Nat → Word) (l : List Nat) :
    (d.each l (fun d j => putScratch d e (dest + j) (f j))).mem = d.mem
      ∧ (d.each l (fun d j => putScratch d e (dest + j) (f j))).pairs = d.pairs :=
  Dev.each_keeps (fun x => x.mem = d.mem ∧ x.pairs = d.pairs) d l _ ⟨rfl, rfl⟩ (fun x j _ hx => by
    simpa [putScratch] using hx)

theorem spend_keeps (y : Engine) : y.spend.g = y.g ∧ y.spend.flags = y.flags ∧ y.spend.rsv = y.rsv ∧ y.spend.scratch = y.scratch := by
  unfold Engine.spend
  split <;> exact ⟨rfl, rfl, rfl, rfl⟩

theorem advance_pairs (d : Dev) (e k n : Nat) : (advance d e k).pair n = d.pair n := rfl

-- QPOP

/-- A pop takes the oldest packet's words to scratch and moves the consumer index. -/
theorem popTo_takes (d : Dev) (n e : Nat) (a : Info) (g : Nat) :
    let p := d.pair n
    let c := p.cmdCons.toNat % 128
    let len := ((p.slot? c 0).getD 0).toNat % 64 + 1
    let t := popTo d n e a g
    (t.engine e).rg g = BitVec.ofNat 18 len ∧ (t.engine e).flags.getLsbD 4 = false ∧ (t.engine e).rsv = none
      ∧ (t.pair n).cmdCons = p.cmdCons + 1 ∧ (t.pair n).cmdProd = p.cmdProd ∧ t.mem = d.mem
      ∧ (∀ j < len, t.scratchWord e (waddr a + j) = (p.slot? c j).getD 0)
      ∧ (∀ i, (i < waddr a ∨ waddr a + len ≤ i) → Tab.find (t.engine e).scratch i = Tab.find (d.engine e).scratch i)
      ∧ ∀ k, k ≠ n → t.pair k = d.pair k := by
  have hbits : ∀ w : Word, bits w.toNat 5 0 = w.toNat % 64 := fun w => by simp [bits]
  intro p c len t
  obtain ⟨hin, hout⟩ := each_putScratch d e (waddr a) (fun j => (p.slot? c j).getD 0) len
  obtain ⟨hmem, hpairs⟩ := each_putScratch_keeps d e (waddr a) (fun j => (p.slot? c j).getD 0) (List.range len)
  obtain ⟨x, hx⟩ : ∃ x, x = d.each (List.range len) (fun d j => putScratch d e (waddr a + j) ((p.slot? c j).getD 0)) := ⟨_, rfl⟩
  obtain ⟨q, hq⟩ : ∃ q : Option (Nat × BitVec 10 × BitVec 8 × List Word), popTo d n e a g = advance ((x.updPair n (fun p => { p.clearCell c with
      parity := p.parity, cmdCons := p.cmdCons + 1, commits := p.commits.drop 1
      poppedBy := if p.poppedBy.contains e then p.poppedBy else p.poppedBy ++ [e] })).updEngine e (fun x => { x.setG g (BitVec.ofNat 18 len) with
        flags := setFlag x.flags 4 false, rsv := none, popped := q })) e 1 := by
    unfold popTo
    dsimp only
    rw [hbits, hx]
    exact ⟨_, rfl⟩
  rw [← hx] at hin hout hmem hpairs
  have hset : ∀ (z : Dev) (f : Engine → Engine) (k : Nat), (z.updEngine e f).pair k = z.pair k := fun _ _ _ => rfl
  have hpair : x.pair n = p := congrArg (fun t => Tab.get ({} : Pair_) t n) hpairs
  have heng : t.engine e = { ({ (x.engine e).setG g (BitVec.ofNat 18 len) with
      flags := setFlag (x.engine e).flags 4 false, rsv := none, popped := q } : Engine).spend with
      pc := (x.engine e).pc + BitVec.ofNat 14 1, st := .running, wait := .none } := by
    change (popTo d n e a g).engine e = _
    rw [hq, advance_engine, Dev.engine_updEngine]
    rfl
  have hcell : t.pair n = { p.clearCell c with
      parity := p.parity, cmdCons := p.cmdCons + 1, commits := p.commits.drop 1
      poppedBy := if p.poppedBy.contains e then p.poppedBy else p.poppedBy ++ [e] } := by
    change (popTo d n e a g).pair n = _
    rw [hq, advance_pairs, hset, Dev.pair_updPair, hpair]
  obtain ⟨hg, hflags, hrsv, hscr⟩ := spend_keeps ({ (x.engine e).setG g (BitVec.ofNat 18 len) with
      flags := setFlag (x.engine e).flags 4 false, rsv := none, popped := q } : Engine)
  have hscratch : (t.engine e).scratch = (x.engine e).scratch := by
    rw [heng]
    exact hscr
  refine ⟨?_, ?_, ?_, ?_, ?_, ?_, fun j hj => ?_, fun i hi => ?_, fun k hk => ?_⟩
  · rw [heng, Engine.rg]
    dsimp only
    rw [hg]
    exact Tab.get_put_same _ _ _ _
  · rw [heng]
    dsimp only
    rw [hflags]
    dsimp only
    rw [getLsbD_setFlag _ (by decide), if_pos rfl]
  · rw [heng]
    exact hrsv
  · rw [hcell]
  · rw [hcell]
    rfl
  · change (popTo d n e a g).mem = _
    rw [hq, (advance_frame _ _ _).2.1]
    exact hmem
  · rw [Dev.scratchWord, hscratch, hin j hj]
  · rw [hscratch, hout i hi]
  · change (popTo d n e a g).pair k = _
    rw [hq, advance_pairs, hset, Dev.pair_updPair_other _ _ hk]
    exact congrArg (fun t => Tab.get ({} : Pair_) t k) hpairs

/-- 64 words of scratch at an address are in bounds. -/
theorem packet_in_scratch {a : Info} (h : waddr a + 64 ≤ 0x8000) : (wordsFrom a 64).find? (fun v => decide (0x8000 ≤ waddr v)) = none := by
  refine List.find?_eq_none.2 (fun b hmem => ?_)
  obtain ⟨j, hj, _, hw⟩ := mem_wordsFrom (by omega) hmem
  have : ¬ 0x8000 ≤ waddr b := by omega
  simpa using this

/-- QPOP with room for a packet, by the state of its queue (R338). -/
theorem runQpop_in_scratch {d : Dev} {x : Env} {a g : Nat} (nb : Bool) (hspace : spaceOf ((d.engine x.e.val).ra a) = 2)
    (h : waddr ((d.engine x.e.val).ra a) + 64 ≤ 0x8000) :
    runQpop d x nb a g =
      let n := ((d.engine x.e.val).rg g).toNat % 64
      let zero (f : Bool) : Dev := advance (d.updEngine x.e.val (fun y => { y.setG g 0 with flags := setFlag y.flags 4 f, rsv := none })) x.e.val 1
      if !(d.pair n).isOpen then zero true
      else if (d.pair n).unpopped ≠ 0 ∧ (d.pair n).waiters.any (d.pair n).serves = false ∧ (d.pair n).serves x.e.val = true then
        popPacket d n x.e.val ((d.engine x.e.val).ra a) g
      else if nb then zero false
      else (d.updEngine x.e.val (fun y => { y with
          wait := .qpop n ((d.engine x.e.val).ra a) g, st := .waiting, rsv := none, waitT := d.glob.time })).updPair n
        (fun p => { p with waiters := d.joinWaiters p.waiters x.e.val }) := by
  have hn : bits ((d.engine x.e.val).rg g).toNat 5 0 = ((d.engine x.e.val).rg g).toNat % 64 := by simp [bits]
  rw [runQpop]
  dsimp only
  rw [if_neg (by rw [hspace]; exact fun h => h rfl), packet_in_scratch h, hn]

theorem updPair_congr {d : Dev} {n : Nat} {f g : Pair_ → Pair_} (h : f (d.pair n) = g (d.pair n)) : d.updPair n f = d.updPair n g :=
  congrArg (fun y => { d with pairs := Tab.put d.pairs n y }) h

-- QPUSH

/-- QPUSH of an engine without buffered stores, by its length (R341). -/
theorem runQpush_fenced {d : Dev} {x : Env} {a g : Nat} (hspace : spaceOf ((d.engine x.e.val).ra a) = 2) (hsb : (d.engine x.e.val).sb = [])
    (hnt : (d.engine x.e.val).nt = []) :
    runQpush d x a g =
      let len := ((d.engine x.e.val).rg g).toNat / 64 % 128
      if len = 0 ∨ 64 < len then advance (d.updEngine x.e.val (fun y => { y with flags := setFlag y.flags 4 true })) x.e.val 1
      else readDesc d x ((d.engine x.e.val).ra a) len (fun z ws => pushOrWait z x.e.val (((d.engine x.e.val).rg g).toNat % 64) ws) := by
  have hn : bits ((d.engine x.e.val).rg g).toNat 5 0 = ((d.engine x.e.val).rg g).toNat % 64 := by simp [bits]
  have hlen : bits ((d.engine x.e.val).rg g).toNat 12 6 = ((d.engine x.e.val).rg g).toNat / 64 % 128 := rfl
  have hf : (d.engine x.e.val).fenced true false = true := by rw [Engine.fenced, hsb, hnt]; rfl
  rw [runQpush]
  dsimp only
  rw [if_neg (by rw [hspace]; exact fun h => h rfl), if_neg (by rw [hf]; exact Bool.false_ne_true), hn, hlen]

/-- Settles O36: what QPOP and QPUSH do, and the packet a pop takes. -/
theorem queueInstructions : Obligations.QueueInstructions := by
  refine ⟨fun s x a g hr hsup => ?_, fun d n e a g _ => popTo_takes d n e a g,
    fun d n e a g ws => ⟨rfl, rfl, fun h => ?_, fun i h => ?_⟩⟩
  · intro e y a0 n len p hspace
    have hpop : ∀ nb : Bool, exec (.qpop x nb a g) s = onDevice s (fun d => runInstr d x (wordQ 0x3D (b2n nb) a.val g.val) false true
        (fun d => runQpop d x nb a.val g.val)) := fun _ => rfl
    have hpush : exec (.qpush x a g) s = onDevice s (fun d => runInstr d x (wordQ 0x3E 0 a.val g.val) false true
        (fun d => runQpush d x a.val g.val)) := rfl
    refine ⟨fun nb hin hopen => ?_, fun nb hin hopen hnew hwait hserve => ?_, fun hin hopen hno => ?_, fun hsb hnt => ⟨fun hlen => ?_, fun hpos hle hgood => ?_⟩⟩
    · rw [hpop]
      refine (onDevice_of_ready hr _ rfl (fun _ => hsup) _).trans ?_
      rw [runQpop_in_scratch nb hspace hin]
      exact congrArg (fun d => Host.Outcome.next (s.turned d)) (if_pos (by rw [hopen]; rfl))
    · rw [hpop]
      refine (onDevice_of_ready hr _ rfl (fun _ => hsup) _).trans ?_
      rw [runQpop_in_scratch nb hspace hin]
      exact congrArg (fun d => Host.Outcome.next (s.turned d)) ((if_neg (by rw [hopen]; exact Bool.false_ne_true)).trans
        (if_pos ⟨hnew, hwait, hserve⟩))
    · have hshut : ¬ (!(s.dev.pair n).isOpen) = true := by rw [hopen]; exact Bool.false_ne_true
      have hidle : ¬ ((s.dev.pair n).unpopped ≠ 0 ∧ (s.dev.pair n).waiters.any (s.dev.pair n).serves = false ∧ (s.dev.pair n).serves e = true) := by
        rintro ⟨h1, h2, h3⟩
        obtain h | h | h := hno
        · exact h1 h
        · exact absurd (h.symm.trans h2) Bool.noConfusion
        · exact absurd (h3.symm.trans h) Bool.noConfusion
      refine ⟨?_, ?_⟩
      · rw [hpop]
        refine (onDevice_of_ready hr _ rfl (fun _ => hsup) _).trans ?_
        rw [runQpop_in_scratch true hspace hin]
        exact congrArg (fun d => Host.Outcome.next (s.turned d)) ((if_neg hshut).trans ((if_neg hidle).trans (if_pos rfl)))
      · rw [hpop]
        refine (onDevice_of_ready hr _ rfl (fun _ => hsup) _).trans ?_
        rw [runQpop_in_scratch false hspace hin]
        exact congrArg (fun d => Host.Outcome.next (s.turned d)) ((if_neg hshut).trans ((if_neg hidle).trans
          ((if_neg Bool.false_ne_true).trans (updPair_congr rfl))))
    · rw [hpush]
      refine (onDevice_of_ready hr _ rfl (fun _ => hsup) _).trans ?_
      rw [runQpush_fenced hspace hsb hnt]
      exact congrArg (fun d => Host.Outcome.next (s.turned d)) (if_pos hlen)
    · have hgo : exec (.qpush x a g) s = .next (s.turned (pushOrWait s.dev e n (s.dev.scratchWords e a0 len))) := by
        rw [hpush]
        refine (onDevice_of_ready hr _ rfl (fun _ => hsup) _).trans ?_
        rw [runQpush_fenced hspace hsb hnt]
        refine congrArg (fun d => Host.Outcome.next (s.turned d)) ((if_neg (by change ¬ (len = 0 ∨ 64 < len); omega)).trans ?_)
        exact readDesc_good hgood _
      refine ⟨fun hopen => ?_, fun hopen hpopped hpool => ?_, fun hopen hpopped hpool => ?_⟩
      · rw [hgo]
        have hshut : (!(s.dev.pair n).isOpen || !(s.dev.pair n).poppedBy.contains e) = true := by
          rw [hopen]
          rfl
        exact congrArg (fun d => Host.Outcome.next (s.turned d)) (if_pos hshut)
      · rw [hgo]
        have hserved : ¬ (!(s.dev.pair n).isOpen || !(s.dev.pair n).poppedBy.contains e) = true := by
          rw [hopen, hpopped]
          exact Bool.false_ne_true
        exact congrArg (fun d => Host.Outcome.next (s.turned d)) ((if_neg hserved).trans (if_neg hpool))
      · rw [hgo]
        have hserved : ¬ (!(s.dev.pair n).isOpen || !(s.dev.pair n).poppedBy.contains e) = true := by
          rw [hopen, hpopped]
          exact Bool.false_ne_true
        exact congrArg (fun d => Host.Outcome.next (s.turned d)) ((if_neg hserved).trans (if_pos hpool))
  · rw [pairUpdated, h]
  · rw [pairUpdated, h]

end Sys2Proof.Machine
end

section
/-! Proof of the statement on the SYS instructions. -/

open Sys2Proof

namespace Sys2Proof.Machine

-- FENCE and STOP with empty buffers

theorem Engine.drainNt_of_empty {y : Engine} (h : y.nt = []) : y.drainNt = y := by
  rw [Engine.drainNt, h]
  rfl

theorem Engine.fenced_of_empty {y : Engine} (hs : y.sb = []) (hn : y.nt = []) (s c : Bool) : y.fenced s c = true := by
  rw [Engine.fenced, hs, hn]
  cases s <;> cases c <;> rfl

/-- A FENCE with nothing to wait for ends at once (R288). -/
theorem runFence_of_empty {d : Dev} {e : Nat} (hs : (d.engine e).sb = []) (hn : (d.engine e).nt = []) (arg : BitVec 6) :
    runFence d e arg = endFence (d.updEngine e (fun y => { (if arg.getLsbD 0 then y.drainNt else y) with
      wait := .fence (arg.getLsbD 0) (arg.getLsbD 1) (arg.getLsbD 2) false })) e false := by
  have hsame : (if arg.getLsbD 0 then (d.engine e).drainNt else d.engine e) = d.engine e := by
    rw [Engine.drainNt_of_empty hn, ite_self]
  rw [runFence, bufferSettle]
  dsimp only
  rw [Dev.engine_updEngine, hsame]
  exact if_pos (Engine.fenced_of_empty (y := { d.engine e with
    wait := .fence (arg.getLsbD 0) (arg.getLsbD 1) (arg.getLsbD 2) false }) hs hn _ _)

theorem endFence_engine (d : Dev) (e : Nat) : ((endFence d e false).engine e).pc = (d.engine e).pc + 1
    ∧ ((endFence d e false).engine e).flags = (d.engine e).flags ∧ ((endFence d e false).engine e).wait = .none
    ∧ ((endFence d e false).engine e).g = (d.engine e).g := by
  obtain ⟨hg, hf, -, -⟩ := spend_keeps (d.engine e)
  have heng : (endFence d e false).engine e
      = { (d.engine e).spend with pc := (d.engine e).pc + BitVec.ofNat 14 1, st := .running, wait := .none } := by
    rw [endFence, advance_engine, Dev.engine_updEngine]
    rfl
  rw [heng]
  exact ⟨rfl, hf, rfl, hg⟩

/-- STOP with nothing to wait for stops at once (R272). -/
theorem runStop_of_empty {d : Dev} {e : Nat} (hs : (d.engine e).sb = []) (hn : (d.engine e).nt = []) :
    runStop d e = endStop (d.updEngine e (fun y => { y.drainNt with wait := .stop, rsv := none })) e := by
  have hsb : ({ (d.engine e).drainNt with wait := .stop, rsv := none } : Engine).sb.isEmpty = true := by
    rw [Engine.drainNt_of_empty hn, hs]
    rfl
  have hnt : ({ (d.engine e).drainNt with wait := .stop, rsv := none } : Engine).nt.isEmpty = true := by
    rw [Engine.drainNt_of_empty hn, hn]
    rfl
  rw [runStop, bufferSettle]
  dsimp only
  rw [Dev.engine_updEngine]
  dsimp only at hsb hnt ⊢
  rw [hsb, hnt]
  rfl

-- HALT

/-- HALT stops the engine where it is, its combining buffer drained and its reservation gone (R270). -/
theorem haltEngine_single (d : Dev) (e : Nat) :
    let z := (haltEngine d e 0 false).engine e
    z.st = .halted ∧ z.pc = (d.engine e).pc ∧ z.g = (d.engine e).g ∧ z.nt = [] ∧ z.rsv = none ∧ z.double = false := by
  obtain ⟨bs, n, hdrain⟩ := (d.engine e).drainNt_eq
  by_cases hq : e < 4 <;> simp [haltEngine, hq, hdrain]

-- EWAIT

/-- A record that waits is taken into G12 to G15 (R273). -/
theorem takeWake_takes {d : Dev} {e : Nat} {r : Rec} {rest : List Rec} (h : (d.engine e).wake = r :: rest) :
    let z := (takeWake d e).engine e
    z.rg 12 = r.w0 ∧ z.rg 13 = r.info.extractLsb' 0 18 ∧ z.rg 14 = r.info.extractLsb' 18 18 ∧ z.rg 15 = r.info.extractLsb' 36 18
      ∧ z.wake = rest ∧ z.flags.getLsbD 0 = false ∧ z.pc = (d.engine e).pc + 1 ∧ z.rsv = (d.engine e).rsv
      ∧ ∀ k < 12, z.rg k = (d.engine e).rg k := by
  intro z
  have heng : z = { ({ ((((d.engine e).setG 12 r.w0).setG 13 (r.info.extractLsb' 0 18)).setG 14 (r.info.extractLsb' 18 18)).setG 15
      (r.info.extractLsb' 36 18) with wake := rest, flags := setFlag (d.engine e).flags 0 false } : Engine).spend with
      pc := (d.engine e).pc + BitVec.ofNat 14 1, st := .running, wait := .none } := by
    change (takeWake d e).engine e = _
    rw [takeWake, h]
    dsimp only
    rw [advance_engine, Dev.engine_updEngine]
    rfl
  have hspend : ∀ y : Engine, y.spend.wake = y.wake := by
    intro y
    unfold Engine.spend
    split <;> rfl
  obtain ⟨hg, hf, hr, -⟩ := spend_keeps ({ ((((d.engine e).setG 12 r.w0).setG 13 (r.info.extractLsb' 0 18)).setG 14
      (r.info.extractLsb' 18 18)).setG 15 (r.info.extractLsb' 36 18) with wake := rest, flags := setFlag (d.engine e).flags 0 false } : Engine)
  have hregs : z.g = Tab.put (Tab.put (Tab.put (Tab.put (d.engine e).g 12 r.w0) 13 (r.info.extractLsb' 0 18)) 14 (r.info.extractLsb' 18 18)) 15
      (r.info.extractLsb' 36 18) := by
    rw [heng]
    exact hg
  refine ⟨?_, ?_, ?_, ?_, ?_, ?_, ?_, ?_, fun k hk => ?_⟩
  · rw [Engine.rg, hregs, Tab.get_put_other _ _ _ (by decide), Tab.get_put_other _ _ _ (by decide), Tab.get_put_other _ _ _ (by decide), Tab.get_put_same]
  · rw [Engine.rg, hregs, Tab.get_put_other _ _ _ (by decide), Tab.get_put_other _ _ _ (by decide), Tab.get_put_same]
  · rw [Engine.rg, hregs, Tab.get_put_other _ _ _ (by decide), Tab.get_put_same]
  · rw [Engine.rg, hregs, Tab.get_put_same]
  · rw [heng]
    exact hspend _
  · rw [heng]
    dsimp only
    rw [hf]
    dsimp only
    rw [getLsbD_setFlag _ (by decide), if_pos rfl]
  · rw [heng]
    rfl
  · rw [heng]
    exact hr
  · rw [Engine.rg, hregs, Tab.get_put_other _ _ _ (by omega), Tab.get_put_other _ _ _ (by omega), Tab.get_put_other _ _ _ (by omega),
      Tab.get_put_other _ _ _ (by omega)]
    rfl

/-- Settles O37: each SYS instruction of a ready engine. -/
theorem systemInstructions : Obligations.SystemInstructions := by
  intro s x hr e y
  have hnone : false = true → (s.dev.engine x.e.val).sup = true := fun h => nomatch h
  have hewait : ∀ g : Fin 16, exec (.ewait x (BitVec.ofNat 6 g.val)) s = onDevice s (fun d => runInstr d x (wordSys 7 (BitVec.ofNat 6 g.val).toNat)
      (decide (16 ≤ (BitVec.ofNat 6 g.val).toNat)) true (fun d => runEwait d x.e.val ((BitVec.ofNat 6 g.val).toNat % 16))) := fun _ => rfl
  have harg : ∀ g : Fin 16, (BitVec.ofNat 6 g.val).toNat = g.val := fun g => by
    rw [BitVec.toNat_ofNat]
    have := g.isLt
    omega
  have hlow : ∀ g : Fin 16, decide (16 ≤ (BitVec.ofNat 6 g.val).toNat) = false := fun g => by
    rw [harg]
    exact decide_eq_false (by have := g.isLt; omega)
  have hmod : ∀ g : Fin 16, (BitVec.ofNat 6 g.val).toNat % 16 = g.val := fun g => by
    rw [harg]
    exact Nat.mod_eq_of_lt g.isLt
  refine ⟨onDevice_of_ready hr _ rfl hnone _, fun arg h0 h8 hsb hnt d hd => ?_, fun arg => ?_, onDevice_of_ready hr _ rfl hnone _, fun hsup =>
    ⟨onDevice_of_ready hr _ rfl (fun _ => hsup) _, fun d hd => ?_, fun hsb hnt d hd => ?_, fun hover => ?_, fun hover => ?_, fun g hw => ?_,
    fun g r rest hw d hd => ?_, onDevice_of_ready hr _ rfl (fun _ => hsup) _⟩⟩
  · have hlegal : (arg == 0 || decide (8 ≤ arg.toNat)) = false := by
      rw [decide_eq_false (by omega)]
      simpa using h0
    have hexec : exec (.fence x arg) s = onDevice s (fun d => runInstr d x (wordSys 1 arg.toNat) (arg == 0 || decide (8 ≤ arg.toNat)) false
        (fun d => runFence d x.e.val arg)) := rfl
    have hsame : (if arg.getLsbD 0 then (s.dev.engine e).drainNt else s.dev.engine e) = s.dev.engine e := by
      rw [Engine.drainNt_of_empty hnt, ite_self]
    obtain ⟨h1, h2, h3, h4⟩ := endFence_engine (s.dev.updEngine e (fun y => { (if arg.getLsbD 0 then y.drainNt else y) with
      wait := .fence (arg.getLsbD 0) (arg.getLsbD 1) (arg.getLsbD 2) false })) e
    rw [← runFence_of_empty hsb hnt arg, ← hd, Dev.engine_updEngine, hsame] at h1 h2 h4
    rw [← runFence_of_empty hsb hnt arg, ← hd] at h3
    rw [hexec]
    refine ⟨(onDevice_of_ready hr _ hlegal hnone _).trans (by rw [hd]), ?_, h1, h2, h3, h4⟩
    rw [hd, runFence, bufferSettle_mem]
    rfl
  · refine (onDevice_of_ready hr _ rfl hnone _).trans ?_
    have hpc : ∀ y : Engine, y.spend.pc = y.pc := by
      intro y
      unfold Engine.spend
      split <;> rfl
    rw [runTrap, Dev.engine_updEngine, hpc]
  · have hhalt := haltEngine_single s.dev e
    rw [← hd] at hhalt
    obtain ⟨h1, h2, h3, h4, h5, h6⟩ := hhalt
    refine ⟨(onDevice_of_ready hr _ rfl (fun _ => hsup) _).trans (by rw [hd]), h1, h2, h3, h4, h5, h6, ?_⟩
    rw [hd]
    simp [haltEngine]
  · have hstop := runStop_of_empty hsb hnt
    have heng : (d.engine e).st = .stopped ∧ (d.engine e).rsv = none ∧ (d.engine e).g = y.g := by
      rw [hd, hstop, endStop, Dev.engine_updEngine, Dev.engine_updEngine, Engine.drainNt_of_empty hnt]
      exact ⟨rfl, rfl, rfl⟩
    refine ⟨(onDevice_of_ready hr _ rfl (fun _ => hsup) _).trans (by rw [hd]), heng.1, heng.2.1, heng.2.2, ?_⟩
    rw [hd, runStop, bufferSettle_mem]
    rfl
  · refine (onDevice_of_ready hr _ rfl (fun _ => hsup) _).trans ?_
    rw [runLabsync, if_pos hover]
  · refine (onDevice_of_ready hr _ rfl (fun _ => hsup) _).trans ?_
    rw [runLabsync, if_neg (by rw [hover]; exact Bool.false_ne_true)]
  · rw [hewait]
    refine (onDevice_of_ready hr _ (hlow g) (fun _ => hsup) _).trans ?_
    rw [hmod, runEwait, if_pos]
    rw [Dev.engine_updEngine]
    exact List.isEmpty_iff.mpr hw
  · have hwake : ((s.dev.updEngine e (fun y => { y with rsv := none })).engine e).wake = r :: rest := by
      rw [Dev.engine_updEngine]
      exact hw
    have hrun : d = takeWake (s.dev.updEngine e (fun y => { y with rsv := none })) e := by
      rw [hd, runEwait, if_neg]
      rw [hwake]
      exact Bool.false_ne_true
    have htake := takeWake_takes hwake
    rw [← hrun, Dev.engine_updEngine] at htake
    rw [hewait]
    exact ⟨(onDevice_of_ready hr _ (hlow g) (fun _ => hsup) _).trans (by rw [hmod, hd]), htake⟩

end Sys2Proof.Machine
end

section
/-! Fills that come back to the core, and writes that reach their controller. -/

open Sys2Proof

namespace Sys2Proof.Machine

-- the channel and controller of a line

theorem chanOf_line (dpa : Nat) : chanOf (64 * (dpa / 64)) = chanOf dpa := by
  have h : sa (64 * (dpa / 64)) = sa dpa := by
    unfold sa
    omega
  rw [chanOf, chanOf, h]

theorem mcOf_line (dpa : Nat) : mcOf (64 * (dpa / 64)) = mcOf dpa := by
  rw [mcOf, mcOf, chanOf_line]

-- repairs that wait

/-- A line that is stored waits for no repair any more; the repairs of other lines stay or are fewer. -/
theorem storeLine_repair (d : Dev) (line : Nat) (data : Line) (p c : Bool) (k : Nat) :
    ((storeLine d line data p c).chan k).repair = if k = chanOf (64 * line) then
      (d.chan k).repair.filter (fun r => !decide (r.1 = line)) else (d.chan k).repair := by
  have hflip : ∀ (d : Dev) (path inst w : Nat) (chk : Bool), ((flipWrite d path inst (64 * line) w chk).1).chan k = d.chan k :=
    fun d path inst w chk => chan_of_chans (by simp) k
  have hmem : ∀ (d : Dev) (m : Memory), ({ d with mem := m } : Dev).chan k = d.chan k := fun _ _ => rfl
  unfold storeLine
  dsimp only
  by_cases hk : k = chanOf (64 * line)
  · rw [if_pos hk, hk, Dev.chan_updChan]
    rw [← hk, hmem, hflip, hflip]
  · rw [if_neg hk, Dev.chan_updChan_other _ _ hk, hmem, hflip, hflip]

/-- No repair of a line waits in a channel. -/
def Dev.noRepair (d : Dev) (c line : Nat) : Prop := ∀ r ∈ (d.chan c).repair, r.1 ≠ line

theorem noRepair_of_chans {d d' : Dev} (h : d'.chans = d.chans) (c line : Nat) : d'.noRepair c line ↔ d.noRepair c line := by
  rw [Dev.noRepair, Dev.noRepair, chan_of_chans h]

theorem count_noRepair (d : Dev) (b code n : Nat) (k : Counted) (c line : Nat) : (count d b code n k).noRepair c line ↔ d.noRepair c line :=
  noRepair_of_chans (by simp) c line

theorem storeLine_noRepair_same (d : Dev) (line : Nat) (data : Line) (p c : Bool) :
    (storeLine d line data p c).noRepair (chanOf (64 * line)) line := by
  intro r hr
  rw [storeLine_repair, if_pos rfl, List.mem_filter] at hr
  simpa using hr.2

theorem storeLine_noRepair {d : Dev} {k line : Nat} (l : Nat) (data : Line) (p c : Bool) (h : d.noRepair k line) :
    (storeLine d l data p c).noRepair k line := by
  intro r hr
  rw [storeLine_repair] at hr
  split at hr
  · exact h r (List.mem_filter.mp hr).1
  · exact h r hr

theorem dropRepair_noRepair (d : Dev) (line : Nat) : (dropRepair d line).noRepair (chanOf (64 * line)) line := by
  intro r hr
  rw [dropRepair, Dev.chan_updChan, List.mem_filter] at hr
  simpa using hr.2

/-- Once a write of a line is accepted no repair of it waits (R377). -/
theorem repairBefore_noRepair (d : Dev) (line : Nat) (whole : Bool) : (repairBefore d line whole).noRepair (chanOf (64 * line)) line := by
  unfold repairBefore
  split
  case isFalse => exact dropRepair_noRepair d line
  case isTrue h =>
    obtain ⟨r, hr, hline⟩ : ∃ r ∈ (d.chan (chanOf (64 * line))).repair, r.1 = line := by
      rw [Bool.and_eq_true] at h
      obtain ⟨r, hr, hp⟩ := List.any_eq_true.mp h.2
      rw [Bool.and_eq_true] at hp
      exact ⟨r, hr, of_decide_eq_true hp.1⟩
    unfold runRepairs
    refine Dev.each_sets (fun x => x.noRepair (chanOf (64 * line)) line) d _ hr (fun x => ?_) (fun x b hx => ?_)
    · rw [count_noRepair, hline]
      exact storeLine_noRepair_same x line _ _ _
    · rw [count_noRepair]
      exact storeLine_noRepair _ _ _ _ hx

/-- Writing or dropping the repairs of a line moves no write buffer, no request and no number. -/
theorem repairBefore_keeps (d : Dev) (line : Nat) (whole : Bool) : (repairBefore d line whole).mcs = d.mcs
    ∧ (repairBefore d line whole).xacts = d.xacts ∧ (repairBefore d line whole).nextId = d.nextId ∧ (repairBefore d line whole).pwr = d.pwr := by
  unfold repairBefore
  split
  · exact Dev.each_keeps (fun x => x.mcs = d.mcs ∧ x.xacts = d.xacts ∧ x.nextId = d.nextId ∧ x.pwr = d.pwr) d _ _ ⟨rfl, rfl, rfl, rfl⟩
      (fun x r _ hx => by simpa [storeLine] using hx)
  · exact ⟨rfl, rfl, rfl, rfl⟩

theorem repairBefore_mem {d : Dev} {line : Nat} {whole : Bool} (h : whole = true ∨ d.noRepair (chanOf (64 * line)) line) :
    (repairBefore d line whole).mem = d.mem := by
  unfold repairBefore
  rw [if_neg, dropRepair_mem]
  rw [Bool.and_eq_true]
  rintro ⟨hw, hany⟩
  obtain h | h := h
  · rw [h] at hw
    exact Bool.false_ne_true hw
  · obtain ⟨r, hr, hp⟩ := List.any_eq_true.mp hany
    rw [Bool.and_eq_true] at hp
    exact h r hr (of_decide_eq_true hp.1)

-- a write that reaches its controller

/-- What comes before the entry of an accepted write: its poison logged, its line's repairs settled, the write counted. -/
def Dev.beforeEntry (d : Dev) (x : Xact) : Dev :=
  count (repairBefore (if x.req.poison then
      logErr d { kind := 7, src := 256 + chanOf x.req.dpa, poisoned := true, loc := x.req.dpa, who := whoOf x.req } else d)
    x.line (x.req.op != .poison && x.req.mask == BitVec.allOnes 64)) (mcBlock (mcOf x.req.dpa)) 0x22 1 x.req.counted

theorem acceptWrite_below {d : Dev} {i : Nat} {x : Xact} (hx : d.xact? i = some x) (hp : x.phase = .toBuffer) (ht : d.mcTakes x = true)
    (hl : x.req.dpa < d.limit) :
    acceptWrite d i =
      let f := flipWrite (d.beforeEntry x) 7 (mcOf x.req.dpa) x.req.dpa 64 true
      if (takeEntry f.1 i x f.2).leaving (mcDom (mcOf x.req.dpa)) then drainAll (takeEntry f.1 i x f.2) (mcOf x.req.dpa)
      else takeEntry f.1 i x f.2 := by
  have hgo : ¬ (x.phase ≠ .toBuffer ∨ d.mcTakes x = false) := by
    rw [hp, ht]
    simp
  unfold acceptWrite
  rw [hx]
  dsimp only
  rw [if_neg hgo, if_neg (by omega)]
  rfl

/-- What the log of a poisoned write leaves alone. -/
theorem poisonLogged_keeps (d : Dev) (b : Bool) (f : Fail) :
    let z := if b = true then logErr d f else d
    z.mcs = d.mcs ∧ z.xacts = d.xacts ∧ z.nextId = d.nextId ∧ z.pwr = d.pwr ∧ z.mem = d.mem ∧ z.chans = d.chans := by
  cases b
  · exact ⟨rfl, rfl, rfl, rfl, rfl, rfl⟩
  · simp

/-- What comes before an accepted write's entry moves no write buffer, no request and no number. -/
theorem beforeEntry_keeps (d : Dev) (x : Xact) : (d.beforeEntry x).mcs = d.mcs ∧ (d.beforeEntry x).xacts = d.xacts
    ∧ (d.beforeEntry x).nextId = d.nextId ∧ (d.beforeEntry x).pwr = d.pwr := by
  obtain ⟨h1, h2, h3, h4, -, -⟩ := poisonLogged_keeps d x.req.poison
    { kind := 7, src := 256 + chanOf x.req.dpa, poisoned := true, loc := x.req.dpa, who := whoOf x.req }
  obtain ⟨k1, k2, k3, k4⟩ := repairBefore_keeps (if x.req.poison = true then
      logErr d { kind := 7, src := 256 + chanOf x.req.dpa, poisoned := true, loc := x.req.dpa, who := whoOf x.req } else d)
    x.line (x.req.op != .poison && x.req.mask == BitVec.allOnes 64)
  have hcount : ∀ (d : Dev) (b code n : Nat) (k : Counted), (count d b code n k).mcs = d.mcs ∧ (count d b code n k).xacts = d.xacts
      ∧ (count d b code n k).nextId = d.nextId ∧ (count d b code n k).pwr = d.pwr := by simp
  obtain ⟨c1, c2, c3, c4⟩ := hcount (repairBefore (if x.req.poison = true then
      logErr d { kind := 7, src := 256 + chanOf x.req.dpa, poisoned := true, loc := x.req.dpa, who := whoOf x.req } else d)
    x.line (x.req.op != .poison && x.req.mask == BitVec.allOnes 64)) (mcBlock (mcOf x.req.dpa)) 0x22 1 x.req.counted
  exact ⟨c1.trans (k1.trans h1), c2.trans (k2.trans h2), c3.trans (k3.trans h3), c4.trans (k4.trans h4)⟩

theorem beforeEntry_noRepair (d : Dev) (x : Xact) : (d.beforeEntry x).noRepair (chanOf x.req.dpa) x.line := by
  rw [Dev.beforeEntry, count_noRepair, ← chanOf_line]
  exact repairBefore_noRepair _ _ _

theorem beforeEntry_mem {d : Dev} {x : Xact} (hop : x.req.op ≠ .poison)
    (h : x.req.mask = BitVec.allOnes 64 ∨ d.noRepair (chanOf x.req.dpa) x.line) : (d.beforeEntry x).mem = d.mem := by
  obtain ⟨-, -, -, -, hm, hc⟩ := poisonLogged_keeps d x.req.poison
    { kind := 7, src := 256 + chanOf x.req.dpa, poisoned := true, loc := x.req.dpa, who := whoOf x.req }
  have hcount : ∀ (d : Dev) (b code n : Nat) (k : Counted), (count d b code n k).mem = d.mem := by simp
  rw [Dev.beforeEntry, hcount, repairBefore_mem, hm]
  obtain h | h := h
  · exact .inl (by rw [h]; simpa using hop)
  · refine .inr ?_
    rw [noRepair_of_chans hc]
    have hline : chanOf (64 * x.line) = chanOf x.req.dpa := chanOf_line x.req.dpa
    rw [hline]
    exact h

/-- A write with no OPEN entry of its line takes a new one (R222). -/
theorem takeEntry_new {d : Dev} {x : Xact} (i bad : Nat) (hop : x.req.op ≠ .poison) (h : (d.wbOf x.line).find? (fun e => !e.draining) = none) :
    takeEntry d i x bad = (d.updMc (mcOf x.req.dpa) (fun y => { y with
        wb := y.wb ++ [{ line := x.line, data := x.req.data, mask := x.req.mask, poison := x.req.poison, draining := false, aged := false
                         slice := x.slice, codeOnly := false, bad := bad, num := (d.mc (mcOf x.req.dpa)).nextNum }]
        nextNum := y.nextNum + 1 })).putSent i { x with phase := .accepted false } := by
  have hcode : (x.req.op == .poison) = false := by simpa using hop
  unfold takeEntry
  rw [h, hcode]
  dsimp only
  rw [Bool.or_false, if_neg Bool.false_ne_true]

/-- An entry taken moves neither repairs nor power. -/
theorem takeEntry_keeps (d : Dev) (i : Nat) (x : Xact) (bad : Nat) : (takeEntry d i x bad).pwr = d.pwr ∧ (takeEntry d i x bad).chans = d.chans := by
  unfold takeEntry
  dsimp only
  split <;> exact ⟨rfl, rfl⟩

theorem leaving_of_pwr {d d' : Dev} (h : d'.pwr = d.pwr) (n : Nat) : d'.leaving n = d.leaving n := by
  rw [Dev.leaving, Dev.leaving, h]

theorem flipWrite_keeps (d : Dev) (path inst dpa w : Nat) (chk : Bool) : (flipWrite d path inst dpa w chk).1.mcs = d.mcs
    ∧ (flipWrite d path inst dpa w chk).1.xacts = d.xacts ∧ (flipWrite d path inst dpa w chk).1.nextId = d.nextId
    ∧ (flipWrite d path inst dpa w chk).1.pwr = d.pwr ∧ (flipWrite d path inst dpa w chk).1.chans = d.chans
    ∧ (flipWrite d path inst dpa w chk).1.mem = d.mem := by simp

-- a controller that is being switched off (R517)

theorem drainEntry_mc (d : Dev) (m : Nat) (ue : List Nat) (e : WbEntry) :
    ∃ b : Bool, ((drainEntry d m ue e).mc m).wb = (d.mc m).wb.map (fun f =>
      if f.num = e.num then { f with draining := true, bad := 0, ue := false, poison := f.poison || b } else f) := by
  have hfound : ∀ (z : Dev) (b : Bool), ((if b = true then wbUeFound z m e else z).mc m) = z.mc m := by
    intro z b
    cases b
    · rfl
    · exact mc_of_mcs (by simp [wbUeFound]) m
  refine ⟨ue.contains e.line || e.ecc .ok == .ue, ?_⟩
  unfold drainEntry
  dsimp only
  rw [hfound, Dev.mc_updMc]

/-- After every entry of a list is made to drain, an entry that does not drain has a number outside the list. -/
theorem each_drainEntry (m : Nat) (l : List WbEntry) (d : Dev) :
    ∀ f ∈ ((d.each l (fun d e => drainEntry d m [] e)).mc m).wb, f.draining = true ∨ (f ∈ (d.mc m).wb ∧ ∀ e ∈ l, f.num ≠ e.num) := by
  induction l generalizing d with
  | nil => exact fun f hf => .inr ⟨hf, fun e he => absurd he List.not_mem_nil⟩
  | cons a l ih =>
    intro f hf
    obtain ⟨b, hb⟩ := drainEntry_mc d m [] a
    obtain h | ⟨hmem, hnum⟩ := ih (drainEntry d m [] a) f hf
    · exact .inl h
    · rw [hb] at hmem
      obtain ⟨g, hg, rfl⟩ := List.mem_map.mp hmem
      by_cases hga : g.num = a.num
      · rw [if_pos hga]
        exact .inl rfl
      · rw [if_neg hga] at hnum ⊢
        refine .inr ⟨hg, fun e he => ?_⟩
        obtain rfl | he := List.mem_cons.mp he
        · exact hga
        · exact hnum e he

/-- Every entry of a write buffer that is drained drains. -/
theorem drainAll_drains (d : Dev) (m : Nat) : ∀ e ∈ ((drainAll d m).mc m).wb, e.draining = true := by
  intro e he
  obtain h | ⟨hmem, hnum⟩ := each_drainEntry m _ d e he
  · exact h
  · cases hd : e.draining
    · exact absurd rfl (hnum e (List.mem_filter.mpr ⟨hmem, by rw [hd]; rfl⟩))
    · rfl

-- fills

theorem fillReturn_direct {d : Dev} {i : Nat} {x : Xact} {data : Line} {poison err : Bool} (hx : d.xact? i = some x)
    (hn : d.nextAcross x Xact.comesBack = true) (hm : x.mem = .back data poison err) (hp : x.phase = .direct) :
    fillReturn d i = resolveLine (finish (d.putXact i { x with mem := .idle }) i data poison (!err)) x.slice x.req.dpa := by
  unfold fillReturn
  rw [hx]
  dsimp only
  rw [if_neg (by rw [hn]; exact Bool.false_ne_true), hm, hp]

/-- A fill of a prefetch no read joined goes to the side buffer (R134). -/
theorem fillReturn_prefetch {d : Dev} {i : Nat} {x : Xact} {data : Line} {poison : Bool} {w : Option Nat} (hx : d.xact? i = some x)
    (hn : d.nextAcross x Xact.comesBack = true) (hm : x.mem = .back data poison false) (hp : x.phase = .miss w false) (hpf : x.isPf = true)
    (hd : x.demanded = false) :
    fillReturn d i = ((d.putXact i { x with mem := .idle }).updSlice x.slice (fun y =>
      let side := y.side.filter (fun e => !decide (e.line = x.line))
      { y with side := (if side.length < 64 then side else side.drop 1) ++ [⟨x.line, data, poison⟩] })).dropXact i := by
  unfold fillReturn
  rw [hx]
  dsimp only
  rw [if_neg (by rw [hn]; exact Bool.false_ne_true), hm, hp]
  dsimp only
  rw [if_pos (by rw [hpf, hd]; rfl), Bool.or_false, if_neg Bool.false_ne_true]

/-- Settles O38: fills, and what becomes of a write at its controller. -/
theorem fillsAndAcceptedWrites : Obligations.FillsAndAcceptedWrites := by
  have haccept : ∀ (i : Nat) (s : State), exec (.writeBufferAccept i) s = onDevice s (fun d => acceptWrite d i) := fun _ _ => rfl
  have hfill : ∀ (i : Nat) (s : State), exec (.fillReturn i) s = onIsland 10 s (fun d => fillReturn d i) := fun _ _ => rfl
  refine ⟨fun s i x data poison err hr hx hn hm hp => ?_, fun s i x data poison w d old hr hwf hx hn hm hp hpf hdem hd hold => ?_,
    fun s i x d hx hp ht hl hop hleave hopen hd => ?_, fun s i x d hx hp ht hl hleave hd => ?_, fun s i x d hx hp ht hl hd => ?_⟩
  · rw [hfill, onIsland_running hr, fillReturn_direct hx hn hm hp]
  · have hside := fillReturn_prefetch hx hn hm hp hpf hdem
    rw [hfill, onIsland_running hr, ← hd]
    refine ⟨rfl, ?_, ?_, ?_⟩
    · rw [hd, hside]
      exact Tab.find_del_same (Tab.wf_put hwf _ _) i
    · rw [hd, hside]
      rfl
    · have hslice : ∀ (z : Dev), (z.dropXact i).slice x.slice = z.slice x.slice := fun _ => rfl
      rw [hd, hside, hslice, Dev.slice_updSlice, hold]
      rfl
  · have hbelow := acceptWrite_below hx hp ht hl
    obtain ⟨f1, f2, f3, f4, f5, f6⟩ := flipWrite_keeps (s.dev.beforeEntry x) 7 (mcOf x.req.dpa) x.req.dpa 64 true
    obtain ⟨b1, b2, b3, b4⟩ := beforeEntry_keeps s.dev x
    obtain ⟨t1, t2⟩ := takeEntry_keeps (flipWrite (s.dev.beforeEntry x) 7 (mcOf x.req.dpa) x.req.dpa 64 true).1 i x
      (flipWrite (s.dev.beforeEntry x) 7 (mcOf x.req.dpa) x.req.dpa 64 true).2
    have hstay := (leaving_of_pwr (t1.trans (f4.trans b4)) (mcDom (mcOf x.req.dpa))).trans hleave
    have hrun : d = takeEntry (flipWrite (s.dev.beforeEntry x) 7 (mcOf x.req.dpa) x.req.dpa 64 true).1 i x
        (flipWrite (s.dev.beforeEntry x) 7 (mcOf x.req.dpa) x.req.dpa 64 true).2 := by
      rw [hd, hbelow]
      exact if_neg (by rw [hstay]; exact Bool.false_ne_true)
    have hmc := mc_of_mcs (f1.trans b1) (mcOf x.req.dpa)
    have hnone : (((flipWrite (s.dev.beforeEntry x) 7 (mcOf x.req.dpa) x.req.dpa 64 true).1).wbOf x.line).find? (fun e => !e.draining) = none := by
      rw [Dev.wbOf, mc_of_mcs (f1.trans b1)]
      exact hopen
    rw [haccept, onDevice_turned, ← hd]
    refine ⟨rfl, fun h => ?_, ?_, ?_, ?_⟩
    · rw [hrun, takeEntry_mem, f6]
      exact beforeEntry_mem hop h
    · rw [hrun, takeEntry_new i _ hop hnone]
      refine (Tab.find_put_same _ _ _).trans ?_
      exact congrArg (fun n => some { x with phase := .accepted false, sent := n }) (f3.trans b3)
    · rw [hrun]
      exact (noRepair_of_chans (t2.trans f5) _ _).mpr (beforeEntry_noRepair s.dev x)
    · refine ⟨(flipWrite (s.dev.beforeEntry x) 7 (mcOf x.req.dpa) x.req.dpa 64 true).2, ?_⟩
      have hput : ∀ (z : Dev) (y : Xact) (m : Nat), (z.putSent i y).mc m = z.mc m := fun _ _ _ => rfl
      rw [hrun, takeEntry_new i _ hop hnone, hput, Dev.mc_updMc, hmc]
  · have hbelow := acceptWrite_below hx hp ht hl
    obtain ⟨-, -, -, f4, -, -⟩ := flipWrite_keeps (s.dev.beforeEntry x) 7 (mcOf x.req.dpa) x.req.dpa 64 true
    obtain ⟨-, -, -, b4⟩ := beforeEntry_keeps s.dev x
    obtain ⟨t1, -⟩ := takeEntry_keeps (flipWrite (s.dev.beforeEntry x) 7 (mcOf x.req.dpa) x.req.dpa 64 true).1 i x
      (flipWrite (s.dev.beforeEntry x) 7 (mcOf x.req.dpa) x.req.dpa 64 true).2
    have hgoes := (leaving_of_pwr (t1.trans (f4.trans b4)) (mcDom (mcOf x.req.dpa))).trans hleave
    rw [haccept, onDevice_turned, ← hd]
    refine ⟨rfl, ?_⟩
    rw [hd, hbelow]
    dsimp only
    rw [if_pos hgoes]
    exact drainAll_drains _ _
  · have hgo : ¬ (x.phase ≠ .toBuffer ∨ s.dev.mcTakes x = false) := by
      rw [hp, ht]
      simp
    have hrun : acceptWrite s.dev i = d := by
      unfold acceptWrite
      rw [hx]
      dsimp only
      rw [if_neg hgo, if_pos hl, hd]
    have hretry : ∀ (z : Dev) (line : Nat), (retryRecalls z line).still = z.still := fun z line =>
      Dev.each_still z _ _ (fun z i => recallDone_still z i)
    have hstill : d.still = s.dev.still := by
      rw [hd, resolveLine_still, hretry, finish_still, Dev.putXact_still, overLimit_still]
    rw [haccept, onDevice_turned, hrun]
    exact ⟨rfl, congrArg (fun x => x.2.1) hstill, congrArg (fun x => x.2.2.2.2.1) hstill⟩

end Sys2Proof.Machine
end

section
/-! Mover channels and the tile patrol. -/

open Sys2Proof

namespace Sys2Proof.Machine

/-- A mover channel with lines left and nothing under way reads its next line (R357, R358). -/
theorem moverRead_reads {d : Dev} {key : Nat} (st : Ecc) {op : MoverOp} (hop : Tab.find d.movers key = some op) (hx : op.xid = none)
    (hw : op.wid = none) (hl : op.left ≠ 0) (hlim : 64 * op.src < d.limit) :
    (moverRead d key st).mem = d.mem ∧ Tab.find (moverRead d key st).movers key = some { op with xid := some d.nextId, staging := st }
      ∧ ∃ x, (moverRead d key st).xact? d.nextId = some x ∧ x.req.op = (if key / 24 = 0 then .sweepRead else .moverRead)
        ∧ x.req.dpa = 64 * op.src ∧ x.slice = sliceOf (64 * op.src) := by
  have hgo : ¬ (op.xid.isSome = true ∨ op.wid.isSome = true ∨ op.left = 0) := by simp [hx, hw, hl]
  unfold moverRead
  rw [hop]
  dsimp only
  rw [if_neg hgo, if_neg (by omega)]
  exact ⟨rfl, Tab.find_put_same _ _ _, _, start_xact _ _, rfl, rfl, rfl⟩

/-- A source line above the limit halts the channel with reason 3. -/
theorem moverRead_above {d : Dev} {key : Nat} (st : Ecc) {op : MoverOp} (hop : Tab.find d.movers key = some op) (hx : op.xid = none)
    (hw : op.wid = none) (hl : op.left ≠ 0) (hlim : d.limit ≤ 64 * op.src) : moverRead d key st = haltMover d key 3 op := by
  have hgo : ¬ (op.xid.isSome = true ∨ op.wid.isSome = true ∨ op.left = 0) := by simp [hx, hw, hl]
  unfold moverRead
  rw [hop]
  dsimp only
  rw [if_neg hgo, if_pos hlim]

theorem moverRead_idle {d : Dev} {key : Nat} (st : Ecc) (hop : Tab.find d.movers key = none) : moverRead d key st = d := by
  unfold moverRead
  rw [hop]

/-- Settles O39: mover channels and the tile patrol. -/
theorem moversAndPatrol : Obligations.MoversAndPatrol := by
  have hmover : ∀ (m : Fin 3) (ch : Fin 24) (st : Ecc) (s : State), exec (.memoryMoverLine m ch st) s
      = onIsland 10 s (fun d => moverRead d (24 * (m.val + 1) + ch.val) st) := fun _ _ _ _ => rfl
  have hsweep : ∀ (ch : Fin 24) (st : Ecc) (s : State), exec (.sweepMoverRead ch st) s = onIsland 10 s (fun d => moverRead d ch.val st) :=
    fun _ _ _ => rfl
  refine ⟨fun s m ch st op hr hop hx hw hl hlim d hd => ?_, fun s ch st op hr hop hx hw hl hlim d hd => ?_,
    fun s m ch st op hr hop hx hw hl hlim => ?_, fun s ch st hop => ?_, fun s hp hh hq hs => ?_, fun s errs d hp hq hr hd => ?_⟩
  · obtain ⟨hmem, hput, x, hxact, hreq, hdpa, hslice⟩ := moverRead_reads st hop hx hw hl hlim
    rw [hmover, onIsland_running hr, hd]
    exact ⟨rfl, hmem, hput, x, hxact, hreq.trans (if_neg (by omega)), hdpa, hslice⟩
  · obtain ⟨hmem, hput, x, hxact, hreq, hdpa, hslice⟩ := moverRead_reads st hop hx hw hl hlim
    rw [hsweep, onIsland_running hr, hd]
    exact ⟨rfl, hmem, hput, x, hxact, hreq.trans (if_pos (by have := ch.isLt; omega)), hdpa, hslice⟩
  · rw [hmover, onIsland_running hr, moverRead_above st hop hx hw hl hlim]
  · rw [hsweep, onIsland, onDevice_turned, moverRead_idle st hop, ite_self]
  · have hexec : exec .patrolTimer s = onDevice s patrolStart := rfl
    rw [hexec, onDevice_turned, patrolStart]
    exact congrArg (fun d => Host.Outcome.next (s.turned d)) (if_neg (by simpa [hp, hq, hs] using hh))
  · have hexec : exec (.patrolPassEnd errs) s = onDevice s (fun d => patrolEnd d errs) := rfl
    have hfld : ∀ a b c : Nat, a + fld 24 b + fld 36 c = a + 2 ^ 24 * b + 2 ^ 36 * c := fun a b c => by
      rw [fld, fld, Nat.mul_comm b, Nat.mul_comm c]
    have hmem : d.mem = s.dev.mem := by
      rw [hd]
      exact Dev.each_keeps (fun x => x.mem = s.dev.mem) s.dev _ _ rfl (fun x k _ hx => (patrolSlice_mem x errs k).trans hx)
    rw [hexec, onDevice_turned, patrolEnd, if_neg (by rw [hp, hq, hr]; exact Bool.false_ne_true), ← hd]
    dsimp only
    rw [hfld]
    exact ⟨rfl, hmem⟩

end Sys2Proof.Machine
end

section
/-! LABW, LABI and LABSYNC as they take effect in the LABs. -/

open Sys2Proof

namespace Sys2Proof.Machine

-- one LAB written

theorem lab_setLab (d : Dev) (l : Nat) (t : Tab LabEntry) : (d.setLab l t).lab l = t := by
  unfold Dev.setLab Dev.lab
  by_cases h : l < 8
  · rw [if_pos h, if_pos h, Dev.port_updPort]
  · rw [if_neg h, if_neg h]
    exact Tab.get_put_same _ _ _ _

theorem lab_setLab_other (d : Dev) {l k : Nat} (t : Tab LabEntry) (h : k ≠ l) : (d.setLab l t).lab k = d.lab k := by
  unfold Dev.setLab Dev.lab
  by_cases hl : l < 8
  · rw [if_pos hl]
    by_cases hk : k < 8
    · rw [if_pos hk, if_pos hk, Dev.port_updPort_other _ _ h]
    · rw [if_neg hk, if_neg hk]
      rfl
  · rw [if_neg hl]
    by_cases hk : k < 8
    · rw [if_pos hk, if_pos hk]
      rfl
    · rw [if_neg hk, if_neg hk]
      exact Tab.get_put_other _ _ _ (by omega)

-- an entry found after it is installed (R67, R70)

/-- The page an entry holds. -/
def LabEntry.pageOf (e : LabEntry) : BitVec 12 × BitVec 2 × Nat := (e.view, e.gran, e.vpn)

/-- One key looked up for a page. -/
def labProbe (t : Tab LabEntry) (view : BitVec 12) (gran : BitVec 2) (vpn k : Nat) : Option (Nat × LabEntry) :=
  match Tab.find t k with
  | some e => if e.view = view ∧ e.gran = gran ∧ e.vpn = vpn then some (k, e) else none
  | none => none

theorem labFind_eq (t : Tab LabEntry) (l : Nat) (view : BitVec 12) (gran : BitVec 2) (vpn : Nat) :
    labFind t l view gran vpn = (List.range 4).findSome? (fun w => labProbe t view gran vpn (4 * labSetOf l view vpn + w)) := rfl

section
variable {t : Tab LabEntry} {view : BitVec 12} {gran : BitVec 2} {vpn k : Nat}

theorem labProbe_of_page {e : LabEntry} (h : Tab.find t k = some e) (he : e.pageOf = (view, gran, vpn)) : labProbe t view gran vpn k = some (k, e) := by
  unfold LabEntry.pageOf at he
  simp only [Prod.mk.injEq] at he
  unfold labProbe
  rw [h]
  exact if_pos he

theorem labProbe_eq_none_iff : labProbe t view gran vpn k = none ↔ (Tab.find t k).map LabEntry.pageOf ≠ some (view, gran, vpn) := by
  unfold labProbe
  cases Tab.find t k with
  | none => simp
  | some e => simp [LabEntry.pageOf]

theorem labProbe_fst {r : Nat × LabEntry} (h : labProbe t view gran vpn k = some r) : r.1 = k := by
  unfold labProbe at h
  cases hf : Tab.find t k with
  | none => simp [hf] at h
  | some e =>
    simp only [hf] at h
    split at h
    · simp at h
      rw [← h]
    · simp at h

/-- An entry put in a way of its set is found there, where no earlier way holds its page. -/
theorem labFind_put {l w : Nat} {e : LabEntry} (hw : w < 4) (he : e.pageOf = (view, gran, vpn))
    (hbefore : ∀ k < w, labProbe t view gran vpn (4 * labSetOf l view vpn + k) = none) :
    labFind (Tab.put t (4 * labSetOf l view vpn + w) e) l view gran vpn = some (4 * labSetOf l view vpn + w, e) := by
  have hsplit : List.range 4 = List.range w ++ w :: (List.range (3 - w)).map (fun k => w + 1 + k) := by
    have h4 : w = 0 ∨ w = 1 ∨ w = 2 ∨ w = 3 := by omega
    obtain rfl | rfl | rfl | rfl := h4 <;> rfl
  have hnone : (List.range w).findSome? (fun k => labProbe (Tab.put t (4 * labSetOf l view vpn + w) e) view gran vpn (4 * labSetOf l view vpn + k)) = none := by
    refine List.findSome?_eq_none_iff.mpr (fun k hk => ?_)
    have hkw := List.mem_range.mp hk
    refine labProbe_eq_none_iff.mpr ?_
    rw [Tab.find_put_other _ _ (by omega)]
    exact labProbe_eq_none_iff.mp (hbefore k hkw)
  rw [labFind_eq, hsplit, List.findSome?_append, hnone, Option.none_or, List.findSome?_cons, labProbe_of_page (Tab.find_put_same _ _ _) he]

theorem labFind_none {l : Nat} (h : labFind t l view gran vpn = none) {w : Nat} (hw : w < 4) :
    labProbe t view gran vpn (4 * labSetOf l view vpn + w) = none :=
  List.findSome?_eq_none_iff.mp h w (List.mem_range.mpr hw)

theorem labFind_some {l : Nat} {r : Nat × LabEntry} (h : labFind t l view gran vpn = some r) : ∃ w < 4, r.1 = 4 * labSetOf l view vpn + w
    ∧ ∀ k < w, labProbe t view gran vpn (4 * labSetOf l view vpn + k) = none := by
  rw [labFind_eq] at h
  obtain ⟨l₁, w, l₂, hl, hw, hbefore⟩ := List.findSome?_eq_some_iff.mp h
  have hlen := congrArg List.length hl
  simp at hlen
  have hget : ∀ k (hk : k < 4), (l₁ ++ w :: l₂)[k]? = some k := by
    intro k hk
    rw [← hl, List.getElem?_range hk]
  have hwl : w = l₁.length := by
    have hat := hget l₁.length (by omega)
    rw [List.getElem?_append_right le_rfl, Nat.sub_self] at hat
    exact Option.some.inj hat
  refine ⟨w, by omega, labProbe_fst hw, fun k hk => hbefore k ?_⟩
  have hat := hget k (by omega)
  rw [List.getElem?_append_left (by omega)] at hat
  exact List.mem_of_getElem? hat

end

-- the way a page without an entry takes (R70)

/-- Clearing the reference bit of an entry that is there leaves the page of every key. -/
theorem unreferenced_page {t : Tab LabEntry} {k : Nat} (h : (Tab.find t k).isSome = true) (i : Nat) :
    (Tab.find (Tab.upd {} t k (fun e => { e with ref := false })) i).map LabEntry.pageOf = (Tab.find t i).map LabEntry.pageOf := by
  unfold Tab.upd
  by_cases hi : i = k
  · obtain ⟨e, he⟩ := Option.isSome_iff_exists.mp h
    rw [hi, Tab.find_put_same, he, Tab.get, he]
    rfl
  · rw [Tab.find_put_other _ _ hi]

theorem unreferenced_pages (set : Nat) : ∀ (ws : List Nat) (t : Tab LabEntry), (∀ w ∈ ws, (Tab.find t (4 * set + w)).isSome = true) → ∀ i,
    (Tab.find (ws.foldl (fun t w => Tab.upd {} t (4 * set + w) (fun e => { e with ref := false })) t) i).map LabEntry.pageOf
      = (Tab.find t i).map LabEntry.pageOf := by
  intro ws
  induction ws with
  | nil => intro t _ i; rfl
  | cons w ws ih =>
    intro t ht i
    have hpage := unreferenced_page (ht w List.mem_cons_self)
    rw [List.foldl_cons, ih _ ?_ i, hpage i]
    intro v hv
    have hv' := ht v (List.mem_cons_of_mem _ hv)
    rw [← Option.isSome_map (f := LabEntry.pageOf), hpage, Option.isSome_map]
    exact hv'

/-- The victim is one of the four ways, and finding it leaves the pages held as they are. -/
theorem labVictim_keeps (t : Tab LabEntry) (set : Nat) : (labVictim t set).1 < 4
    ∧ ∀ i, (Tab.find (labVictim t set).2 i).map LabEntry.pageOf = (Tab.find t i).map LabEntry.pageOf := by
  unfold labVictim
  generalize hu : (List.range 4).filter _ = unlocked
  have hlt : ∀ w ∈ unlocked, w < 4 := by
    intro w hw
    rw [← hu] at hw
    exact List.mem_range.mp (List.mem_filter.mp hw).1
  dsimp only
  cases hf : unlocked.find? (fun w => (Tab.find t (4 * set + w)).isNone) with
  | some w => exact ⟨hlt w (List.mem_of_find?_eq_some hf), fun _ => rfl⟩
  | none =>
    have hthere : ∀ w ∈ unlocked, (Tab.find t (4 * set + w)).isSome = true := by
      intro w hw
      have := List.find?_eq_none.mp hf w hw
      rw [Option.isNone_iff_eq_none] at this
      exact Option.isSome_iff_ne_none.mpr this
    dsimp only
    split
    · rename_i w hw
      exact ⟨hlt w (List.mem_of_find?_eq_some hw), fun _ => rfl⟩
    · refine ⟨?_, unreferenced_pages set unlocked t hthere⟩
      cases unlocked with
      | nil => exact Nat.zero_lt_succ 3
      | cons w ws => exact hlt w List.mem_cons_self

/-- An entry installed is the one a lookup of its page finds. -/
theorem labInstall_finds (d : Dev) (l : Nat) (view : BitVec 12) (gran : BitVec 2) (vpn : Nat) (pte : Pte) (lock : Bool) :
    ∃ k e, labFind ((labInstall d l view gran vpn pte lock).1.lab l) l view gran vpn = some (k, e) ∧ e.pte = pte ∧ (lock = false → e.lock = false) := by
  unfold labInstall
  have hlab : (flipWrite d 4 l 0 32 true).1.lab l = d.lab l := by
    simp only [Dev.lab, Dev.port, flipWrite_frame]
  rcases hflip : flipWrite d 4 l 0 32 true with ⟨d', bad⟩
  rw [hflip] at hlab
  dsimp only at hlab ⊢
  rw [hlab]
  cases hown : labFind (d.lab l) l view gran vpn with
  | some r =>
    obtain ⟨k, old⟩ := r
    obtain ⟨w, hw, hk, hbefore⟩ := labFind_some hown
    dsimp only at hk ⊢
    rw [lab_setLab, hk]
    refine ⟨_, _, labFind_put hw rfl hbefore, rfl, fun hl => ?_⟩
    subst hl
    rfl
  | none =>
    have hvictim := labVictim_keeps (d.lab l) (labSetOf l view vpn)
    rcases hv : labVictim (d.lab l) (labSetOf l view vpn) with ⟨w, t⟩
    rw [hv] at hvictim
    obtain ⟨hw, hpages⟩ := hvictim
    dsimp only
    rw [lab_setLab]
    refine ⟨_, _, labFind_put hw rfl (fun k hk => ?_), rfl, fun hl => ?_⟩
    · rw [labProbe_eq_none_iff, hpages, ← labProbe_eq_none_iff]
      exact labFind_none hown (by omega)
    · subst hl
      rfl

-- an entry removed from every LAB (R56)

/-- Only the LABs' own entries and the LABIs on their way. -/
def Dev.labState (d : Dev) : List (Nat × Nat × Nat × BitVec 12 × BitVec 2 × Nat) × (Nat → Tab LabEntry) := (d.labis, d.lab)

theorem labState_updEngine (d : Dev) (e : Nat) (f : Engine → Engine) : (d.updEngine e f).labState = d.labState := rfl

theorem labState_updPort {d : Dev} {p : Nat} {f : Port → Port} (h : ∀ q, (f q).lab = q.lab) : (d.updPort p f).labState = d.labState := by
  refine Prod.ext rfl (funext fun l => ?_)
  unfold Dev.labState Dev.lab
  dsimp only
  by_cases hl : l < 8
  · rw [if_pos hl, if_pos hl]
    by_cases hp : l = p
    · rw [hp, Dev.port_updPort, h]
    · rw [Dev.port_updPort_other _ _ hp]
  · rw [if_neg hl, if_neg hl]
    rfl

theorem drainThrough_labState (d : Dev) (l : Nat) (x : LabEntry) : (drainThrough d l x).labState = d.labState :=
  Dev.each_keeps (fun y => y.labState = d.labState) d _ _ rfl (fun y _ _ hy => (labState_updEngine y _ _).trans hy)

theorem labis_setLab (d : Dev) (l : Nat) (t : Tab LabEntry) : (d.setLab l t).labis = d.labis := by
  unfold Dev.setLab
  split <;> rfl

theorem labs_filtered (f : Nat × LabEntry → Bool) : ∀ (ls : List Nat) (d : Dev),
    (ls.foldl (fun d l => d.setLab l ((d.lab l).filter f)) d).labis = d.labis
    ∧ ∀ l ∈ ls, (ls.foldl (fun d l => d.setLab l ((d.lab l).filter f)) d).lab l = (d.lab l).filter f := by
  have hkeep : ∀ (ls : List Nat) (d : Dev) (k : Nat) (t : Tab LabEntry), d.lab k = t.filter f →
      (ls.foldl (fun d l => d.setLab l ((d.lab l).filter f)) d).lab k = t.filter f := by
    intro ls
    induction ls with
    | nil => intro d k t hk; exact hk
    | cons l ls ih =>
      intro d k t hk
      refine ih _ k t ?_
      by_cases hkl : k = l
      · rw [← hkl, lab_setLab, hk, List.filter_filter]
        simp only [Bool.and_self]
      · rw [lab_setLab_other _ _ hkl, hk]
  intro ls
  induction ls with
  | nil => exact fun d => ⟨rfl, fun l hl => absurd hl List.not_mem_nil⟩
  | cons k ls ih =>
    intro d
    obtain ⟨hlabis, hlabs⟩ := ih (d.setLab k ((d.lab k).filter f))
    refine ⟨hlabis.trans (labis_setLab d k _), fun l hl => ?_⟩
    by_cases hlk : l = k
    · rw [List.foldl_cons, hlk]
      exact hkeep ls _ k _ (lab_setLab d k _)
    · have hin := (List.mem_cons.mp hl).resolve_left hlk
      rw [List.foldl_cons, hlabs l hin, lab_setLab_other _ _ hlk]

/-- A LABI that takes effect leaves each LAB the entries it does not name. -/
theorem labiEffect_labs {d : Dev} {e id form vpn : Nat} {view : BitVec 12} {gran : BitVec 2}
    (h : d.labis.find? (fun x => decide (x.1 = id) && decide (x.2.1 = e)) = some (id, e, form, view, gran, vpn)) :
    (labiEffect d e id).labis = d.labis.filter (fun x => !decide (x.1 = id))
    ∧ ∀ l < 14, (labiEffect d e id).lab l = (d.lab l).filter (fun x => !labiHits form view gran vpn x.2.view x.2.gran x.2.vpn) := by
  unfold labiEffect
  rw [h]
  dsimp only
  generalize (List.range 14).flatMap (fun l => ((d.lab l).filter _).map _) = gone
  have hdrained : (d.each gone (fun d g => drainThrough d g.1 g.2)).labState = d.labState :=
    Dev.each_keeps (fun y => y.labState = d.labState) d _ _ rfl (fun y g _ hy => (drainThrough_labState y g.1 g.2).trans hy)
  generalize d.each gone (fun d g => drainThrough d g.1 g.2) = drained at hdrained
  obtain ⟨hlabis, hlabs⟩ := labs_filtered (fun x => !labiHits form view gran vpn x.2.view x.2.gran x.2.vpn) (List.range 14) drained
  generalize (List.range 14).foldl (fun d l => Dev.setLab d l ((Dev.lab d l).filter _)) drained = cleared at hlabis hlabs
  have hports : ∀ (g : Nat → Port → Port), (∀ p q, (g p q).lab = q.lab) → ((List.range 8).foldl (fun d p => d.updPort p (g p)) cleared).labState = cleared.labState :=
    fun g hg => Dev.each_keeps (fun y => y.labState = cleared.labState) cleared (List.range 8) (fun d p => d.updPort p (g p)) rfl
      (fun y p _ hy => (labState_updPort (hg p)).trans hy)
  have hrest := hports (fun _ q => { q with rcache := [], slots := q.slots.map (fun s =>
    if labiHits form view gran vpn s.2.view s.2.gran s.2.vpn then (s.1, { s.2 with stale := true }) else s) }) (fun _ _ => rfl)
  have hlabis' := (congrArg Prod.fst hrest).trans (hlabis.trans (congrArg Prod.fst hdrained))
  refine ⟨congrArg (List.filter _) hlabis', fun l hl => ?_⟩
  have hlab := congrFun (congrArg Prod.snd hrest) l
  have hbefore := congrFun (congrArg Prod.snd hdrained) l
  exact (hlab.trans (hlabs l (List.mem_range.mpr hl))).trans (congrArg (List.filter _) hbefore)

-- a LABW at its LAB

theorem spend_labres (y : Engine) : y.spend.labres = y.labres := by
  unfold Engine.spend
  split <;> rfl

theorem setLab_engines (d : Dev) (l : Nat) (t : Tab LabEntry) : (d.setLab l t).engines = d.engines := by
  unfold Dev.setLab
  split <;> rfl

theorem labInstall_engines (d : Dev) (l : Nat) (view : BitVec 12) (gran : BitVec 2) (vpn : Nat) (pte : Pte) (lock : Bool) :
    (labInstall d l view gran vpn pte lock).1.engines = d.engines := by
  have hfrozen : (flipWrite d 4 l 0 32 true).1.engines = d.engines := by simp only [flipWrite_frame]
  unfold labInstall
  rcases hflip : flipWrite d 4 l 0 32 true with ⟨d', bad⟩
  rw [hflip] at hfrozen
  dsimp only at hfrozen ⊢
  split
  · exact (setLab_engines _ _ _).trans hfrozen
  · exact (setLab_engines _ _ _).trans hfrozen

/-- An entry installed without a lock is never refused. -/
theorem labwPut_unlocked (d : Dev) (l : Nat) (view : BitVec 12) (gran : BitVec 2) (vpn : Nat) (p : Pte) :
    labwPut d l view gran vpn p false = ((labInstall d l view gran vpn p false).1, 0) := by
  have hno : (labInstall d l view gran vpn p false).2 = false := by
    unfold labInstall
    rcases flipWrite d 4 l 0 32 true with ⟨d', bad⟩
    dsimp only
    split <;> rfl
  unfold labwPut
  rcases h : labInstall d l view gran vpn p false with ⟨d', refused⟩
  rw [h] at hno
  subst hno
  rfl

/-- Without a slot named the LABW that arrives installs its entry and ends. -/
theorem labwArrives_installs {d : Dev} {e : Nat} {ws : List Word} (hvalid : labwInvalid (ws.getD 0 0).toNat (ws.getD 5 0).toNat = false)
    (hrun : d.islandRuns (labIsland (labwTarget e (ws.getD 5 0).toNat)) = true) (hlock : bitAt (ws.getD 5 0).toNat 0 = false)
    (hslot : bitAt (ws.getD 5 0).toNat 6 = false) :
    labwArrives d e ws = endLabw (labInstall d (labwTarget e (ws.getD 5 0).toNat) ((ws.getD 0 0).extractLsb' 0 12) ((ws.getD 0 0).extractLsb' 12 2)
      (descVpn ws) (pteOf (labwPte ws) (pteFrame (labwPte ws))) false).1 e 0 := by
  unfold labwArrives
  dsimp only
  rw [hvalid, hrun, hlock, hslot, Bool.not_true]
  rw [if_neg Bool.false_ne_true, if_neg Bool.false_ne_true, if_neg Bool.false_ne_true, labwPut_unlocked]

/-- The engine that has waited in an engine's LABSYNC goes on. -/
theorem labsyncEnds_engine {d : Dev} {e : Nat} (hover : d.labsyncOver e = true) (hwait : (d.engine e).wait = .labsync) :
    (labsyncEnds d e).engine e = (fun y : Engine => { y with call := y.call.map callSynced }) ((advance (clearEffects d e) e 1).engine e) := by
  have hw : ((clearEffects d e).engine e).wait = .labsync := hwait
  unfold labsyncEnds
  rw [hover, Bool.not_true, if_neg Bool.false_ne_true]
  dsimp only
  rw [hw]
  dsimp only
  have hsynced := Dev.engine_updEngine (advance (clearEffects d e) e 1) e (fun y => { y with call := y.call.map callSynced })
  split
  · exact hsynced
  · exact hsynced

/-- Settles O40, by its three commands: what a LABW, a LABI and a LABSYNC do as they take effect. -/
theorem labMaintenanceTakesEffect : Obligations.LabMaintenanceTakesEffect := by
  unfold Obligations.LabMaintenanceTakesEffect
  have hexecW : ∀ s e slot, exec (.labwAtLab e slot) s = execLabwAtLab e slot s := fun _ _ _ => rfl
  have hexecI : ∀ s e id, exec (.labiTakeEffect e id) s = onDevice s (fun d => labiEffect d e.val id) := fun _ _ _ => rfl
  have hexecS : ∀ s e, exec (.labsyncDone e) s = onIsland (11 + quadOf e.val) s (fun d => labsyncEnds d e.val) := fun _ _ => rfl
  -- a LABW that names no slot is not stopped by one
  have hplain : ∀ {s : State} {e : Fin 24} {slot : Ecc} {ws : List Word}, (s.dev.engine e.val).wait = .labw ws →
      (labwInvalid (ws.getD 0 0).toNat (ws.getD 5 0).toNat = true ∨ bitAt (ws.getD 5 0).toNat 6 = false) →
      exec (.labwAtLab e slot) s = .next (s.turned (labwArrives s.dev e.val ws)) := by
    intro s e slot ws hw h
    have hnone : s.dev.labwNames e.val = none := by
      unfold Dev.labwNames
      dsimp only
      rw [hw]
      dsimp only
      have hbar : (labwInvalid (ws.getD 0 0).toNat (ws.getD 5 0).toNat || !bitAt (ws.getD 5 0).toNat 6) = true := by
        obtain hi | hb := h
        · rw [hi, Bool.true_or]
        · rw [hb, Bool.not_false, Bool.or_true]
      rw [if_pos hbar]
      rfl
    rw [hexecW, execLabwAtLab, onDevice_turned, hnone, hw]
  refine ⟨?_, ?_, ?_, ?_, ?_, ?_, ?_⟩
  · intro s e slot ws hw hbad
    rw [hplain hw (.inl hbad)]
    refine congrArg (fun d => Host.Outcome.next (s.turned d)) ?_
    unfold labwArrives
    dsimp only
    rw [hbad]
    rfl
  · rintro s e slot ws l d hw hvalid rfl hrun hlock hslot rfl
    have h6 : bitAt (ws.getD 5 0).toNat 6 = false := hslot
    have h0 : bitAt (ws.getD 5 0).toNat 0 = false := hlock
    obtain ⟨k, t, hfind, hpte, hunlocked⟩ := labInstall_finds s.dev (labwTarget e.val (ws.getD 5 0).toNat) ((ws.getD 0 0).extractLsb' 0 12)
      ((ws.getD 0 0).extractLsb' 12 2) (descVpn ws) (pteOf (labwPte ws) (pteFrame (labwPte ws))) false
    refine ⟨hplain hw (.inr h6), ?_⟩
    rw [labwArrives_installs hvalid hrun h0 h6]
    have hmem := labInstall_mem s.dev (labwTarget e.val (ws.getD 5 0).toNat) ((ws.getD 0 0).extractLsb' 0 12)
      ((ws.getD 0 0).extractLsb' 12 2) (descVpn ws) (pteOf (labwPte ws) (pteFrame (labwPte ws))) false
    have heng := labInstall_engines s.dev (labwTarget e.val (ws.getD 5 0).toNat) ((ws.getD 0 0).extractLsb' 0 12)
      ((ws.getD 0 0).extractLsb' 12 2) (descVpn ws) (pteOf (labwPte ws) (pteFrame (labwPte ws))) false
    generalize (labInstall s.dev _ _ _ _ _ false).1 = d at hfind hmem heng
    have he : d.engine e.val = s.dev.engine e.val := by
      unfold Dev.engine
      rw [heng]
    unfold endLabw
    rw [advance_engine, Dev.engine_updEngine, he]
    refine ⟨?_, ?_, rfl, rfl, hmem, k, t, hfind, hpte, hunlocked rfl⟩
    · exact spend_labres _
    · refine (congrArg (fun f : BitVec 6 => f.getLsbD 4) (spend_keeps _).2.1).trans ?_
      exact (getLsbD_setFlag _ (by decide) _ 4).trans (if_pos rfl)
  · intro s e slot hw hslot
    rw [hexecW, execLabwAtLab, onDevice_turned]
    refine congrArg (fun d => Host.Outcome.next (s.turned d)) ?_
    split
    · rename_i p k hn
      obtain hnone | hok := hslot
      · exact absurd (hn.symm.trans hnone) (Option.some_ne_none _)
      · exact absurd rfl hok
    · split
      · rename_i ws hws
        exact absurd hws (hw ws)
      · rfl
  · intro s e p k hn
    rw [hexecW, execLabwAtLab, onDevice_turned, hn]
  · rintro s e id form vpn view gran hfind d rfl
    obtain ⟨hlabis, hlabs⟩ := labiEffect_labs hfind
    exact ⟨by rw [hexecI, onDevice_turned], labiEffect_mem _ _ _, hlabis, hlabs⟩
  · rintro s e hrun hover hwait d rfl
    rw [labsyncEnds_engine hover hwait, advance_engine]
    exact ⟨by rw [hexecS, onIsland_running hrun], rfl, rfl, (spend_keeps _).1, labsyncEnds_mem _ _⟩
  · intro s e hover
    rw [hexecS, onIsland, onDevice_turned]
    unfold labsyncEnds
    rw [hover, Bool.not_false, if_pos rfl, ite_self]

end Sys2Proof.Machine
end

section
/-! The store buffer: issue, completion, SCP and targets that do not answer. -/

open Sys2Proof

namespace Sys2Proof.Machine

-- issue (R279)

/-- The entry that may issue goes out, or ends where its parity fails. -/
theorem bufferIssue_of_next {d : Dev} {e : Nat} {b : SbEntry} (hon : d.engSt e ≠ .off) (hrun : d.quadRuns e = true)
    (hnext : d.nextIssue [] (d.engine e).sb = some b) (parityOk : Bool) :
    bufferIssue d e parityOk = if parityOk then issueEntry d e b else endEntry d e b false := by
  have hbar : (d.engSt e == .off || !d.quadRuns e) = false := by
    rw [hrun, Bool.not_true, Bool.or_false]
    exact beq_eq_false_iff_ne.mpr hon
  unfold bufferIssue
  rw [if_neg (Bool.eq_false_iff.mp hbar), hnext]

/-- A store of one line goes out as one write request of the line's home slice. -/
theorem issueEntry_write {d : Dev} {e : Nat} {b : SbEntry} {w : LineWrite} (hrec : d.recovering e = false) (hk : b.kind = .store) (hw : b.writes = [w]) :
    issueEntry d e b = issued (d.start (engReq d e b.sup (.write .i) w.line w.page w.data w.mask w.poison)).1 e b.id [d.nextId] := by
  unfold issueEntry Dev.failsInRecovery
  rw [hrec, Bool.false_and, if_neg Bool.false_ne_true, hk, hw]
  rfl

-- completion (R278, R294)

/-- What the store buffer's rules read and write of an engine. -/
def Engine.buffer (y : Engine) : EngState × List SbEntry × EngWait × Option (Nat × Info) := (y.st, y.sb, y.wait, y.fault)

theorem mvEvict_buffer (d : Dev) (e line : Nat) : ((mvEvict d e line).engine e).buffer = (d.engine e).buffer := by
  unfold mvEvict
  split
  · rfl
  · have hdrop := congrArg Engine.buffer (Dev.engine_updEngine d e (fun y => y.dropMview line))
    exact hdrop

theorem orphan_engines (d : Dev) (i : Nat) : (orphan d i).engines = d.engines := by
  unfold orphan
  repeat' split
  all_goals rfl

theorem bufferSettle_of_free {d : Dev} {e : Nat} (h : (d.engine e).wait = .none) : bufferSettle d e = d := by
  unfold bufferSettle
  dsimp only
  rw [h]

/-- An entry that completes well in an engine that waits for nothing leaves the buffer and nothing else. -/
theorem endEntry_well {d : Dev} {e : Nat} (h : (d.engine e).wait = .none) (b : SbEntry) : endEntry d e b true = dropEntry d e b.id := by
  unfold endEntry
  refine (bufferSettle_of_free ?_).trans (if_pos rfl)
  rw [if_pos rfl, dropEntry, Dev.engine_updEngine]
  exact h

theorem faultWaiting_of_free {d : Dev} {e : Nat} (h : (d.engine e).wait = .none) : faultWaiting d e = d := by
  unfold faultWaiting
  dsimp only
  cases (d.engine e).fault with
  | none => rfl
  | some a =>
    dsimp only
    rw [h]
    rfl

/-- A store that fails in a running engine that waits for nothing and has no fault due leaves its fault due. -/
theorem storeFails_buffer {d : Dev} {e : Nat} {b : SbEntry} {sb : List SbEntry} (h : (d.engine e).buffer = (.running, sb, .none, none))
    (hk : b.kind = .store) : ((storeFails d e b).engine e).buffer = (.running, sb, .none, some (b.id, b.addr)) := by
  unfold storeFails
  dsimp only
  rw [if_pos (Or.inl hk)]
  have hraised : ((raise d (288 + 4 * e + 1) 2 2 b.addr).engine e).buffer = (.running, sb, .none, none) := by
    rw [raise_engine]
    exact h
  have hevicted := Dev.each_keeps (fun y => (y.engine e).buffer = (.running, sb, .none, none)) (raise d (288 + 4 * e + 1) 2 2 b.addr) b.writes
    (fun d w => mvEvict d e w.line) hraised (fun y w _ hy => (mvEvict_buffer y e w.line).trans hy)
  generalize Dev.each (raise d (288 + 4 * e + 1) 2 2 b.addr) b.writes (fun d w => mvEvict d e w.line) = z at hevicted
  unfold Engine.buffer at hevicted
  simp only [Prod.mk.injEq] at hevicted
  obtain ⟨hst, hsb, hwait, hfault⟩ := hevicted
  have hgoes : ¬ ((z.engine e).st = .halted ∨ (z.engine e).st = .stopped) := by
    rw [hst]
    decide
  rw [if_neg hgoes, faultWaiting_of_free (by rw [Dev.engine_updEngine]; exact hwait), Dev.engine_updEngine, Engine.buffer, hst, hsb, hwait, hfault]

/-- A store that fails in such an engine leaves the buffer too. -/
theorem endEntry_failed {d : Dev} {e : Nat} {b : SbEntry} (h : (d.engine e).wait = .none) (hst : (d.engine e).st = .running)
    (hf : (d.engine e).fault = none) (hk : b.kind = .store) :
    ((endEntry d e b false).engine e).fault = some (b.id, b.addr)
    ∧ ((endEntry d e b false).engine e).sb = (d.engine e).sb.filter (fun c => !decide (c.id = b.id)) := by
  have hnoted : (((dropEntry d e b.id).updEngine e (fun y => { y with wait := y.wait.noteFailure b })).engine e).buffer
      = (.running, (d.engine e).sb.filter (fun c => !decide (c.id = b.id)), .none, none) := by
    rw [Dev.engine_updEngine, dropEntry, Dev.engine_updEngine, Engine.buffer, hst, h, hf]
    rfl
  have hfailed := storeFails_buffer hnoted hk
  unfold Engine.buffer at hfailed
  simp only [Prod.mk.injEq] at hfailed
  obtain ⟨_, hsb, hwait, hfault⟩ := hfailed
  unfold endEntry
  dsimp only
  rw [if_neg Bool.false_ne_true, bufferSettle_of_free hwait]
  exact ⟨hfault, hsb⟩

theorem each_dropXact_engines (d : Dev) (ids : List Nat) : (d.each ids (fun d i => d.dropXact i)).engines = d.engines :=
  Dev.each_keeps (fun y => y.engines = d.engines) d ids _ rfl (fun _ _ _ hy => hy)

/-- A store whose requests all succeeded completes. -/
theorem completeEntry_store {d : Dev} {e : Nat} {b : SbEntry} (hk : b.kind = .store) (hi : b.issued = true) (hx : ∀ i ∈ b.xids, d.result i = some true) :
    completeEntry d e b = endEntry (d.each b.xids (fun d i => d.dropXact i)) e b true := by
  have hnone : b.xids.any (fun i => (d.result i).isNone) = false := by
    refine List.any_eq_false.mpr (fun i hm => ?_)
    rw [hx i hm]
    exact Bool.false_ne_true
  have hall : b.xids.all (fun i => d.result i == some true) = true := by
    refine List.all_eq_true.mpr (fun i hm => ?_)
    rw [hx i hm]
    rfl
  unfold completeEntry
  rw [hi, hk, hnone, hall]
  rfl

/-- An SCP that its slice has accepted completes. -/
theorem scpAnswer_accepted {d : Dev} {e id len : Nat} (h : d.result id = some true) : ∃ d' y', scpAnswer d e id len = endScp d' e true len
    ∧ d'.engine e = y' ∧ y'.flags = (d.engine e).flags ∧ y'.pc = (d.engine e).pc := by
  unfold scpAnswer
  rw [h]
  dsimp only
  refine ⟨_, _, rfl, rfl, ?_⟩
  cases d.xact? id with
  | none => exact ⟨rfl, rfl⟩
  | some x =>
    have hy := Dev.engine_updEngine d e (fun y => y.mvWrite { line := x.line, data := x.req.data, mask := x.req.mask, poison := x.req.poison })
    have hflags := congrArg Engine.flags hy
    have hpc := congrArg Engine.pc hy
    exact ⟨hflags, hpc⟩

theorem endScp_engine (d : Dev) (e len : Nat) : ((endScp d e true len).engine e).flags = setFlag (setFlag (d.engine e).flags 0 true) 4 false
    ∧ ((endScp d e true len).engine e).rsv = none ∧ ((endScp d e true len).engine e).pc = (d.engine e).pc + BitVec.ofNat 14 len
    ∧ ((endScp d e true len).engine e).wait = .none := by
  unfold endScp
  rw [advance_engine, Dev.engine_updEngine]
  obtain ⟨_, hflags, hrsv, _⟩ := spend_keeps { d.engine e with
    flags := setFlag (setFlag (d.engine e).flags 0 true) 4 (!true), rsv := none, scpFails := 0 }
  exact ⟨hflags, hrsv, rfl, rfl⟩

-- a block that does not answer (R484)

theorem regAnswers_iff (d : Dev) (off : BitVec 25) : d.regAnswers (off.toNat / 4 * 4) = true ↔ d.answersAt (off.toNat / 4 * 4) := by
  have hlow : ¬ 0x2000000 ≤ off.toNat / 4 * 4 := by
    have := off.isLt
    omega
  unfold Dev.regAnswers
  rw [decide_eq_false hlow, Bool.false_or, Bool.or_eq_true_iff]

/-- An access of no engine to a block that does not answer ends. -/
theorem accessTimeout_of_dead {d : Dev} {o : Origin} {off : BitVec 25} (h : ¬ d.answersAt (off.toNat / 4 * 4)) (ho : ∀ e, o ≠ .engine e) (read : Bool) :
    accessTimeout d o off.toNat read = if read then (if d.reaches o then emit (regDropped d o (off.toNat / 4 * 4) 2 true)
        (.regDone o (off.toNat / 4 * 4) (BitVec.allOnes 64)) else d)
      else match d.waits.find? (waitsAt o (off.toNat / 4 * 4)) with
        | some w => regDropped { d with waits := d.waits.erase w } o (off.toNat / 4 * 4) 2 false
        | none => d := by
  unfold accessTimeout
  dsimp only
  rw [if_neg (fun hr => h ((regAnswers_iff d off).mp hr))]
  cases o with
  | engine e => exact absurd rfl (ho e)
  | host p m => rfl
  | mgmt => rfl
  | q0 => rfl

/-- Settles O41, by the store buffer's issue, its completions and the accesses that time out. -/
theorem storeBufferCommands : Obligations.StoreBufferCommands := by
  unfold Obligations.StoreBufferCommands
  have hexecI : ∀ s e ok, exec (.storeBufferIssue e ok) s = onDevice s (fun d => bufferIssue d e.val ok) := fun _ _ _ => rfl
  have hexecC : ∀ s e id, exec (.engineStoreComplete e id) s = onIsland (11 + quadOf e.val) s (fun d => storeComplete d e.val id) := fun _ _ _ => rfl
  have hexecT : ∀ s e id, exec (.storeTargetTimeout e id) s = onIsland (11 + quadOf e.val) s (fun d => storeTimeout d e.val id) := fun _ _ _ => rfl
  have hexecA : ∀ s o off read, exec (.registerAccessTimeout o off read) s = onDevice s (fun d => accessTimeout d o off.toNat read) := fun _ _ _ _ => rfl
  refine ⟨?_, ?_, ?_, ?_, ?_, ?_, ?_, ?_, ?_⟩
  · rintro s e b w hon hrun hrec hnext hk hw d rfl
    refine ⟨by rw [hexecI, onDevice_turned], bufferIssue_mem _ _ _, ?_⟩
    rw [bufferIssue_of_next hon hrun hnext, if_pos rfl, issueEntry_write hrec hk hw]
    refine ⟨congrArg Engine.sb (Dev.engine_updEngine _ _ _), _, start_xact _ _, rfl, rfl, rfl, rfl, rfl, rfl⟩
  · intro s e b hon hrun hnext
    rw [hexecI, onDevice_turned, bufferIssue_of_next hon hrun hnext]
    rfl
  · intro s e ok hnext
    rw [hexecI, onDevice_turned, bufferIssue, hnext, ite_self]
  · rintro s e id len hrun hwait hres d rfl
    have hgo : storeComplete s.dev e.val id = scpAnswer s.dev e.val id len := by
      unfold storeComplete
      rw [hwait]
      exact if_pos rfl
    refine ⟨by rw [hexecC, onIsland_running hrun], ?_⟩
    obtain ⟨d', y', hd', rfl, hflags, hpc⟩ := scpAnswer_accepted (e := e.val) (len := len) hres
    obtain ⟨hf, hr, hp, hw⟩ := endScp_engine d' e.val len
    have hmem := storeComplete_mem s.dev e.val id
    rw [hgo, hd'] at hmem ⊢
    exact ⟨by rw [hf, hflags], hr, by rw [hp, hpc], hw, hmem⟩
  · rintro s e b hrun hwait hk hfind hi hx d rfl
    have hgo : storeComplete s.dev e.val b.id = dropEntry (s.dev.each b.xids (fun d i => d.dropXact i)) e.val b.id := by
      unfold storeComplete
      rw [hwait, hfind]
      refine (completeEntry_store hk hi hx).trans (endEntry_well ?_ b)
      unfold Dev.engine
      rw [each_dropXact_engines]
      exact hwait
    refine ⟨by rw [hexecC, onIsland_running hrun], storeComplete_mem _ _ _, ?_⟩
    have hdrop := Dev.engine_updEngine (s.dev.each b.xids (fun d i => d.dropXact i)) e.val (fun y => { y with sb := y.sb.filter (fun c => !decide (c.id = b.id)) })
    have hsame : (s.dev.each b.xids (fun d i => d.dropXact i)).engine e.val = s.dev.engine e.val := by
      unfold Dev.engine
      rw [each_dropXact_engines]
    rw [hsame] at hdrop
    have hfault := congrArg Engine.fault hdrop
    have hsb := congrArg Engine.sb hdrop
    rw [hgo]
    exact ⟨hfault, hsb⟩
  · rintro s e b hrun hwait hst hk hfind hi hf d rfl
    have hgo : storeTimeout s.dev e.val b.id = endEntry (s.dev.each b.xids orphan) e.val b false := by
      unfold storeTimeout
      rw [hfind]
      dsimp only
      rw [hk, hi]
      rfl
    have hsame : (s.dev.each b.xids orphan).engine e.val = s.dev.engine e.val := by
      unfold Dev.engine
      rw [Dev.each_keeps (fun y => y.engines = s.dev.engines) s.dev b.xids orphan rfl (fun y i _ hy => (orphan_engines y i).trans hy)]
    obtain ⟨hfault, hsb⟩ := endEntry_failed (b := b) (by rw [hsame]; exact hwait) (by rw [hsame]; exact hst) (by rw [hsame]; exact hf) hk
    refine ⟨by rw [hexecT, onIsland_running hrun], storeTimeout_mem _ _ _, ?_⟩
    rw [hgo]
    exact ⟨hfault, hsb.trans (by rw [hsame])⟩
  · intro s o off ho hdead hreach
    rw [hexecA, onDevice_turned]
    refine congrArg (fun d => Host.Outcome.next (s.turned d)) ?_
    rw [accessTimeout_of_dead hdead ho, if_pos rfl, if_pos hreach]
  · intro s o off w ho hdead hw
    rw [hexecA, onDevice_turned]
    refine congrArg (fun d => Host.Outcome.next (s.turned d)) ?_
    rw [accessTimeout_of_dead hdead ho, if_neg Bool.false_ne_true, hw]
  · intro s o off read hlive
    rw [hexecA, onDevice_turned]
    refine congrArg (fun d => Host.Outcome.next (s.turned d)) ?_
    unfold accessTimeout
    dsimp only
    rw [if_pos ((regAnswers_iff s.dev off).mpr hlive)]

end Sys2Proof.Machine
end

section
/-! Refutation of the statement on engine waits: a request of a load that returns is dropped from the table of requests, but a
state's table may hold its number twice. -/

open Sys2Proof

namespace Sys2Proof.Machine

/-- A request of engine 0 whose data has come. -/
def returnedRead : Xact := { req := { src := .engine 0 }, phase := .done 0 false true }

/-- A device whose table of requests, out of its canonical form, holds the request of a load twice. -/
def requestHeldTwice : State := { dev := { State.reset.dev with
  xacts := [(0, returnedRead), (0, returnedRead)]
  engines := [(0, { wait := .load .plain 0 0 none 0 0 [.from_ 0 0] [0] 1 })] }, pending := [] }

/-- The second entry is still there once the load has returned. -/
theorem requestHeldTwice_stays : ((loadReturn requestHeldTwice.dev 0).xact? 0).isSome = true := by decide +kernel

/-- Refutes O42: the load returns, and a request of its number is still in the table. -/
theorem not_engineWaitsEnd : ¬ Obligations.EngineWaitsEnd := by
  unfold Obligations.EngineWaitsEnd
  rintro ⟨hreturn, _⟩
  obtain ⟨_, _, _, _, hgone, _⟩ := hreturn requestHeldTwice 0 0 0 0 0 0 1 none 0 returnedRead 0 false (by decide) rfl rfl rfl _ rfl
  have hstays : false = true := (congrArg Option.isSome hgone).symm.trans requestHeldTwice_stays
  exact absurd hstays Bool.false_ne_true

end Sys2Proof.Machine
end

section
/-! A budget that has run out, and START of an engine through the management window. -/

open Sys2Proof

namespace Sys2Proof.Machine

/-- The word of a START register: its address, and START at bit 14. -/
theorem startWord (pc : BitVec 14) : (BitVec.ofNat 32 (pc.toNat + fld 14 1)).extractLsb' 0 14 = pc ∧ (BitVec.ofNat 32 (pc.toNat + fld 14 1)).getLsbD 14 = true := by
  have hpc := pc.isLt
  have hfld : fld 14 1 = 2 ^ 14 := rfl
  rw [hfld]
  refine ⟨BitVec.eq_of_toNat_eq ?_, ?_⟩
  · simp only [BitVec.extractLsb'_toNat, BitVec.toNat_ofNat, Nat.shiftRight_zero]
    omega
  · rw [BitVec.getLsbD_ofNat, Nat.testBit_eq_decide_div_mod_eq]
    have hone : (pc.toNat + 2 ^ 14) / 2 ^ 14 = 1 := by omega
    rw [hone]
    decide

/-- A write of START to an engine's register starts it there. -/
theorem windowWrite_start (d : Dev) (e : Fin 24) (pc : BitVec 14) :
    windowWrite d (0x2000000 + 0x10 * e.val) (BitVec.ofNat 32 (pc.toNat + fld 14 1)) = startEngine (d.updEngine e.val (fun y => { y with startPc := pc })) e.val pc := by
  have he := e.isLt
  have hoff : 0x2000000 + 0x10 * e.val - 0x2000000 = 0x10 * e.val := by omega
  have hdiv : 0x10 * e.val / 0x10 = e.val := by omega
  obtain ⟨hlow, hbit⟩ := startWord pc
  unfold windowWrite
  dsimp only
  rw [hoff, hdiv, hlow, hbit, if_pos ⟨by omega, he⟩, if_pos rfl]

theorem engSt_updEngine {d : Dev} {e : Nat} {f : Engine → Engine} (h : (f (d.engine e)).st = (d.engine e).st) : (d.updEngine e f).engSt e = d.engSt e := by
  unfold Dev.engSt
  rw [Dev.engine_updEngine, h]
  rfl

/-- START is taken by a stopped engine whose quad is not being switched off, and by no other. -/
theorem startEngine_taken {d : Dev} {e : Nat} (hst : d.engSt e = .stopped) (hstay : d.leaving (quadDom (quadOf e)) = false) (pc : BitVec 14) :
    startEngine d e pc = d.updEngine e (fun x => { x with
      st := .running, g := [], a := [], flags := 0, sup := true, trans := false, guard := false, intrap := false, cview := 0
      tcause := 0, tpc := 0, tstat := 0, tval := 0, tvec := 0, labres := 0, iubase := 0, subase := 0, budget := 0
      budgetDue := false, rsv := none, scpFails := 0, fault := none, wait := .none, wake := [], deferred := []
      pc := pc, startPc := pc }) := by
  unfold startEngine
  rw [hst, hstay]
  rfl

theorem startEngine_ignored {d : Dev} {e : Nat} (h : d.engSt e ≠ .stopped ∨ d.leaving (quadDom (quadOf e)) = true) (pc : BitVec 14) :
    startEngine d e pc = d := by
  unfold startEngine
  refine if_pos ?_
  obtain hst | hleave := h
  · rw [bne_iff_ne.mpr hst, Bool.true_or]
  · rw [hleave, Bool.or_true]

/-- Settles O43, by what a START register's write and a spent budget do. -/
theorem engineStartAndBudget : Obligations.EngineStartAndBudget := by
  unfold Obligations.EngineStartAndBudget
  have hexecB : ∀ s e, exec (.budgetExhausted e) s = onIsland (11 + quadOf e.val) s (fun d => budgetTrap d e.val) := fun _ _ => rfl
  have hexecS : ∀ s e pc, exec (.engineStart e pc) s
      = onDevice s (fun d => windowWrite d (0x2000000 + 0x10 * e.val) (BitVec.ofNat 32 (pc.toNat + fld 14 1))) := fun _ _ _ => rfl
  refine ⟨?_, ?_, ?_⟩
  · intro s e hrun hst hwait hfault hdue hsup
    rw [hexecB, onIsland_running hrun]
    unfold budgetTrap
    dsimp only
    rw [hst, hwait, hfault, hdue, hsup]
    rfl
  · rintro s e pc hst hstay d rfl
    have hst' : (s.dev.updEngine e.val (fun y => { y with startPc := pc })).engSt e.val = .stopped := by
      rw [engSt_updEngine (by rfl)]
      exact hst
    refine ⟨by rw [hexecS, onDevice_turned, windowWrite_start], ?_⟩
    rw [startEngine_taken hst' hstay, Dev.engine_updEngine, Dev.engine_updEngine]
    refine ⟨rfl, ⟨rfl, rfl, rfl, rfl, rfl, rfl, rfl, rfl, rfl, rfl, rfl, rfl, rfl, rfl, rfl, rfl, rfl, rfl, rfl, rfl, rfl⟩, rfl, rfl, fun k hk => ?_⟩
    rw [Dev.engine_updEngine_other _ _ hk, Dev.engine_updEngine_other _ _ hk]
  · intro s e pc h
    have h' : (s.dev.updEngine e.val (fun y => { y with startPc := pc })).engSt e.val ≠ .stopped
        ∨ (s.dev.updEngine e.val (fun y => { y with startPc := pc })).leaving (quadDom (quadOf e.val)) = true := by
      rw [engSt_updEngine (by rfl)]
      exact h
    rw [hexecS, onDevice_turned, windowWrite_start, startEngine_ignored h']

end Sys2Proof.Machine
end

section
/-! Command queues: opening, closing and slot writes. -/

open Sys2Proof

namespace Sys2Proof.Machine

-- the control register of a pair (R331, R332)

theorem regEffect_que {d : Dev} {o : Origin} {off v : Nat} {pe : Option (BitVec 2)} {ev : Option Bool} (h : off / 0x10000 = 8) :
    regEffect d o off v pe ev = queWrite d o (off % 0x10000) v pe := by
  have hfn : perFunction off = false := by
    have hlow : ¬ 0xE0000 ≤ off := by omega
    rw [perFunction, decide_eq_false hlow, Bool.false_and]
  unfold regEffect
  dsimp only
  rw [hfn, if_neg Bool.false_ne_true, h]
  rfl

/-- A write of a pair's control register. -/
theorem writeReg_queCtrl {d : Dev} {o : Origin} {n : Fin 64} (h : d.takesWrite o (0x80000 + 0x20 * n.val)) (v : BitVec 32) :
    writeReg d o (0x80000 + 0x20 * n.val) v = queCtrl d o n.val v.toNat := by
  have hn := n.isLt
  have hj : regJournalled (0x80000 + 0x20 * n.val) = false := by
    have hb : (0x80000 + 0x20 * n.val) / 0x10000 = 8 := by omega
    have hk : (0x80000 + 0x20 * n.val) % 0x20 = 0 := by omega
    unfold regJournalled
    rw [hb, hk]
    exact Bool.and_false _
  have hr : (0x80000 + 0x20 * n.val) % 0x10000 = 0x20 * n.val := by omega
  have hdiv : 0x20 * n.val / 0x20 = n.val := by omega
  have hlow : ¬ 0x800 ≤ 0x20 * n.val := by omega
  unfold writeReg
  rw [busWrite_unjournalled (by omega) h hj, regEffect_que (by omega), hr, Nat.mod_eq_of_lt v.isLt]
  unfold queWrite
  dsimp only
  rw [if_neg hlow, hdiv, if_pos (Nat.mul_mod_right _ _)]

theorem popFails_pairs (d : Dev) (e : Nat) : (popFails d e).pairs = d.pairs := by
  unfold popFails
  split <;> rfl

theorem pushFails_pairs (d : Dev) (e n : Nat) : (pushFails d e n).pairs = d.pairs := by
  unfold pushFails
  repeat' split
  all_goals rfl

/-- A pair that is closed is emptied; its counts of the rings stay. -/
theorem closePair_pair {d : Dev} {n : Nat} (h : (d.pair n).st ≠ 0) (cause : Nat) : (closePair d n cause).pair n = (fun p : Pair_ => { p with
    st := 0, cmd := [], parity := [], waiters := [], poppedBy := [], modCount := 0, commits := [], differ := none
    lastClose := if cause = 0 then p.lastClose else BitVec.ofNat 2 cause }) (d.pair n) := by
  unfold closePair
  dsimp only
  rw [if_neg h]
  rw [← Dev.pair_updPair d n (fun p => { p with
    st := 0, cmd := [], parity := [], waiters := [], poppedBy := [], modCount := 0, commits := [], differ := none
    lastClose := if cause = 0 then p.lastClose else BitVec.ofNat 2 cause })]
  generalize d.updPair n (fun p => { p with
    st := 0, cmd := [], parity := [], waiters := [], poppedBy := [], modCount := 0, commits := [], differ := none
    lastClose := if cause = 0 then p.lastClose else BitVec.ofNat 2 cause }) = y
  have hpops := Dev.each_keeps (fun z => z.pairs = y.pairs) y (d.pair n).waiters popFails rfl (fun z e _ hz => (popFails_pairs z e).trans hz)
  generalize Dev.each y (d.pair n).waiters popFails = y' at hpops
  have hpushes := Dev.each_keeps (fun z => z.pairs = y.pairs) y' (List.range 24) (fun d e => pushFails d e n) hpops (fun z e _ hz => (pushFails_pairs z e n).trans hz)
  generalize Dev.each y' (List.range 24) (fun d e => pushFails d e n) = y'' at hpushes
  unfold Dev.pair
  split
  · rw [hpushes]
  · simp only [raise_frame, hpushes]

/-- The vector field of a control word, as the register takes it. -/
theorem vectorField (v : BitVec 32) : BitVec.ofNat 6 (bits v.toNat 6 1) = v.extractLsb' 1 6 := by
  refine BitVec.eq_of_toNat_eq ?_
  simp only [bits, BitVec.toNat_ofNat, BitVec.extractLsb'_toNat, Nat.shiftRight_eq_div_pow]
  omega

-- slots (R333, R335, R336)

theorem Dev.updPair_updPair (d : Dev) (n : Nat) (f g : Pair_ → Pair_) : (d.updPair n f).updPair n g = d.updPair n (fun p => g (f p)) := by
  simp only [Dev.updPair, Tab.upd_upd]

theorem mustQueue_slot {d : Dev} {o : Origin} (h : d.takesSlot o) (n c k : Nat) (v : BitVec 32) (en : BitVec 4) (par : Bool) (pe : Option (BitVec 2)) :
    d.mustQueue o (.slot n c k v en par pe) = false := by
  obtain ⟨_, hrun, hahead⟩ := h
  have hruns : d.blockRuns (.slot n c k v en par pe) = true := hrun
  have hnone : d.waits.any (fun x => x.1 == o && x.2.block == (HostAccess.slot n c k v en par pe).block) = false := by
    refine List.any_eq_false.mpr (fun x hx hb => ?_)
    obtain ⟨ho, hblock⟩ := Bool.and_eq_true_iff.mp hb
    exact hahead x hx (beq_iff_eq.mp ho) (beq_iff_eq.mp hblock)
  rw [Dev.mustQueue, hruns, hnone]
  rfl

section
variable {d : Dev} {q : Fin 8} {m : Fin 16}

/-- A slot write that the queue block takes. -/
theorem slotWrite_taken (h : d.takesSlot (.host q m)) (n c k : Nat) (v : BitVec 32) {en : BitVec 4} (hen : en ≠ 0) (par : Bool) (pe : Option (BitVec 2)) :
    slotWrite d (.host q m) n c k v en par pe = slotWriteNow d (.host q m) n c k v en par pe := by
  unfold slotWrite
  dsimp only
  rw [if_neg hen, mustQueue_slot h, Bool.and_false, if_neg Bool.false_ne_true]

/-- The checks of a slot do not read what a write's copies of an index showed. -/
theorem slotBar_differs (d : Dev) (n : Nat) (pe : Option (BitVec 2)) (o : Origin) (c : Nat) :
    ((pairDiffers d n pe).pair n).slotBar o c = (d.pair n).slotBar o c := by
  unfold pairDiffers
  rw [Dev.pair_updPair]
  rfl

theorem slotWrite_barred {n c r : Nat} (h : d.takesSlot (.host q m)) (hbar : (d.pair n).slotBar (.host q m) c = some r) (k : Nat) (v : BitVec 32)
    {en : BitVec 4} (hen : en ≠ 0) (par : Bool) (pe : Option (BitVec 2)) :
    slotWrite d (.host q m) n c k v en par pe = queueAccess (pairDiffers d n pe) n r (.host q m) false := by
  rw [slotWrite_taken h _ _ _ _ hen]
  unfold slotWriteNow
  dsimp only
  rw [h.1, Bool.not_true, if_neg Bool.false_ne_true, slotBar_differs, hbar]

theorem slotWrite_narrow {n c : Nat} (h : d.takesSlot (.host q m)) (hbar : (d.pair n).slotBar (.host q m) c = none) (k : Nat) (v : BitVec 32)
    {en : BitVec 4} (hen : en ≠ 0) (hpart : en ≠ 15) (par : Bool) (pe : Option (BitVec 2)) :
    slotWrite d (.host q m) n c k v en par pe = narrowWrite (pairDiffers d n pe) (.host q m) (slotOff n c k) := by
  rw [slotWrite_taken h _ _ _ _ hen]
  unfold slotWriteNow
  dsimp only
  rw [h.1, Bool.not_true, if_neg Bool.false_ne_true, slotBar_differs, hbar]
  exact if_pos hpart

theorem slotWrite_whole {n c : Nat} (h : d.takesSlot (.host q m)) (hbar : (d.pair n).slotBar (.host q m) c = none) (k : Nat) (v : BitVec 32)
    (par : Bool) (pe : Option (BitVec 2)) :
    slotWrite d (.host q m) n c k v 15 par pe
      = tryCommit (d.updPair n (fun _ => { (d.pair n).putSlot c k (v.extractLsb' 0 18) par with differ := lowest (d.pair n).differ pe })) n := by
  rw [slotWrite_taken h _ _ _ _ (by decide)]
  unfold slotWriteNow
  dsimp only
  rw [h.1, Bool.not_true, if_neg Bool.false_ne_true, slotBar_differs, hbar]
  dsimp only
  rw [if_neg (not_not.mpr rfl), pairDiffers, Dev.updPair_updPair]
  exact congrArg (fun y => tryCommit y n) (updPair_congr rfl)

end

/-- A slot that may be written is one of the current cell. -/
theorem slotBar_cell {p : Pair_} {o : Origin} {c : Nat} (h : p.slotBar o c = none) : p.cmdProd.toNat % 128 = c := by
  unfold Pair_.slotBar at h
  split at h
  · exact absurd h (Option.some_ne_none _)
  · split at h
    · exact absurd h (Option.some_ne_none _)
    · split at h
      · exact absurd h (Option.some_ne_none _)
      · rename_i hc
        exact not_not.mp hc

theorem lowest_none {w : Nat} (x : Option (BitVec w)) : lowest x none = x := by
  cases x <;> rfl

/-- A whole slot written with both copies of each index the same. -/
theorem slotWrite_plain {d : Dev} {q : Fin 8} {m : Fin 16} {n c k : Nat} {v : BitVec 32} {par : Bool} {p : Pair_} (h : d.takesSlot (.host q m))
    (hbar : (d.pair n).slotBar (.host q m) c = none) (hp : p = (d.pair n).putSlot c k (v.extractLsb' 0 18) par) :
    slotWrite d (.host q m) n c k v 15 par none = tryCommit (d.updPair n (fun _ => p)) n := by
  rw [slotWrite_whole h hbar, hp]
  refine congrArg (fun y => tryCommit (d.updPair n (fun _ => y)) n) ?_
  rw [lowest_none]
  rfl

section
variable {d : Dev} {n c : Nat} {p : Pair_} (hp : d.pair n = p) (hcell : p.cmdProd.toNat % 128 = c)
include hp hcell

/-- Without W0 the cell waits. -/
theorem tryCommit_waits (h0 : p.slot? c 0 = none) : tryCommit d n = d := by
  unfold tryCommit
  dsimp only
  rw [hp, hcell, h0]

variable {w0 w : Word} (h0 : p.slot? c 0 = some w0) (hlast : p.slot? c (w0.toNat % 64) = some w)
include h0 hlast

/-- A good cell commits. -/
theorem tryCommit_good (hgood : p.badReason c (w0.toNat % 64) = 0) (hw : p.waiters = []) (hd : p.differ = none) :
    tryCommit d n = d.updPair n (fun _ => { p with cmdProd := p.cmdProd + 1, commits := p.commits ++ [d.glob.time] }) := by
  have hlen : bits w0.toNat 5 0 = w0.toNat % 64 := by simp only [bits]; omega
  unfold tryCommit
  dsimp only
  rw [hp, hcell, h0]
  dsimp only
  have hq : d.updPair n (fun p => { p with cmdProd := p.cmdProd + 1, commits := p.commits ++ [d.glob.time] })
      = d.updPair n (fun _ => { p with cmdProd := p.cmdProd + 1, commits := p.commits ++ [d.glob.time] }) := updPair_congr (by rw [hp])
  rw [hlen, hlast, hgood, hq]
  generalize hz : d.updPair n (fun _ => { p with cmdProd := p.cmdProd + 1, commits := p.commits ++ [d.glob.time] }) = z
  have hpair : (z.pair n).differ = none ∧ (z.pair n).waiters = [] := by
    rw [← hz, Dev.pair_updPair]
    exact ⟨hd, hw⟩
  obtain ⟨hdiffer, hwait⟩ := hpair
  have hsame : pairUpdated z n = z := by
    unfold pairUpdated
    rw [hdiffer]
  dsimp only [Option.isNone_some]
  rw [if_neg Bool.false_ne_true, if_neg (not_not.mpr rfl), hsame]
  unfold serveWaiter
  dsimp only
  rw [hwait]
  rfl

/-- A bad cell is emptied, counted and reported. -/
theorem tryCommit_bad (hbad : p.badReason c (w0.toNat % 64) ≠ 0) :
    tryCommit d n = raise (d.updPair n (fun _ => { p.clearCell c with bad := satInc 32 p.bad })) 384 2 2
      (info (n + fld 6 c + fld 13 (p.badReason c (w0.toNat % 64)) + fld 15 (w0.toNat % 64))) := by
  have hlen : bits w0.toNat 5 0 = w0.toNat % 64 := by simp only [bits]; omega
  unfold tryCommit
  dsimp only
  rw [hp, hcell, h0]
  dsimp only
  have hq : d.updPair n (fun p => { p.clearCell c with bad := satInc 32 p.bad })
      = d.updPair n (fun _ => { p.clearCell c with bad := satInc 32 p.bad }) := updPair_congr (by rw [hp])
  rw [hlen, hlast, Option.isNone_some, if_neg Bool.false_ne_true, if_pos hbad, hq]

end

/-- Settles O44, by the writes of a pair's control register and of its slots. -/
theorem commandQueueCommands : Obligations.CommandQueueCommands := by
  unfold Obligations.CommandQueueCommands
  have hexecO : ∀ s o (n : Fin 64) v, exec (.queueOpen o n v) s = onDevice s (fun d => writeReg d o (0x80000 + 0x20 * n.val) v) := fun _ _ _ _ => rfl
  have hexecC : ∀ s o (n : Fin 64) v, exec (.queueClose o n v) s = onDevice s (fun d => writeReg d o (0x80000 + 0x20 * n.val) v) := fun _ _ _ _ => rfl
  have hexecD : ∀ s n, exec (.queueOpenDone n) s = onIsland 10 s (fun d => if (d.pair n.val).st = 1 then openDone d n.val else d) := fun _ _ => rfl
  have hexecS : ∀ s o (n : Fin 64) (c : BitVec 7) (k : BitVec 6) v en par pe, exec (.commandSlotWrite o n c k v en par pe) s
      = onDevice s (fun d => slotWrite d o n.val c.toNat k.toNat v en par pe) := fun _ _ _ _ _ _ _ _ _ => rfl
  refine ⟨?_, ?_, ?_, ?_, ?_, ?_, ?_, ?_, ?_, ?_⟩
  · intro s q m n v hw hst hopen
    have hbit : bitAt v.toNat 0 = true := hopen
    rw [hexecO, onDevice_turned, writeReg_queCtrl hw]
    refine congrArg (fun d => Host.Outcome.next (s.turned d)) ?_
    unfold queCtrl
    dsimp only
    rw [if_pos hst, if_pos hbit, BitVec.ofNat_toNat]
    rfl
  · rintro s n hrun hst d rfl
    refine ⟨by rw [hexecD, onIsland_running hrun, if_pos hst], ?_⟩
    unfold openDone
    rw [Dev.pair_updPair]
    exact ⟨rfl, by simp [Pair_.credits, Pair_.isOpen, Pair_.unpopped], rfl, by simp [Pair_.unpopped], rfl, rfl, rfl, rfl⟩
  · rintro s q m n v hw hst hown hclose d rfl
    have hbit : bitAt v.toNat 0 = false := hclose
    have hgo : queCtrl s.dev (.host q m) n.val v.toNat
        = (closePair s.dev n.val 1).updPair n.val (fun p => { p with cplVec := v.extractLsb' 1 6, cplMsi := v.getLsbD 7 }) := by
      unfold queCtrl
      dsimp only
      rw [if_neg hst, hown, hbit, vectorField]
      rfl
    refine ⟨by rw [hexecC, onDevice_turned, writeReg_queCtrl hw, hgo], ?_⟩
    rw [Dev.pair_updPair, closePair_pair hst]
    exact ⟨rfl, rfl, rfl, rfl, rfl, rfl, closePair_mem _ _ _⟩
  · intro s q m n c k v par pe r hs hbar
    rw [hexecS, onDevice_turned, slotWrite_barred hs hbar _ _ (by decide)]
    refine congrArg (fun d => Host.Outcome.next (s.turned d)) ?_
    refine congrArg (fun i => raise (pairDiffers s.dev n.val pe) 385 0 1 (info i)) ?_
    show n.val + fld 6 r + fld 9 q.val + fld 12 m.val + fld 16 0 = _
    unfold fld
    omega
  · rintro s q m n c k v par pe p hs hbar rfl h0
    rw [hexecS, onDevice_turned, slotWrite_whole hs hbar]
    refine congrArg (fun d => Host.Outcome.next (s.turned d)) ?_
    have hcell := slotBar_cell hbar
    rw [tryCommit_waits (Dev.pair_updPair _ _ _) hcell h0, pairDiffers, Dev.updPair_updPair]
    exact updPair_congr rfl
  · intro s q m n c k v par p w0 w hs hbar hp h0 hlast hgood hwait hdiffer
    have hbefore := slotBar_cell hbar
    have hcell : p.cmdProd.toNat % 128 = c.toNat := by
      rw [hp]
      exact hbefore
    rw [hexecS, onDevice_turned, slotWrite_plain hs hbar hp]
    refine congrArg (fun d => Host.Outcome.next (s.turned d)) ?_
    rw [tryCommit_good (Dev.pair_updPair _ _ _) hcell h0 hlast hgood hwait hdiffer, Dev.updPair_updPair]
    rfl
  · intro s q m n c k v par p w0 w hs hbar hp h0 hlast hbad
    have hbefore := slotBar_cell hbar
    have hcell : p.cmdProd.toNat % 128 = c.toNat := by
      rw [hp]
      exact hbefore
    have hinfo : n.val + fld 6 c.toNat + fld 13 (p.badReason c.toNat (w0.toNat % 64)) + fld 15 (w0.toNat % 64)
        = n.val + 2 ^ 6 * c.toNat + 2 ^ 13 * p.badReason c.toNat (w0.toNat % 64) + 2 ^ 15 * (w0.toNat % 64) := by
      unfold fld
      omega
    rw [hexecS, onDevice_turned, slotWrite_plain hs hbar hp]
    refine congrArg (fun d => Host.Outcome.next (s.turned d)) ?_
    rw [tryCommit_bad (Dev.pair_updPair _ _ _) hcell h0 hlast hbad, Dev.updPair_updPair, hinfo]
  · intro s q m n c k v en par pe hs hbar hsome hpart
    rw [hexecS, onDevice_turned, slotWrite_narrow hs hbar _ _ hsome hpart]
    rfl
  · intro s o n c k v par pe
    rw [hexecS, onDevice_turned]
    rfl
  · intro s o n c k v en par pe hreach hdown hen
    have hqueue : s.dev.mustQueue o (.slot n.val c.toNat k.toNat v en par pe) = true := by
      have hruns : s.dev.blockRuns (.slot n.val c.toNat k.toNat v en par pe) = false := hdown
      rw [Dev.mustQueue, hruns]
      rfl
    rw [hexecS, onDevice_turned]
    refine congrArg (fun d => Host.Outcome.next (s.turned d)) ?_
    unfold slotWrite
    dsimp only
    rw [if_neg hen, hreach, hqueue]
    rfl

end Sys2Proof.Machine
end

section
/-! Registers that start something, and PARK set by set. -/

open Sys2Proof

namespace Sys2Proof.Machine

-- a register written by its own row (R489)

/-- A register whose changes are not journalled takes the value of its row. -/
theorem writeReg_plain {d : Dev} {o : Origin} {off : Nat} (hoff : off / 4 * 4 = off) (h : d.takesWrite o off) (hj : regJournalled off = false) (v : BitVec 32) :
    writeReg d o off v = regEffect d o off v.toNat none none := by
  unfold writeReg
  rw [busWrite_unjournalled hoff h hj, Nat.mod_eq_of_lt v.isLt]

/-- What the journal entry of a register write leaves of the device. -/
def Dev.unjournalled (d : Dev) := (d.glob, d.mem, d.err, d.slices)

/-- A register whose changes are journalled takes the value of its row; the journal alone sees more. -/
theorem writeReg_journalled {d : Dev} {o : Origin} {off : Nat} (hoff : off / 4 * 4 = off) (h : d.takesWrite o off) (v : BitVec 32) :
    (writeReg d o off v).unjournalled = (regEffect d o off v.toNat none none).unjournalled := by
  unfold writeReg
  rw [busWrite_taken hoff h, Nat.mod_eq_of_lt v.isLt]
  split
  · simp only [Dev.unjournalled, journalReg_frame]
  · rfl

theorem bits_low16 (v : Nat) : bits v 15 0 = v % 2 ^ 16 := by simp only [bits]; omega

theorem q0Halted_of_runs {d : Dev} (h : d.q0Runs = true) : d.q0Halted = false := by
  unfold Dev.q0Runs at h
  rw [Bool.and_eq_true, Bool.not_eq_true'] at h
  exact h.1

-- PARK (R323, R325)

/-- PARK starts with no set walked. -/
theorem parkStart_started {d : Dev} (h : d.canPark = true) (pace : BitVec 8) : (parkStart d pace).park = { st := 1, pace := pace }
    ∧ (∀ sl < 16, ((parkStart d pace).slice sl).parkNext = 0) ∧ (parkStart d pace).mem = d.mem := by
  refine ⟨?_, fun sl hsl => ?_, parkStart_mem d pace⟩
  · unfold parkStart
    rw [if_pos h]
    exact Dev.each_keeps (fun y => y.park = { st := 1, pace := pace }) { d with park := { st := 1, pace := pace } } (List.range 16)
      (fun d s => d.updSlice s (fun x => { x with parkNext := 0, parkWait := [] })) rfl (fun _ _ _ hy => hy)
  · unfold parkStart
    rw [if_pos h]
    refine Dev.each_sets (fun y => (y.slice sl).parkNext = 0) { d with park := { st := 1, pace := pace } }
      (fun d s => d.updSlice s (fun x => { x with parkNext := 0, parkWait := [] })) (List.mem_range.mpr hsl) (fun y => ?_) (fun y s hy => ?_)
    · rw [Dev.slice_updSlice]
    · by_cases hs : sl = s
      · rw [hs, Dev.slice_updSlice]
      · rw [Dev.slice_updSlice_other _ _ hs]
        exact hy

/-- The recalls of a set that is parked wait in their slice, and nothing else there changes. -/
theorem parkRecallReq_slice (d : Dev) (s line : Nat) : ((parkRecallReq d s line).slice s).parkNext = (d.slice s).parkNext
    ∧ ((parkRecallReq d s line).slice s).parkT = (d.slice s).parkT
    ∧ ((parkRecallReq d s line).slice s).parkWait.length = (d.slice s).parkWait.length + 1 ∧ (parkRecallReq d s line).park = d.park := by
  unfold parkRecallReq
  dsimp only
  rw [Dev.slice_updSlice]
  have hord := Dev.slice_updSlice d s (fun y => { y with nextOrd := y.nextOrd + 1 })
  have hstart : ((d.updSlice s (fun y => { y with nextOrd := y.nextOrd + 1 })).start
      { req := { op := .parkRecall, dpa := 64 * line, sup := true }, slice := s, ord := (d.slice s).nextOrd, phase := .queued, t0 := d.glob.time }).1.slice s
      = { d.slice s with nextOrd := (d.slice s).nextOrd + 1 } := hord
  rw [hstart]
  exact ⟨rfl, rfl, List.length_append, rfl⟩

theorem parkRecalls_slice (s : Nat) : ∀ (lines : List Nat) (d : Dev), ((d.each lines (fun d l => parkRecallReq d s l)).slice s).parkNext = (d.slice s).parkNext
    ∧ ((d.each lines (fun d l => parkRecallReq d s l)).slice s).parkT = (d.slice s).parkT
    ∧ ((d.each lines (fun d l => parkRecallReq d s l)).slice s).parkWait.length = (d.slice s).parkWait.length + lines.length
    ∧ (d.each lines (fun d l => parkRecallReq d s l)).park = d.park := by
  intro lines
  induction lines with
  | nil => exact fun d => ⟨rfl, rfl, rfl, rfl⟩
  | cons l lines ih =>
    intro d
    obtain ⟨hnext, ht, hwait, hpark⟩ := ih (parkRecallReq d s l)
    obtain ⟨hnext', ht', hwait', hpark'⟩ := parkRecallReq_slice d s l
    refine ⟨hnext.trans hnext', ht.trans ht', hwait.trans ?_, hpark.trans hpark'⟩
    rw [hwait', List.length_cons]
    omega

/-- The pace GLB_PARK's GO is given. -/
theorem parkPace_bits (v : BitVec 32) : BitVec.ofNat 8 (bits v.toNat 8 1) = v.extractLsb' 1 8 := by
  refine BitVec.eq_of_toNat_eq ?_
  simp only [bits, BitVec.toNat_ofNat, BitVec.extractLsb'_toNat, Nat.shiftRight_eq_div_pow]
  omega

/-- A slice whose walker may go on takes its next set, whose recalls then wait. -/
theorem parkStep_walks {d : Dev} {s : Nat} (hst : d.park.st = 1) (hbusy : d.parkBusy s = false) (hreset : d.glob.resetPhase = .none)
    (hnext : (d.slice s).parkNext < 32768) (hpace : d.paceMet s = true) (hq : d.q0Runs = true) :
    ((parkStep d s).slice s).parkNext = (d.slice s).parkNext + 1 ∧ ((parkStep d s).slice s).parkT = d.glob.time
    ∧ ((parkStep d s).slice s).parkWait.length = (d.parkLines s (d.slice s).parkNext).length ∧ (parkStep d s).park = d.park
    ∧ (parkStep d s).mem = d.mem := by
  have hgo : ¬ (d.park.st ≠ 1 ∨ d.parkBusy s = true ∨ d.glob.resetPhase ≠ .none ∨ 32768 ≤ (d.slice s).parkNext ∨ d.paceMet s = false
      ∨ d.q0Runs = false) := by
    rw [hst, hbusy, hreset, hpace, hq]
    simpa using hnext
  have hmem := parkStep_mem d s
  unfold parkStep at hmem ⊢
  dsimp only at hmem ⊢
  rw [if_neg hgo] at hmem ⊢
  obtain ⟨hnext', ht, hwait, hpark⟩ := parkRecalls_slice s (d.parkLines s (d.slice s).parkNext) ((countWalk d s 1).updSlice s (fun x => { x with
    parkNext := (d.slice s).parkNext + 1, parkWait := [], parkT := (countWalk d s 1).glob.time }))
  rw [Dev.slice_updSlice] at hnext' ht hwait
  refine ⟨hnext', ht.trans ?_, hwait.trans (Nat.zero_add _), hpark.trans ?_, hmem⟩
  · simp only [countWalk, count_frame]
  · simp [countWalk]

-- ERR_FLIP (R374)

/-- A flip is armed on the path it names. -/
theorem flipCtrl_arms (d : Dev) {v : BitVec 32} (hgo : v.getLsbD 0 = true) (hlow : 1 ≤ v.toNat / 4 % 16) (hhigh : v.toNat / 4 % 16 ≤ 11) :
    (flipCtrl d v.toNat).err.flipArm = true ∧ (flipCtrl d v.toNat).err.flipPath.toNat = v.toNat / 4 % 16
    ∧ (flipCtrl d v.toNat).err.flipFired = false ∧ (flipCtrl d v.toNat).mem = d.mem := by
  have hbit : bitAt v.toNat 0 = true := hgo
  have hpath : bits v.toNat 5 2 = v.toNat / 4 % 16 := by simp only [bits]; omega
  unfold flipCtrl
  dsimp only [Dev.setErr]
  rw [hbit, hpath]
  refine ⟨?_, ?_, ?_, rfl⟩
  · rw [decide_eq_true hlow, decide_eq_true hhigh]
    rfl
  · rw [BitVec.toNat_ofNat]
    omega
  · rw [Bool.not_true, Bool.and_false]

/-- Settles O47, register by register, and then by PARK's walker and its end. -/
theorem startingRegisters : Obligations.StartingRegisters := by
  unfold Obligations.StartingRegisters
  refine ⟨⟨?_, ?_, ?_, ?_, ?_, ?_, ?_, ?_⟩, ?_, ?_, ?_, ?_⟩
  · intro s o v hw hkey
    have hexec : exec (.glbFullReset o v) s = onDevice s (fun d => writeReg d o 0x48 v) := rfl
    rw [hexec, onDevice_turned, writeReg_plain rfl hw rfl]
    exact congrArg (fun d => Host.Outcome.next (s.turned d)) (if_pos ((bits_low16 _).trans hkey))
  · intro s o v hw hkey
    have hexec : exec (.glbFullReset o v) s = onDevice s (fun d => writeReg d o 0x48 v) := rfl
    rw [hexec, onDevice_turned, writeReg_plain rfl hw rfl]
    exact congrArg (fun d => Host.Outcome.next (s.turned d)) (if_neg (fun h => hkey ((bits_low16 _).symm.trans h)))
  · rintro s o v hw hgo hcan d rfl
    have hexec : exec (.glbParkGo o v) s = onDevice s (fun d => writeReg d o 0x40 v) := rfl
    refine ⟨by rw [hexec, onDevice_turned], ?_⟩
    have hbit : bitAt v.toNat 0 = true := hgo
    have heff : regEffect s.dev o 0x40 v.toNat none none = parkGo s.dev o (BitVec.ofNat 8 (bits v.toNat 8 1)) := if_pos hbit
    obtain ⟨hpark, hnext, hmem⟩ := parkStart_started hcan (v.extractLsb' 1 8)
    rw [writeReg_plain rfl hw rfl, heff, parkPace_bits, parkGo, if_pos hcan]
    generalize parkStart s.dev (v.extractLsb' 1 8) = y at hpark hnext hmem
    simp only [Dev.slice, journalCall_frame]
    rw [hpark]
    exact ⟨rfl, rfl, rfl, hnext, hmem⟩
  · rintro s o v hw hgo hq hfree d rfl
    have hexec : exec (.glbResyncGo o v) s = onDevice s (fun d => writeReg d o 0x58 v) := rfl
    refine ⟨by rw [hexec, onDevice_turned], ?_⟩
    have heff : regEffect s.dev o 0x58 v.toNat none none = resyncRequest s.dev o := if_pos hgo
    rw [writeReg_plain rfl hw rfl, heff, resyncRequest, q0Halted_of_runs hq, hfree]
    exact ⟨rfl, rfl, rfl, rfl, rfl⟩
  · intro s o v hw hgo hq hbusy hpend
    have hexec : exec (.glbResyncGo o v) s = onDevice s (fun d => writeReg d o 0x58 v) := rfl
    have heff : regEffect s.dev o 0x58 v.toNat none none = resyncRequest s.dev o := if_pos hgo
    rw [hexec, onDevice_turned, writeReg_plain rfl hw rfl, heff, resyncRequest, q0Halted_of_runs hq, hbusy, hpend]
    rfl
  · rintro s o v hw hgo hlow hhigh d rfl
    have hexec : exec (.errFlipArm o v) s = onDevice s (fun d => writeReg d o 0xA0020 v) := rfl
    refine ⟨by rw [hexec, onDevice_turned], ?_⟩
    have heff : (regEffect s.dev o 0xA0020 v.toNat none none).unjournalled = (flipCtrl s.dev v.toNat).unjournalled := rfl
    have hkept := (writeReg_journalled rfl hw v).trans heff
    simp only [Dev.unjournalled, Prod.mk.injEq] at hkept
    obtain ⟨_, hmem, herr, _⟩ := hkept
    rw [herr, hmem]
    exact flipCtrl_arms s.dev hgo hlow hhigh
  · rintro s o v hw d rfl
    have hexec : exec (.lockFieldWrite o false v) s = onDevice s (fun d => writeReg d o 0x24 v) := rfl
    refine ⟨by rw [hexec, onDevice_turned], ?_⟩
    have heff : (regEffect s.dev o 0x24 v.toNat none none).unjournalled = (writeGlbLock s.dev o v.toNat).unjournalled := rfl
    have hkept := (writeReg_journalled rfl hw v).trans heff
    simp only [Dev.unjournalled, Prod.mk.injEq] at hkept
    obtain ⟨hglob, _, herr, _⟩ := hkept
    rw [herr, hglob]
    unfold writeGlbLock
    dsimp only
    split
    · exact ⟨rfl, rfl, rfl⟩
    · simp only [lockWrite_frame]
      exact ⟨rfl, rfl, rfl⟩
  · rintro s o v hw d rfl
    have hexec : exec (.lockFieldWrite o true v) s = onDevice s (fun d => writeReg d o 0xA0038 v) := rfl
    refine ⟨by rw [hexec, onDevice_turned], ?_⟩
    have heff : (regEffect s.dev o 0xA0038 v.toNat none none).unjournalled = (writeErrLock s.dev o v.toNat).unjournalled := rfl
    have hkept := (writeReg_journalled rfl hw v).trans heff
    simp only [Dev.unjournalled, Prod.mk.injEq] at hkept
    obtain ⟨hglob, _, herr, _⟩ := hkept
    rw [herr, hglob]
    unfold writeErrLock
    cases hheld : s.dev.err.lockFlip with
    | true =>
      rw [if_pos rfl]
      simp only [lockWrite_frame]
      exact ⟨hheld, trivial⟩
    | false => exact ⟨(Bool.false_or _).symm, rfl⟩
  · intro s sl hrun hstop
    have hexec : exec (.parkSetStep sl) s = onIsland 10 s (fun d => parkStep d sl.val) := rfl
    rw [hexec, onIsland_running hrun]
    refine congrArg (fun d => Host.Outcome.next (s.turned d)) (if_pos ?_)
    obtain hst | hbusy | hpace := hstop
    · exact .inl hst
    · exact .inr (.inl hbusy)
    · exact .inr (.inr (.inr (.inr (.inl hpace))))
  · rintro s sl d hrun hst hbusy hreset hnext hpace hq rfl
    have hexec : exec (.parkSetStep sl) s = onIsland 10 s (fun d => parkStep d sl.val) := rfl
    refine ⟨by rw [hexec, onIsland_running hrun], ?_⟩
    exact parkStep_walks hst hbusy hreset hnext hpace hq
  · intro d hst hall
    have hdone : (List.range 16).all (fun s => decide (d.parked s = 32768)) = true :=
      List.all_eq_true.mpr (fun k hk => decide_eq_true (hall k (List.mem_range.mp hk)))
    have hinfo : d.park.recalled + fld 24 (b2n d.park.resigned) = d.park.recalled + 2 ^ 24 * b2n d.park.resigned := by
      unfold fld
      omega
    unfold parkFinish
    rw [if_pos ⟨hst, hdone⟩, hinfo]
  · rintro d hst ⟨k, hk, hleft⟩
    refine if_neg (fun h => hleft ?_)
    exact of_decide_eq_true (List.all_eq_true.mp h.2 k (List.mem_range.mpr hk))

end Sys2Proof.Machine
end

section
/-! SLC_CTRL, HSTATUS, the error log, the retained log and the counters. -/

open Sys2Proof

namespace Sys2Proof.Machine

-- SLC_CTRL (R123, R124)

theorem perFunction_low {off : Nat} (h : off < 0xE0000) : perFunction off = false := by
  have hlow : ¬ 0xE0000 ≤ off := by omega
  rw [perFunction, decide_eq_false hlow, Bool.false_and]

section
variable {d : Dev} {o : Origin} {off v : Nat} {pe : Option (BitVec 2)} {ev : Option Bool}

theorem regEffect_lab (h : off / 0x10000 = 2) : regEffect d o off v pe ev = labWrite d (off % 0x10000) v := by
  unfold regEffect
  dsimp only
  rw [perFunction_low (by omega), if_neg Bool.false_ne_true, h]
  rfl

theorem regEffect_pmc (h : off / 0x10000 = 0xC) : regEffect d o off v pe ev = pmcWrite d (off % 0x10000) v := by
  unfold regEffect
  dsimp only
  rw [perFunction_low (by omega), if_neg Bool.false_ne_true, h]
  rfl

end

theorem writeReg_slcCtrl {d : Dev} {o : Origin} {sl : Fin 16} (h : d.takesWrite o (0x30000 + 0x1000 * sl.val)) (v : BitVec 32) :
    writeReg d o (0x30000 + 0x1000 * sl.val) v = slcCtrl d sl.val v.toNat := by
  have hsl := sl.isLt
  have hb : (0x30000 + 0x1000 * sl.val) / 0x10000 = 3 := by omega
  have hj : regJournalled (0x30000 + 0x1000 * sl.val) = false := by
    unfold regJournalled
    rw [hb]
    rfl
  have hk : (0x30000 + 0x1000 * sl.val) % 0x10000 % 0x1000 = 0 := by omega
  have hn : (0x30000 + 0x1000 * sl.val) % 0x10000 / 0x1000 = sl.val := by omega
  rw [writeReg_plain (by omega) h hj]
  unfold regEffect
  dsimp only
  rw [perFunction_low (by omega), if_neg Bool.false_ne_true, hb]
  exact (if_pos hk).trans (by rw [hn])

/-- The control word of a slice: four bits of the write, and the enable that was granted. -/
theorem slcWord (v : BitVec 32) : BitVec.ofNat 32 (bits v.toNat 4 1 * 2 + b2n false) = v &&& 0x1E
    ∧ (v.getLsbD 0 = true → BitVec.ofNat 32 (bits v.toNat 4 1 * 2 + b2n true) = v &&& 0x1F) := by
  have hfour : ∀ n : Nat, n &&& 15 = n % 16 := fun n => Nat.and_two_pow_sub_one_eq_mod n 4
  have hfive : ∀ n : Nat, n &&& 31 = n % 32 := fun n => Nat.and_two_pow_sub_one_eq_mod n 5
  have heven : ∀ n : Nat, n &&& 30 = n / 2 % 16 * 2 := by
    intro n
    have hdiv : (n &&& 30) / 2 = n / 2 % 16 := Nat.and_div_two.trans (hfour _)
    have hmod : (n &&& 30) % 2 = 0 := (Nat.and_mod_two_pow (n := 1)).trans (Nat.and_zero _)
    omega
  have hfield : bits v.toNat 4 1 = v.toNat / 2 % 16 := rfl
  refine ⟨BitVec.eq_of_toNat_eq ?_, fun hv => BitVec.eq_of_toNat_eq ?_⟩
  · have hmask : (v &&& 0x1E).toNat = v.toNat / 2 % 16 * 2 := (BitVec.toNat_and v 0x1E).trans (heven _)
    rw [hmask, hfield, BitVec.toNat_ofNat, show b2n false = 0 from rfl]
    omega
  · have hmask : (v &&& 0x1F).toNat = v.toNat % 32 := (BitVec.toNat_and v 0x1F).trans (hfive _)
    have hodd : v.toNat % 2 = 1 := by
      rw [← BitVec.testBit_toNat, Nat.testBit_zero] at hv
      exact of_decide_eq_true hv
    rw [hmask, hfield, BitVec.toNat_ofNat, show b2n true = 1 from rfl]
    omega

theorem markNoAlloc_slices (d : Dev) (i : Nat) : (markNoAlloc d i).slices = d.slices := by
  unfold markNoAlloc
  repeat' split
  all_goals simp

/-- A slice that is disabled drops its side buffer, its tags no longer clean. -/
theorem slcCtrl_disabled {d : Dev} {s : Nat} {v : BitVec 32} (hen : (d.slice s).ctrl.getLsbD 0 = true) (hv : v.getLsbD 0 = false) :
    (slcCtrl d s v.toNat).slice s = { d.slice s with ctrl := v &&& 0x1E, tagsClean := false, side := [] } ∧ (slcCtrl d s v.toNat).mem = d.mem := by
  have hbit : bitAt v.toNat 0 = false := hv
  have hslices : ∀ y : Dev, (markWhere y s (fun _ => true)).slices = y.slices := fun y =>
    markWhere_keeps (fun z => z.slices = y.slices) rfl (fun z i hz => (markNoAlloc_slices z i).trans hz) s _
  unfold slcCtrl
  dsimp only
  rw [hen, hbit, Bool.false_and, Bool.false_and, Bool.not_false, Bool.and_true, if_neg Bool.false_ne_true, if_pos rfl]
  refine ⟨?_, markWhere_mem _ _ _⟩
  rw [Dev.slice, hslices, ← Dev.slice, Dev.slice_updSlice, Dev.slice_updSlice, (slcWord v).1]

-- the counters (R466, R467)

theorem pmcs_cnt (d : Dev) (run : Bool) (b : Nat) : ((d.each (List.range 28) (fun d b => d.updPmc b (fun p => { p with run := run }))).pmc b).cnt = (d.pmc b).cnt := by
  refine Dev.each_keeps (fun y => (y.pmc b).cnt = (d.pmc b).cnt) d _ _ rfl (fun y k _ hy => ?_)
  by_cases hk : b = k
  · rw [← hk, Dev.pmc_updPmc]
    exact hy
  · rw [Dev.pmc_updPmc_other _ _ hk]
    exact hy

theorem pmcs_run (d : Dev) (run : Bool) {b : Nat} (hb : b < 28) : ((d.each (List.range 28) (fun d b => d.updPmc b (fun p => { p with run := run }))).pmc b).run = run := by
  refine Dev.each_sets (fun y => (y.pmc b).run = run) d _ (List.mem_range.mpr hb) (fun y => ?_) (fun y k hy => ?_)
  · rw [Dev.pmc_updPmc]
  · by_cases hk : b = k
    · rw [← hk, Dev.pmc_updPmc]
    · rw [Dev.pmc_updPmc_other _ _ hk]
      exact hy

theorem pmcs_mem (d : Dev) (run : Bool) : (d.each (List.range 28) (fun d b => d.updPmc b (fun p => { p with run := run }))).mem = d.mem :=
  Dev.each_keeps (fun y => y.mem = d.mem) d _ _ rfl (fun _ _ _ hy => hy)

-- HSTATUS and PMC_CTRL (R93, R467)

/-- A write of a LAB's HSTATUS clears the bits it names. -/
theorem writeReg_hstatus {d : Dev} {o : Origin} (p : Fin 8) {v : BitVec 32} (hw : d.takesWrite o (0x2000C + 0x40 * p.val)) :
    writeReg d o (0x2000C + 0x40 * p.val) v = d.updPort p.val (fun x => { x with hstatus := x.hstatus &&& ~~~(v.setWidth 4) }) := by
  have hp := p.isLt
  have hb : (0x2000C + 0x40 * p.val) / 0x10000 = 2 := by omega
  have hr : (0x2000C + 0x40 * p.val) % 0x10000 = 0xC + 0x40 * p.val := by omega
  have hk : (0x2000C + 0x40 * p.val) % 0x40 = 0xC := by omega
  have hj : regJournalled (0x2000C + 0x40 * p.val) = false := by
    unfold regJournalled
    rw [hb, hk]
    have hbase : (0x2000C + 0x40 * p.val == 0x20300) = false := beq_eq_false_iff_ne.mpr (by omega)
    have hsize : (0x2000C + 0x40 * p.val == 0x20304) = false := beq_eq_false_iff_ne.mpr (by omega)
    rw [hbase, hsize, Bool.or_false, Bool.or_false]
    exact Bool.and_false _
  have hk' : (0xC + 0x40 * p.val) % 0x40 = 0xC := by omega
  have hn : (0xC + 0x40 * p.val) / 0x40 = p.val := by omega
  rw [writeReg_plain (by omega) hw hj, regEffect_lab hb, hr]
  unfold labWrite
  dsimp only
  rw [if_pos (by omega), hk', hn]
  exact congrArg (fun w => d.updPort p.val (fun x => { x with hstatus := x.hstatus &&& ~~~w })) (BitVec.ofNat_toNat 4 v)

/-- A write of a block's PMC_CTRL with CLEAR clears its counters. -/
theorem writeReg_pmcClear {d : Dev} {o : Origin} (b : Fin 28) {v : BitVec 32} (hw : d.takesWrite o (0xC0000 + 0x100 * b.val)) (hv : v.getLsbD 1 = true) :
    writeReg d o (0xC0000 + 0x100 * b.val) v = d.updPmc b.val (fun p => { p with
      run := v.getLsbD 0, cycInt := v.getLsbD 2, cycle := 0, cnt := [], ovf := 0 }) := by
  have hb28 := b.isLt
  have hb : (0xC0000 + 0x100 * b.val) / 0x10000 = 0xC := by omega
  have hr : (0xC0000 + 0x100 * b.val) % 0x10000 = 0x100 * b.val := by omega
  have hk : 0x100 * b.val % 0x100 = 0 := by omega
  have hn : 0x100 * b.val / 0x100 = b.val := by omega
  have hj : regJournalled (0xC0000 + 0x100 * b.val) = false := by
    unfold regJournalled
    rw [hb]
    rfl
  have hbit : bitAt v.toNat 1 = true := hv
  rw [writeReg_plain (by omega) hw hj, regEffect_pmc hb, hr]
  unfold pmcWrite
  dsimp only
  rw [if_neg (by omega), if_neg (by omega), if_neg (by omega), hk, hn, if_neg (by omega), if_neg (by omega), hbit]
  rfl

/-- Settles O48, register by register. -/
theorem serviceRegisters : Obligations.ServiceRegisters := by
  unfold Obligations.ServiceRegisters
  have hexecS : ∀ s o (sl : Fin 16) v, exec (.slcCtrlWrite o sl v) s = onDevice s (fun d => writeReg d o (0x30000 + 0x1000 * sl.val) v) := fun _ _ _ _ => rfl
  have hexecF : ∀ s o v, exec (.errLogFree o v) s = onDevice s (fun d => writeReg d o 0xA0008 v) := fun _ _ _ => rfl
  have hexecO : ∀ s b, exec (.pmcOverflow b) s = onDevice s (fun d => pmcOverflow d b.val) := fun _ _ => rfl
  refine ⟨?_, ?_, ?_, ?_, ?_, ?_, ?_, ?_, ?_, ?_, ?_, ?_⟩
  · intro s o sl v hw hen hclean hv
    have hbit : bitAt v.toNat 0 = true := hv
    rw [hexecS, onDevice_turned, writeReg_slcCtrl hw]
    refine congrArg (fun d => Host.Outcome.next (s.turned d)) ?_
    unfold slcCtrl
    dsimp only
    rw [hen, hclean, hbit]
    exact congrArg (fun c => s.dev.updSlice sl.val (fun y => { y with ctrl := c })) ((slcWord v).2 hv)
  · intro s o sl v hw hen hclean hv
    have hbit : bitAt v.toNat 0 = true := hv
    rw [hexecS, onDevice_turned, writeReg_slcCtrl hw]
    refine congrArg (fun d => Host.Outcome.next (s.turned d)) ?_
    unfold slcCtrl
    dsimp only
    rw [hen, hclean, hbit]
    exact congrArg (fun c => raise (s.dev.updSlice sl.val (fun y => { y with ctrl := c })) (64 + 8 * sl.val) 0 1 0) (slcWord v).1
  · rintro s o sl v hw hen hv d rfl
    refine ⟨by rw [hexecS, onDevice_turned], ?_⟩
    rw [writeReg_slcCtrl hw]
    obtain ⟨hslice, hmem⟩ := slcCtrl_disabled hen hv
    rw [hslice]
    exact ⟨rfl, rfl, rfl, rfl, hmem⟩
  · intro s o p v hw
    have hexec : exec (.labHstatusWrite o p v) s = onDevice s (fun d => writeReg d o (0x2000C + 0x40 * p.val) v) := rfl
    rw [hexec, onDevice_turned, writeReg_hstatus p hw]
  · intro s o v hw hv
    rw [hexecF, onDevice_turned, writeReg_plain rfl hw rfl]
    exact congrArg (fun d => Host.Outcome.next (s.turned d)) (if_pos hv)
  · intro s o v x hw hv hx
    have hbit : bitAt v.toNat 31 = false := hv
    have hlow : bits v.toNat 8 0 = v.toNat % 2 ^ 9 := by simp only [bits]; omega
    have heff : regEffect s.dev o 0xA0008 v.toNat none none = logFree s.dev v.toNat := rfl
    rw [hexecF, onDevice_turned, writeReg_plain rfl hw rfl, heff, logFree, hbit, hlow, hx]
    rfl
  · intro s o v hw hv
    have hexec : exec (.errRlogAck o v) s = onDevice s (fun d => writeReg d o 0xA0044 v) := rfl
    rw [hexec, onDevice_turned, writeReg_plain rfl hw rfl]
    exact congrArg (fun d => Host.Outcome.next (s.turned d)) (if_pos hv)
  · intro s o b v hw hv
    have hexec : exec (.pmcClear o b v) s = onDevice s (fun d => writeReg d o (0xC0000 + 0x100 * b.val) v) := rfl
    rw [hexec, onDevice_turned, writeReg_pmcClear b hw hv]
  · rintro s o v hw hv hstop d rfl
    have hexec : exec (.pmcGrunStart o v) s = onDevice s (fun d => writeReg d o 0xC2004 v) := rfl
    refine ⟨by rw [hexec, onDevice_turned], ?_⟩
    have hgo : bitAt v.toNat 0 = true := hv
    have hno : bitAt v.toNat 1 = false := hstop
    have heff : regEffect s.dev o 0xC2004 v.toNat none none = pmcGrun s.dev v.toNat := rfl
    rw [writeReg_plain rfl hw rfl, heff, pmcGrun, hno, hgo, if_neg Bool.false_ne_true, if_pos rfl]
    exact ⟨fun b hb => ⟨pmcs_run _ _ hb, pmcs_cnt _ _ _⟩, pmcs_mem _ _⟩
  · rintro s o v hw hstop d rfl
    have hexec : exec (.pmcGrunStop o v) s = onDevice s (fun d => writeReg d o 0xC2004 v) := rfl
    refine ⟨by rw [hexec, onDevice_turned], ?_⟩
    have hyes : bitAt v.toNat 1 = true := hstop
    have heff : regEffect s.dev o 0xC2004 v.toNat none none = pmcGrun s.dev v.toNat := rfl
    rw [writeReg_plain rfl hw rfl, heff, pmcGrun, hyes, if_pos rfl]
    exact ⟨fun b hb => ⟨pmcs_run _ _ hb, pmcs_cnt _ _ _⟩, pmcs_mem _ _⟩
  · intro s b hnone
    rw [hexecO, onDevice_turned, pmcOverflow, hnone]
  · intro s b t v rest hfresh
    have hinfo : b.val + fld 5 v.toNat = b.val + 32 * v.toNat := by
      unfold fld
      omega
    rw [hexecO, onDevice_turned, pmcOverflow, hfresh]
    dsimp only
    rw [hinfo]

end Sys2Proof.Machine
end

section
/-! The routines on agents, tiles, PARK and host programs. -/

open Sys2Proof

namespace Sys2Proof.Machine

-- RESIGN (R195)

/-- An attached pair starts its resignation. -/
theorem resignGo_attached {ws : List Word} {d : Dev} {c : Call} {x : Agent} (hx : d.agent? ((ws.getD 0 0).extractLsb' 0 12) = some x)
    (ha : x.attached = true) (he : x.epoch = (ws.getD 1 0).extractLsb' 0 4) :
    resignGo ws d c = (resign d ((ws.getD 0 0).extractLsb' 0 12) 4, { c with
      first := ((ws.getD 0 0).extractLsb' 0 12).toNat, steps := [.awaitAgent ((ws.getD 0 0).extractLsb' 0 12) ((ws.getD 1 0).extractLsb' 0 4), .finish] }) := by
  unfold resignGo
  dsimp only
  rw [viewAt, hx]
  dsimp only
  rw [ha, he, beq_self_eq_true]
  rfl

/-- Another pair is not attached. -/
theorem resignGo_other {ws : List Word} {d : Dev} {c : Call}
    (h : ∀ x, d.agent? ((ws.getD 0 0).extractLsb' 0 12) = some x → x.attached = false ∨ x.epoch ≠ (ws.getD 1 0).extractLsb' 0 4) :
    resignGo ws d c = (d, c.fails 4) := by
  unfold resignGo
  dsimp only
  rw [viewAt]
  cases hx : d.agent? ((ws.getD 0 0).extractLsb' 0 12) with
  | none => rfl
  | some x =>
    refine if_neg ?_
    obtain ha | he := h x hx
    · rw [ha]
      exact Bool.false_ne_true
    · rw [beq_eq_false_iff_ne.mpr he, Bool.and_false]
      exact Bool.false_ne_true

-- tiles (R139, R141, R300)

theorem tileCall_eq (ws : List Word) (d : Dev) (c : Call) :
    tileCall ws d c = (d, { c with mode := b1 ws 0 % 8, base := b1 ws 1 % 64, steps := [.tileGo] }) := by
  unfold tileCall
  rw [bits_low, bits_low]
  rfl

section
variable {d : Dev} {c : Call}

/-- A tile that is at rest is worked on at once. -/
theorem tileGo_settled (hstill : d.tileMoving c.mode = false) (hthere : d.tileSt c.mode ≠ .absent) :
    tileGo d c = if c.code = 0xF then tileOfflineGo c.mode d c
      else if c.code = 0x10 then tileOnlineGo c.mode d c
      else if c.code = 0x11 then tileRetireGo c.mode d c
      else bankRetireGo c.mode c.base d c := by
  unfold tileGo
  dsimp only
  rw [if_neg hthere, if_neg (Bool.eq_false_iff.mp hstill)]

theorem tileGo_offline (hstill : d.tileMoving c.mode = false) (hc : c.code = 0xF) (hst : d.tileSt c.mode = .online) :
    (tileGo d c).1 = startDrain d c.mode 1 false ∧ (tileGo d c).2.status = c.status := by
  have hgo : tileGo d c = (startDrain d c.mode 1 false, { c with changed := true, steps := [.awaitTile c.mode, .finish] }) := by
    rw [tileGo_settled hstill (by rw [hst]; decide), if_pos hc, tileOfflineGo, if_pos hst]
  rw [hgo]
  generalize startDrain d c.mode _ _ = y
  exact ⟨rfl, rfl⟩

theorem tileGo_online (hstill : d.tileMoving c.mode = false) (hc : c.code = 0x10) (hst : d.tileSt c.mode = .offline) :
    (tileGo d c).1 = d ∧ (tileGo d c).2.status = c.status := by
  rw [tileGo_settled hstill (by rw [hst]; decide), if_neg (by omega), if_pos hc, tileOnlineGo, if_pos hst]
  exact ⟨rfl, rfl⟩

theorem tileGo_retire (hstill : d.tileMoving c.mode = false) (hc : c.code = 0x11) (hst : d.tileSt c.mode = .online) :
    (tileGo d c).1 = startDrain d c.mode 2 true ∧ (tileGo d c).2.status = c.status := by
  have hgo : tileGo d c = (startDrain d c.mode 2 true, { c with changed := true, steps := [.awaitTile c.mode, .finish] }) := by
    rw [tileGo_settled hstill (by rw [hst]; decide), if_neg (by omega), if_neg (by omega), if_pos hc, tileRetireGo, if_pos hst]
  rw [hgo]
  generalize startDrain d c.mode _ _ = y
  exact ⟨rfl, rfl⟩

theorem tileGo_bank (hstill : d.tileMoving c.mode = false) (hc : c.code = 0x12) (hst : d.tileSt c.mode = .online)
    (hfree : (d.tile c.mode).bankWalks.contains c.base = false) :
    (tileGo d c).1 = retireBank d c.mode c.base ∧ (tileGo d c).2.status = c.status := by
  rw [tileGo_settled hstill (by rw [hst]; decide), if_neg (by omega), if_neg (by omega), if_neg (by omega), bankRetireGo]
  dsimp only
  rw [hfree, if_neg Bool.false_ne_true, if_pos hst]
  exact ⟨rfl, rfl⟩

end

-- host programs (R319, R320)

/-- The handle that names a program. -/
theorem holds_iff {y : Engine} {p : Prog} (hp : y.prog = some p) (e : Nat) (h : Word) : y.holds e h = true ↔ h.toNat = e + 32 * p.count.toNat := by
  unfold Engine.holds
  rw [hp]
  dsimp only
  rw [decide_eq_true_iff, fld, Nat.mul_comm]
  rfl

/-- Settles O51, by what each routine makes of its words and what a tile routine then does. -/
theorem tileAndProgramRoutines : Obligations.TileAndProgramRoutines := by
  unfold Obligations.TileAndProgramRoutines
  refine ⟨?_, fun d c hstill => ⟨tileGo_offline hstill, tileGo_online hstill, tileGo_retire hstill, tileGo_bank hstill⟩⟩
  intro s k ws q hws y
  subst hws
  refine ⟨?resign, ?tiles, ?park, ?noPark, ?load, ?run, ?free, ?freeNone⟩
  case resign =>
    rintro a ep h rfl rfl
    exact ⟨fun x hx ha he => onDevice_call (n := fun _ => 2) h (resignGo_attached hx ha he), fun hother => onDevice_call (n := fun _ => 2) h (resignGo_other hother)⟩
  case tiles =>
    rintro c rfl
    exact ⟨fun h => onDevice_call (n := fun _ => 1) h (tileCall_eq _ _ _), fun h => onDevice_call (n := fun _ => 1) h (tileCall_eq _ _ _),
      fun h => onDevice_call (n := fun _ => 1) h (tileCall_eq _ _ _), fun h => onDevice_call (n := fun _ => 2) h (tileCall_eq _ _ _)⟩
  case park => exact fun h hcan => onDevice_call (n := fun _ => 1) h (if_pos hcan)
  case noPark =>
    intro h hcan
    exact onDevice_call (n := fun _ => 1) h (if_neg (Bool.eq_false_iff.mp hcan))
  case load =>
    rintro r h rfl hone hok hcoh hnone
    refine onDevice_call (n := fun _ => 7) h ?_
    have hone' : s.dev.oneEngine { code := 0x14, reply := q, body := s.dev.bodyOf k } = true := hone
    have hprog : (s.dev.engine k.e.val).prog = none := hnone
    unfold progLoadGo
    dsimp only
    rw [hone', hok, hcoh, hprog]
    have hsteps : ∀ c : Call, c.code = 0x14 → rangeSteps c (rangeOf (s.dev.bodyOf k)) = [if (rangeOf (s.dev.bodyOf k)).phys then
        .loads false ((rangeOf (s.dev.bodyOf k)).base / 64) ((rangeOf (s.dev.bodyOf k)).len / 64)
        else .range (rangeOf (s.dev.bodyOf k)).base ((rangeOf (s.dev.bodyOf k)).base + (rangeOf (s.dev.bodyOf k)).len)] := by
      intro c hc
      unfold rangeSteps rangeStep
      cases (rangeOf (s.dev.bodyOf k)).phys with
      | true =>
        dsimp only
        rw [hc]
        rfl
      | false => rfl
    rw [hsteps _ rfl]
    rfl
  case run =>
    rintro v b p h rfl rfl hone hp hh hb
    refine onDevice_call (n := fun _ => 12) h ?_
    have hone' : s.dev.oneEngine { code := 0x15, reply := q, body := s.dev.bodyOf k } = true := hone
    have hprog : (s.dev.engine k.e.val).prog = some p := hp
    unfold progRunGo
    dsimp only
    rw [hone', hprog]
    dsimp only
    rw [(holds_iff hprog _ _).mpr hh, decide_eq_false hb]
    rfl
  case free =>
    intro p h hp hh
    exact onDevice_call (n := fun _ => 1) h (if_pos ((holds_iff hp _ _).mpr hh))
  case freeNone =>
    intro h hp
    have hprog : (s.dev.engine k.e.val).prog = none := hp
    refine onDevice_call (n := fun _ => 1) h ?_
    unfold progFreeGo Engine.holds
    rw [hprog]
    rfl

end Sys2Proof.Machine
end

section
/-! The services of a host program: EXIT, CMO, LABI and LABSYNC. -/

open Sys2Proof

namespace Sys2Proof.Machine

/-- A service of an engine that waits in it runs. -/
theorem onDevice_service {s : State} {e n : Nat} {f : Dev → Dev} (hin : (s.dev.engine e).inService n = true) (hrun : s.dev.quadRuns e = true)
    (hmiss : s.dev.missWaits e = false) : onDevice s (fun d => service d e n f) = .next (s.turned (f s.dev)) := by
  rw [onDevice_turned, service, hin, hrun, hmiss]
  rfl

/-- EXIT ends the run, its words the result. -/
theorem svcExit_engine {d : Dev} {e : Nat} {c : Call} (h : (d.engine e).call = some c) : (svcExit d e).engine e = { (d.engine e).drainNt with
    running := none, sup := true, trans := false, guard := false, intrap := false, wait := .none
    call := some { c with status := 0, words := (List.range 8).map (fun i => (d.engine e).rg i), steps := [.finish] } } := by
  unfold svcExit endRun
  rw [h]
  exact Dev.engine_updEngine _ _ _

-- what the walk of an address leaves of the engine's registers (R321)

/-- The registers of an engine. -/
def Dev.registers (d : Dev) (e : Nat) : Tab Word × Tab Info := ((d.engine e).g, (d.engine e).a)

theorem registers_of_engines {d d' : Dev} (h : d'.engines = d.engines) (e : Nat) : d'.registers e = d.registers e := by
  unfold Dev.registers Dev.engine
  rw [h]

theorem registers_updEngine (d : Dev) (e : Nat) {f : Engine → Engine} (hf : ∀ y, (f y).g = y.g ∧ (f y).a = y.a) : (d.updEngine e f).registers e = d.registers e := by
  unfold Dev.registers
  rw [Dev.engine_updEngine, (hf _).1, (hf _).2]

theorem labLookup_engines (d : Dev) (l : Nat) (view : BitVec 12) (gran : BitVec 2) (va : Nat) (c : Ecc) : (labLookup d l view gran va c).1.engines = d.engines := by
  unfold labLookup
  split
  · rfl
  · dsimp only
    split
    · exact setLab_engines _ _ _
    · simp [setLab_engines]
    · simp [setLab_engines]

theorem mvCheck_registers (d : Dev) (e line : Nat) (c : Ecc) : (mvCheck d e line c).registers e = d.registers e := by
  unfold mvCheck
  split
  · rfl
  · split
    · refine (registers_of_engines ?_ e).trans (registers_updEngine d e (f := fun y => y.dropMview line) (fun y => ⟨rfl, rfl⟩))
      simp only [raise_frame]
    · exact registers_updEngine d e (fun y => ⟨rfl, rfl⟩)

theorem readLine_engines (d : Dev) (line n : Nat) (wrongAddr : Bool) (who : Who) : (readLine d line n wrongAddr who).1.engines = d.engines := by
  unfold readLine
  dsimp only
  split <;> simp [chanEvent, Dev.drawn, repairLater]

theorem handlerRead_registers (d : Dev) (e line : Nat) : (handlerRead d e line).registers e = d.registers e := by
  have hcheck := mvCheck_registers d e line .ok
  unfold handlerRead
  generalize mvCheck d e line .ok = y at hcheck
  dsimp only
  refine (registers_of_engines (d := y) ?_ e).trans hcheck
  have hentries : ∀ z : Dev, (checkEntries z line .ok).engines = z.engines := fun _ => rfl
  split
  · rfl
  · split
    · simp only [count_frame]
    · split
      · split
        · simp only [count_frame, hentries]
        · split <;> simp only [readLine_engines, count_frame, hentries]
      · split
        · simp only [count_frame, hentries]
        · split <;> simp only [readLine_engines, count_frame, hentries]

theorem labwPut_engines (d : Dev) (l : Nat) (view : BitVec 12) (gran : BitVec 2) (vpn : Nat) (p : Pte) (lock : Bool) :
    (labwPut d l view gran vpn p lock).1.engines = d.engines := by
  have hput := labInstall_engines d l view gran vpn p lock
  unfold labwPut
  rcases h : labInstall d l view gran vpn p lock with ⟨d', refused⟩
  rw [h] at hput
  dsimp only
  split
  · simp only [raise_frame]
    exact hput
  · exact hput

theorem setLabres_registers (d : Dev) (e n : Nat) : (setLabres d e n).registers e = d.registers e :=
  registers_updEngine d e (fun _ => ⟨rfl, rfl⟩)

theorem handlerPut_registers (d : Dev) (e l : Nat) (view : BitVec 12) (g n : Nat) (p : Pte) : (handlerPut d e l view g n p).registers e = d.registers e :=
  (setLabres_registers _ e _).trans (registers_of_engines (labwPut_engines d l view (BitVec.ofNat 2 g) n p (p.v && p.lockhint)) e)

/-- The walk of a service's address leaves the engine's registers as they are. -/
theorem svcLine_registers (d : Dev) (e : Nat) : (svcLine d e).1.registers e = d.registers e := by
  unfold svcLine
  dsimp only
  split
  · rfl
  · have hlook := labLookup_engines d (8 + quadOf e) (d.engine e).cview (d.granOf (d.engine e).cview) (2 * waddr ((d.engine e).ra 7)) .ok
    rcases h : labLookup d (8 + quadOf e) (d.engine e).cview (d.granOf (d.engine e).cview) (2 * waddr ((d.engine e).ra 7)) .ok with ⟨d', _ | x⟩
      <;> rw [h] at hlook
    · have hread : ∀ l : List Nat, (d'.each l (handlerRead · e ·)).registers e = d.registers e := fun l =>
        Dev.each_keeps (fun y => y.registers e = d.registers e) d' l _ (registers_of_engines hlook e) (fun y i _ hy => (handlerRead_registers y e i).trans hy)
      dsimp only
      split
      · exact (handlerPut_registers _ _ _ _ _ _ _).trans (hread _)
      · exact hread _
      · exact hread _
    · exact registers_of_engines hlook e

section
variable {d : Dev} {e : Nat} (hroom : (d.engine e).sbFull = false) (hsw : ((d.engine e).rg 0).getLsbD 2 = false)
  (hlegal : cmoIllegal (((d.engine e).rg 0).extractLsb' 0 2) false (((d.engine e).rg 0).getLsbD 3) (((d.engine e).rg 0).getLsbD 4) 0 = false)
include hroom hsw hlegal

/-- A CMO service by address goes where its walk leads. -/
theorem svcCmo_walks {d' : Dev} {x : SvcAddr} (hline : svcLine d e = (d', x)) : svcCmo d e = match x with
    | .here l => d'.updEngine e (fun y =>
        let z := y.enterDrained (entryOf (.cmo (((d.engine e).rg 0).extractLsb' 0 2).toNat (((d.engine e).rg 0).getLsbD 3) (((d.engine e).rg 0).getLsbD 4))
          ((d.engine e).ra 7) l.page [{ line := l.line, data := 0, mask := 0, poison := false, page := l.page }] (decide (d'.limit ≤ l.dpa)) true)
        { z with wait := .svcCmo (z.nextSb - 1) })
    | .fails => svcReturn d' e 1
    | .held => d' := by
  unfold svcCmo
  dsimp only
  rw [hsw, hlegal, hroom, if_neg Bool.false_ne_true, if_neg Bool.false_ne_true, if_neg Bool.false_ne_true]
  split
  · rename_i l h
    obtain ⟨rfl, rfl⟩ := Prod.mk.inj (hline.symm.trans h)
    rfl
  · rename_i h
    obtain ⟨rfl, rfl⟩ := Prod.mk.inj (hline.symm.trans h)
    rfl
  · rename_i h
    obtain ⟨rfl, rfl⟩ := Prod.mk.inj (hline.symm.trans h)
    rfl

end

/-- Settles O52, service by service. -/
theorem programServices : Obligations.ProgramServices := by
  unfold Obligations.ProgramServices
  have hexecX : ∀ s e, exec (.progSvcExit e) s = onDevice s (fun d => service d e.val 0 (fun d => svcExit d e.val)) := fun _ _ => rfl
  have hexecC : ∀ s e, exec (.progSvcCmo e) s = onDevice s (fun d => service d e.val 1 (fun d => svcCmo d e.val)) := fun _ _ => rfl
  have hexecI : ∀ s e, exec (.progSvcLabi e) s = onDevice s (fun d => service d e.val 2 (fun d => svcLabi d e.val)) := fun _ _ => rfl
  have hexecS : ∀ s e, exec (.progSvcLabsync e) s = onDevice s (fun d => service d e.val 3 (fun d => svcLabsync d e.val)) := fun _ _ => rfl
  refine ⟨?_, ?_, ?_, ?_, ?_, ?_⟩
  · rintro s e c hin hrun hmiss hcall d rfl
    rw [svcExit_engine hcall]
    exact ⟨by rw [hexecX, onDevice_service hin hrun hmiss], rfl, rfl, rfl⟩
  · intro s e hin hrun hmiss hill
    rw [hexecC, onDevice_service hin hrun hmiss]
    refine congrArg (fun d => Host.Outcome.next (s.turned d)) ?_
    exact if_pos hill
  · intro s e d l hin hrun hmiss hroom hlegal hsw hline
    rw [hexecC, onDevice_service hin hrun hmiss]
    refine congrArg (fun d => Host.Outcome.next (s.turned d)) ?_
    have hregs := svcLine_registers s.dev e.val
    rw [hline] at hregs
    obtain ⟨hg, ha⟩ := Prod.mk.inj hregs
    have hrg : (d.engine e.val).rg 0 = (s.dev.engine e.val).rg 0 := congrArg (fun t => Tab.get 0 t 0) hg
    have hra : (d.engine e.val).ra 7 = (s.dev.engine e.val).ra 7 := congrArg (fun t => Tab.get 0 t 7) ha
    have hkind : (((s.dev.engine e.val).rg 0).extractLsb' 0 2).toNat = ((s.dev.engine e.val).rg 0).toNat % 4 := by
      rw [BitVec.extractLsb'_toNat, Nat.shiftRight_zero]
    refine (svcCmo_walks hroom hsw hlegal hline).trans (updEngine_congr ?_)
    dsimp only
    rw [hrg, hra, hkind]
  · intro s e d hin hrun hmiss hroom hlegal hsw
    rw [hexecC, onDevice_service hin hrun hmiss]
    exact ⟨fun hline => congrArg (fun d => Host.Outcome.next (s.turned d)) (svcCmo_walks hroom hsw hlegal hline),
      fun hline => congrArg (fun d => Host.Outcome.next (s.turned d)) (svcCmo_walks hroom hsw hlegal hline)⟩
  · intro s e hin hrun hmiss hroom hview vpn hvpn
    rw [hexecI, onDevice_service hin hrun hmiss]
    refine congrArg (fun d => Host.Outcome.next (s.turned d)) ?_
    unfold svcLabi
    dsimp only
    rw [hroom, hview, hvpn]
    rfl
  · intro s e hin hrun hmiss hover
    rw [hexecS, onDevice_service hin hrun hmiss]
    exact congrArg (fun d => Host.Outcome.next (s.turned d)) (if_pos hover)

end Sys2Proof.Machine
end

section
/-! Mailbox commands that only report. -/

open Sys2Proof

namespace Sys2Proof.Machine

/-- A command of an open mailbox completes at once. -/
theorem onDevice_mbx {s : State} {b : Mbx} (h : s.dev.mailboxOpen b = true) (op : Nat) (f : Dev → Dev × Nat × List Nat) :
    onDevice s (fun d => mbx d b op f) = .next (s.turned (mailboxDone (f s.dev).1 b.port.val b.ld.val op (f s.dev).2.1 (f s.dev).2.2)) := by
  rw [onDevice_turned, mbx, if_pos h]

/-- A command of an open mailbox that only reports changes nothing. -/
theorem onDevice_mbxRead {s : State} {b : Mbx} (h : s.dev.mailboxOpen b = true) (op : Nat) (f : Dev → List Nat) :
    onDevice s (fun d => mbxRead d b op f) = .next (s.turned (mailboxDone s.dev b.port.val b.ld.val op 0 (f s.dev))) :=
  onDevice_mbx h op (fun d => (d, 0, f d))

/-- Settles O53: each command is a report of an open mailbox. -/
theorem mailboxReports : Obligations.MailboxReports := by
  unfold Obligations.MailboxReports
  intro s b h p m l
  refine ⟨onDevice_mbxRead h _ _, onDevice_mbxRead h _ _, onDevice_mbxRead h _ _, onDevice_mbxRead h _ _, onDevice_mbxRead h _ _,
    onDevice_mbxRead h _ _, onDevice_mbxRead h _ _, fun a len => onDevice_mbxRead h _ _, onDevice_mbxRead h _ _, onDevice_mbxRead h _ _,
    onDevice_mbxRead h _ _, onDevice_mbxRead h _ _, fun op hop => ?_, fun t ht => ?_⟩
  · have hexec : exec (.mailboxUnsupported b op) s = onDevice s (fun d => if mailboxOps.contains op.toNat then d else mbx d b op.toNat (fun d => (d, 3, []))) := rfl
    rw [hexec, onDevice_turned, hop, if_neg Bool.false_ne_true, mbx, if_pos h]
  · have hexec : exec (.getTimestamp b) t = onDevice t (fun d => mbxRead d b 0x300 (fun d => [d.stamp.toNat])) := rfl
    rw [hexec, onDevice_turned, mbxRead, mbx, if_neg (Bool.eq_false_iff.mp ht)]

end Sys2Proof.Machine
end

section
/-! Mailbox commands that change something. -/

open Sys2Proof

namespace Sys2Proof.Machine

/-- A command that Q0 carries out, over an open mailbox while Q0 runs. -/
theorem onDevice_mbxQ0 {s : State} {b : Mbx} (h : s.dev.mailboxOpen b = true) (hfw : s.dev.glob.fwRunning = true) (hq : s.dev.q0Runs = true)
    (f : Dev → Dev) : onDevice s (fun d => mbxQ0 d b f) = .next (s.turned (f s.dev)) := by
  rw [onDevice_turned, mbxQ0, h, hfw, hq]
  rfl

/-- The count of a timestamp that is set starts there (R434). -/
theorem setStamp_stamp (d : Dev) (v : BitVec 64) : (setStamp d v).stamp = v := BitVec.sub_add_cancel _ _

theorem rewriteLine_mapped {s : State} {b : Mbx} {va dpa : Nat} (hin : s.dev.inService = true) (hva : s.dev.ldDpa b.port.val b.ld.val va = some dpa)
    (h : s.dev.mailboxOpen b = true) (hfw : s.dev.glob.fwRunning = true) (hq : s.dev.q0Runs = true) (op : Nat) (data : Line) (poison : Bool) :
    onDevice s (fun d => rewriteLine d b op va data poison) = .next (s.turned { s.dev with q0work := s.dev.q0work ++ [{
      steps := [.line dpa data poison, .answer op, .finish], port := b.port.val, ld := b.ld.val, base := dpa / 64 * 64 }] }) := by
  refine (onDevice_mbxQ0 h hfw hq _).trans ?_
  dsimp only
  rw [hin, if_pos rfl, hva]

theorem rewriteLine_unmapped {s : State} {b : Mbx} {va : Nat} (hva : s.dev.ldDpa b.port.val b.ld.val va = none)
    (h : s.dev.mailboxOpen b = true) (hfw : s.dev.glob.fwRunning = true) (hq : s.dev.q0Runs = true) (op : Nat) (data : Line) (poison : Bool) :
    onDevice s (fun d => rewriteLine d b op va data poison) = .next (s.turned (mailboxDone s.dev b.port.val b.ld.val op 15 [])) := by
  refine (onDevice_mbxQ0 h hfw hq _).trans ?_
  dsimp only
  rw [hva, ite_self]

theorem dcEvents_ports (d : Dev) (p m : Nat) (xs : List DcExtent) : (d.each xs (fun d x => dcEvent d 432 p m x.region x.base true)).ports = d.ports :=
  Dev.each_keeps (fun y => y.ports = d.ports) d xs _ rfl (fun y x _ hy => by simp only [dcEvent, raise_frame]; exact hy)

/-- The extents an answer names are the LD's, as those it had accepted are; the others are gone. -/
theorem dcResponse_extents (d : Dev) (p m : Nat) (xs : List Extent) : ((dcResponse d p m xs).ld p m).extents
    = ((d.ld p m).extents.filter (fun x => x.accepted || namedIn xs x)).map (fun x => { x with accepted := true }) := by
  have hmarked : ∀ l : List DcExtent, (l.map (fun x => if namedIn xs x then { x with accepted := true } else x)).filter (·.accepted)
      = (l.filter (fun x => x.accepted || namedIn xs x)).map (fun x => { x with accepted := true }) := by
    intro l
    induction l with
    | nil => rfl
    | cons x l ih =>
      rw [List.map_cons]
      cases hn : namedIn xs x with
      | true =>
        rw [if_pos rfl, List.filter_cons_of_pos rfl, List.filter_cons_of_pos (by rw [hn, Bool.or_true]), List.map_cons, ih]
      | false =>
        rw [if_neg Bool.false_ne_true]
        cases ha : x.accepted with
        | true =>
          have hsame : { x with accepted := true } = x := by rw [← ha]
          rw [List.filter_cons_of_pos ha, List.filter_cons_of_pos (by rw [ha, Bool.true_or]), List.map_cons, ih, hsame]
        | false =>
          rw [List.filter_cons_of_neg (by rw [ha]; exact Bool.false_ne_true), List.filter_cons_of_neg (by rw [ha, hn]; exact Bool.false_ne_true), ih]
  unfold dcResponse
  dsimp only
  generalize (d.ld p m).extents.filter _ = taken
  have hports := dcEvents_ports (d.updLd p m (fun l => { l with extents := l.extents.map (fun x => if namedIn xs x then { x with accepted := true } else x) })) p m taken
  generalize Dev.each (d.updLd p m _) taken _ = y at hports
  have hld := ld_of_ports hports p m
  have hdropped := Dev.ld_updLd y p m (fun l => { l with extents := l.extents.filter (·.accepted) })
  have hgone : (withdrawOffers y p m).ld p m = { y.ld p m with extents := (y.ld p m).extents.filter (·.accepted) } := hdropped
  rw [hgone, hld, Dev.ld_updLd]
  exact hmarked _

/-- Settles O54, command by command. -/
theorem mailboxChanges : Obligations.MailboxChanges := by
  unfold Obligations.MailboxChanges
  intro s b h p m l
  refine ⟨fun n hn => ?_, fun n hn => ?_, fun v => onDevice_mbx h _ _, ?_, fun hfw hq => ⟨fun va dpa hin hva => ?_, fun va hva => ?_, fun x y hx => ?_, fun x hx => ?_⟩, ?_⟩
  · refine (onDevice_mbx h _ (fun d => clearRecords d b n)).trans ?_
    unfold clearRecords
    rw [if_neg (Nat.not_lt.mpr hn)]
  · refine (onDevice_mbx h _ (fun d => clearRecords d b n)).trans ?_
    unfold clearRecords
    rw [if_pos hn]
  · rintro v d rfl
    exact ⟨onDevice_mbx h _ (fun d => (setStamp d v, 0, [])), setStamp_stamp _ _, rfl⟩
  · exact ⟨rewriteLine_mapped hin hva h hfw hq _ _ _, fun data => rewriteLine_mapped hin hva h hfw hq _ _ _⟩
  · exact rewriteLine_unmapped hva h hfw hq _ _ _
  · refine (onDevice_mbxQ0 h hfw hq _).trans ?_
    dsimp only
    rw [hx]
  · refine (onDevice_mbxQ0 h hfw hq _).trans ?_
    dsimp only
    rw [hx]
  · rintro xs d rfl
    exact ⟨onDevice_mbx h _ (fun d => (dcResponse d b.port.val b.ld.val xs, 0, [])), dcResponse_mem _ _ _ _, dcResponse_extents _ _ _ _⟩

end Sys2Proof.Machine
end

section
/-! Firmware over the mailbox: transfer, verification and activation. -/

open Sys2Proof

namespace Sys2Proof.Machine

-- slots and commit records (R442, R443)

theorem slot_setSlot (x : Sec) (b : Bool) (f : FwSlot) : (x.setSlot b f).slot b = f := by
  cases b <;> rfl

theorem slot_setSlot_not (x : Sec) (b : Bool) (f : FwSlot) : (x.setSlot (!b) f).slot b = x.slot b := by
  cases b <;> rfl

theorem slot_not_setSlot (x : Sec) (b : Bool) (f : FwSlot) : (x.setSlot b f).slot (!b) = x.slot (!b) := by
  cases b <;> rfl

theorem slot_congr {x y : Sec} (ha : x.slotA = y.slotA) (hb : x.slotB = y.slotB) (b : Bool) : x.slot b = y.slot b := by
  unfold Sec.slot
  rw [ha, hb]

/-- The record a commit writes stands in one of the two sectors. -/
theorem writeCommit_holds (x : Sec) (w : Bool) : ∃ c : CommitRec, ((x.writeCommit w).commit0 = some c ∨ (x.writeCommit w).commit1 = some c)
    ∧ c.counter = (x.counter + 1) % 2 ^ 32 ∧ c.slot = w ∧ c.digest = (x.slot w).whole ∧ c.sealed = c := by
  refine ⟨CommitRec.sealed { counter := (x.counter + 1) % 2 ^ 32, slot := w, digest := (x.slot w).whole, crc := 0 }, ?_, rfl, rfl, rfl, rfl⟩
  unfold Sec.writeCommit Sec.putCommit
  dsimp only
  split
  · exact .inr rfl
  · exact .inl rfl

theorem writeCommit_nextSeq (x : Sec) (w : Bool) : (x.writeCommit w).nextSeq = x.nextSeq := by
  unfold Sec.writeCommit Sec.putCommit
  dsimp only
  split <;> rfl

theorem fwStaged_keeps (d : Dev) (origin : Nat) (b : Bool) (old : BitVec 256) (img : FwImage) :
    (fwStaged d origin b old img).sec.staging = d.sec.staging ∧ (fwStaged d origin b old img).sec.slotA = d.sec.slotA
    ∧ (fwStaged d origin b old img).sec.slotB = d.sec.slotB ∧ d.sec.nextSeq < (fwStaged d origin b old img).sec.nextSeq := by
  unfold fwStaged
  dsimp only
  simp only [raise_frame]
  refine ⟨?_, ?_, ?_, journal_nextSeq d _⟩ <;> simp only [journal_frame]

theorem fwCommitEntry_keeps (d : Dev) (role origin : Nat) : (fwCommitEntry d role origin).sec.committing = d.sec.committing
    ∧ (fwCommitEntry d role origin).sec.committedNotBooted = d.sec.committedNotBooted ∧ (fwCommitEntry d role origin).sec.commit0 = d.sec.commit0
    ∧ (fwCommitEntry d role origin).sec.commit1 = d.sec.commit1 ∧ d.sec.nextSeq < (fwCommitEntry d role origin).sec.nextSeq := by
  unfold fwCommitEntry
  dsimp only
  simp only [raise_frame, Dev.setSec_sec, journalDurable_frame, true_and]
  rw [journalDurable, Dev.setSec_sec, mirrorNext_nextSeq]
  exact journal_nextSeq d _

-- what the commands ask of Q0 (R442, R444)

section
variable {s : State} {b : Mbx} {img : FwImage} (h : s.dev.mailboxOpen b = true) (hfw : s.dev.glob.fwRunning = true) (hq : s.dev.q0Runs = true)
include h hfw hq

/-- A transfer with another change under way is busy. -/
theorem transferFw_busy (hbusy : (s.dev.sec.committedNotBooted || s.dev.sec.staging.isSome || s.dev.sec.committing.isSome) = true) :
    exec (.transferFw b img) s = .next (s.turned (mailboxDone s.dev b.port.val b.ld.val 0x201 6 [])) := by
  refine (onDevice_mbxQ0 h hfw hq _).trans ?_
  dsimp only
  rw [if_pos hbusy]

theorem activateFw_busy (hbusy : (s.dev.sec.committedNotBooted || s.dev.sec.staging.isSome || s.dev.sec.committing.isSome) = true) :
    exec (.activateFw b false) s = .next (s.turned (mailboxDone s.dev b.port.val b.ld.val 0x202 6 [])) := by
  refine (onDevice_mbxQ0 h hfw hq _).trans ?_
  dsimp only
  rw [if_neg Bool.false_ne_true, if_pos hbusy]

variable (hboot : s.dev.sec.committedNotBooted = false) (hstage : s.dev.sec.staging = none) (hcommit : s.dev.sec.committing = none)
include hboot hstage hcommit

/-- A transfer with no other change under way goes by the image's header and number. -/
theorem transferFw_free : exec (.transferFw b img) s = .next (s.turned (
    if !headerOk img then mailboxDone s.dev b.port.val b.ld.val 0x201 2 []
    else if img.svn < s.dev.sec.floor then mailboxDone (authFail s.dev 0 5 {} (originField (.host b.port b.ld)) false img.digest) b.port.val b.ld.val 0x201 0xA []
    else mailboxDone (s.dev.setSec (fun x => { x.setSlot (!x.namedSlot) {} with staging := some {
      slot := !x.namedSlot, img := img, old := (x.slot (!x.namedSlot)).digest, origin := BitVec.ofNat 16 (originField (.host b.port b.ld)) } }))
      b.port.val b.ld.val 0x201 0 [])) := by
  refine (onDevice_mbxQ0 h hfw hq _).trans ?_
  dsimp only
  rw [hboot, hstage, hcommit]
  rfl

theorem activateFw_free (hvalid : (s.dev.sec.slot (!s.dev.sec.namedSlot)).valid = true) :
    exec (.activateFw b false) s = .next (s.turned (s.dev.setSec (fun x => { x.eraseSpare with
      committing := some (!s.dev.sec.namedSlot, BitVec.ofNat 16 (originField (.host b.port b.ld))) }))) := by
  refine (onDevice_mbxQ0 h hfw hq _).trans ?_
  dsimp only
  rw [hboot, hstage, hcommit, hvalid]
  rfl

end

/-- An image that has been checked stands in its slot, valid or not. -/
theorem stageVerified_stands {d : Dev} {t : Staging} (ht : d.sec.staging = some t) (hq : d.q0Runs = true) (ok : Bool) :
    stageVerified d ok = if ok && d.sec.signerHeld t.img then
        fwStaged (d.setSec (fun x => { x.setSlot t.slot { img := some t.img, valid := true } with staging := none })) t.origin.toNat t.slot t.old t.img
      else d.setSec (fun x => { x.setSlot t.slot { img := some t.img, valid := false } with staging := none }) := by
  unfold stageVerified
  rw [ht]
  dsimp only
  rw [hq]
  cases ok && d.sec.signerHeld t.img <;> rfl

/-- Settles O55, command by command. -/
theorem firmwareCommands : Obligations.FirmwareCommands := by
  unfold Obligations.FirmwareCommands
  have hexecV : ∀ s ok, exec (.fwStageVerifyDone ok) s = onDevice s (fun d => stageVerified d ok) := fun _ _ => rfl
  have hexecC : ∀ s, exec .fwCommitWriteDone s = onDevice s commitWritten := fun _ => rfl
  refine ⟨?_, ?_, ?_, ?_, ?_, ?_⟩
  · intro s b img h hfw hq hboot hstage hcommit
    refine ⟨?_, ?_, ?_⟩
    · rintro hhead hfloor d rfl
      rw [transferFw_free h hfw hq hboot hstage hcommit, hhead]
      exact ⟨congrArg (fun d => Host.Outcome.next (s.turned d)) (if_neg (BitVec.not_lt.mpr hfloor)), slot_setSlot _ _ _, slot_setSlot_not _ _ _, rfl⟩
    · rintro hhead hfloor d rfl
      rw [transferFw_free h hfw hq hboot hstage hcommit, hhead]
      refine ⟨congrArg (fun d => Host.Outcome.next (s.turned d)) (if_pos hfloor), ?_, ?_, ?_⟩
      · rw [authFail]
        simpa using hstage
      · simp [authFail]
      · simp [authFail]
    · intro hhead
      rw [transferFw_free h hfw hq hboot hstage hcommit, hhead]
      rfl
  · intro s b img h hfw hq hbusy
    have hbusy' : (s.dev.sec.committedNotBooted || s.dev.sec.staging.isSome || s.dev.sec.committing.isSome) = true := by
      rw [Bool.or_eq_true, Bool.or_eq_true, or_assoc]
      exact hbusy
    exact ⟨transferFw_busy h hfw hq hbusy', activateFw_busy h hfw hq hbusy'⟩
  · rintro s t ht hheld hq d rfl
    refine ⟨by rw [hexecV, onDevice_turned], ?_⟩
    rw [stageVerified_stands ht hq, hheld, Bool.and_self, if_pos rfl]
    obtain ⟨hstaging, ha, hb, hseq⟩ := fwStaged_keeps
      (s.dev.setSec (fun x => { x.setSlot t.slot { img := some t.img, valid := true } with staging := none })) t.origin.toNat t.slot t.old t.img
    refine ⟨hstaging, (slot_congr ha hb _).trans (slot_setSlot s.dev.sec _ _), (slot_congr ha hb _).trans (slot_not_setSlot s.dev.sec _ _), ?_⟩
    refine lt_of_eq_of_lt ?_ hseq
    cases t.slot <;> rfl
  · intro s t ok ht hbad hq
    rw [hexecV, onDevice_turned, stageVerified_stands ht hq, hbad, if_neg Bool.false_ne_true]
  · intro s b h hfw hq hboot hstage hcommit hvalid
    refine ⟨activateFw_free h hfw hq hboot hstage hcommit hvalid, ?_⟩
    exact onDevice_mbxQ0 h hfw hq _
  · rintro s w o hcommit hq d rfl
    obtain ⟨hnone, hboot, h0, h1, hseq⟩ := fwCommitEntry_keeps
      (s.dev.setSec (fun x => { x.writeCommit w with committing := none, committedNotBooted := true })) 3 o.toNat
    obtain ⟨c, hc, hcounter, hslot, hdigest, hsealed⟩ := writeCommit_holds s.dev.sec w
    refine ⟨?_, hnone, hboot, ⟨c, ?_, hcounter, hslot, hdigest, hsealed⟩, lt_of_eq_of_lt ?_ hseq⟩
    · have hlow : bits o.toNat 2 0 = o.toNat % 8 := bits_low _ _
      have hhigh : bits o.toNat 6 3 = o.toNat / 8 % 16 := bits_field _ 6 3 4 rfl
      rw [hexecC, onDevice_turned, commitWritten, hcommit, ← hlow, ← hhigh]
      dsimp only
      rw [hq]
      rfl
    · rw [h0, h1]
      exact hc
    · exact (writeCommit_nextSeq s.dev.sec w).symm

end Sys2Proof.Machine
end

section
/-! Installation packages: delivery, check, write and commit. -/

open Sys2Proof

namespace Sys2Proof.Machine

-- what an answer leaves alone

theorem mailboxDone_keeps (d : Dev) (p m op code : Nat) (payload : List Nat) : (mailboxDone d p m op code payload).sec = d.sec
    ∧ (mailboxDone d p m op code payload).glob = d.glob ∧ (mailboxDone d p m op code payload).out = d.out ++ [.mailbox p m op code payload] := by
  unfold mailboxDone
  refine ⟨?_, ?_, ?_⟩ <;> simp [emit]

theorem replyTo_keeps (d : Dev) (b : Option Mbx) (op code : Nat) (payload : List Nat) : (replyTo d b op code payload).sec = d.sec
    ∧ (replyTo d b op code payload).glob = d.glob
    ∧ ∀ x, b = some x → (replyTo d b op code payload).out = d.out ++ [.mailbox x.port.val x.ld.val op code payload] := by
  cases b with
  | none => exact ⟨rfl, rfl, fun x h => absurd h.symm (Option.some_ne_none x)⟩
  | some y =>
    obtain ⟨hsec, hglob, hout⟩ := mailboxDone_keeps d y.port.val y.ld.val op code payload
    exact ⟨hsec, hglob, fun x h => Option.some.inj h ▸ hout⟩

-- the key a package was authorised under (R432)

theorem ringPut_pkgKey (d : Dev) (e : JEntry) : (ringPut d e).sec.pkgKey = d.sec.pkgKey := by
  unfold ringPut
  dsimp only
  split <;> simp

theorem mirrorNext_pkgKey (s : Sec) (k : Nat) : (s.mirrorNext k).pkgKey = s.pkgKey := by
  have hfold : ∀ (l : List JEntry) (s : Sec), (l.foldl Sec.mirrorOne s).pkgKey = s.pkgKey := by
    intro l
    induction l with
    | nil => exact fun _ => rfl
    | cons e l ih => exact fun s => ih (s.mirrorOne e)
  exact hfold _ s

theorem repeatCommit_pkgKey (d : Dev) : (repeatCommit d).sec.pkgKey = d.sec.pkgKey := by
  unfold repeatCommit
  split
  · simp only [raise_frame, Dev.setSec_sec, mirrorNext_pkgKey, ringPut_pkgKey]
  · rfl

theorem installerKey_congr {x y : Sec} (hi : x.installer = y.installer) (hf : x.fused = y.fused) : x.installerKey = y.installerKey := by
  unfold Sec.installerKey Sec.makerKey
  rw [hi, hf]

theorem journalDurable_keys (d : Dev) (c : Change) : (journalDurable d c).sec.pkgKey = d.sec.pkgKey
    ∧ (journalDurable d c).sec.installerKey = d.sec.installerKey := by
  refine ⟨?_, ?_⟩
  · rw [journalDurable, Dev.setSec_sec, mirrorNext_pkgKey, journal, ringPut_pkgKey, repeatCommit_pkgKey]
  · exact installerKey_congr (by simp only [journalDurable_frame]) (by simp only [journalDurable_frame])

theorem journalDurable_nextSeq (d : Dev) (c : Change) : d.sec.nextSeq < (journalDurable d c).sec.nextSeq := by
  rw [journalDurable, Dev.setSec_sec, mirrorNext_nextSeq]
  exact journal_nextSeq d _

-- delivery (R388, R440)

/-- A well-formed piece reaches Q0. -/
theorem deliver_reaches {s : State} {b : Option Mbx} {e : BitVec 8} {last : Option (Package × Signed)} {sig : Bool}
    (hwf : (Instr.packageDeliver b e last sig).wf = true) (hway : s.dev.packageWay b = true) :
    exec (.packageDeliver b e last sig) s = .next (s.turned (deliverPiece s.dev b e last sig)) := by
  have hexec : exec (.packageDeliver b e last sig) s = if (Instr.packageDeliver b e last sig).wf then
    onDevice s (fun d => packageDelivered d b e last sig) else .fault .illFormed := rfl
  rw [hexec, if_pos hwf, onDevice_turned]
  exact congrArg (fun d => Host.Outcome.next (s.turned d)) (if_pos hway)

/-- A delivery that another holds, or that is checked, is busy. -/
theorem deliverPiece_busy {d : Dev} {b : Option Mbx} {e : BitVec 8} (h : d.deliveryBusy b e = true) (last : Option (Package × Signed)) (sig : Bool) :
    deliverPiece d b e last sig = replyTo d b 0xC000 6 [] := if_pos h

/-- A delivery is busy to another sender, and to another endpoint of the management port. -/
theorem deliveryBusy_receiving {d : Dev} {b who : Option Mbx} {e k : BitVec 8} (hd : d.sec.delivery = .receiving who k)
    (h : who ≠ b ∨ b = none ∧ k ≠ e) : d.deliveryBusy b e = true := by
  unfold Dev.deliveryBusy
  rw [hd]
  refine Bool.or_eq_true_iff.mpr ?_
  obtain hwho | ⟨rfl, hk⟩ := h
  · exact .inl (bne_iff_ne.mpr hwho)
  · exact .inr (bne_iff_ne.mpr hk)

/-- A first piece reserves the delivery. -/
theorem deliverPiece_first {d : Dev} (h : d.sec.delivery = .idle) (b : Option Mbx) (e : BitVec 8) (sig : Bool) :
    deliverPiece d b e none sig = replyTo (d.setSec (fun x => { x with delivery := .receiving b e })) b 0xC000 0 [] := by
  have hfree : d.deliveryBusy b e = false := by
    unfold Dev.deliveryBusy
    rw [h]
  exact if_neg (Bool.eq_false_iff.mp hfree)

-- the check (R386, R430, R440)

/-- A package whose request, at the front, passes every check is written. -/
theorem packageVerified_accepts {d : Dev} {b : Option Mbx} {p : Package} {q : Signed} (hst : d.glob.dev = .service ∨ d.glob.dev = .held)
    (hkey : d.sec.installerKey ≠ none) (hver : d.authVerifies p q = true) (hp : packageChecked p = true) (hgen : d.sec.lastGen < p.generation) :
    packageVerified d b p q true true = d.setSec (fun x => { x with
      lastCheck := 0, delivery := .writing p (BitVec.ofNat 16 (mbxOrigin b)), pkg := some p, pkgPart := true, pkgCommitted := false
      pkgKey := x.installerKey }) := by
  have hstate : (d.glob.dev != .service && d.glob.dev != .held) = false := by
    obtain h | h := hst <;> rw [h] <;> rfl
  have hsome : d.sec.installerKey.isNone = false := by
    rw [Option.isNone_eq_false_iff]
    exact Option.isSome_iff_ne_none.mpr hkey
  have hauth : d.authReason true true = 0 := by
    unfold Dev.authReason
    rw [hsome]
    rfl
  have hcause : d.deliveryCause p true 0 = 0 := by
    unfold Dev.deliveryCause
    rw [hsome, hp, decide_eq_false (BitVec.not_le.mpr hgen)]
    rfl
  unfold packageVerified
  dsimp only
  rw [hstate, hver, hauth, hcause]
  rfl

theorem packageRefused_keeps (d : Dev) (reason origin : Nat) (mgmt : Bool) (p : Package) (q : Signed) :
    (packageRefused d reason origin mgmt p q).sec.delivery = d.sec.delivery ∧ (packageRefused d reason origin mgmt p q).sec.lastCheck = d.sec.lastCheck
    ∧ (packageRefused d reason origin mgmt p q).sec.pkg = d.sec.pkg ∧ (packageRefused d reason origin mgmt p q).sec.pkgCommitted = d.sec.pkgCommitted
    ∧ (packageRefused d reason origin mgmt p q).sec.requests = d.sec.requests ∧ (packageRefused d reason origin mgmt p q).out = d.out
    ∧ (packageRefused d reason origin mgmt p q).mem = d.mem := by
  unfold packageRefused authFail
  refine ⟨?_, ?_, ?_, ?_, ?_, ?_, ?_⟩ <;> simp

/-- A package without a current nonce is refused in a state that takes packages. -/
theorem packageVerified_stale {d : Dev} {b : Option Mbx} {p : Package} {q : Signed} {sig : Bool} (hst : d.glob.dev = .service ∨ d.glob.dev = .held) :
    packageVerified d b p q sig false = packageFails (packageRefused (d.setSec (fun x => { x with lastCheck := 2 })) 2 (mbxOrigin b) b.isNone p q) b := by
  have hstate : (d.glob.dev != .service && d.glob.dev != .held) = false := by
    obtain h | h := hst <;> rw [h] <;> rfl
  have hauth : d.authReason false (d.authVerifies p q) = 2 := rfl
  have hcause : d.deliveryCause p sig 2 = 2 := by
    unfold Dev.deliveryCause
    refine if_pos ?_
    rw [decide_eq_true (show (2 : Nat) ≠ 0 by decide), Bool.or_true]
  unfold packageVerified
  dsimp only
  rw [hstate, hauth, hcause]
  rfl

/-- A delivery that is checked ends where its nonce is not current, and the package stays. -/
theorem packageVerified_stale_ends {d : Dev} (b : Mbx) (p : Package) (q : Signed) (sig : Bool) (hst : d.glob.dev = .service ∨ d.glob.dev = .held)
    (hchecking : d.sec.delivery = .checking) : (packageVerified d (some b) p q sig false).sec.delivery = .idle
    ∧ (packageVerified d (some b) p q sig false).sec.lastCheck = 2 ∧ (packageVerified d (some b) p q sig false).sec.pkg = d.sec.pkg
    ∧ (packageVerified d (some b) p q sig false).sec.pkgCommitted = d.sec.pkgCommitted
    ∧ (packageVerified d (some b) p q sig false).sec.requests = d.sec.requests
    ∧ (packageVerified d (some b) p q sig false).out = d.out ++ [.mailbox b.port.val b.ld.val 0xC000 2 []]
    ∧ (packageVerified d (some b) p q sig false).mem = d.mem := by
  rw [packageVerified_stale hst]
  obtain ⟨hdelivery, hcheck, hpkg, hcommitted, hrequests, hout, hmem⟩ := packageRefused_keeps
    (d.setSec (fun x => { x with lastCheck := 2 })) 2 (mbxOrigin (some b)) (some b).isNone p q
  generalize packageRefused _ 2 (mbxOrigin (some b)) (some b).isNone p q = z at hdelivery hcheck hpkg hcommitted hrequests hout hmem
  obtain ⟨hsec, _, hmsg⟩ := mailboxDone_keeps (z.setSec (fun x => { x with delivery := if x.delivery = .checking then .idle else x.delivery }))
    b.port.val b.ld.val 0xC000 2 []
  have hfails : packageFails z (some b) = mailboxDone (z.setSec (fun x => { x with
    delivery := if x.delivery = .checking then .idle else x.delivery })) b.port.val b.ld.val 0xC000 2 [] := rfl
  rw [hfails, hsec, hmsg, mailboxDone_mem]
  exact ⟨if_pos (hdelivery.trans hchecking), hcheck, hpkg, hcommitted, hrequests, congrArg (· ++ _) hout, hmem⟩

-- the commit (R388, R436, R440)

theorem flashFails_keeps (d : Dev) : (flashFails d).sec = { d.sec with mirrorFault := true } ∧ (flashFails d).out = d.out := by
  unfold flashFails
  refine ⟨?_, ?_⟩ <;> simp

/-- The journal entry of a package's commit (R433 action 6). -/
def commitEntry (d : Dev) (p : Package) (o : BitVec 16) : Change :=
  { role := 2, action := 6, origin := o.toNat, target := p.generation.toNat, keyid := keyId d.sec.pkgKey
    old := match d.sec.inForce with
      | some k => k.digest.setWidth 256
      | none => 0
    new := p.digest.setWidth 256 }

/-- A written package is committed once its entry is in flash. -/
theorem packageCommitted_writes {d : Dev} {p : Package} {o : BitVec 16} (hd : d.sec.delivery = .writing p o) (hst : d.glob.dev ≠ .held) (hq : d.q0Runs = true) :
    packageCommitted d true = replyTo (raise ((journalDurable d (commitEntry d p o)).setSec (fun x => { x with
      pkg := some p, pkgPart := false, kPkgDigest := if x.pkgKey = x.installerKey then some p.digest else none, pkgCommitted := true
      lastGen := p.generation, delivery := .idle })) 510 6 1 (info p.generation.toNat)) (originMbx o) 0xC000 0 [] := by
  have hheld : (d.glob.dev == .held) = false := beq_eq_false_iff_ne.mpr hst
  unfold packageCommitted
  rw [hd]
  dsimp only
  rw [hq, hheld]
  rfl

/-- The committed package is in its place, journalled and answered, and nothing else of the device state or memory moves. -/
theorem packageCommitted_ends {d : Dev} {p : Package} {o : BitVec 16} (hd : d.sec.delivery = .writing p o) (hst : d.glob.dev ≠ .held) (hq : d.q0Runs = true) :
    (packageCommitted d true).sec.delivery = .idle ∧ (packageCommitted d true).sec.pkg = some p ∧ (packageCommitted d true).sec.pkgCommitted = true
    ∧ (packageCommitted d true).sec.lastGen = p.generation ∧ (packageCommitted d true).glob = d.glob ∧ (packageCommitted d true).mem = d.mem
    ∧ d.sec.nextSeq < (packageCommitted d true).sec.nextSeq
    ∧ (packageCommitted d true).sec.kPkgDigest = (if d.sec.pkgKey = d.sec.installerKey then some p.digest else none)
    ∧ ∀ b, originMbx o = some b → (packageCommitted d true).out = d.out ++ [.mailbox b.port.val b.ld.val 0xC000 0 []] := by
  rw [packageCommitted_writes hd hst hq]
  obtain ⟨hpkgKey, hinstaller⟩ := journalDurable_keys d (commitEntry d p o)
  have hseq := journalDurable_nextSeq d (commitEntry d p o)
  have hglob : (journalDurable d (commitEntry d p o)).glob = d.glob := by simp only [journalDurable_frame]
  have hmem : (journalDurable d (commitEntry d p o)).mem = d.mem := by simp only [journalDurable_frame]
  have hout : (journalDurable d (commitEntry d p o)).out = d.out := by simp only [journalDurable_frame]
  generalize journalDurable d (commitEntry d p o) = z at hpkgKey hinstaller hseq hglob hout hmem
  generalize hw : z.setSec _ = y
  obtain ⟨hsec, hglob', hmsg⟩ := replyTo_keeps (raise y 510 6 1 (info p.generation.toNat)) (originMbx o) 0xC000 0 []
  have hsec' : (replyTo (raise y 510 6 1 (info p.generation.toNat)) (originMbx o) 0xC000 0 []).sec = y.sec := by
    rw [hsec]
    simp only [raise_frame]
  have hg : (raise y 510 6 1 (info p.generation.toNat)).glob = y.glob := by simp only [raise_frame]
  have ho : (raise y 510 6 1 (info p.generation.toNat)).out = y.out := by simp only [raise_frame]
  have hm : (replyTo (raise y 510 6 1 (info p.generation.toNat)) (originMbx o) 0xC000 0 []).mem = y.mem := by
    rw [replyTo_mem]
    simp only [raise_frame]
  rw [hsec', hglob', hg, hm]
  subst hw
  refine ⟨rfl, rfl, rfl, rfl, hglob, hmem, hseq, ?_, fun b hb => (hmsg b hb).trans (congrArg (· ++ _) (ho.trans hout))⟩
  dsimp only [Dev.setSec]
  rw [hpkgKey]
  exact if_congr (by rw [← hinstaller]) rfl rfl

/-- Settles O56, from a package's first piece to its commit. -/
theorem packageCommands : Obligations.PackageCommands := by
  unfold Obligations.PackageCommands
  have hexecV : ∀ s, exec .signatureVerifyDone s = onDevice s signatureVerified := fun _ => rfl
  have hexecC : ∀ s ok, exec (.packageCommit ok) s = onDevice s (fun d => packageCommitted d ok) := fun _ _ => rfl
  refine ⟨?_, ?_, ?_, ?_, ?_, ?_, ?_, ?_, ?_, ?_, ?_⟩
  · intro s b e sig hway hidle
    rw [deliver_reaches rfl hway, deliverPiece_first hidle]
    rfl
  · intro s e sig hway hidle
    rw [deliver_reaches rfl hway, deliverPiece_first hidle]
    rfl
  · intro s b e k sig who hway hd hwho
    have hbusy := deliveryBusy_receiving (b := some b) (e := e) hd (.inl hwho)
    rw [deliver_reaches rfl hway, deliverPiece_busy hbusy]
    rfl
  · intro s e k sig hway hd hk
    have hbusy := deliveryBusy_receiving (b := none) (e := e) hd (.inr ⟨rfl, hk⟩)
    rw [deliver_reaches rfl hway, deliverPiece_busy hbusy]
    rfl
  · intro s b e sig hway hd
    have hbusy : s.dev.deliveryBusy (some b) e = true := by
      unfold Dev.deliveryBusy
      rw [hd]
    rw [deliver_reaches rfl hway, deliverPiece_busy hbusy]
    rfl
  · intro s p q b e k sig hway hwf hd
    have hfree : s.dev.deliveryBusy (some b) e = false := by
      unfold Dev.deliveryBusy
      rw [hd]
      exact Bool.or_eq_false_iff.mpr ⟨bne_self_eq_false _, rfl⟩
    rw [deliver_reaches hwf hway, deliverPiece, hfree]
    rfl
  · intro s p q b rest hr hd hq hst hkey hver hp hgen hn
    have htaken := packageVerified_accepts (d := s.dev.setSec (fun x => { x with nonces := x.nonces.filter (fun n => n.handle != q.handle), requests := rest }))
      (b := b) hst hkey hver hp hgen
    rw [hexecV, onDevice_turned, signatureVerified_front hr hd hq, hn, requestTaken, htaken]
    rfl
  · rintro s p q b sig rest hr hd hq hst hchecking hn d rfl
    refine ⟨by rw [hexecV, onDevice_turned], ?_⟩
    rw [signatureVerified_front hr hd hq, hn, requestTaken]
    exact packageVerified_stale_ends (d := s.dev.setSec (fun x => { x with nonces := x.nonces.filter (fun n => n.handle != q.handle), requests := rest }))
      b p q sig hst hchecking
  · rintro s p o hd hst hq d rfl
    refine ⟨by rw [hexecC, onDevice_turned], ?_⟩
    exact packageCommitted_ends hd hst hq
  · rintro s p o hd hq d rfl
    refine ⟨?_, ?_⟩
    · rw [hexecC, onDevice_turned, packageCommitted, hd]
      dsimp only
      rw [hq]
      rfl
    · obtain ⟨hsec, _, hout⟩ := replyTo_keeps (flashFails (s.dev.setSec (fun x => { x with delivery := .idle, pkgPart := false, lastCheck := 5 })))
        (originMbx o) 0xC000 4 []
      obtain ⟨hsec', hout'⟩ := flashFails_keeps (s.dev.setSec (fun x => { x with delivery := .idle, pkgPart := false, lastCheck := 5 }))
      rw [commitFails, hsec, hsec']
      exact ⟨rfl, rfl, rfl, rfl, rfl, rfl, fun b hb => (hout b hb).trans (congrArg (· ++ _) hout')⟩
  · rintro s b n hway r rfl
    have hexec : exec (.packageStatus (some b) n) s = onDevice s (fun d => if d.packageWay (some b) then
      replyTo (issueNonce d n).1 (some b) 0xC001 0 [(issueNonce d n).1.sec.lastCheck.toNat, (issueNonce d n).2.toNat, n.toNat] else d) := rfl
    refine ⟨?_, issueNonce_held s.dev n⟩
    rw [hexec, onDevice_turned, if_pos hway]
    rfl

end Sys2Proof.Machine
end

section
/-! The FM-owned LD, DOE and the SPDM responder. -/

open Sys2Proof

namespace Sys2Proof.Machine

-- the FM-owned LD (R42)

theorem fmAnswer_up {d : Dev} {p : Nat} (hup : d.portUp p = true) (hph : d.glob.resetPhase = .none) (f : Dev → Dev × List Nat) :
    fmAnswer d p f = emit (f d).1 (.fm p (f d).2) := by
  unfold fmAnswer
  rw [hup, hph]
  rfl

/-- What setting shares leaves of a device: everything but the shares of one port's LDs. -/
structure SharesOnly (p : Nat) (d x : Dev) : Prop where
  lds : ∀ m, { x.ld p m with share := (d.ld p m).share } = d.ld p m
  port : { x.port p with lds := (d.port p).lds } = d.port p
  others : ∀ n, n ≠ p → x.port n = d.port n
  rest : { x with ports := d.ports } = d

theorem SharesOnly.updLd {p : Nat} {d x : Dev} (h : SharesOnly p d x) (m : Nat) (b : BitVec 8) :
    SharesOnly p d (x.updLd p m (fun l => { l with share := b })) where
  lds k := by
    by_cases hk : k = m
    · rw [hk, Dev.ld_updLd]
      exact h.lds m
    · rw [Dev.ld_updLd_other _ _ (.inr hk)]
      exact h.lds k
  port := by
    unfold Dev.updLd
    rw [Dev.port_updPort]
    exact h.port
  others n hn := (Dev.port_updPort_other _ _ hn).trans (h.others n hn)
  rest := h.rest

theorem setShares_only (d : Dev) (p : Nat) (sh : List (BitVec 8)) : SharesOnly p d (setShares d p sh) :=
  Dev.each_keeps (SharesOnly p d) d _ _ ⟨fun _ => rfl, rfl, fun _ _ => rfl, rfl⟩ (fun _ m _ hx => hx.updLd m (sh.getD m 0))

theorem setShares_share (d : Dev) (p : Nat) (sh : List (BitVec 8)) {m : Nat} (hm : m < d.ldsOf p) :
    ((setShares d p sh).ld p m).share = sh.getD m 0 := by
  refine Dev.each_sets (fun x => (x.ld p m).share = sh.getD m 0) d _ (List.mem_range.2 hm) (fun x => ?_) (fun x k hx => ?_)
  · rw [Dev.ld_updLd]
  · by_cases hk : m = k
    · rw [hk, Dev.ld_updLd]
    · rw [Dev.ld_updLd_other _ _ (.inr hk)]
      exact hx

/-- An LD that a port has takes its share and keeps everything else. -/
theorem setShares_ld (d : Dev) (p : Nat) (sh : List (BitVec 8)) {m : Nat} (hm : m < d.ldsOf p) :
    (setShares d p sh).ld p m = { d.ld p m with share := sh.getD m 0 } := by
  have hrest := (setShares_only d p sh).lds m
  have hshare := setShares_share d p sh hm
  calc (setShares d p sh).ld p m
      = { ({ (setShares d p sh).ld p m with share := (d.ld p m).share } : Ld) with share := ((setShares d p sh).ld p m).share } := rfl
    _ = { d.ld p m with share := sh.getD m 0 } := by rw [hrest, hshare]

/-- An LD that a port does not have is as before. -/
theorem setShares_ld_above (d : Dev) (p : Nat) (sh : List (BitVec 8)) {m : Nat} (hm : d.ldsOf p ≤ m) :
    (setShares d p sh).ld p m = d.ld p m := by
  refine Dev.each_keeps (fun x => x.ld p m = d.ld p m) d _ _ rfl (fun x k hk hx => ?_)
  have hne : m ≠ k := fun h => absurd (h ▸ List.mem_range.1 hk) (Nat.not_lt.2 hm)
  exact (Dev.ld_updLd_other _ _ (.inr hne)).trans hx

-- DOE (R50)

theorem doeDone_discovery (d : Dev) (p m : Nat) (payload : List Nat) :
    doeDone d p m 0 payload = raise (emit d (.doe p m payload)) (8 * p + 6) 0 0 (info 16) := rfl

theorem doeDone_cdat (d : Dev) (p m : Nat) (payload : List Nat) :
    doeDone d p m 2 payload = raise (emit d (.doe p m payload)) (8 * p + 6) 0 0 (info 80) := rfl

-- the responder (R446, R447)

/-- Over MCTP the answer alone goes out. -/
theorem spdmSend_mctp (d : Dev) (c : Nat) (args : List Nat) (b : Bool) : (spdmSend d ⟨.mctp, c, args, b⟩).out
    = d.out ++ [.spdm .mctp (d.spdmAnswer ⟨.mctp, c, args, b⟩).1 (d.spdmAnswer ⟨.mctp, c, args, b⟩).2] := rfl

/-- A request that needs no signature, with none before it, is answered at once. -/
theorem spdmRequest_unsigned {d : Dev} (hway : d.spdmWay .mctp = true) (hempty : d.sec.spdm = []) (c : Nat) (args : List Nat) :
    (spdmRequest d ⟨.mctp, c, args, false⟩).sec.spdm = []
    ∧ (spdmRequest d ⟨.mctp, c, args, false⟩).out
      = d.out ++ [.spdm .mctp (d.spdmAnswer ⟨.mctp, c, args, false⟩).1 (d.spdmAnswer ⟨.mctp, c, args, false⟩).2] := by
  have hpump : spdmRequest d ⟨.mctp, c, args, false⟩ = (spdmSend d ⟨.mctp, c, args, false⟩).setSec (fun s => { s with spdm := [] }) := by
    unfold spdmRequest
    rw [if_pos hway, hempty]
    rfl
  rw [hpump]
  exact ⟨rfl, spdmSend_mctp d c args false⟩

/-- A request that needs a signature, with none before it, waits for it. -/
theorem spdmRequest_signed {d : Dev} {q : SpdmReq} (hway : d.spdmWay q.src = true) (hempty : d.sec.spdm = []) (hq : q.signed = true) :
    spdmRequest d q = d.setSec (fun x => { x with spdm := [q] }) := by
  unfold spdmRequest
  rw [if_pos hway, hempty]
  exact if_pos hq

/-- The signature the only request waits for is made: it is answered and none waits. -/
theorem spdmSigned_only {d : Dev} {q : SpdmReq} (hrun : d.q0Runs = true) (hq : d.sec.spdm = [q]) (hsig : q.signed = true) :
    spdmSigned d = (spdmSend d q).setSec (fun s => { s with spdm := [] }) := by
  unfold spdmSigned
  rw [hq]
  dsimp only
  rw [hsig, hrun]
  rfl

/-- A certificate slot answers its chain, and a slot there is none of an error. -/
theorem spdmAnswer_certificate (d : Dev) (slot : Nat) : d.spdmAnswer ⟨.mctp, 0x82, [slot], false⟩
    = if slot < 2 then (0x02, [Config.certChain (d.sec.identity.getD 0) (d.slotKey slot)]) else (spdmError, []) := rfl

/-- Measurements without a signature. -/
theorem spdmAnswer_measured (d : Dev) {i : Nat} (slot : Nat) (hi : i ≤ 9) :
    d.spdmAnswer ⟨.mctp, 0xE0, [i, slot, 0], false⟩ = (0x60, d.measured i) := by
  have hno : ¬((9 < i ∧ i ≠ 0xFF) ∨ ((0 : Nat) = 1 ∧ 2 ≤ slot)) := by omega
  exact (if_neg hno).trans (congrArg (Prod.mk 0x60) (List.append_nil _))

/-- Settles O57, from what the answers of each mailbox are, one induction over the LDs whose share is set, and the responder's queue of
one request. -/
theorem fmDoeAndSpdmCommands : Obligations.FmDoeAndSpdmCommands := by
  unfold Obligations.FmDoeAndSpdmCommands
  refine ⟨?_, ?_, ?_, ?_, ?_, ?_, ?_, ?_⟩
  · intro s p hup hph
    refine ⟨?_, ?_, ?_⟩
    · exact congrArg (fun d => Host.Outcome.next (s.turned d)) (fmAnswer_up hup hph _)
    · exact congrArg (fun d => Host.Outcome.next (s.turned d)) (fmAnswer_up hup hph _)
    · rintro sh hlen d rfl
      have honly := setShares_only s.dev p.val sh
      refine ⟨?_, fun m hm => setShares_ld s.dev p.val sh hm, fun m hm => setShares_ld_above s.dev p.val sh hm, honly.port, honly.others, honly.rest⟩
      have hexec : exec (.setLdAllocations p sh) s = if decide (sh.length = 16) then
        onDevice s (fun d => fmAnswer d p.val (fun d =>
          (setShares d p.val sh, (List.range 16).map (fun m => ((setShares d p.val sh).ld p.val m).share.toNat))))
        else .fault .illFormed := rfl
      rw [hexec, if_pos (decide_eq_true hlen), onDevice_turned]
      exact congrArg (fun d => Host.Outcome.next (s.turned d)) (fmAnswer_up hup hph _)
  · intro s p i hopen
    exact congrArg (fun d => Host.Outcome.next (s.turned d)) (if_pos hopen)
  · intro s b hopen hld
    have hboth : (s.dev.doeOpen b.port.val && s.dev.ldPresent b.port.val b.ld.val) = true := by rw [hopen, hld]; rfl
    exact congrArg (fun d => Host.Outcome.next (s.turned d)) (if_pos hboth)
  · rintro s hway hempty _ _ _ _ rfl rfl rfl rfl
    obtain ⟨h1, o1⟩ := spdmRequest_unsigned hway hempty 0x84 []
    obtain ⟨h2, o2⟩ := spdmRequest_unsigned hway hempty 0xE1 []
    obtain ⟨h3, o3⟩ := spdmRequest_unsigned hway hempty 0xE3 []
    obtain ⟨h4, o4⟩ := spdmRequest_unsigned hway hempty 0x81 []
    exact ⟨rfl, o1, h1, rfl, o2, h2, rfl, o3, h3, rfl, o4, h4⟩
  · rintro s slot hway hempty _ rfl
    obtain ⟨hnone, hout⟩ := spdmRequest_unsigned hway hempty 0x82 [slot.toNat]
    refine ⟨rfl, hnone, ?_⟩
    rw [hout, spdmAnswer_certificate]
    split <;> rfl
  · intro s f slot n hway hempty hslot
    have hexec : exec (.challenge f slot n) s = onDevice s (fun d => spdmRequest d ⟨f, 0x83, [slot.toNat, n.toNat], decide (slot.toNat < 2)⟩) := rfl
    rw [hexec, onDevice_turned, decide_eq_true hslot]
    exact congrArg (fun d => Host.Outcome.next (s.turned d)) (spdmRequest_signed (q := ⟨f, 0x83, [slot.toNat, n.toNat], true⟩) hway hempty rfl)
  · rintro s i slot hway hempty hi _ rfl
    obtain ⟨hnone, hout⟩ := spdmRequest_unsigned hway hempty 0xE0 [i.toNat, slot.toNat, 0]
    refine ⟨rfl, ?_, hnone⟩
    rw [hout, spdmAnswer_measured s.dev slot.toNat hi]
  · rintro s c args hrun hq _ rfl
    have hsigned := spdmSigned_only hrun hq rfl
    exact ⟨rfl, by rw [hsigned]; rfl, spdmSigned_mem s.dev, by rw [hsigned]; exact spdmSend_mctp s.dev c args true⟩

end Sys2Proof.Machine
end

section
/-! Durable changes, mirrored entries and the Position snapshot. -/

open Sys2Proof

namespace Sys2Proof.Machine

-- the mirror of the journal (R437)

/-- The newest of the ring's entries is the last of its list. -/
theorem ringList_newest {t : Tab JEntry} {n : Nat} {e : JEntry} (hn : 0 < n) (he : Tab.find t (n % 4096) = some e) : ∃ l, ringList t n = l ++ [e] := by
  obtain ⟨m, hm⟩ : ∃ m, min n 4096 = m + 1 := ⟨min n 4096 - 1, by omega⟩
  have hlast : n + 1 + m - (m + 1) = n := by omega
  refine ⟨(List.range m).filterMap (fun i => Tab.find t ((n + 1 + i - (m + 1)) % 4096)), ?_⟩
  rw [ringList, hm, List.range_succ, List.filterMap_append]
  refine congrArg _ ?_
  rw [List.filterMap_cons, hlast, he]
  rfl

theorem ringList_length (t : Tab JEntry) (n : Nat) : (ringList t n).length ≤ 4096 := by
  refine (List.length_filterMap_le _ _).trans ?_
  rw [List.length_range]
  exact Nat.min_le_right _ _

theorem ringList_found {t : Tab JEntry} {n : Nat} {e : JEntry} (he : e ∈ ringList t n) : ∃ i, Tab.find t i = some e := by
  obtain ⟨i, _, hi⟩ := List.mem_filterMap.1 he
  exact ⟨_, hi⟩

/-- Mirroring a whole ring mirrors its newest entry. -/
theorem mirrorNext_newest {s : Sec} {e : JEntry} (he : Tab.find s.journal (s.nextSeq % 4096) = some e) (hseq : e.seq = s.nextSeq)
    (hbelow : s.mirrored < s.nextSeq) : (s.mirrorNext 4096).mirrored = s.nextSeq := by
  obtain ⟨l, hl⟩ := ringList_newest (Nat.zero_lt_of_lt hbelow) he
  have hlen := (List.length_filter_le (fun e : JEntry => decide (s.mirrored < e.seq)) _).trans (ringList_length s.journal s.nextSeq)
  have hkept : [e].filter (fun e => decide (s.mirrored < e.seq)) = [e] :=
    List.filter_cons_of_pos (decide_eq_true (hseq ▸ hbelow))
  unfold Sec.mirrorNext
  dsimp only
  rw [List.take_of_length_le hlen, hl, List.filter_append, hkept, List.foldl_append]
  exact hseq

/-- What is mirrored only grows, and not past a bound of the entries held. -/
theorem mirrorNext_within {s : Sec} {n : Nat} (k : Nat) (hm : s.mirrored ≤ n) (hheld : ∀ i e, Tab.find s.journal i = some e → e.seq ≤ n) :
    s.mirrored ≤ (s.mirrorNext k).mirrored ∧ (s.mirrorNext k).mirrored ≤ n := by
  have hfold : ∀ (l : List JEntry) (x : Sec), (∀ e ∈ l, s.mirrored ≤ e.seq ∧ e.seq ≤ n) → s.mirrored ≤ x.mirrored ∧ x.mirrored ≤ n →
      s.mirrored ≤ (l.foldl Sec.mirrorOne x).mirrored ∧ (l.foldl Sec.mirrorOne x).mirrored ≤ n := by
    intro l
    induction l with
    | nil => exact fun _ _ hx => hx
    | cons e l ih => exact fun x hl _ => ih (x.mirrorOne e) (fun y hy => hl y (List.mem_cons_of_mem _ hy)) (hl e List.mem_cons_self)
  refine hfold _ s (fun e he => ?_) ⟨Nat.le_refl _, hm⟩
  obtain ⟨hring, habove⟩ := List.mem_filter.1 (List.mem_of_mem_take he)
  obtain ⟨i, hi⟩ := ringList_found hring
  exact ⟨Nat.le_of_lt (of_decide_eq_true habove), hheld i e hi⟩

-- an entry that goes in the ring (R433)

theorem ringPut_journal (d : Dev) (e : JEntry) : Tab.find (ringPut d e).sec.journal (e.seq % 4096) = some e := by
  unfold ringPut
  dsimp only
  split <;> simp

theorem ringPut_mirrored (d : Dev) (e : JEntry) : (ringPut d e).sec.mirrored = d.sec.mirrored := by
  unfold ringPut
  dsimp only
  split <;> simp

/-- A new entry that is mirrored with all before it leaves nothing to mirror. -/
theorem ringPut_mirrorNext {d : Dev} {e : JEntry} (h : d.sec.mirrored < e.seq) :
    ((ringPut d e).sec.mirrorNext 4096).mirrored = e.seq := by
  have hnext := ringPut_nextSeq d e
  rw [← hnext]
  refine mirrorNext_newest (e := e) ?_ hnext.symm ?_
  · rw [hnext]
    exact ringPut_journal d e
  · rw [hnext, ringPut_mirrored]
    exact h

theorem repeatCommit_mirrored {d : Dev} (h : d.sec.mirrored ≤ d.sec.nextSeq) : (repeatCommit d).sec.mirrored ≤ (repeatCommit d).sec.nextSeq := by
  unfold repeatCommit
  split
  case h_1 o _ =>
    simp only [raise_frame, Dev.setSec_sec, mirrorNext_nextSeq, ringPut_nextSeq]
    exact Nat.le_of_eq (ringPut_mirrorNext (e := { o with seq := d.sec.nextSeq + 1, time := d.stamp, flags := 5 }) (Nat.lt_succ_of_le h))
  case h_2 => exact h

/-- A durable entry is mirrored, with everything up to it. -/
theorem journalDurable_mirrored {d : Dev} (c : Change) (h : d.sec.mirrored ≤ d.sec.nextSeq) :
    (journalDurable d c).sec.mirrored = (journalDurable d c).sec.nextSeq := by
  have hbelow := Nat.lt_succ_of_le (repeatCommit_mirrored h)
  rw [journalDurable, Dev.setSec_sec, mirrorNext_nextSeq, journal, ringPut_nextSeq]
  exact ringPut_mirrorNext hbelow

-- a durable change (R384, R432)

/-- A change whose entry is in flash is journalled and takes effect. -/
theorem durableWritten_done {d : Dev} {x : Durable} (hx : d.sec.durable = some x) (hheld : d.durableHeld x = false) (hrun : d.q0Runs = true)
    (hkey : ∀ k, x ≠ .keySet true k) : durableWritten d true
      = (durableChange d x).2 (journalDurable (d.setSec (fun s => { s with durable := none })) (durableChange d x).1) := by
  unfold durableWritten
  rw [hx]
  dsimp only
  rw [hheld, hrun]
  cases x with
  | keySet installer k =>
    cases installer with
    | true => exact absurd rfl (hkey k)
    | false => rfl
  | _ => rfl

/-- A change whose entry does not reach the flash is refused. -/
theorem durableWritten_fails {d : Dev} {x : Durable} (hx : d.sec.durable = some x) (hheld : d.durableHeld x = false) (hrun : d.q0Runs = true) :
    durableWritten d false = emit (flashFails (d.setSec (fun s => { s with durable := none }))) (.mgmt mgmtRefused [x.code, 0]) := by
  unfold durableWritten
  rw [hx]
  dsimp only
  rw [hheld, hrun]
  rfl

theorem durableWritten_installer {d : Dev} {k : Option (BitVec 512)} (hx : d.sec.durable = some (.keySet true k)) (hrun : d.q0Runs = true) :
    durableWritten d true = dropAuthority ((durableChange d (.keySet true k)).2
      (journalDurable (d.setSec (fun s => { s with durable := none })) (durableChange d (.keySet true k)).1)) := by
  unfold durableWritten
  rw [hx]
  dsimp only
  rw [hrun]
  rfl

/-- The authority ends, its end mirrored, and the installer stays. -/
theorem dropAuthority_keeps {d : Dev} (h : d.sec.mirrored = d.sec.nextSeq) : (dropAuthority d).sec.authority = none
    ∧ (dropAuthority d).sec.mirrored = (dropAuthority d).sec.nextSeq ∧ (dropAuthority d).sec.installer = d.sec.installer
    ∧ (dropAuthority d).sec.kPkgDigest = d.sec.kPkgDigest ∧ (dropAuthority d).sec.durable = d.sec.durable := by
  unfold dropAuthority
  split
  case isTrue =>
    simp only [raise_frame, Dev.setSec_sec, journalDurable_frame]
    exact ⟨trivial, journalDurable_mirrored _ (Nat.le_of_eq h), trivial, trivial, trivial⟩
  case isFalse hnone => exact ⟨Option.not_isSome_iff_eq_none.1 hnone, h, rfl, rfl, rfl⟩

-- the Position snapshot (R412, R414, R415)

theorem nextSeq17_ne_zero (q : BitVec 17) : nextSeq17 q ≠ 0 := by
  unfold nextSeq17
  split
  · decide
  case isFalse h =>
    intro hz
    have hminus : q = -1 := eq_neg_of_add_eq_zero_left hz
    exact h (hminus.trans (by decide))

theorem nextSeq17_succ {q : BitVec 17} (h : q ≠ BitVec.allOnes 17) : nextSeq17 q = q + 1 := if_neg h

theorem Tab.find_append_of_absent {α : Type} {t : Tab α} {n : Nat} (h : ∀ p ∈ t, p.1 ≠ n) (u : Tab α) : Tab.find (t ++ u) n = Tab.find u n := by
  induction t with
  | nil => rfl
  | cons p t ih =>
    have hp := h p List.mem_cons_self
    exact (if_neg (Ne.symm hp)).trans (ih fun q hq => h q (List.mem_cons_of_mem _ hq))

theorem slotTab_first (q : BitVec 17) (ws : List Nat) : Tab.find (slotTab q ws) 0 = some (resyncHeader q false) := rfl

theorem slotTab_last (q : BitVec 17) (ws : List Nat) : Tab.find (slotTab q ws) 1023 = some (resyncHeader q false) := by
  unfold slotTab
  dsimp only
  refine (if_neg (by decide)).trans ?_
  rw [Tab.find_append_of_absent]
  · rfl
  · intro p hp
    obtain ⟨i, hi, hw⟩ := List.mem_filterMap.1 hp
    have hlt := List.mem_range.1 hi
    by_cases hz : BitVec.ofNat 18 (ws.getD i 0) = 0
    · exact absurd ((if_pos hz).symm.trans hw) (Option.some_ne_none p).symm
    · have hkey := Option.some.inj ((if_neg hz).symm.trans hw)
      rw [← hkey]
      exact Nat.ne_of_lt (Nat.succ_lt_succ hlt)

/-- The device once its running snapshot is written. -/
def Dev.snapshotWritten (d : Dev) : Dev :=
  { d with
    resync := { d.resync with slots := slotTab (nextSeq17 d.resync.seq) d.position, seq := nextSeq17 d.resync.seq, busy := false }
    glob := { d.glob with draws := d.glob.draws + 73 } }

theorem snapshotDone_running {d : Dev} (hbusy : d.resync.busy = true) (hrun : d.q0Runs = true) (hph : d.glob.resetPhase = .none) :
    snapshotDone d = if d.resync.pending then
        resyncStart { d.snapshotWritten with resync := { d.snapshotWritten.resync with pending := false } } d.resync.nextWho
      else d.snapshotWritten := by
  unfold snapshotDone
  rw [hbusy, hrun, hph]
  rfl

/-- Settles O59, from the newest entry being the last that a whole ring mirrors, what each durable change leaves, and what the snapshot's
end writes. -/
theorem durableAndMirroredState : Obligations.DurableAndMirroredState := by
  unfold Obligations.DurableAndMirroredState
  refine ⟨?_, ?_, ?_, ?_, ?_, ?_, ?_⟩
  · rintro s f hx hrun hm _ rfl
    have hdone := durableWritten_done hx rfl hrun (fun _ => Durable.noConfusion)
    have hmem : (durableWritten s.dev true).mem = s.dev.mem := by rw [hdone]; simp [durableChange]
    have hsec : (durableWritten s.dev true).sec = { (journalDurable (s.dev.setSec (fun x => { x with durable := none }))
        (durableChange s.dev (.floor f)).1).sec with floorFuse := f } := by
      rw [hdone]
      simp [durableChange, fuseChanged]
    have hmirrored := journalDurable_mirrored (d := s.dev.setSec (fun x => { x with durable := none })) (durableChange s.dev (.floor f)).1 hm
    have hnext := journalDurable_nextSeq (s.dev.setSec (fun x => { x with durable := none })) (durableChange s.dev (.floor f)).1
    rw [hsec]
    refine ⟨rfl, rfl, ?_, ?_, hmirrored, hnext, hmem⟩ <;> simp
  · rintro s k hx hrun hm _ rfl
    have hmirrored := journalDurable_mirrored (d := s.dev.setSec (fun x => { x with durable := none })) (durableChange s.dev (.keySet true (some k))).1 hm
    have hkeep := dropAuthority_keeps (d := (durableChange s.dev (.keySet true (some k))).2 (journalDurable
      (s.dev.setSec (fun x => { x with durable := none })) (durableChange s.dev (.keySet true (some k))).1)) (by simpa [durableChange] using hmirrored)
    rw [← durableWritten_installer hx hrun] at hkeep
    obtain ⟨hauth, hsame, hinst, hpkg, hdur⟩ := hkeep
    exact ⟨rfl, hinst.trans (by simp [durableChange]), hauth, hpkg.trans (by simp [durableChange]), hdur.trans (by simp [durableChange]), hsame⟩
  · rintro s x hx hheld hrun _ rfl
    have hsec : (durableWritten s.dev false).sec = { s.dev.sec with durable := none, mirrorFault := true } := by
      rw [durableWritten_fails hx hheld hrun]
      exact (flashFails_keeps _).1
    rw [hsec]
    exact ⟨rfl, rfl, rfl, rfl, rfl, rfl, rfl, rfl, rfl⟩
  · rintro s n hrun _ rfl
    have hway : mirror s.dev n true = s.dev.setSec (fun x => x.mirrorNext n) := by
      unfold mirror
      rw [hrun]
      rfl
    refine ⟨congrArg (fun d => Host.Outcome.next (s.turned d)) hway, (by simp), mirrorNext_nextSeq _ _, ?_, fun hm hheld => ?_⟩
    · rintro rfl
      rfl
    · rw [Dev.setSec_sec, mirrorNext_nextSeq]
      exact mirrorNext_within n hm hheld
  · intro s n hrun
    have hway : mirror s.dev n false = flashFails s.dev := by
      unfold mirror
      rw [hrun]
      rfl
    refine ⟨congrArg (fun d => Host.Outcome.next (s.turned d)) hway, ?_⟩
    rw [(flashFails_keeps s.dev).1]
  · rintro s hbusy hrun hph hpend _ rfl
    have hdone := snapshotDone_running hbusy hrun hph
    rw [hpend] at hdone
    refine ⟨rfl, ?_⟩
    rw [hdone]
    exact ⟨rfl, nextSeq17_ne_zero _, nextSeq17_succ, rfl, rfl, slotTab_first _ _, slotTab_last _ _⟩
  · rintro s hbusy hrun hph hpend _ rfl
    have hdone := snapshotDone_running hbusy hrun hph
    rw [hpend] at hdone
    refine ⟨rfl, ?_⟩
    rw [hdone]
    exact ⟨rfl, rfl, rfl⟩

end Sys2Proof.Machine
end

section
/-! The I3C target and the JTAG port. -/

open Sys2Proof

namespace Sys2Proof.Machine

-- the I3C target (R508, R511)

theorem i3cOn_powered {d : Dev} (hdom : d.domOn 1 = true) (hhigh : d.glob.rstHigh = true) : d.i3cOn = true := by
  rw [Dev.i3cOn, hdom, hhigh]
  rfl

theorem i3cOn_low {d : Dev} (hlow : d.glob.rstHigh = false) : d.i3cOn = false := by
  rw [Dev.i3cOn, hlow, Bool.and_false]

/-- A target without a dynamic address that ENTDAA or SETDASA can reach. -/
def Dev.i3cFree (d : Dev) : Bool := d.i3cOn && d.mgt.dynAddr.isNone

theorem i3cFree_unassigned {d : Dev} (hon : d.i3cOn = true) (h : d.mgt.dynAddr = none) : d.i3cFree = true := by
  rw [Dev.i3cFree, hon, h]
  rfl

theorem i3cFree_assigned {d : Dev} (h : d.mgt.dynAddr ≠ none) : d.i3cFree = false := by
  rw [Dev.i3cFree, Option.isNone_eq_false_iff.2 (Option.isSome_iff_ne_none.2 h), Bool.and_false]

theorem i3cFree_off {d : Dev} (hoff : d.i3cOn = false) : d.i3cFree = false := by
  rw [Dev.i3cFree, hoff, Bool.false_and]

theorem entdaa_answer (a : BitVec 7) (s : State) :
    exec (.entdaa a) s = .next (s.turned (if s.dev.i3cFree then i3cAssign s.dev a else s.dev)) := rfl

theorem setdasa_answer (x a : BitVec 7) (s : State) :
    exec (.setdasa x a) s = .next (s.turned (if s.dev.i3cFree && x == s.dev.i3cStatic then i3cAssign s.dev a else s.dev)) := rfl

theorem rstdaa_answer (s : State) :
    exec .rstdaa s = .next (s.turned (if s.dev.i3cOn then { s.dev with mgt := { s.dev.mgt with dynAddr := none } } else s.dev)) := rfl

theorem i3cAnswer_on {d : Dev} (h : d.i3cOn = true) (v : Nat) : i3cAnswer d v = emit d (.i3c v) := if_pos h

theorem i3cAnswer_off {d : Dev} (h : d.i3cOn = false) (v : Nat) : i3cAnswer d v = d := if_neg (Bool.eq_false_iff.1 h)

-- the JTAG port (R513)

theorem jtagLoad_supplied {d : Dev} (h : d.glob.supplies = true) (n : Nat) : jtagLoad d n = { d with mgt := { d.mgt with jtag := n } } := if_pos h

theorem idcode_fields (d : Dev) :
    d.idcode = 2 ^ 28 + 2 ^ 12 * (if d.glob.part1024 then 0x1024 else 0x0512) + 2 * Config.jedecCode.toNat + 1 := by
  have hpart : glbRead d 0 % 65536 = if d.glob.part1024 then 0x1024 else 0x0512 := by
    change (if d.glob.part1024 then 0xFF1024 else 0x0F0512) % 65536 = _
    split <;> rfl
  rw [Dev.idcode, hpart]
  unfold fld
  omega

/-- An instruction that takes the pins does so while DEV_RST_N is low. -/
theorem jtagTakes_low {d : Dev} (hs : d.glob.supplies = true) (hlow : d.glob.rstHigh = false) : d.jtagTakes = decide (3 ≤ d.mgt.jtag) := by
  rw [Dev.jtagTakes, hs, hlow, Bool.true_and]
  exact Bool.and_true _

theorem jtagTakes_high {d : Dev} (hhigh : d.glob.rstHigh = true) : d.jtagTakes = false := by
  rw [Dev.jtagTakes, hhigh]
  exact Bool.and_false _

/-- While DEV_RST_N is low EXTEST shifts out the cells. -/
theorem extest_answer {s : State} (hs : s.dev.glob.supplies = true) :
    exec .extest s = .next (s.turned (if s.dev.glob.rstHigh then { s.dev with mgt := { s.dev.mgt with jtag := 3 } }
      else emit { s.dev with mgt := { s.dev.mgt with jtag := 3 } } (.jtag s.dev.mgt.cells.toNat))) := by
  have hexec : exec .extest s = onDevice s (fun d => if (jtagLoad d jtagExtest).jtagTakes then
    emit (jtagLoad d jtagExtest) (.jtag (jtagLoad d jtagExtest).mgt.cells.toNat) else jtagLoad d jtagExtest) := rfl
  rw [hexec, onDevice_turned, jtagLoad_supplied hs]
  refine congrArg (fun d => Host.Outcome.next (s.turned d)) ?_
  cases hr : s.dev.glob.rstHigh with
  | true => exact if_neg (Bool.eq_false_iff.1 (jtagTakes_high (d := { s.dev with mgt := { s.dev.mgt with jtag := 3 } }) hr))
  | false => exact if_pos (jtagTakes_low (d := { s.dev with mgt := { s.dev.mgt with jtag := 3 } }) hs hr)

theorem samplePreload_supplied {d : Dev} (hs : d.glob.supplies = true) (c : BitVec 64) : (samplePreload d c).mgt = { d.mgt with jtag := 2, cells := c }
    ∧ (samplePreload d c).out = d.out ++ [.jtag (Config.boundary d.pinLevels d.glob.draws).toNat] := by
  unfold samplePreload
  rw [if_pos hs, jtagLoad_supplied hs]
  exact ⟨rfl, rfl⟩

/-- A pin that no instruction takes follows the device. -/
theorem pullsLow_untaken {d : Dev} (h : d.jtagTakes = false) (hs : d.glob.supplies = true) :
    d.pullsLow 0 = (d.glob.faultN && d.glob.rstHigh) ∧ d.pullsLow 1 = (d.glob.alertN && d.glob.rstHigh) ∧ d.pullsLow 2 = d.glob.thermN := by
  unfold Dev.pullsLow
  rw [h, hs]
  exact ⟨rfl, rfl, rfl⟩

/-- A pin that an instruction takes follows its cell, and HIGHZ drives none. -/
theorem pullsLow_taken {d : Dev} (h : d.jtagTakes = true) (k : Fin 3) :
    d.pullsLow k = true ↔ d.mgt.jtag ≠ 5 ∧ d.mgt.cells.getLsbD (Config.cellOf k.val).val = false := by
  unfold Dev.pullsLow
  rw [if_pos h, Bool.and_eq_true, bne_iff_ne, Bool.not_eq_true']
  rfl

/-- Settles O60, from when the target and the port take a command, and when an instruction takes the pins. -/
theorem testAndManagementPorts : Obligations.TestAndManagementPorts := by
  unfold Obligations.TestAndManagementPorts
  refine ⟨?_, ?_, ?_, ?_⟩
  · intro s hdom hhigh
    have hon := i3cOn_powered hdom hhigh
    have hread : ∀ v, Host.Outcome.next (s.turned (i3cAnswer s.dev v)) = (.next (s.turned (emit s.dev (.i3c v))) : Answer) :=
      fun v => congrArg (fun d => Host.Outcome.next (s.turned d)) (i3cAnswer_on hon v)
    refine ⟨?_, ?_, ?_, hread _, hread _, hread _, hread _, hread _, hread _⟩
    · intro a hnone
      have hfree := i3cFree_unassigned hon hnone
      refine ⟨?_, ?_, fun x hx => ?_⟩
      · rw [entdaa_answer, if_pos hfree]
        rfl
      · rw [setdasa_answer, hfree, beq_self_eq_true]
        rfl
      · rw [setdasa_answer, beq_eq_false_iff_ne.2 hx, Bool.and_false]
        rfl
    · intro a hsome
      have hfree := i3cFree_assigned hsome
      refine ⟨?_, fun x => ?_⟩
      · rw [entdaa_answer, hfree]
        rfl
      · rw [setdasa_answer, hfree]
        rfl
    · rw [rstdaa_answer, if_pos hon]
  · intro s a hlow
    have hoff := i3cOn_low hlow
    have hread : ∀ v, Host.Outcome.next (s.turned (i3cAnswer s.dev v)) = (.next (s.turned s.dev) : Answer) :=
      fun v => congrArg (fun d => Host.Outcome.next (s.turned d)) (i3cAnswer_off hoff v)
    refine ⟨?_, ?_, hread _, hread _⟩
    · rw [entdaa_answer, i3cFree_off hoff]
      rfl
    · rw [rstdaa_answer, hoff]
      rfl
  · intro s hs loaded
    have hload : ∀ n, Host.Outcome.next (s.turned (jtagLoad s.dev n)) = (.next (s.turned (loaded n)) : Answer) :=
      fun n => congrArg (fun d => Host.Outcome.next (s.turned d)) (jtagLoad_supplied hs n)
    refine ⟨hload 0, ?_, ?_, ?_, ?_, hload 4, hload 5⟩
    · have hexec : exec .idcode s = onDevice s (fun d => if d.glob.supplies then emit (jtagLoad d jtagIdcode) (.jtag d.idcode) else d) := rfl
      rw [hexec, onDevice_turned, if_pos hs, jtagLoad_supplied hs, idcode_fields]
      rfl
    · rintro c _ rfl
      obtain ⟨hmgt, hout⟩ := samplePreload_supplied hs c
      exact ⟨rfl, hmgt, by simp, hout⟩
    · intro hlow
      rw [extest_answer hs, hlow]
      rfl
    · intro hhigh
      rw [extest_answer hs, hhigh]
      rfl
  · intro d k hs
    refine ⟨?_, ?_, ?_⟩
    · intro hlow htake
      exact pullsLow_taken ((jtagTakes_low hs hlow).trans (decide_eq_true htake)) k
    · intro hhigh
      obtain ⟨h0, h1, h2⟩ := pullsLow_untaken (jtagTakes_high hhigh) hs
      rw [hhigh, Bool.and_true] at h0 h1
      exact ⟨h0, h1, h2⟩
    · intro hlow htake
      obtain ⟨h0, h1, h2⟩ := pullsLow_untaken ((jtagTakes_low hs hlow).trans (decide_eq_false (Nat.not_le.2 htake))) hs
      rw [hlow, Bool.and_false] at h0 h1
      exact ⟨h0, h1, h2⟩

end Sys2Proof.Machine
end
